-- ==== Sys2Proof/Word.lean ====
section
/-! DEFINITION. The word types of the SV96 (sizes of R270, R271, R451) and the number ranges of its blocks (R11). -/

namespace Sys2Proof

/-- A byte of a container, a FIFO or a memory. -/
abbrev Byte := BitVec 8
/-- A 32-bit word of MSPI and of the register window (R451, R479). -/
abbrev W32 := BitVec 32
/-- A 64-bit word of Kernel operand memory (R306). -/
abbrev W64 := BitVec 64
/-- A Fekiroth-36 full: data register or instruction word (R270, R272). -/
abbrev W36 := BitVec 36
/-- A Fekiroth-36 address (R271, R274). -/
abbrev W24 := BitVec 24
/-- A Fekiroth-36 long, held by an accumulator (R270, R274). -/
abbrev W72 := BitVec 72
/-- The 128-bit rule-table and trie entries (R176, R185). -/
abbrev W128 := BitVec 128

/-- Ports P0 to P95 (R11). -/
abbrev PortId := Fin 96
/-- Sheaves S0 to S11 and their sequencers (R11). -/
abbrev SheafId := Fin 12
/-- Stands T0 to T5 (R11). -/
abbrev StandId := Fin 6
/-- Threshing lanes L0 to L23 (R11). -/
abbrev LaneId := Fin 24
/-- Kernel engines K0 to K3 (R11). -/
abbrev EngineId := Fin 4
/-- Link lanes LK0 and LK1 (R11). -/
abbrev LinkId := Fin 2
/-- Mailboxes MB0 to MB7 (R11). -/
abbrev MailboxId := Fin 8
/-- Key slots KS0 to KS63 (R11). -/
abbrev KeySlotId := Fin 64

end Sys2Proof
end

