-- ==== Sys2Proof/Syntax.lean ====
section
/-! DEFINITION. The commands of the SV96: one constructor of Instr per row of spec/opcode_table.json, with the data
each command brings from outside. -/

namespace Sys2Proof

/-- A bundle slot of the home flash or a slot of a carrier flash (R52, R68). -/
inductive Slot | a | b
deriving DecidableEq, Repr

/-- The supplies with a power-good detector (R40). -/
inductive Supply | core | sram | aon | io (s : SheafId) | ioH | sd | sda | vbat
deriving DecidableEq, Repr

/-- The critical registers with an inverted shadow (R383). -/
inductive CriticalReg
  | hold (p : PortId) | gate (k : StandId) | firebreak (k : StandId) | token (p : PortId) | gen (p : PortId)
  | lcLatched | census (q : BitVec 8) | keyAttr (n : KeySlotId) | ownerRoot | leadRole
deriving DecidableEq, Repr

/-- What reaches a port's decision path while one of its frames runs: a decision word of a DCS (R294), a DIRECT rule
lookup of `index` whose second operand is `dt` (R293), or a word that fails its Gnoby check at the crossing (R382). -/
inductive Arrival | dcs (w : W36) | lookup (index : BitVec 17) (dt : W36) | failed
deriving DecidableEq, Repr

/-- Why a serve word is not in the serve buffer with a good check (R257, R384): uncorrectable in the Granary, the Gnoby
check of its beat, the SECDED of the buffer, a beat made late by another port of the sheaf. -/
inductive WordFault | granary | beat | buffer | late (q : PortId)
deriving DecidableEq, Repr

/-- The integrity checks of a lane job (R76, R384, R406): good; Gnoby or SECDED failure at the lane; Gnoby failure of the
port's beats in the sheaf DMA path; SECDED failure of the port's staging or glean buffer. -/
inductive HopCheck | ok | lane | laneEcc | beat | buffer
deriving DecidableEq, Repr

/-- The channels of R406, in the order of their codes 0x01 to 0x08. -/
inductive ChannelKind | port | flash | lane | engine | link | sequencer | stand | home
deriving DecidableEq, Repr

/-- What happens elsewhere in the device while a frame runs (R37, R142, R212, R253): an alarm of a source with a rank
register, another port's alarm at the rank that its policy names (0x0201 to 0x0205), the loss of a carrier's power, the end of a
channel's probe, a glean slot of the frame's port. -/
inductive MidEvent
  | alarm (code : BitVec 16) (tkind : Fin 4) (target : Byte)
  | filter (q : PortId) (rank : Fin 7)
  | portAlarm (code : BitVec 16) (q : PortId) (rank : Fin 7)
  | pgFall (q : PortId)
  | probe (k : ChannelKind) (i : Nat) (pass : Bool)
  | glean (check : HopCheck)
  | crossing
deriving DecidableEq, Repr

/-- A host frame as the pins and the sequencer present it (R9, R133): the clock level at the fall of Pn_HCS_N, the
host lanes at e0, e1, ..., the bytes the flash launches in the data phase on FIO[1], FIO[1:0] or FIO[3:0], the decisions
with the edge at which they reach the edge machine, the serve words, by host address, that are not ready at their launch
point, what else happens, each event after its edge, and the host lanes on the edges that follow a stall timeout, a short
phase or an abort until Pn_HCS_N rises. -/
structure FrameIn where
  clkHigh  : Bool
  lanes    : List (BitVec 4)
  flash    : List Byte
  arrivals : List (Nat × Arrival)
  unready  : List (BitVec 28 × WordFault) := []
  events   : List (Nat × MidEvent) := []
  tail     : List (BitVec 4) := []
deriving DecidableEq, Repr

/-- The units with a self-test slot (R230). -/
inductive TestUnit
  | ruleTable | granary | gleanLane (l : Fin 4) | serviceLane | thread (k : SheafId) (t : Fin 8) | wakeLane (l : LaneId)
deriving DecidableEq, Repr

/-- The ECC result of a scrub read (R247). -/
inductive ScrubResult | ok | corrected | uncorrectable
deriving DecidableEq, Repr

/-- The cores and sequencer threads (R30). -/
inductive CoreId | seed | canopyA | canopyB | link | watch | sq (k : SheafId) (t : Fin 8)
deriving DecidableEq, Repr

/-- The agents that issue functions and device-register accesses (R304, R333, R352). -/
inductive Agent | seed | canopyA | canopyB | link | verdict
deriving DecidableEq, Repr

/-- How a function of the key unit ends (R350): by itself, or cut short by a ZEROIZE or SEAL response, by a warm restart, by a step
burn that blocks the root it derives from. -/
inductive IssueEnd | done | cleared | restart | burn
deriving DecidableEq, Repr

/-- A training attempt on a link lane and the port types that the peer advertises in it, bit RATE − 1 each (R426, R427). -/
structure TrainEnd where
  lane      : LinkId
  peerRates : BitVec 6
deriving DecidableEq, Repr

/-- Why a lane drops a received frame before the trust protocol sees it (R428, R430, R433): MACsec validation, another
EtherType, an IEEE 802.1Q tag, PAUSE or priority flow control, a length in bytes. -/
inductive LinkDrop | validation | etherType (e : BitVec 16) | tagged | pause | length (bytes : Nat)
deriving DecidableEq, Repr

/-- A function of the key unit as it is issued: by whom, and how it ends (R333, R350). -/
structure KeyIssue where
  agent : Agent
  ended : IssueEnd := .done
deriving DecidableEq, Repr

/-- The glitch monitors of R379. -/
inductive GlitchSupply | core | sram | aon
deriving DecidableEq, Repr

/-- The filtered supply monitors of R379. -/
inductive BankSupply | io (s : SheafId) | ioH | sd | sda
deriving DecidableEq, Repr

/-- The die-temperature thresholds of R372. -/
inductive TempAlarm | above140 | below45 | atLeast130
deriving DecidableEq, Repr

/-- What a re-sense finds at a bit (R370); `copies` are the copies that fail at raised reference. -/
inductive Resensed | differs | disagree | weak (copies : BitVec 2) | half (copies : BitVec 2)
deriving DecidableEq, Repr

/-- The trust-protocol header of R433. -/
structure TrustHeader where
  version : Byte
  type    : Byte
  flags   : BitVec 16
  sent    : BitVec 16
  limit   : BitVec 16
  length  : BitVec 16
  rsvd    : BitVec 16
  xfer    : W32
  index   : W32
  rsvd2   : W32
deriving DecidableEq, Repr

/-- A fault of a stand controller: an internal Gnoby failure, a shadow that disagrees on the gate or on the firebreak state, a census
that does not add up (R36, R383, R399). -/
inductive StandCause | gnoby | gate | firebreak | census
deriving DecidableEq, Repr

/-- What meets the release that a stand controller makes in one cycle: nothing, a hold response that reaches its port (R25),
or a fault of the controller (R36, R38). -/
inductive Meets | nothing | hold | fault (c : StandCause)
deriving DecidableEq, Repr

/-- The device registers the rules name that a core writes: engine status W1C (R311), fuse status W1C (R366), the
fuse IMAGE words (R363), KEYIN (R333), the OPEN request of a stand (R98), the Canopy watchdog (R61), the handover
register claim (R418), the message line between the Canopy cores and the link core (R298, line 12) and the response FIFO
of a mailbox, which takes one word (R28, R458). -/
inductive DevReg
  | engineStatus (e : EngineId) | fuseStatus | image (i : Fin 16) | keyin (i : Fin 16) | standOpen (k : StandId)
  | watchdog | roleClaim | message | response (q : MailboxId)
deriving DecidableEq, Repr

/-- A host-to-device MSPI frame: the 24 address bits, the words clocked in after them (the CRC word included when
CRC_ON is 1) and whether MSPI_CS_N rose on a word boundary (R451, R455); of an abort frame `again` says that it comes while the last
abort of its target still runs (R477). -/
structure MspiIn where
  addr    : W24
  words   : List W32
  aligned : Bool
  again   : Bool := false
deriving DecidableEq, Repr

/-- A frame that stalls: its command byte, its address when that was complete, the words of the device clocked after it (R456). -/
structure StallIn where
  cmd     : Byte
  addr    : Option W24 := none
  clocked : Nat := 0
deriving DecidableEq, Repr
/-- What the abort unit meets: the frame in progress on a port it aborts, and whether the last abort of the target still runs (R475, R477). -/
structure AbortIn where
  frame : Option FrameIn := none
  again : Bool := false
deriving DecidableEq, Repr

/-- The commands of the SV96, one per row of the opcode table. -/
inductive Instr
  /-- SUPPLY_GOOD: R40. Supply `s` has stayed above its rising threshold for the debounce time. -/
  | supplyGood (s : Supply)
  /-- SUPPLY_NOT_GOOD: R40. Supply `s` has stayed below its falling threshold for 5 ns or longer. -/
  | supplyNotGood (s : Supply)
  /-- FUSE_SENSE_DONE: R45. Fuse sense completes. -/
  | fuseSenseDone
  /-- SEED_CORE_RELEASE: R56, R415. The seed core starts; bit e of `probes` says that the probe of engine Ke passed. -/
  | seedCoreRelease (probes : BitVec 4)
  /-- REFCLK_LOSS: R531. The reference clock is lost. -/
  | refclkLoss
  /-- REFCLK_HOLDOVER_EXPIRY: R531. 10 ms have passed since the loss and the reference has not returned. -/
  | refclkHoldoverExpiry
  /-- PLL_LOCK_LOSS: R531. The flash-side PLL (true) or the core PLL (false) loses lock. -/
  | pllLockLoss (flashSide : Bool)
  /-- REFCLK_RETURN: R531. The reference clock is present again. -/
  | refclkReturn
  /-- BUNDLE_HEADERS_READ: R52. Both bundle headers have been read. -/
  | bundleHeadersRead
  /-- BUNDLE_CANDIDATE_READ: R52. The candidate bundle has been read, hashed and loaded. -/
  | bundleCandidateRead
  /-- BUNDLE_SIGNATURE_VERIFIED: R54. The bundle signature verification ends. -/
  | bundleSignatureVerified
  /-- CANOPY_RELEASE: R57. Canopy A and B are released. -/
  | canopyRelease
  /-- CANOPY_LEAVE_RETURN: R57. 1 ms after its grant a core release leave returns. -/
  | canopyLeaveReturn
  /-- LINK_CORE_RELEASE: R59. The link core is released. -/
  | linkCoreRelease
  /-- SCHEDULE_CONTAINER_LOAD: R58. The schedule container of sheaf `k` has been streamed into the sequencer memory. -/
  | scheduleContainerLoad (k : SheafId)
  /-- CANOPY_WATCHDOG_EXPIRY: R61. Neither Canopy core has serviced the watchdog for 500 ms. -/
  | canopyWatchdogExpiry
  /-- WARM_RESTART_ENTRY_DONE: R63, R38. The entry stage ends; bit k of `comparators` says that the comparator test of stand Tk passed. -/
  | warmRestartEntryDone (comparators : BitVec 6)
  /-- RUNTIME_LANE_SCHEDULE_RELOAD: R63. The runtime lane schedule is reloaded after a warm restart. -/
  | runtimeLaneScheduleReload
  /-- WAKE_AUTO_START: R67. Shentiha starts the first wake after a cold start. -/
  | wakeAutoStart
  /-- WAKE_ENTRY_END: R72, R528. The entry stage ends: per port the identification bytes read and, for each set-up frame, the bytes of each of its tries, and the lanes that failed the entry-stage test (R231). -/
  | wakeEntryEnd (ids : List (PortId × List Byte)) (replies : List (PortId × List (List (List Byte)))) (badLanes : List LaneId)
  /-- WAKE_ROUND: R71, R406. One wake round: the bytes each port's flash returned in its burst, and the ports whose captured data failed its Gnoby check. -/
  | wakeRound (bursts : List (PortId × List Byte)) (failed : List PortId)
  /-- WAKE_LANE_JOB: R32, R73, R76, R382. The digest job (`tags` false) or the tag job of a chunk ends on `lane`, with its integrity checks. -/
  | wakeLaneJob (p : PortId) (chunk : Fin 16) (tags : Bool) (lane : LaneId) (check : HopCheck)
  /-- WAKE_FRAME_BOUNDARY: R232. A 5-round frame boundary. -/
  | wakeFrameBoundary
  /-- SHELF_MANIFEST_DECIDE: R84. The verdict unit decides the shelf manifest. -/
  | shelfManifestDecide
  /-- CHAIN_VERIFY_START: R83. The chain-mode verification of the manifest of `p` starts. -/
  | chainVerifyStart (p : PortId)
  /-- HASH_SIGNATURE_VERIFY: R322. A lane completes the hash-based verification of the manifest of `p`. -/
  | hashSignatureVerify (p : PortId)
  /-- DRAIN_END: R72. The drain stage ends. -/
  | drainEnd
  /-- VERDICT_STAGE: R86. The verdict unit decides every participating port. -/
  | verdictStage
  /-- HANDBACK: R94, R529. The handback sequence of `p` completes; `replies` holds for each of its frames the bytes of each of its tries. -/
  | handback (p : PortId) (replies : List (List (List Byte)))
  /-- STAND_STAGGER_EXPIRY: R97. The stagger time has passed. -/
  | standStaggerExpiry
  /-- PORT_RELEASE: R97. One cycle of stand Tk, and what meets its release in that cycle (R25, R38). -/
  | portRelease (k : StandId) (meets : Meets)
  /-- SETTLE_EXPIRY: R97. The settle timer of `p` ends. -/
  | settleExpiry (p : PortId)
  /-- PG_FALL: R503. Pn_PG has been low for 2 us. -/
  | pgFall (p : PortId)
  /-- PG_RISE: R503. Pn_PG has been high for 1 ms. -/
  | pgRise (p : PortId)
  /-- SHADOW_MISMATCH: R383. A critical register disagrees with its inverted shadow. -/
  | shadowMismatch (r : CriticalReg)
  /-- HOST_FRAME: R142. A host frame from the fall to the rise of Pn_HCS_N. -/
  | hostFrame (p : PortId) (f : FrameIn)
  /-- BUSY_TIMER_EXPIRY: R196. The BUSY timer of the status model ends. -/
  | busyTimerExpiry (p : PortId)
  /-- STALL_TIMEOUT: R160. The frame `f` has had no host edge for the stall setting. -/
  | stallTimeout (p : PortId) (f : FrameIn)
  /-- PROFILE_BREACH: R161. A short host clock phase follows the last edge of `f`. -/
  | profileBreach (p : PortId) (f : FrameIn)
  /-- CONT_EXIT_FRAME: R157. A held port with CONT set runs the exit frame. -/
  | contExitFrame (p : PortId)
  /-- RULE_LOOKUP_RESULT: R220. The rule-table unit writes the result of the oldest lookup of `p`. -/
  | ruleLookupResult (p : PortId)
  /-- REBUILD_START: R205. SECOND starts the rebuild. -/
  | rebuildStart
  /-- REBUILD_CONTAINER: R205. The next sheaf container is streamed. -/
  | rebuildContainer
  /-- GENERATION_FLIP: R206. The flip of `p` takes effect. -/
  | generationFlip (p : PortId)
  /-- DEFERRED_PORT_UPDATE: R207. A DEFERRED port is held and updated. -/
  | deferredPortUpdate (p : PortId)
  /-- GLEAN_HALF_LEAF: R228, R384. The port's glean slot processes one half-leaf, with its integrity checks. -/
  | gleanHalfLeaf (p : PortId) (check : HopCheck)
  /-- SERVICE_LANE_JOB: R229. The service lane completes the oldest requested job. -/
  | serviceLaneJob
  /-- SELF_TEST_SLOT: R230. Unit `u` runs its self-test slot. -/
  | selfTestSlot (u : TestUnit) (ok : Bool)
  /-- LANE_TEST_REQUEST: R231. Shentiha requests a lane test. -/
  | laneTestRequest (l : LaneId) (ok : Bool)
  /-- DEFERRED_LANE_TEST: R231. A deferred lane test runs. -/
  | deferredLaneTest (l : LaneId) (ok : Bool)
  /-- SCRUB_READ: R247. Scrub reads the next Granary word with the ECC result `r`. -/
  | scrubRead (r : ScrubResult)
  /-- RELOCATION_START: R248. The waiting relocation starts. -/
  | relocationStart
  /-- RELOCATION_WAIT_EXPIRY: R248. The owner port has not deselected within 1 s. -/
  | relocationWaitExpiry
  /-- RELOCATION_DONE: R248. The running relocation completes. -/
  | relocationDone
  /-- SERVE_SLOT_READ: R256. A serve slot of `p` reads the word that holds host address `addr`. -/
  | serveSlotRead (p : PortId) (addr : BitVec 28)
  /-- XIP_MISS: R265. Canopy A (false) or B (true) misses in the prefetch buffer at `addr`. -/
  | xipMiss (b : Bool) (addr : W24)
  /-- XIP_FETCH_DONE: R266, R406. The fetched line is checked against its tag; `ok` says that the home-port data passed its Gnoby checks. -/
  | xipFetchDone (ok : Bool)
  /-- TAG_PASS: R264. The tag pass over the execute-in-place region completes. -/
  | tagPass
  /-- NOP: R280, opcode 0x00. -/
  | nop (c : CoreId) (cc : BitVec 4)
  /-- ALU: R281. -/
  | alu (c : CoreId) (cc : BitVec 4) (rd rs rt : BitVec 4) (fn : BitVec 13)
  /-- ADDI: R280. Dd := Ds + sext(imm). -/
  | addi (c : CoreId) (cc : BitVec 4) (rd rs : BitVec 4) (imm : BitVec 17)
  /-- ANDI: R280. Dd := Ds AND zext(imm). -/
  | andi (c : CoreId) (cc : BitVec 4) (rd rs : BitVec 4) (imm : BitVec 17)
  /-- ORI: R280. Dd := Ds OR zext(imm). -/
  | ori (c : CoreId) (cc : BitVec 4) (rd rs : BitVec 4) (imm : BitVec 17)
  /-- XORI: R280. Dd := Ds XOR zext(imm). -/
  | xori (c : CoreId) (cc : BitVec 4) (rd rs : BitVec 4) (imm : BitVec 17)
  /-- SHFI: R280. Dd := Ds shifted by imm[5:0]. -/
  | shfi (c : CoreId) (cc : BitVec 4) (rd rs : BitVec 4) (imm : BitVec 17)
  /-- MOVL: R280. -/
  | movl (c : CoreId) (cc : BitVec 4) (rd : BitVec 4) (imm : BitVec 21)
  /-- MOVH: R280. -/
  | movh (c : CoreId) (cc : BitVec 4) (rd : BitVec 4) (imm : BitVec 21)
  /-- CMP: R278. -/
  | cmp (c : CoreId) (cc : BitVec 4) (rs rt : BitVec 4)
  /-- CMPI: R278. -/
  | cmpi (c : CoreId) (cc : BitVec 4) (rs : BitVec 4) (imm : BitVec 17)
  /-- TST: R278. -/
  | tst (c : CoreId) (cc : BitVec 4) (rs rt : BitVec 4)
  /-- MUL: R280. -/
  | mul (c : CoreId) (cc : BitVec 4) (rd rs rt : BitVec 4) (fn : BitVec 13)
  /-- MACY: R280. -/
  | macy (c : CoreId) (cc : BitVec 4) (rd rs rt : BitVec 4) (fn : BitVec 13)
  /-- MVY: R280. -/
  | mvy (c : CoreId) (cc : BitVec 4) (rd rs rt : BitVec 4) (fn : BitVec 13)
  /-- EXTI: R280. -/
  | exti (c : CoreId) (cc : BitVec 4) (rd rs : BitVec 4) (imm : BitVec 17)
  /-- ADDA: R280. -/
  | adda (c : CoreId) (cc : BitVec 4) (rd rs : BitVec 4) (imm : BitVec 17)
  /-- MVA: R280. -/
  | mva (c : CoreId) (cc : BitVec 4) (rd rs rt : BitVec 4) (fn : BitVec 13)
  /-- MOVA: R280. -/
  | mova (c : CoreId) (cc : BitVec 4) (ad : BitVec 3) (imm : BitVec 22)
  /-- LDB: R280, layout M. -/
  | ldb (c : CoreId) (cc : BitVec 4) (rg : BitVec 4) (ab : BitVec 3) (off : BitVec 18)
  /-- LDH: R280, layout M. -/
  | ldh (c : CoreId) (cc : BitVec 4) (rg : BitVec 4) (ab : BitVec 3) (off : BitVec 18)
  /-- LDW: R280, layout M. -/
  | ldw (c : CoreId) (cc : BitVec 4) (rg : BitVec 4) (ab : BitVec 3) (off : BitVec 18)
  /-- LDF: R280, layout M. -/
  | ldf (c : CoreId) (cc : BitVec 4) (rg : BitVec 4) (ab : BitVec 3) (off : BitVec 18)
  /-- LDY: R280, layout M. -/
  | ldy (c : CoreId) (cc : BitVec 4) (rg : BitVec 4) (ab : BitVec 3) (off : BitVec 18)
  /-- LDA: R280, layout M. -/
  | lda (c : CoreId) (cc : BitVec 4) (rg : BitVec 4) (ab : BitVec 3) (off : BitVec 18)
  /-- STB: R280, layout M. -/
  | stb (c : CoreId) (cc : BitVec 4) (rg : BitVec 4) (ab : BitVec 3) (off : BitVec 18)
  /-- STH: R280, layout M. -/
  | sth (c : CoreId) (cc : BitVec 4) (rg : BitVec 4) (ab : BitVec 3) (off : BitVec 18)
  /-- STW: R280, layout M. -/
  | stw (c : CoreId) (cc : BitVec 4) (rg : BitVec 4) (ab : BitVec 3) (off : BitVec 18)
  /-- STF: R280, layout M. -/
  | stf (c : CoreId) (cc : BitVec 4) (rg : BitVec 4) (ab : BitVec 3) (off : BitVec 18)
  /-- STY: R280, layout M. -/
  | sty (c : CoreId) (cc : BitVec 4) (rg : BitVec 4) (ab : BitVec 3) (off : BitVec 18)
  /-- STA: R280, layout M. -/
  | sta (c : CoreId) (cc : BitVec 4) (rg : BitVec 4) (ab : BitVec 3) (off : BitVec 18)
  /-- BR: R285. -/
  | br (c : CoreId) (cc : BitVec 4) (disp : BitVec 21)
  /-- BZ: R285. -/
  | bz (c : CoreId) (cc : BitVec 4) (rs : BitVec 4) (disp : BitVec 21)
  /-- BNZ: R285. -/
  | bnz (c : CoreId) (cc : BitVec 4) (rs : BitVec 4) (disp : BitVec 21)
  /-- BAL: R285. -/
  | bal (c : CoreId) (cc : BitVec 4) (disp : BitVec 21)
  /-- JR: R280, R285. -/
  | jr (c : CoreId) (cc : BitVec 4) (rd rs rt : BitVec 4) (fn : BitVec 13)
  /-- WEV: R292. -/
  | wev (c : CoreId) (cc : BitVec 4)
  /-- WEV_RESUME: R292. A waiting thread resumes after `slots` empty issue slots. -/
  | wevResume (k : SheafId) (t : Fin 8) (slots : Nat)
  /-- LKP: R293. -/
  | lkp (c : CoreId) (cc : BitVec 4) (rd rs rt : BitVec 4) (fn : BitVec 13)
  /-- DCS: R294. -/
  | dcs (c : CoreId) (cc : BitVec 4) (rs : BitVec 4)
  /-- ACW: R295. -/
  | acw (c : CoreId) (cc : BitVec 4) (rs rt : BitVec 4)
  /-- MFS: R286. -/
  | mfs (c : CoreId) (cc : BitVec 4) (rd : BitVec 4) (arg : BitVec 8)
  /-- MTS: R286. -/
  | mts (c : CoreId) (cc : BitVec 4) (rs : BitVec 4) (arg : BitVec 8)
  /-- FENCE: R286. -/
  | fence (c : CoreId) (cc : BitVec 4)
  /-- TRAP: R286. -/
  | trap (c : CoreId) (cc : BitVec 4) (arg : BitVec 8)
  /-- ERET: R299. -/
  | eret (c : CoreId) (cc : BitVec 4)
  /-- HALT: R286. -/
  | halt (c : CoreId) (cc : BitVec 4)
  /-- WFI: R286. -/
  | wfi (c : CoreId) (cc : BitVec 4)
  /-- WFI_WAKE: R286. An enabled line or a backup tick ends a WFI. -/
  | wfiWake (c : CoreId)
  /-- SNOP: R283, R284. The op stands in slot 1 when `slot1`, else in slot 0; `other` holds the 16 bits of the word's other slot. -/
  | snop (c : CoreId) (cc : BitVec 3) (slot1 : Bool) (d s : BitVec 4) (k : BitVec 3) (other : BitVec 16)
  /-- ADD: R283, R284. The op stands in slot 1 when `slot1`, else in slot 0; `other` holds the 16 bits of the word's other slot. -/
  | sAdd (c : CoreId) (cc : BitVec 3) (slot1 : Bool) (d s : BitVec 4) (k : BitVec 3) (other : BitVec 16)
  /-- SUB: R283, R284. The op stands in slot 1 when `slot1`, else in slot 0; `other` holds the 16 bits of the word's other slot. -/
  | sSub (c : CoreId) (cc : BitVec 3) (slot1 : Bool) (d s : BitVec 4) (k : BitVec 3) (other : BitVec 16)
  /-- AND: R283, R284. The op stands in slot 1 when `slot1`, else in slot 0; `other` holds the 16 bits of the word's other slot. -/
  | sAnd (c : CoreId) (cc : BitVec 3) (slot1 : Bool) (d s : BitVec 4) (k : BitVec 3) (other : BitVec 16)
  /-- OR: R283, R284. The op stands in slot 1 when `slot1`, else in slot 0; `other` holds the 16 bits of the word's other slot. -/
  | sOr (c : CoreId) (cc : BitVec 3) (slot1 : Bool) (d s : BitVec 4) (k : BitVec 3) (other : BitVec 16)
  /-- XOR: R283, R284. The op stands in slot 1 when `slot1`, else in slot 0; `other` holds the 16 bits of the word's other slot. -/
  | sXor (c : CoreId) (cc : BitVec 3) (slot1 : Bool) (d s : BitVec 4) (k : BitVec 3) (other : BitVec 16)
  /-- MOV: R283, R284. The op stands in slot 1 when `slot1`, else in slot 0; `other` holds the 16 bits of the word's other slot. -/
  | sMov (c : CoreId) (cc : BitVec 3) (slot1 : Bool) (d s : BitVec 4) (k : BitVec 3) (other : BitVec 16)
  /-- SHORT_ADDI: R283, R284. The op stands in slot 1 when `slot1`, else in slot 0; `other` holds the 16 bits of the word's other slot. -/
  | sAddi (c : CoreId) (cc : BitVec 3) (slot1 : Bool) (d : BitVec 4) (imm : BitVec 7) (other : BitVec 16)
  /-- MOVI: R283, R284. The op stands in slot 1 when `slot1`, else in slot 0; `other` holds the 16 bits of the word's other slot. -/
  | sMovi (c : CoreId) (cc : BitVec 3) (slot1 : Bool) (d : BitVec 4) (imm : BitVec 7) (other : BitVec 16)
  /-- SHI: R283, R284. The op stands in slot 1 when `slot1`, else in slot 0; `other` holds the 16 bits of the word's other slot. -/
  | sShi (c : CoreId) (cc : BitVec 3) (slot1 : Bool) (d : BitVec 4) (imm : BitVec 7) (other : BitVec 16)
  /-- SARI: R283, R284. The op stands in slot 1 when `slot1`, else in slot 0; `other` holds the 16 bits of the word's other slot. -/
  | sSari (c : CoreId) (cc : BitVec 3) (slot1 : Bool) (d : BitVec 4) (imm : BitVec 7) (other : BitVec 16)
  /-- XF: R283, R284. The op stands in slot 1 when `slot1`, else in slot 0; `other` holds the 16 bits of the word's other slot. -/
  | sXf (c : CoreId) (cc : BitVec 3) (slot1 : Bool) (d s : BitVec 4) (k : BitVec 3) (other : BitVec 16)
  /-- SEQ: R283, R284. The op stands in slot 1 when `slot1`, else in slot 0; `other` holds the 16 bits of the word's other slot. -/
  | sSeq (c : CoreId) (cc : BitVec 3) (slot1 : Bool) (d s : BitVec 4) (k : BitVec 3) (other : BitVec 16)
  /-- SLTU: R283, R284. The op stands in slot 1 when `slot1`, else in slot 0; `other` holds the 16 bits of the word's other slot. -/
  | sSltu (c : CoreId) (cc : BitVec 3) (slot1 : Bool) (d s : BitVec 4) (k : BitVec 3) (other : BitVec 16)
  /-- SLT: R283, R284. The op stands in slot 1 when `slot1`, else in slot 0; `other` holds the 16 bits of the word's other slot. -/
  | sSlt (c : CoreId) (cc : BitVec 3) (slot1 : Bool) (d s : BitVec 4) (k : BitVec 3) (other : BitVec 16)
  /-- SHORT_CMP: R283, R284. The op stands in slot 1 when `slot1`, else in slot 0; `other` holds the 16 bits of the word's other slot. -/
  | sCmp (c : CoreId) (cc : BitVec 3) (slot1 : Bool) (d s : BitVec 4) (k : BitVec 3) (other : BitVec 16)
  /-- LWX: R283, R284. The op stands in slot 1 when `slot1`, else in slot 0; `other` holds the 16 bits of the word's other slot. -/
  | sLwx (c : CoreId) (cc : BitVec 3) (slot1 : Bool) (d s : BitVec 4) (k : BitVec 3) (other : BitVec 16)
  /-- LFX: R283, R284. The op stands in slot 1 when `slot1`, else in slot 0; `other` holds the 16 bits of the word's other slot. -/
  | sLfx (c : CoreId) (cc : BitVec 3) (slot1 : Bool) (d s : BitVec 4) (k : BitVec 3) (other : BitVec 16)
  /-- SWX: R283, R284. The op stands in slot 1 when `slot1`, else in slot 0; `other` holds the 16 bits of the word's other slot. -/
  | sSwx (c : CoreId) (cc : BitVec 3) (slot1 : Bool) (d s : BitVec 4) (k : BitVec 3) (other : BitVec 16)
  /-- LWO: R283, R284. The op stands in slot 1 when `slot1`, else in slot 0; `other` holds the 16 bits of the word's other slot. -/
  | sLwo (c : CoreId) (cc : BitVec 3) (slot1 : Bool) (d s : BitVec 4) (k : BitVec 3) (other : BitVec 16)
  /-- SWO: R283, R284. The op stands in slot 1 when `slot1`, else in slot 0; `other` holds the 16 bits of the word's other slot. -/
  | sSwo (c : CoreId) (cc : BitVec 3) (slot1 : Bool) (d s : BitVec 4) (k : BitVec 3) (other : BitVec 16)
  /-- SHORT_ADDA: R283, R284. The op stands in slot 1 when `slot1`, else in slot 0; `other` holds the 16 bits of the word's other slot. -/
  | sAdda (c : CoreId) (cc : BitVec 3) (slot1 : Bool) (d : BitVec 4) (imm : BitVec 7) (other : BitVec 16)
  /-- SHORT_MVA: R283, R284. The op stands in slot 1 when `slot1`, else in slot 0; `other` holds the 16 bits of the word's other slot. -/
  | sMva (c : CoreId) (cc : BitVec 3) (slot1 : Bool) (d s : BitVec 4) (k : BitVec 3) (other : BitVec 16)
  /-- MVD: R283, R284. The op stands in slot 1 when `slot1`, else in slot 0; `other` holds the 16 bits of the word's other slot. -/
  | sMvd (c : CoreId) (cc : BitVec 3) (slot1 : Bool) (d s : BitVec 4) (k : BitVec 3) (other : BitVec 16)
  /-- RANK: R283, R284. The op stands in slot 1 when `slot1`, else in slot 0; `other` holds the 16 bits of the word's other slot. -/
  | sRank (c : CoreId) (cc : BitVec 3) (slot1 : Bool) (d s : BitVec 4) (k : BitVec 3) (other : BitVec 16)
  /-- POPC: R283, R284. The op stands in slot 1 when `slot1`, else in slot 0; `other` holds the 16 bits of the word's other slot. -/
  | sPopc (c : CoreId) (cc : BitVec 3) (slot1 : Bool) (d s : BitVec 4) (k : BitVec 3) (other : BitVec 16)
  /-- MAC: R283, R284. The op stands in slot 1 when `slot1`, else in slot 0; `other` holds the 16 bits of the word's other slot. -/
  | sMac (c : CoreId) (cc : BitVec 3) (slot1 : Bool) (d s : BitVec 4) (k : BitVec 3) (other : BitVec 16)
  /-- SHORT_MVY: R283, R284. The op stands in slot 1 when `slot1`, else in slot 0; `other` holds the 16 bits of the word's other slot. -/
  | sMvy (c : CoreId) (cc : BitVec 3) (slot1 : Bool) (d s : BitVec 4) (k : BitVec 3) (other : BitVec 16)
  /-- SHORT_DCS: R283, R284. The op stands in slot 1 when `slot1`, else in slot 0; `other` holds the 16 bits of the word's other slot. -/
  | sDcs (c : CoreId) (cc : BitVec 3) (slot1 : Bool) (d s : BitVec 4) (k : BitVec 3) (other : BitVec 16)
  /-- INTERRUPT_TAKEN: R298. -/
  | interruptTaken (c : CoreId)
  /-- LINK_CORE_RELOADED: R418. The restarted link core has been checked and is released. -/
  | linkCoreReloaded
  /-- RSA_PUB: R309, R312. Agent `src` writes operation word `w` to engine `e`. -/
  | rsaPub (e : EngineId) (src : Agent) (w : W32)
  /-- RSA_PSS_VERIFY: R309, R312. Agent `src` writes operation word `w` to engine `e`. -/
  | rsaPssVerify (e : EngineId) (src : Agent) (w : W32)
  /-- RSA_CRT: R309, R312. Agent `src` writes operation word `w` to engine `e`. -/
  | rsaCrt (e : EngineId) (src : Agent) (w : W32)
  /-- MODMUL: R309, R312. Agent `src` writes operation word `w` to engine `e`. -/
  | modmul (e : EngineId) (src : Agent) (w : W32)
  /-- MODEXP: R309, R312. Agent `src` writes operation word `w` to engine `e`. -/
  | modexp (e : EngineId) (src : Agent) (w : W32)
  /-- ECDSA_VERIFY: R309, R312. Agent `src` writes operation word `w` to engine `e`. -/
  | ecdsaVerify (e : EngineId) (src : Agent) (w : W32)
  /-- ECDSA_SIGN: R309, R312. Agent `src` writes operation word `w` to engine `e`. -/
  | ecdsaSign (e : EngineId) (src : Agent) (w : W32)
  /-- ECDH: R309, R312. Agent `src` writes operation word `w` to engine `e`. -/
  | ecdh (e : EngineId) (src : Agent) (w : W32)
  /-- EC_PUBGEN: R309, R312. Agent `src` writes operation word `w` to engine `e`. -/
  | ecPubgen (e : EngineId) (src : Agent) (w : W32)
  /-- ED25519_VERIFY: R309, R312. Agent `src` writes operation word `w` to engine `e`. -/
  | ed25519Verify (e : EngineId) (src : Agent) (w : W32)
  /-- MLDSA_VERIFY: R309, R312. Agent `src` writes operation word `w` to engine `e`. -/
  | mldsaVerify (e : EngineId) (src : Agent) (w : W32)
  /-- OPERAND_MEMORY_WRITE: R308. -/
  | operandMemoryWrite (e : EngineId) (src : Agent) (word : BitVec 12) (v : W64)
  /-- KERNEL_OPERATION_DONE: R317. The operation of `e` ends; `integrity` says that an ECC or Gnoby failure occurred (R315). -/
  | kernelOperationDone (e : EngineId) (integrity : Bool)
  /-- KERNEL_ABORT_DONE: R325. -/
  | kernelAbortDone (e : EngineId)
  /-- WRITE: R333. The key was written to KEYIN before. -/
  | keyUnitWrite (src : KeyIssue) (slot : KeySlotId) (attr : W32)
  /-- GENERATE: R333. -/
  | keyUnitGenerate (src : KeyIssue) (slot : KeySlotId) (curve : BitVec 2) (attr : W32)
  /-- DERIVE: R345. `parent` 0x3F names the current root. -/
  | keyUnitDerive (src : KeyIssue) (slot : KeySlotId) (parent : BitVec 6) (curve : BitVec 2) (attr : W32) (label context : List Byte)
  /-- SETATTR: R335. -/
  | keyUnitSetattr (src : KeyIssue) (slot : KeySlotId) (attr : W32)
  /-- READ: R333. -/
  | keyUnitRead (src : KeyIssue) (slot : KeySlotId)
  /-- CLEAR: R333. -/
  | keyUnitClear (src : KeyIssue) (slot : KeySlotId)
  /-- PROVENANCE: R349. -/
  | keyUnitProvenance (src : KeyIssue) (slot : KeySlotId) (nonce : List Byte)
  /-- ROOT_GENERATE_FUNCTION: R341. -/
  | rootGenerateFunction (src : KeyIssue)
  /-- KEYOUT_EXPIRY: R333. -/
  | keyoutExpiry
  /-- SLOT_REMASK: R338, R339. `ok` says that shares and attributes pass their checks. -/
  | slotRemask (slot : KeySlotId) (ok : Bool)
  /-- FUSE_ARM: R364. -/
  | fuseArm (src : Agent) (w : W32)
  /-- FUSE_ARM_WINDOW_EXPIRY: R364. -/
  | fuseArmWindowExpiry
  /-- BURN: R364, R365. FUSE_FIRE with word `w`. -/
  | fuseFireBurn (src : Agent) (w : W32)
  /-- LOCK: R364, R365. FUSE_FIRE with word `w`. -/
  | fuseFireLock (src : Agent) (w : W32)
  /-- ADVANCE: R364, R365. FUSE_FIRE with word `w`. -/
  | fuseFireAdvance (src : Agent) (w : W32)
  /-- REVOKE: R364, R365. FUSE_FIRE with word `w`. -/
  | fuseFireRevoke (src : Agent) (w : W32)
  /-- REBURN: R364, R365. FUSE_FIRE with word `w`. -/
  | fuseFireReburn (src : Agent) (w : W32)
  /-- RESENSE: R370. -/
  | fuseResense (src : Agent)
  /-- FUSE_LEAVE_TIMEOUT: R365. -/
  | fuseLeaveTimeout
  /-- FUSE_DONE: R365. The running function ends; per copy (address, copy 1?) the pulse after which it verifies at raised reference; an unlisted copy verifies after one pulse. -/
  | fuseDone (pulses : List (BitVec 14 × Bool × Nat))
  /-- TEMPERATURE_THRESHOLD_CROSSING: R370. The die crosses -20 C (`hot` false) or +100 C; it is then inside the burn window or not. -/
  | temperatureThresholdCrossing (inside : Bool) (hot : Bool)
  /-- RESENSE_DONE: R370. -/
  | resenseDone (findings : List (BitVec 14 × Resensed))
  /-- SUPPLY_GLITCH: R379. -/
  | supplyGlitch (s : GlitchSupply)
  /-- BANK_SUPPLY_EXCURSION: R379, R512. -/
  | bankSupplyExcursion (s : BankSupply)
  /-- DIE_TEMPERATURE_ALARM: R379, R513. -/
  | dieTemperatureAlarm (t : TempAlarm)
  /-- THREAD_WATCHDOG_EXPIRY: R379. -/
  | threadWatchdogExpiry (k : SheafId) (t : Fin 8)
  /-- KEY_REDRAW: R350. -/
  | keyRedraw
  /-- COINCIDENCE_WINDOW_CLOSE: R375. -/
  | coincidenceWindowClose
  /-- ALARM_NORMAL_TIMER: R376. The source of alarm `seq` has read normal for 10 ms. -/
  | alarmNormalTimer (seq : W32)
  /-- BACKUP_TICK: R379. Bit n of `mesh`: pair n differs at this tick; `tempBad`: backup temperature outside its limits. -/
  | backupTick (mesh : BitVec 4) (tempBad : Bool)
  /-- CASE_SWITCH_CHANGE: R379. Switch `n` has held `level` for 32 ms. -/
  | caseSwitchChange (n : Fin 2) (level : Bool)
  /-- VBAT_GLITCH: R379. -/
  | vbatGlitch
  /-- CLOCK32_LOSS: R379. -/
  | clock32Loss
  /-- LOG_APPEND: R388. `ok`: the program read back equal. -/
  | logAppend (ok : Bool)
  /-- SEGMENT_ERASE: R390. -/
  | segmentErase
  /-- LOG_SCAN: R391. -/
  | logScan
  /-- BACKUP_LOG_DRAIN: R387. -/
  | backupLogDrain
  /-- LEAVE_GRANT: R395. -/
  | leaveGrant
  /-- RECONCILIATION_DONE: R400. Reconciliation of pool `q` completes. -/
  | reconciliationDone (q : BitVec 8)
  /-- POOL_TOTAL_CHANGE: R398. -/
  | poolTotalChange (k : StandId)
  /-- PROBE: R408. The probe of the current try of channel `ch` index `i` runs. -/
  | probe (ch : ChannelKind) (i : Nat) (pass : Bool)
  /-- BUCKET_DECAY: R409. -/
  | bucketDecay (ch : ChannelKind) (i : Nat)
  /-- LR_BURN_RETRY: R412. -/
  | lrBurnRetry
  /-- RETIREMENT_REAPPLY: R414. -/
  | retirementReapply
  /-- HANDOVER_READY: R420. -/
  | handoverReady
  /-- HANDOVER_READY_TIMEOUT: R420. -/
  | handoverReadyTimeout
  /-- HANDOVER_RELOAD: R420. -/
  | handoverReload
  /-- LOSS_OF_SIGNAL: R429. -/
  | lossOfSignal (l : LinkId)
  /-- SIGNAL_PRESENT: R427. -/
  | signalPresent (l : LinkId)
  /-- TRAINING_TIMEOUT: R427. -/
  | trainingTimeout (t : TrainEnd)
  /-- BLOCK_LOCK: R429. Bit r-1 of `peerRates`: the peer advertises RATE code r. -/
  | blockLock (l : LinkId) (peerRates : BitVec 6)
  /-- BLOCK_LOCK_LOSS: R406. -/
  | blockLockLoss (l : LinkId)
  /-- MKA_LIVE: R430. -/
  | mkaLive (l : LinkId)
  /-- SAK_CHANGE_DUE: R430. -/
  | sakChangeDue (l : LinkId)
  /-- SAK_CHANGE_DONE: R431. -/
  | sakChangeDone (l : LinkId)
  /-- HELLO: R435. -/
  | hello (l : LinkId) (h : TrustHeader)
  /-- CREDIT: R434. -/
  | credit (l : LinkId) (h : TrustHeader)
  /-- CREDIT_TIMER: R434. -/
  | creditTimer (l : LinkId)
  /-- OBJECT: R441. -/
  | objectFrame (l : LinkId) (h : TrustHeader) (payload : List Byte)
  /-- LEAF: R442. -/
  | leafFrame (l : LinkId) (h : TrustHeader) (payload : List Byte)
  /-- ABORT_FRAME: R443. -/
  | abortFrame (l : LinkId) (h : TrustHeader) (payload : List Byte)
  /-- NOTICE: R449. -/
  | notice
  /-- GET_VERSION: R437, R438. -/
  | spdmGetVersion (l : LinkId) (h : TrustHeader) (payload : List Byte)
  /-- GET_CAPABILITIES: R437, R438. -/
  | spdmGetCapabilities (l : LinkId) (h : TrustHeader) (payload : List Byte)
  /-- NEGOTIATE_ALGORITHMS: R437, R438. -/
  | spdmNegotiateAlgorithms (l : LinkId) (h : TrustHeader) (payload : List Byte)
  /-- GET_DIGESTS: R437, R438. -/
  | spdmGetDigests (l : LinkId) (h : TrustHeader) (payload : List Byte)
  /-- GET_CERTIFICATE: R439. -/
  | spdmGetCertificate (l : LinkId) (h : TrustHeader) (payload : List Byte) (offset len : Nat)
  /-- CHALLENGE: R439. -/
  | spdmChallenge (l : LinkId) (h : TrustHeader) (payload : List Byte) (nonce : List Byte)
  /-- GET_MEASUREMENTS: R440. -/
  | spdmGetMeasurements (l : LinkId) (h : TrustHeader) (payload : List Byte) (index : Byte) (signed : Bool) (nonce : List Byte)
  /-- SPDM_SEGMENT_TIMEOUT: R438. -/
  | spdmSegmentTimeout (l : LinkId)
  /-- OBJECT_TIMEOUT: R441. -/
  | objectTimeout (xfer : W32)
  /-- LEAF_VERIFY: R443. -/
  | leafVerify (xfer : W32) (i : Nat)
  /-- LEAF_TIMEOUT: R443. -/
  | leafTimeout (xfer : W32) (i : Nat)
  /-- AUTONOMOUS_ENTRY: R450. -/
  | autonomousEntry
  /-- TRANSFER_SUSPEND_EXPIRY: R450. -/
  | transferSuspendExpiry (xfer : W32)
  /-- REPROGRAM: R446. The next step of the REPROGRAM flow of `p`. -/
  | flowReprogram (p : PortId)
  /-- MANIFEST_ONLY: R445. The next step of the MANIFEST_ONLY flow of `p`. -/
  | flowManifestOnly (p : PortId)
  /-- SERVE_SET: R262. The next step of the SERVE_SET flow of `p`. -/
  | flowServeSet (p : PortId)
  /-- RESTAGE: R448. The next step of the RESTAGE flow of `p`. -/
  | flowRestage (p : PortId)
  /-- SHELF_MANIFEST: R447. The next step of the SHELF_MANIFEST flow. -/
  | flowShelfManifest
  /-- FLASH_PROGRAM_DONE: R446. The running erase or program of a flow completes (none: home flash); `ok`: the readback matched. -/
  | flashProgramDone (p : Option PortId) (back : List Byte)
  /-- WRITE_WORDS: R455, command byte 0x02. -/
  | mspiWriteWords (m : MspiIn)
  /-- READ_WORDS: R460, command byte 0x0B; the host clocks `clocked` words, the read header included, before the rise of MSPI_CS_N. -/
  | mspiReadWords (addr : W24) (clocked : Nat)
  /-- STATUS: R457, command byte 0x05. -/
  | mspiStatus (clocked : Nat)
  /-- IDENTITY_READ: R457, command byte 0x9F; `clocked` bytes. -/
  | mspiIdentityRead (clocked : Nat)
  /-- REGISTER_WINDOW_READ: R480, command byte 0x3B. -/
  | registerWindowRead (addr : W24) (clocked : Nat)
  /-- REGISTER_WINDOW_WRITE: R481, command byte 0x32. -/
  | registerWindowWrite (m : MspiIn)
  /-- RS_LATCH_READ: R482. A window read of the lowest word of an RS register. -/
  | rsLatchRead (addr : W24)
  /-- REGISTER_WRITE: R481, R311. A core writes a device register. -/
  | registerWrite (src : Agent) (r : DevReg) (v : W32)
  /-- MSPI_STALL: R456. A frame stalls. -/
  | mspiStall (x : StallIn)
  /-- ABORT_PKE: R475, command byte 0xAB. -/
  | abortPke (m : MspiIn)
  /-- ABORT_LANE: R475, command byte 0xAB. -/
  | abortLane (m : MspiIn)
  /-- ABORT_PORT: R475, command byte 0xAB; `f` is the frame in progress on the port, if any. -/
  | abortPort (m : MspiIn) (f : Option FrameIn)
  /-- ABORT_THREAD: R475. -/
  | abortThread (m : MspiIn)
  /-- ABORT_LINK: R475. -/
  | abortLink (m : MspiIn)
  /-- ABORT_MAILBOX: R476. -/
  | abortMailbox (m : MspiIn)
  /-- REQUEST_TIMEOUT: R463. -/
  | requestTimeout (mb : MailboxId)
  /-- OBJECT_BUFFER_TIMEOUT: R465. -/
  | objectBufferTimeout
  /-- GET_INFO: R468. The mailbox's firmware takes the request at the head of mailbox `mb` and executes it. -/
  | cmdGetInfo (mb : MailboxId)
  /-- SET_MSPI: R468. The mailbox's firmware takes the request at the head of mailbox `mb` and executes it. -/
  | cmdSetMspi (mb : MailboxId)
  /-- WARM_RESTART: R468. The mailbox's firmware takes the request at the head of mailbox `mb` and executes it. -/
  | cmdWarmRestart (mb : MailboxId)
  /-- ABORT: R468. The mailbox's firmware takes the request at the head of mailbox `mb` and executes it. -/
  | cmdAbort (mb : MailboxId) (x : AbortIn)
  /-- OBJECT_OPEN: R468. The mailbox's firmware takes the request at the head of mailbox `mb` and executes it. -/
  | cmdObjectOpen (mb : MailboxId)
  /-- OBJECT_WRITE: R468. The mailbox's firmware takes the request at the head of mailbox `mb` and executes it. -/
  | cmdObjectWrite (mb : MailboxId)
  /-- OBJECT_CLOSE: R468. The mailbox's firmware takes the request at the head of mailbox `mb` and executes it. -/
  | cmdObjectClose (mb : MailboxId)
  /-- POLICY_SUBMIT: R468. The mailbox's firmware takes the request at the head of mailbox `mb` and executes it. -/
  | cmdPolicySubmit (mb : MailboxId)
  /-- WAKE_START: R468. The mailbox's firmware takes the request at the head of mailbox `mb` and executes it. -/
  | cmdWakeStart (mb : MailboxId)
  /-- REWAKE: R468. The mailbox's firmware takes the request at the head of mailbox `mb` and executes it. -/
  | cmdRewake (mb : MailboxId)
  /-- DISPENSATION: R468. The mailbox's firmware takes the request at the head of mailbox `mb` and executes it. -/
  | cmdDispensation (mb : MailboxId)
  /-- GET_VERDICTS: R468. The mailbox's firmware takes the request at the head of mailbox `mb` and executes it. -/
  | cmdGetVerdicts (mb : MailboxId)
  /-- GET_MEASUREMENT: R468. The mailbox's firmware takes the request at the head of mailbox `mb` and executes it. -/
  | cmdGetMeasurement (mb : MailboxId)
  /-- REVOCATION_PRECHECK: R468. The mailbox's firmware takes the request at the head of mailbox `mb` and executes it. -/
  | cmdRevocationPrecheck (mb : MailboxId)
  /-- CLEAR_HOLD: R468. The mailbox's firmware takes the request at the head of mailbox `mb` and executes it. -/
  | cmdClearHold (mb : MailboxId)
  /-- PORT_STATUS: R468. The mailbox's firmware takes the request at the head of mailbox `mb` and executes it. -/
  | cmdPortStatus (mb : MailboxId)
  /-- HOME_ERASE: R468. The mailbox's firmware takes the request at the head of mailbox `mb` and executes it. -/
  | cmdHomeErase (mb : MailboxId)
  /-- HOME_WRITE: R468. The mailbox's firmware takes the request at the head of mailbox `mb` and executes it. -/
  | cmdHomeWrite (mb : MailboxId) (ok : Bool)
  /-- ALARM_LIST: R468. The mailbox's firmware takes the request at the head of mailbox `mb` and executes it. -/
  | cmdAlarmList (mb : MailboxId)
  /-- ALARM_ACK: R468. The mailbox's firmware takes the request at the head of mailbox `mb` and executes it. -/
  | cmdAlarmAck (mb : MailboxId)
  /-- ALARM_RANK: R468. The mailbox's firmware takes the request at the head of mailbox `mb` and executes it. -/
  | cmdAlarmRank (mb : MailboxId)
  /-- LOG_STATUS: R468. The mailbox's firmware takes the request at the head of mailbox `mb` and executes it. -/
  | cmdLogStatus (mb : MailboxId)
  /-- LOG_READ: R468. The mailbox's firmware takes the request at the head of mailbox `mb` and executes it. -/
  | cmdLogRead (mb : MailboxId)
  /-- LOG_OWNER: R468. The mailbox's firmware takes the request at the head of mailbox `mb` and executes it. -/
  | cmdLogOwner (mb : MailboxId)
  /-- LOG_RESTART: R468. The mailbox's firmware takes the request at the head of mailbox `mb` and executes it. -/
  | cmdLogRestart (mb : MailboxId)
  /-- KEY_WRITE: R468. The mailbox's firmware takes the request at the head of mailbox `mb` and executes it. -/
  | cmdKeyWrite (mb : MailboxId)
  /-- KEY_GENERATE: R468. The mailbox's firmware takes the request at the head of mailbox `mb` and executes it. -/
  | cmdKeyGenerate (mb : MailboxId)
  /-- KEY_DERIVE: R468. The mailbox's firmware takes the request at the head of mailbox `mb` and executes it. -/
  | cmdKeyDerive (mb : MailboxId)
  /-- KEY_SETATTR: R468. The mailbox's firmware takes the request at the head of mailbox `mb` and executes it. -/
  | cmdKeySetattr (mb : MailboxId)
  /-- KEY_READ: R468. The mailbox's firmware takes the request at the head of mailbox `mb` and executes it. -/
  | cmdKeyRead (mb : MailboxId)
  /-- KEY_CLEAR: R468. The mailbox's firmware takes the request at the head of mailbox `mb` and executes it. -/
  | cmdKeyClear (mb : MailboxId)
  /-- KEY_INFO: R468. The mailbox's firmware takes the request at the head of mailbox `mb` and executes it. -/
  | cmdKeyInfo (mb : MailboxId)
  /-- KEY_PROVENANCE: R468. The mailbox's firmware takes the request at the head of mailbox `mb` and executes it. -/
  | cmdKeyProvenance (mb : MailboxId)
  /-- ROOT_GENERATE: R468. The mailbox's firmware takes the request at the head of mailbox `mb` and executes it. -/
  | cmdRootGenerate (mb : MailboxId)
  /-- IDENTITY: R468. The mailbox's firmware takes the request at the head of mailbox `mb` and executes it. -/
  | cmdIdentity (mb : MailboxId)
  /-- FUSE_BURN: R468. The mailbox's firmware takes the request at the head of mailbox `mb` and executes it. -/
  | cmdFuseBurn (mb : MailboxId)
  /-- FUSE_LOCK: R468. The mailbox's firmware takes the request at the head of mailbox `mb` and executes it. -/
  | cmdFuseLock (mb : MailboxId)
  /-- FUSE_ADVANCE: R468. The mailbox's firmware takes the request at the head of mailbox `mb` and executes it. -/
  | cmdFuseAdvance (mb : MailboxId)
  /-- FUSE_REVOKE: R468. The mailbox's firmware takes the request at the head of mailbox `mb` and executes it. -/
  | cmdFuseRevoke (mb : MailboxId)
  /-- FUSE_REBURN: R468. The mailbox's firmware takes the request at the head of mailbox `mb` and executes it. -/
  | cmdFuseReburn (mb : MailboxId)
  /-- FUSE_RESENSE: R468. The mailbox's firmware takes the request at the head of mailbox `mb` and executes it. -/
  | cmdFuseResense (mb : MailboxId)
  /-- FUSE_READ: R468. The mailbox's firmware takes the request at the head of mailbox `mb` and executes it. -/
  | cmdFuseRead (mb : MailboxId)
  /-- LC_ADVANCE: R468. The mailbox's firmware takes the request at the head of mailbox `mb` and executes it. -/
  | cmdLcAdvance (mb : MailboxId)
  /-- PAGE_MAP: R468. The mailbox's firmware takes the request at the head of mailbox `mb` and executes it. -/
  | cmdPageMap (mb : MailboxId)
  /-- RECOVER: R468. The mailbox's firmware takes the request at the head of mailbox `mb` and executes it. -/
  | cmdRecover (mb : MailboxId)
  /-- RECOVER_STATUS: R468. The mailbox's firmware takes the request at the head of mailbox `mb` and executes it. -/
  | cmdRecoverStatus (mb : MailboxId)
  /-- RECOVER_CANCEL: R468. The mailbox's firmware takes the request at the head of mailbox `mb` and executes it. -/
  | cmdRecoverCancel (mb : MailboxId)
  /-- LINK_PEER: R468. The mailbox's firmware takes the request at the head of mailbox `mb` and executes it. -/
  | cmdLinkPeer (mb : MailboxId)
  /-- LINK_CAK: R468. The mailbox's firmware takes the request at the head of mailbox `mb` and executes it. -/
  | cmdLinkCak (mb : MailboxId)
  /-- LINK_STATUS: R468. The mailbox's firmware takes the request at the head of mailbox `mb` and executes it. -/
  | cmdLinkStatus (mb : MailboxId)
  /-- HANDOVER_PREPARE: R468. The mailbox's firmware takes the request at the head of mailbox `mb` and executes it. -/
  | cmdHandoverPrepare (mb : MailboxId)
  /-- HANDOVER_STATUS: R468. The mailbox's firmware takes the request at the head of mailbox `mb` and executes it. -/
  | cmdHandoverStatus (mb : MailboxId)
  /-- REINSTATE: R468. The mailbox's firmware takes the request at the head of mailbox `mb` and executes it. -/
  | cmdReinstate (mb : MailboxId) (probes : BitVec 3)
  /-- CHANNEL_STATUS: R468. The mailbox's firmware takes the request at the head of mailbox `mb` and executes it. -/
  | cmdChannelStatus (mb : MailboxId)
  /-- BUNDLE_ERASE: R468. The mailbox's firmware takes the request at the head of mailbox `mb` and executes it. -/
  | cmdBundleErase (mb : MailboxId)
  /-- BUNDLE_WRITE: R468. The mailbox's firmware takes the request at the head of mailbox `mb` and executes it. -/
  | cmdBundleWrite (mb : MailboxId) (ok : Bool)
  /-- REPAIR_LIST: R468. The mailbox's firmware takes the request at the head of mailbox `mb` and executes it. -/
  | cmdRepairList (mb : MailboxId)
  /-- REPAIR_REBURN: R468. The mailbox's firmware takes the request at the head of mailbox `mb` and executes it. -/
  | cmdRepairReburn (mb : MailboxId)
  /-- LOAD_ERASE: R468. The mailbox's firmware takes the request at the head of mailbox `mb` and executes it. -/
  | cmdLoadErase (mb : MailboxId)
  /-- LOAD_WRITE: R468. The mailbox's firmware takes the request at the head of mailbox `mb` and executes it. -/
  | cmdLoadWrite (mb : MailboxId) (ok : Bool)
  /-- LOAD_COMMIT: R468. The mailbox's firmware takes the request at the head of mailbox `mb` and executes it. -/
  | cmdLoadCommit (mb : MailboxId)
  /-- VENDOR_PRODUCTION_SERVICE: R468. The mailbox's firmware takes the request at the head of mailbox `mb` and executes it. -/
  | cmdVendorProductionService (mb : MailboxId)
  /-- SIGNATURE_WINDOW_END: R72. -/
  | signatureWindowEnd
  /-- MKA_LIFE_EXPIRY: R430. -/
  | mkaLifeExpiry (l : LinkId)
  /-- MACSEC_DROP: R430, R433. Failed MACsec validation (none) or a validated frame with another EtherType. -/
  | macsecDrop (l : LinkId) (why : LinkDrop)
  /-- MALFORMED_FRAME: R433. -/
  | malformedFrame (l : LinkId) (h : TrustHeader) (payload : List Byte)
  /-- SPDM_UNSUPPORTED_REQUEST: R437. -/
  | spdmUnsupportedRequest (l : LinkId) (h : TrustHeader) (payload : List Byte)
  /-- MSPI_IGNORED_FRAME: R451. -/
  | mspiIgnoredFrame (cmd : Byte)
  /-- UNKNOWN_COMMAND_CODE: R468. -/
  | unknownCommandCode (mb : MailboxId)
  /-- ILLEGAL_INSTRUCTION: R273. Core `c` issues the fetched doubleword `dw`, which is no legal word. -/
  | illegalInstruction (c : CoreId) (dw : W64)
  /-- HOME_PORT_FRAME_COMPLETE: R298. -/
  | homePortFrameComplete
  /-- BACKUP_DOMAIN_SUPPLIED: R56, R42. VBAT is fitted while VDD_AON is absent. -/
  | backupDomainSupplied
deriving DecidableEq, Repr

end Sys2Proof
end

