-- ==== Sys2Proof/Config.lean ====
section
/-! DEFINITION. What the spec leaves open, to the mask ROM or to a random draw: constants without a body, so that nothing
can be proved of a value of theirs (notes/assumptions/9, 10, 14). -/

namespace Sys2Proof.Config

/-- The n-th free value: a draw of the TRNG (R91, R333, R341), or a value the spec leaves open. -/
opaque draw : Nat → Nat

/-- DATA of a FILTER alarm, which carries class and source of the decision (R174): 0 leaf, 1 coarse map, 2 rule. -/
opaque filterData : Nat → Nat → BitVec 32

/-- DATA of a fuse finding, which names the unit and the address (R370): unit code, logical address. -/
opaque fuseData : Nat → Nat → BitVec 32

/-- Contents of the mask ROM (0) and the watch ROM (1) (R300). -/
opaque rom : Nat → Nat → Byte

/-- The scrambler's keystream for the 16 bytes of a Granary word: key, page and word number (R241). -/
opaque keystream : List Byte → Nat → Nat → List Byte

/-- The eight check bits of 64 bits of a stored share (R339). -/
opaque shareEcc : BitVec 64 → Byte

/-- The keystream of the slot store: K_SLOT, slot number, share number, remask count (R338). -/
opaque slotStream : BitVec 256 → Nat → Nat → Nat → BitVec 512

/-- The eight check bits of eight stored bytes at a page and word number (R241). -/
opaque secded : List Byte → Nat → Nat → Byte

/-- What an address of the device register space reads: an engine's status word, or a half of a word of its operand memory
(R306, R311), or a register whose content the spec does not give. -/
inductive DevRead
  | status (e : EngineId)
  | operand (e : EngineId) (word : BitVec 12) (high : Bool)
  | other
deriving DecidableEq, Repr, Inhabited

/-- The register at an address of the device register space (R300), which the spec does not place. -/
opaque deviceAt : Nat → DevRead

/-- What a read of the home flash captures while bank VDDIO_H is not good: by the count of free values used so far and the address
(R500). -/
opaque homeDead : Nat → Nat → Byte

/-- SHA-384 digests of the vendor test root and the return root in the mask ROM (R53). -/
opaque vendorRoot : List Byte
opaque returnRoot : List Byte

/-- Home-flash ROM defaults of CFG where CFG has failed (R50): its 60 content bytes. -/
opaque romCfg : List Byte

/-- The to-be-signed part and the whole of the Alias certificate (R347): public key, fwid, svn, vendorInfo; then the
signature. -/
opaque aliasTbs : List Byte → List Byte → Nat → List Byte → List Byte
opaque aliasCert : List Byte → List Byte → List Byte

/-- What DSP0274 leaves to a responder (R437): the CTExponent byte, and the measurement blocks that a CHALLENGE for the TCB
alone summarises. -/
opaque spdmTiming : Byte
opaque spdmTcbBlocks : List Nat

/-- What a signed vendor production request does (R474, R346): the bytes of its response, and the order code of an SV96-AF
where it takes a BLANK device to FACTORY. -/
structure Production where
  answer  : List Byte
  factory : Option Bool
deriving DecidableEq, Repr

/-- The outcome of a signed vendor production request: code, request bytes; none where it is refused. -/
opaque production : Nat → List Byte → Option Production

/-- HOLDERS of the census TOTAL word of an inrush pool: its 16 holders do not fit the 4 bits of the field, and the spec does not say
what reads there (R403; log 70). -/
opaque irHolders : BitVec 4

end Sys2Proof.Config
end

