-- ==== Sys2Proof/Machine/Bits.lean ====
section
/-! DEFINITION. Byte strings, integer fields and check codes at the byte orders the spec states. -/

namespace Sys2Proof.Machine

/-- A little-endian integer (R105). -/
def leNat : List Byte → Nat
  | [] => 0
  | b :: bs => b.toNat + 256 * leNat bs

/-- A big-endian integer. -/
def beNat (bs : List Byte) : Nat := bs.foldl (fun n b => n * 256 + b.toNat) 0

/-- The `len` little-endian bytes of `n`. -/
def leBytes (n : Nat) : Nat → List Byte
  | 0 => []
  | len + 1 => BitVec.ofNat 8 n :: leBytes (n / 256) len

/-- The `len` big-endian bytes of `n`. -/
def beBytes (n len : Nat) : List Byte := (leBytes n len).reverse

/-- `len` bytes from offset `off`. -/
def sub (bs : List Byte) (off len : Nat) : List Byte := (bs.drop off).take len

/-- The byte at offset `off`; 0 beyond the end. -/
def byteAt (bs : List Byte) (off : Nat) : Byte := bs.getD off 0

/-- The little-endian field of `len` bytes at offset `off`. -/
def field (bs : List Byte) (off len : Nat) : Nat := leNat (sub bs off len)

/-- All bytes of a field are zero. -/
def zeros (bs : List Byte) (off len : Nat) : Bool := (sub bs off len).all (· = 0)

/-- `bs` followed by zeros up to `len` bytes, or cut to `len`. -/
def padTo (bs : List Byte) (len : Nat) : List Byte := (bs ++ List.replicate (len - bs.length) 0).take len

/-- `n` rounded up to a multiple of `m`. -/
def roundUp (n m : Nat) : Nat := (n + m - 1) / m * m

/-- ceil(a / b). -/
def ceilDiv (a b : Nat) : Nat := (a + b - 1) / b

/-- The bytes of an ASCII label. -/
def ascii (s : String) : List Byte := s.toList.map fun c => BitVec.ofNat 8 c.toNat

/-- The number of set bits of `n` among its `w` low bits. -/
def popCount (n : Nat) : Nat → Nat
  | 0 => 0
  | w + 1 => n % 2 + popCount (n / 2) w

/-- Bits hi:lo of a word, as a number (R7). -/
def bitsOf (n hi lo : Nat) : Nat := n / 2 ^ lo % 2 ^ (hi + 1 - lo)

/-- Bit `i` of a word. -/
def bitOf (n i : Nat) : Bool := n.testBit i

/-- The set bits of `n` below `w`, ascending. -/
def setBits (n w : Nat) : List Nat := (List.range w).filter fun i => n.testBit i

/-- The number whose set bits are listed. -/
def maskOf (l : List Nat) : Nat := l.foldl (fun n i => n ||| 2 ^ i) 0

/-- The words of a byte string: byte k in word k/4 at bits 8(k mod 4) (R452). -/
def wordsOf : List Byte → List W32
  | [] => []
  | [a] => [BitVec.ofNat 32 a.toNat]
  | [a, b] => [BitVec.ofNat 32 (leNat [a, b])]
  | [a, b, c] => [BitVec.ofNat 32 (leNat [a, b, c])]
  | a :: b :: c :: d :: r => BitVec.ofNat 32 (leNat [a, b, c, d]) :: wordsOf r

/-- The bytes of a string of words (R452). -/
def bytesOf : List W32 → List Byte
  | [] => []
  | w :: ws => leBytes w.toNat 4 ++ bytesOf ws

/-- One step of an MSB-first CRC of `w` bits with polynomial `poly`. -/
def crcStep (w poly crc : Nat) (bit : Bool) : Nat :=
  let top := crc.testBit (w - 1)
  let s := crc * 2 % 2 ^ w
  if top = bit then s else s ^^^ poly

/-- The bits of a byte, most significant first. -/
def msbBits (b : Byte) : List Bool := (List.range 8).reverse.map fun i => b.toNat.testBit i

/-- The completeness word: CRC-16, polynomial 0x1021, initial 0xFFFF, no reflection, no final XOR (R353). -/
def crc16 (bs : List Byte) : Nat := (bs.flatMap msbBits).foldl (crcStep 16 0x1021) 0xFFFF

/-- One step of the reflected CRC-32. -/
def crc32Step (crc : Nat) (bit : Bool) : Nat :=
  if (crc.testBit 0) = bit then crc / 2 else crc / 2 ^^^ 0xEDB88320

/-- The CRC word of MSPI: CRC-32 of IEEE 802.3 (R453). -/
def crc32 (bs : List Byte) : W32 :=
  BitVec.ofNat 32 (((bs.flatMap fun b => (List.range 8).map fun i => b.toNat.testBit i).foldl crc32Step 0xFFFFFFFF)
    ^^^ 0xFFFFFFFF)

/-- The Gnoby check: CRC-8, polynomial 0x2F, initial 0xFF, bit 35 first (R382). -/
def gnoby (w : W36) : Byte :=
  BitVec.ofNat 8 (((List.range 36).reverse.map fun i => w.toNat.testBit i).foldl (crcStep 8 0x2F) 0xFF)

/-- The check stored beside a word of a memory: its Gnoby check XOR the low 8 bits of its index, so that a word read from the
wrong place fails (R382). -/
def memCheck (index : Nat) (w : W36) : Byte := gnoby w ^^^ BitVec.ofNat 8 index

/-- `l` with element `i` replaced. -/
def setAt {α : Type} : List α → Nat → α → List α
  | [], _, _ => []
  | _ :: t, 0, v => v :: t
  | a :: t, n + 1, v => a :: setAt t n v

/-- A quantity or flag count that stops at its maximum (R10). -/
def satAdd (w n k : Nat) : Nat := min (n + k) (2 ^ w - 1)
/-- A 64-bit flag count advances (R10). -/
def incr64 (n : W64) : W64 := BitVec.ofNat 64 (satAdd 64 n.toNat 1)

end Sys2Proof.Machine
end

