-- ==== Sys2Proof/Machine/Hash.lean ====
section
/-! DEFINITION. The hash functions of R115, R250, R345 and R349, from the standards those rules name: SHA-2 (FIPS 180-4),
SHA-3 and SHAKE (FIPS 202), KMAC (SP 800-185) and HMAC (FIPS 198-1). Their constants are computed from the standards'
own definitions of them. -/

namespace Sys2Proof.Machine

open Sys2Proof

/-! ### SHA-2 (FIPS 180-4) -/

/-- The first 80 primes. -/
def primes80 : List Nat := (List.range 410).filter fun p => decide (2 ≤ p) && (List.range 19).all fun d => decide (p < (d + 2) * (d + 2) ∨ p % (d + 2) ≠ 0)
/-- The largest x below 2 ^ n + lo with x ^ e ≤ v, bit by bit. -/
def rootOf (e v : Nat) : Nat → Nat → Nat
  | 0, lo => lo
  | n + 1, lo => rootOf e v n (if (lo + 2 ^ n) ^ e ≤ v then lo + 2 ^ n else lo)
/-- The first 64 bits of the fractional part of the e-th root of p. -/
def rootBits (e p : Nat) : Nat := rootOf e (p * 2 ^ (64 * e)) 72 0 % 2 ^ 64

/-- A SHA-2 function on words of w bits: round constants and the rotations of its four sigma functions; the third amount of
the lower-case ones is a shift. -/
structure Sha2 (w : Nat) where
  k    : List (BitVec w)
  big0 : Nat × Nat × Nat
  big1 : Nat × Nat × Nat
  low0 : Nat × Nat × Nat
  low1 : Nat × Nat × Nat

/-- An upper-case sigma. -/
def sigmaUp {w : Nat} (r : Nat × Nat × Nat) (x : BitVec w) : BitVec w := x.rotateRight r.1 ^^^ x.rotateRight r.2.1 ^^^ x.rotateRight r.2.2
/-- A lower-case sigma. -/
def sigmaLow {w : Nat} (r : Nat × Nat × Nat) (x : BitVec w) : BitVec w := x.rotateRight r.1 ^^^ x.rotateRight r.2.1 ^^^ (x >>> r.2.2)

/-- The eight working variables. -/
structure Sha2Vars (w : Nat) where
  a : BitVec w
  b : BitVec w
  c : BitVec w
  d : BitVec w
  e : BitVec w
  f : BitVec w
  g : BitVec w
  h : BitVec w

/-- The rounds over the constants left; `m` is the window of the message schedule, its next word first. -/
def Sha2.rounds {w : Nat} (t : Sha2 w) : List (BitVec w) → List (BitVec w) → Sha2Vars w → Sha2Vars w
  | [], _, v => v
  | k :: ks, m, v =>
    let x := m.headD 0
    let t1 := v.h + sigmaUp t.big1 v.e + ((v.e &&& v.f) ^^^ (~~~v.e &&& v.g)) + k + x
    let t2 := sigmaUp t.big0 v.a + ((v.a &&& v.b) ^^^ (v.a &&& v.c) ^^^ (v.b &&& v.c))
    let y := sigmaLow t.low1 (m.getD 14 0) + m.getD 9 0 + sigmaLow t.low0 (m.getD 1 0) + x
    t.rounds ks (m.drop 1 ++ [y]) { a := t1 + t2, b := v.a, c := v.b, d := v.c, e := v.d + t1, f := v.e, g := v.f, h := v.g }

/-- Words of w bits, most significant byte first. -/
def wordsBe {w : Nat} : Nat → List Byte → List (BitVec w)
  | 0, _ => []
  | n + 1, bs => BitVec.ofNat w (beNat (bs.take (w / 8))) :: wordsBe n (bs.drop (w / 8))
/-- One block. -/
def Sha2.block {w : Nat} (t : Sha2 w) (h : Sha2Vars w) (bs : List Byte) : Sha2Vars w :=
  let v := t.rounds t.k (wordsBe 16 bs) h
  { a := h.a + v.a, b := h.b + v.b, c := h.c + v.c, d := h.d + v.d, e := h.e + v.e, f := h.f + v.f, g := h.g + v.g, h := h.h + v.h }
/-- The blocks of a padded message, n of them left. -/
def Sha2.blocks {w : Nat} (t : Sha2 w) : Nat → List Byte → Sha2Vars w → Sha2Vars w
  | 0, _, h => h
  | n + 1, bs, h => t.blocks n (bs.drop (2 * w)) (t.block h (bs.take (2 * w)))
/-- Padding to blocks of 2w bytes, with the bit length in the last w/4. -/
def sha2Pad (w : Nat) (m : List Byte) : List Byte :=
  m ++ [0x80] ++ List.replicate ((2 * w - (m.length + 1 + w / 4) % (2 * w)) % (2 * w)) 0 ++ beBytes (8 * m.length) (w / 4)
/-- The working variables from eight words. -/
def sha2Init {w : Nat} (l : List (BitVec w)) : Sha2Vars w :=
  { a := l.getD 0 0, b := l.getD 1 0, c := l.getD 2 0, d := l.getD 3 0, e := l.getD 4 0, f := l.getD 5 0, g := l.getD 6 0, h := l.getD 7 0 }
/-- The hash of a message, all eight words. -/
def Sha2.hash {w : Nat} (t : Sha2 w) (init : List (BitVec w)) (m : List Byte) : List Byte :=
  let p := sha2Pad w m
  let h := t.blocks (p.length / (2 * w)) p (sha2Init init)
  [h.a, h.b, h.c, h.d, h.e, h.f, h.g, h.h].flatMap fun x => beBytes x.toNat (w / 8)

/-- The functions of 32-bit words. -/
def sha2w32 : Sha2 32 :=
  { k := (primes80.take 64).map fun p => BitVec.ofNat 32 (rootBits 3 p / 2 ^ 32),
    big0 := (2, 13, 22), big1 := (6, 11, 25), low0 := (7, 18, 3), low1 := (17, 19, 10) }
/-- The functions of 64-bit words. -/
def sha2w64 : Sha2 64 :=
  { k := primes80.map fun p => BitVec.ofNat 64 (rootBits 3 p),
    big0 := (28, 34, 39), big1 := (14, 18, 41), low0 := (1, 8, 7), low1 := (19, 61, 6) }
/-- SHA-256. -/
def hashSha256 (m : List Byte) : List Byte := sha2w32.hash ((primes80.take 8).map fun p => BitVec.ofNat 32 (rootBits 2 p / 2 ^ 32)) m
/-- SHA-512. -/
def hashSha512 (m : List Byte) : List Byte := sha2w64.hash ((primes80.take 8).map fun p => BitVec.ofNat 64 (rootBits 2 p)) m
/-- SHA-384. -/
def hashSha384 (m : List Byte) : List Byte :=
  (sha2w64.hash (((primes80.drop 8).take 8).map fun p => BitVec.ofNat 64 (rootBits 2 p)) m).take 48

/-! ### SHA-3 (FIPS 202) -/

/-- Bits of the LFSR of the round constants, n of them from state r. -/
def keccakLfsr : Nat → Nat → List Bool
  | 0, _ => []
  | n + 1, r => decide (r % 2 = 1) :: keccakLfsr n (if 128 ≤ r then (2 * r) % 256 ^^^ 0x71 else 2 * r)
/-- The constant of a round from its seven bits. -/
def keccakConst (l : List Bool) : BitVec 64 :=
  BitVec.ofNat 64 (((List.range 7).map fun j => if l.getD j false then 2 ^ (2 ^ j - 1) else 0).sum)
/-- The 24 round constants. -/
def keccakConsts : List (BitVec 64) :=
  let l := keccakLfsr 168 1
  (List.range 24).map fun i => keccakConst (l.drop (7 * i))
/-- The lane offsets of rho, by lane x + 5y, from the walk over the 24 lanes. -/
def keccakWalk : Nat → Nat → Nat × Nat → List (Nat × Nat)
  | 0, _, _ => []
  | n + 1, t, p => (p.1 + 5 * p.2, (t + 1) * (t + 2) / 2 % 64) :: keccakWalk n (t + 1) (p.2, (2 * p.1 + 3 * p.2) % 5)
/-- The offset of each lane. -/
def keccakRho : List Nat :=
  let l := keccakWalk 24 0 (1, 0)
  (List.range 25).map fun i => ((l.find? fun e => decide (e.1 = i)).map (·.2)).getD 0

/-- A round of the permutation on 25 lanes. -/
def keccakRound (rho : List Nat) (a : List (BitVec 64)) (rc : BitVec 64) : List (BitVec 64) :=
  let c := (List.range 5).map fun x => (List.range 5).foldl (fun v y => v ^^^ a.getD (x + 5 * y) 0) 0
  let d := (List.range 5).map fun x => c.getD ((x + 4) % 5) 0 ^^^ (c.getD ((x + 1) % 5) 0).rotateLeft 1
  let r := (List.range 25).map fun i => (a.getD i 0 ^^^ d.getD (i % 5) 0).rotateLeft (rho.getD i 0)
  let b := (List.range 25).map fun i => r.getD ((i % 5 + 3 * (i / 5)) % 5 + 5 * (i % 5)) 0
  let e := (List.range 25).map fun i =>
    b.getD i 0 ^^^ (~~~(b.getD ((i + 1) % 5 + 5 * (i / 5)) 0) &&& b.getD ((i + 2) % 5 + 5 * (i / 5)) 0)
  (e.headD 0 ^^^ rc) :: e.drop 1
/-- Keccak-f[1600]. -/
def keccakF (a : List (BitVec 64)) : List (BitVec 64) := let rho := keccakRho; keccakConsts.foldl (keccakRound rho) a
/-- Lanes of a run of bytes, least significant byte first. -/
def keccakLanes (n : Nat) (bs : List Byte) : List (BitVec 64) :=
  (List.range n).map fun i => BitVec.ofNat 64 (leNat (sub bs (8 * i) 8))
/-- The bytes of the lanes. -/
def keccakBytes (a : List (BitVec 64)) : List Byte := a.flatMap fun x => leBytes x.toNat 8
/-- Absorb n blocks of r bytes. -/
def keccakAbsorb (r : Nat) : Nat → List Byte → List (BitVec 64) → List (BitVec 64)
  | 0, _, a => a
  | n + 1, bs, a =>
    keccakAbsorb r n (bs.drop r) (keccakF (List.zipWith (· ^^^ ·) a (keccakLanes 25 (bs.take r))))
/-- Squeeze n blocks of r bytes. -/
def keccakSqueeze (r : Nat) : Nat → List (BitVec 64) → List Byte
  | 0, _ => []
  | n + 1, a => (keccakBytes a).take r ++ keccakSqueeze r n (keccakF a)
/-- The sponge of rate r bytes with the suffix byte `sfx` on a message, `len` bytes out. -/
def keccak (r : Nat) (sfx : Byte) (m : List Byte) (len : Nat) : List Byte :=
  let q := r - m.length % r
  let p := m ++ (if q = 1 then [sfx ||| 0x80] else sfx :: List.replicate (q - 2) 0 ++ [0x80])
  (keccakSqueeze r ((len + r - 1) / r) (keccakAbsorb r (p.length / r) p (List.replicate 25 0))).take len

/-! ### KMAC (SP 800-185) and HMAC (FIPS 198-1) -/

/-- The bytes of n, most significant first, without leading zeros but for one byte. -/
def natBytesMin (n : Nat) : List Byte := beBytes n (if n < 256 then 1 else if n < 65536 then 2 else if n < 16777216 then 3 else 4)
/-- left_encode. -/
def leftEncode (n : Nat) : List Byte := BitVec.ofNat 8 (natBytesMin n).length :: natBytesMin n
/-- right_encode. -/
def rightEncode (n : Nat) : List Byte := natBytesMin n ++ [BitVec.ofNat 8 (natBytesMin n).length]
/-- encode_string. -/
def encodeString (s : List Byte) : List Byte := leftEncode (8 * s.length) ++ s
/-- bytepad to a multiple of r. -/
def bytePad (r : Nat) (x : List Byte) : List Byte :=
  let p := leftEncode r ++ x
  p ++ List.replicate ((r - p.length % r) % r) 0
/-- KMAC on the sponge of rate r bytes: key, customisation string, message, `len` bytes out. -/
def kmacRate (r : Nat) (key cust m : List Byte) (len : Nat) : List Byte :=
  keccak r 0x04 (bytePad r (encodeString [0x4B, 0x4D, 0x41, 0x43] ++ encodeString cust) ++ bytePad r (encodeString key) ++ m
    ++ rightEncode (8 * len)) len
/-- KMAC128. -/
@[irreducible] def kmac128 (key cust m : List Byte) (len : Nat) : List Byte := kmacRate 168 key cust m len
/-- KMAC256. -/
@[irreducible] def kmac256 (key cust m : List Byte) (len : Nat) : List Byte := kmacRate 136 key cust m len
/-- HMAC on a hash function with blocks of b bytes. -/
def hmacOf (hash : List Byte → List Byte) (b : Nat) (key m : List Byte) : List Byte :=
  let k := if b < key.length then hash key else key
  let k := k ++ List.replicate (b - k.length) 0
  hash (k.map (· ^^^ 0x5C) ++ hash (k.map (· ^^^ 0x36) ++ m))
/-- HMAC-SHA-384. -/
@[irreducible] def hmac384 (key m : List Byte) : List Byte := hmacOf hashSha384 128 key m

/-- The digest of a message by the algorithm codes of R115. -/
@[irreducible] def digestOf (alg : Nat) (m : List Byte) : List Byte :=
  match alg with
  | 1 => hashSha256 m
  | 2 => hashSha384 m
  | 3 => hashSha512 m
  | 4 => keccak 136 0x06 m 32
  | 5 => keccak 104 0x06 m 48
  | 6 => keccak 72 0x06 m 64
  | 7 => keccak 136 0x1F m 48
  | _ => []

/-- The SHA-384 of a string, 48 bytes. -/
def sha384 (m : List Byte) : List Byte := digestOf 2 m

end Sys2Proof.Machine
end

