-- ==== Sys2Proof/Machine/Curve.lean ====
section
/-! DEFINITION. The public-key arithmetic of the Kernel engines (10 R312, R313, R316) from the standards that R113 and R312
name: the curves and ECDSA of FIPS 186-5, the nonce of RFC 6979, Ed25519 of RFC 8032, the PSS encoding of RFC 8017. -/

namespace Sys2Proof.Machine

open Sys2Proof

/-- b^e mod m over the low `bits` bits of e. -/
def powMod (b e m : Nat) : Nat → Nat
  | 0 => 1 % m
  | k + 1 =>
    let r := powMod b (e / 2) m k
    if e % 2 = 1 then r * r % m * b % m else r * r % m
/-- The inverse modulo a prime below 2^521. -/
def invMod (a p : Nat) : Nat := powMod a (p - 2) p 521
/-- a − b modulo p. -/
def subMod (a b p : Nat) : Nat := (a + (p - b % p)) % p

/-! ### The curves y² = x³ − 3x + b (R312, R316) -/

/-- Bits of the field and of the order of curve c: P-256, P-384, P-521. -/
def curveBits (c : Nat) : Nat := if c = 0 then 256 else if c = 1 then 384 else 521
/-- The prime. -/
def curveP (c : Nat) : Nat :=
  if c = 0 then 2 ^ 256 - 2 ^ 224 + 2 ^ 192 + 2 ^ 96 - 1
  else if c = 1 then 2 ^ 384 - 2 ^ 128 - 2 ^ 96 + 2 ^ 32 - 1
  else 2 ^ 521 - 1
/-- The order of the base point. -/
def curveN (c : Nat) : Nat :=
  if c = 0 then 2 ^ 256 - 0xffffffff00000000000000004319055258e8617b0c46353d039cdaaf
  else if c = 1 then 2 ^ 384 - 0x389cb27e0bc8d220a7e5f24db74f58851313e695333ad68d
  else 2 ^ 521 - 0x5ae79787c40d069948033feb708f65a2fc44a36477663b851449048e16ec79bf7
/-- The coefficient b. -/
def curveB (c : Nat) : Nat :=
  if c = 0 then 0x5ac635d8aa3a93e7b3ebbd55769886bc651d06b0cc53b0f63bce3c3e27d2604b
  else if c = 1 then 0xb3312fa7e23ee7e4988e056be3f82d19181d9c6efe8141120314088f5013875ac656398d8a2ed19d2a85c8edd3ec2aef
  else 0x51953eb9618e1c9a1f929a21a0b68540eea2da725b99b315f3b8b489918ef109e156193951ec7e937b1652c0bd3bb1bf073573df883d2c34f1ef451fd46b503f00
/-- The base point. -/
def curveG (c : Nat) : Nat × Nat :=
  if c = 0 then (0x6b17d1f2e12c4247f8bce6e563a440f277037d812deb33a0f4a13945d898c296,
    0x4fe342e2fe1a7f9b8ee7eb4a7c0f9e162bce33576b315ececbb6406837bf51f5)
  else if c = 1 then (0xaa87ca22be8b05378eb1c71ef320ad746e1d3b628ba79b9859f741e082542a385502f25dbf55296c3a545e3872760ab7,
    0x3617de4a96262c6f5d9e98bf9292dc29f8f41dbd289a147ce9da3113b5f0b8c00a60b1ce1d7e819d7a431d7c90ea0e5f)
  else (0xc6858e06b70404e9cd9e3ecb662395b4429c648139053fb521f828af606b4d3dbaa14b5e77efe75928fe1dc127a2ffa8de3348b3c1856a429bf97e7e31c2e5bd66,
    0x11839296a789a3bc0045c8a5fb42c7d1bd998f54449579b446817afbd17273e662c97ee72995ef42640c550b9013fad0761353c7086a272c24088be94769fd16650)

/-- The curve equation y² = x³ − 3x + b (mod p). -/
def onCurve (c x y : Nat) : Bool := decide ((y * y + 3 * x) % curveP c = (x * x * x + curveB c) % curveP c)

/-- The sum of two points; none is the point at infinity. -/
def ecAdd (p : Nat) (u v : Option (Nat × Nat)) : Option (Nat × Nat) :=
  match u, v with
  | none, _ => v
  | _, none => u
  | some (x1, y1), some (x2, y2) =>
    if x1 = x2 ∧ (y1 + y2) % p = 0 then none
    else
      let l := if x1 = x2 then subMod (3 * x1 * x1) 3 p * invMod (2 * y1 % p) p % p
        else subMod y2 y1 p * invMod (subMod x2 x1 p) p % p
      let x := subMod (l * l) (x1 + x2) p
      some (x, subMod (l * subMod x1 x p) y1 p)
/-- k times a point, over the low `bits` bits of k. -/
def ecTimes (p : Nat) (u : Option (Nat × Nat)) : Nat → Nat → Option (Nat × Nat)
  | 0, _ => none
  | n + 1, k =>
    let r := ecTimes p u n (k / 2)
    let d := ecAdd p r r
    if k % 2 = 1 then ecAdd p d u else d
/-- k times the point (x, y) of curve c; the point at infinity as (0, 0). -/
@[irreducible] def ecMul (c k x y : Nat) : Nat × Nat := (ecTimes (curveP c) (some (x, y)) (curveBits c) k).getD (0, 0)
/-- The public point of a scalar. -/
@[irreducible] def ecPub (c d : Nat) : Nat × Nat := ecMul c d (curveG c).1 (curveG c).2

/-- The leftmost bits of a byte string as a number, as many as the order has. -/
def digestNat (c : Nat) (h : List Byte) : Nat :=
  if curveBits c < 8 * h.length then beNat h / 2 ^ (8 * h.length - curveBits c) else beNat h
/-- ECDSA verification of a digest: curve, Qx, Qy, r, s. -/
@[irreducible] def ecdsaVerify (c x y r s : Nat) (h : List Byte) : Bool :=
  let n := curveN c
  let p := curveP c
  let w := invMod s n
  let g := curveG c
  match ecAdd p (ecTimes p (some g) (curveBits c) (digestNat c h * w % n)) (ecTimes p (some (x, y)) (curveBits c) (r * w % n)) with
  | some v => decide (0 < r ∧ r < n ∧ 0 < s ∧ s < n ∧ v.1 % n = r)
  | none => false

/-- HMAC with the hash function whose digests have as many bytes as the message digest (R309: 32, 48 or 64). -/
def nonceHmac (len : Nat) : List Byte → List Byte → List Byte :=
  if len = 32 then hmacOf hashSha256 64 else if len = 48 then hmac384 else hmacOf hashSha512 128
/-- V, m times over, and the last V. -/
def nonceFill (f : List Byte → List Byte → List Byte) (k : List Byte) : Nat → List Byte → List Byte × List Byte
  | 0, v => ([], v)
  | m + 1, v => let v := f k v; let r := nonceFill f k m v; (v ++ r.1, r.2)
/-- Candidates for the nonce until one lies between 1 and n − 1; 0 where none of `fuel` does. -/
def nonceLoop (f : List Byte → List Byte → List Byte) (c : Nat) : Nat → List Byte → List Byte → Nat
  | 0, _, _ => 0
  | fuel + 1, k, v =>
    let t := nonceFill f k (((curveBits c + 7) / 8 + v.length - 1) / v.length) v
    let x := digestNat c t.1
    if 0 < x ∧ x < curveN c then x
    else
      let k := f k (t.2 ++ [0])
      nonceLoop f c fuel k (f k t.2)
/-- The nonce of RFC 6979 with the additional input of its section 3.6 (R313). -/
def ecdsaNonce (c d : Nat) (h add : List Byte) : Nat :=
  let f := nonceHmac h.length
  let l := (curveBits c + 7) / 8
  let x := beBytes d l ++ beBytes (digestNat c h % curveN c) l ++ add
  let v := List.replicate h.length (1 : Byte)
  let k := f (List.replicate h.length 0) (v ++ [0] ++ x)
  let v := f k v
  let k := f k (v ++ [1] ++ x)
  nonceLoop f c 64 k (f k v)
/-- ECDSA signature (r, s): curve, d, digest, TRNG input of 32 bytes. -/
@[irreducible] def ecdsaSign (c d : Nat) (h : List Byte) (rand : Nat) : Nat × Nat :=
  let n := curveN c
  let k := ecdsaNonce c d h (beBytes rand 32)
  let r := (ecPub c k).1 % n
  (r, (digestNat c h + r * d) * invMod k n % n)

/-! ### Ed25519 (R313, R315) -/

/-- The prime 2^255 − 19. -/
def edP : Nat := 2 ^ 255 - 19
/-- The order of the base point. -/
def edL : Nat := 2 ^ 252 + 27742317777372353535851937790883648493
/-- The coefficient d = −121665/121666. -/
def edD : Nat := (edP - 121665) * invMod 121666 edP % edP
/-- The x coordinate of y with the given parity; none where there is none. -/
def edX (y sign : Nat) : Option Nat :=
  let p := edP
  let u := subMod (y * y) 1 p
  let v := (edD * (y * y) + 1) % p
  let x := u * powMod v 3 p 2 % p * powMod (u * powMod v 7 p 3 % p) ((p - 5) / 8) p 252 % p
  let x := if v * x % p * x % p = u then some x
    else if v * x % p * x % p = subMod 0 u p then some (x * powMod 2 ((p - 1) / 4) p 253 % p) else none
  match x with
  | none => none
  | some x => if x = 0 ∧ sign = 1 then none else some (if x % 2 = sign then x else p - x)
/-- The point of 32 bytes; none where y ≥ p or no point has it. -/
def edDecode (b : List Byte) : Option (Nat × Nat) :=
  let y := leNat b % 2 ^ 255
  if edP ≤ y then none else (edX y (leNat b / 2 ^ 255 % 2)).map fun x => (x, y)
/-- The sum of two points. -/
def edAdd (a b : Nat × Nat) : Nat × Nat :=
  let p := edP
  let t := edD * (a.1 * b.1 % p) % p * (a.2 * b.2 % p) % p
  ((a.1 * b.2 + b.1 * a.2) * invMod ((1 + t) % p) p % p, (a.2 * b.2 + a.1 * b.1) * invMod (subMod 1 t p) p % p)
/-- k times a point, over the low `bits` bits of k. -/
def edTimes (u : Nat × Nat) : Nat → Nat → Nat × Nat
  | 0, _ => (0, 1)
  | n + 1, k =>
    let r := edTimes u n (k / 2)
    let d := edAdd r r
    if k % 2 = 1 then edAdd d u else d
/-- The base point: y = 4/5, x even. -/
def edBase : Nat × Nat := let y := 4 * invMod 5 edP % edP; ((edX y 0).getD 0, y)
/-- A or R fails to decode (R315). -/
@[irreducible] def edBadEncoding (a r : List Byte) : Bool := (edDecode a).isNone || (edDecode r).isNone
/-- A has order 1, 2, 4 or 8. -/
@[irreducible] def edLowOrder (a : List Byte) : Bool := match edDecode a with | some u => decide (edTimes u 4 8 = (0, 1)) | none => false
/-- The equation [S]B = R + [k]A: A, R ‖ S, message. -/
@[irreducible] def edVerify (a sig m : List Byte) : Bool :=
  match edDecode a, edDecode (sig.take 32) with
  | some u, some r =>
    let k := leNat (hashSha512 (sig.take 32 ++ a ++ m)) % edL
    decide (leNat (sig.drop 32) < edL ∧ edTimes edBase 253 (leNat (sig.drop 32)) = edAdd r (edTimes u 253 k))
  | _, _ => false

/-! ### RSASSA-PSS with SHA-384, MGF1-SHA-384 and a 48-byte salt (R113, R316) -/

/-- MGF1-SHA-384, m blocks from counter i on. -/
def mgf1 (seed : List Byte) : Nat → Nat → List Byte
  | 0, _ => []
  | m + 1, i => hashSha384 (seed ++ beBytes i 4) ++ mgf1 seed m (i + 1)
/-- The encoding check: modulus words, the number s^65537 mod N, mHash. -/
@[irreducible] def pssOk (n v : Nat) (h : List Byte) : Bool :=
  let em := beBytes v (8 * n)
  let l := 8 * n - 49
  let hh := (em.drop l).take 48
  let db := List.zipWith (· ^^^ ·) (em.take l) (mgf1 hh (l / 48 + 1) 0)
  let db := ((db.headD 0) &&& 0x7F) :: db.drop 1
  decide (em.getLast? = some 0xBC) && decide ((em.headD 0).toNat < 128)
    && decide (db.take (l - 48) = List.replicate (l - 49) 0 ++ [1])
    && decide (hashSha384 (List.replicate 8 0 ++ h ++ db.drop (l - 48)) = hh)

end Sys2Proof.Machine
end

