-- ==== Sys2Proof/Machine/HashSig.lean ====
section
/-! DEFINITION. Hash-based signatures (10 R322; 04 R113, R114): LMS/HSS of RFC 8554 with the sets of SP 800-208, XMSS of
RFC 8391. -/

namespace Sys2Proof.Machine

open Sys2Proof

/-- A big-endian number of 4 bytes at offset `o`. -/
def be4 (b : List Byte) (o : Nat) : Nat := beNat (sub b o 4)

/-! ### LMS (RFC 8554, SP 800-208) -/

/-- The hash set of a type's group of codes: 0 SHA-256/256, 1 SHA-256/192, 2 SHAKE256/256, 3 SHAKE256/192. -/
def lmsNode (f : Nat) : Nat := if f % 2 = 0 then 32 else 24
/-- The hash of a set, cut to a node. -/
def lmsHash (f : Nat) (m : List Byte) : List Byte := if f < 2 then (hashSha256 m).take (lmsNode f) else keccak 136 0x1F m (lmsNode f)
/-- Winternitz width of an LM-OTS type. -/
def otsW (t : Nat) : Nat := [1, 2, 4, 8].getD ((t - 1) % 4) 8
/-- The number of its chains. -/
def otsP (t : Nat) : Nat :=
  let chains : List Nat := if (t - 1) / 4 % 2 = 0 then [265, 133, 67, 34] else [200, 101, 51, 26]
  chains.getD ((t - 1) % 4) 0
/-- The left shift of its checksum. -/
def otsShift (t : Nat) : Nat :=
  if otsW t = 8 then 0 else if otsW t = 4 then 4 else if otsW t = 2 then 6 else if (t - 1) / 4 % 2 = 0 then 7 else 8
/-- The height of the tree of an LMS type. -/
def lmsHeight (t : Nat) : Nat := 5 + 5 * ((t - 5) % 5)
/-- An LMS and an LM-OTS type that name one hash set: that set. -/
def lmsSet (lms ots : Nat) : Option Nat :=
  if 5 ≤ lms ∧ lms ≤ 24 ∧ 1 ≤ ots ∧ ots ≤ 16 ∧ (lms - 5) / 5 = (ots - 1) / 4 then some ((lms - 5) / 5) else none
/-- Length of an LM-OTS and of an LMS signature. -/
def otsSigLen (f ots : Nat) : Nat := 4 + lmsNode f * (otsP ots + 1)
/-- The latter: q, LM-OTS signature, LMS type, path. -/
def lmsSigLen (f lms ots : Nat) : Nat := 4 + otsSigLen f ots + 4 + lmsNode f * lmsHeight lms

/-- Digit i of w bits of a byte string, most significant first. -/
def coef (s : List Byte) (i w : Nat) : Nat := (s.getD (i * w / 8) 0).toNat / 2 ^ (8 - w * (i % (8 / w) + 1)) % 2 ^ w
/-- The rest of a Winternitz chain: n steps from step j on. -/
def otsChain (f : Nat) (pre : List Byte) : Nat → Nat → List Byte → List Byte
  | 0, _, x => x
  | n + 1, j, x => otsChain f pre n (j + 1) (lmsHash f (pre ++ beBytes j 1 ++ x))
/-- The LM-OTS public key that a signature of a message yields; `id` is I and q. -/
def otsKey (f t : Nat) (id m sig : List Byte) : List Byte :=
  let n := lmsNode f
  let w := otsW t
  let d := lmsHash f (id ++ [0x81, 0x81] ++ sub sig 4 n ++ m)
  let sum := ((List.range (8 * n / w)).map fun i => 2 ^ w - 1 - coef d i w).sum
  let d := d ++ beBytes (sum * 2 ^ otsShift t) 2
  lmsHash f (id ++ [0x80, 0x80] ++ (List.range (otsP t)).flatMap fun i =>
    otsChain f (id ++ beBytes i 2) (2 ^ w - 1 - coef d i w) (coef d i w) (sub sig (4 + n * (i + 1)) n))
/-- The root that a leaf and its path yield; `r` is the number of the node. -/
def lmsRoot (f : Nat) (id : List Byte) : Nat → Nat → List Byte → List Byte → List Byte
  | 0, _, x, _ => x
  | k + 1, r, x, path =>
    let n := lmsNode f
    let pair := if r % 2 = 1 then path.take n ++ x else x ++ path.take n
    lmsRoot f id k (r / 2) (lmsHash f (id ++ beBytes (r / 2) 4 ++ [0x83, 0x83] ++ pair)) (path.drop n)
/-- An LMS signature of a message under a public key (types, I, root); its types must be the key's. -/
def lmsVerify (key m sig : List Byte) : Bool :=
  match lmsSet (be4 key 0) (be4 key 4) with
  | none => false
  | some f =>
    let id := sub key 8 16
    let h := lmsHeight (be4 key 0)
    let q := be4 sig 0
    let ots := sub sig 4 (otsSigLen f (be4 key 4))
    let x := lmsHash f (id ++ beBytes (2 ^ h + q) 4 ++ [0x82, 0x82] ++ otsKey f (be4 key 4) (id ++ beBytes q 4) m ots)
    decide (be4 sig 4 = be4 key 4 ∧ be4 sig (4 + otsSigLen f (be4 key 4)) = be4 key 0 ∧ q < 2 ^ h)
      && decide (lmsRoot f id h (2 ^ h + q) x (sig.drop (8 + otsSigLen f (be4 key 4))) = sub key 24 (lmsNode f))
/-- The levels of an HSS signature below a key, `k` signed keys left; every level uses the key's types (R322). -/
def hssLevels (m : List Byte) (f : Nat) : Nat → List Byte → List Byte → Bool
  | 0, key, sig => lmsVerify key m sig
  | k + 1, key, sig =>
    let n := lmsSigLen f (be4 key 0) (be4 key 4)
    let next := sub sig n (24 + lmsNode f)
    decide (next.take 8 = key.take 8) && lmsVerify key next (sig.take n) && hssLevels m f k next (sig.drop (n + 24 + lmsNode f))
/-- The length of an HSS signature of L levels. -/
def hssSigLen (f lms ots l : Nat) : Nat := 4 + l * lmsSigLen f lms ots + (l - 1) * (24 + lmsNode f)
/-- The key material and signature of SCHEME 9 have the lengths of their parameters; L is 1 to 4 (R113, R114, R322). -/
def hssOk (k sig : List Byte) : Bool :=
  match lmsSet (be4 k 4) (be4 k 8) with
  | some f =>
    decide (1 ≤ be4 k 0 ∧ be4 k 0 ≤ 4) && decide (k.length = 28 + lmsNode f)
      && decide (sig.length = hssSigLen f (be4 k 4) (be4 k 8) (be4 k 0))
  | none => false
/-- HSS verification: key material, message, signature. -/
@[irreducible] def hssVerify (k m sig : List Byte) : Bool :=
  match lmsSet (be4 k 4) (be4 k 8) with
  | some f => hssOk k sig && decide (be4 sig 0 + 1 = be4 k 0) && hssLevels m f (be4 k 0 - 1) (k.drop 4) (sig.drop 4)
  | none => false

/-! ### XMSS (RFC 8391) -/

/-- The height of the tree of an OID of the scheme table: SHA2_10_256, SHA2_16_256, SHA2_20_256. -/
def xmssHeight (oid : Nat) : Nat := [10, 16, 20].getD (oid - 1) 0
/-- Key material and signature of SCHEME 10: an OID of the table and its signature length (R114). -/
def xmssOk (k sig : List Byte) : Bool :=
  decide (1 ≤ be4 k 0 ∧ be4 k 0 ≤ 3) && decide (sig.length = [2500, 2692, 2820].getD (be4 k 0 - 1) 0)
/-- A keyed hash of RFC 8391: 0 F, 1 H, 2 H_msg, 3 PRF. -/
def xmssHash (kind : Nat) (key m : List Byte) : List Byte := hashSha256 (beBytes kind 32 ++ key ++ m)
/-- The pseudo-random value for an address: its type and four words. -/
def xmssPrf (seed : List Byte) (type a b c d : Nat) : List Byte :=
  xmssHash 3 seed (beBytes 0 12 ++ beBytes type 4 ++ beBytes a 4 ++ beBytes b 4 ++ beBytes c 4 ++ beBytes d 4)
/-- The exclusive or of two byte strings. -/
def xorBytes (a b : List Byte) : List Byte := List.zipWith (· ^^^ ·) a b
/-- The hash of two nodes at an address. -/
def xmssNode (seed : List Byte) (type a b c : Nat) (l r : List Byte) : List Byte :=
  let g := xmssPrf seed type a b c
  xmssHash 1 (g 0) (xorBytes l (g 1) ++ xorBytes r (g 2))
/-- Steps of the chain i of the key pair of leaf `idx`, n of them from step j on. -/
def xmssChain (seed : List Byte) (idx i : Nat) : Nat → Nat → List Byte → List Byte
  | 0, _, x => x
  | n + 1, j, x =>
    let g := xmssPrf seed 0 idx i j
    xmssChain seed idx i n (j + 1) (xmssHash 0 (g 0) (xorBytes x (g 1)))
/-- One level of an L-tree; `i` is the number of the pair. -/
def xmssPairs (seed : List Byte) (idx h : Nat) : Nat → List (List Byte) → List (List Byte)
  | i, l :: r :: t => xmssNode seed 1 idx h i l r :: xmssPairs seed idx h (i + 1) t
  | _, t => t
/-- The root of an L-tree in at most n levels. -/
def xmssLtree (seed : List Byte) (idx : Nat) : Nat → Nat → List (List Byte) → List Byte
  | 0, _, l => l.headD []
  | n + 1, h, l => if l.length ≤ 1 then l.headD [] else xmssLtree seed idx n (h + 1) (xmssPairs seed idx h 0 l)
/-- The root that a leaf and its path yield: n levels from height k on. -/
def xmssRoot (seed : List Byte) : Nat → Nat → Nat → List Byte → List Byte → List Byte
  | 0, _, _, x, _ => x
  | n + 1, k, i, x, path =>
    let p := path.take 32
    let x := if i % 2 = 0 then xmssNode seed 2 0 k (i / 2) x p else xmssNode seed 2 0 k (i / 2) p x
    xmssRoot seed n (k + 1) (i / 2) x (path.drop 32)
/-- XMSS verification: key material (OID, root, seed), message, signature. -/
@[irreducible] def xmssVerify (k m sig : List Byte) : Bool :=
  let h := xmssHeight (be4 k 0)
  let root := sub k 4 32
  let seed := sub k 36 32
  let idx := be4 sig 0
  let d := xmssHash 2 (sub sig 4 32 ++ root ++ beBytes idx 32) m
  let sum := ((List.range 64).map fun i => 15 - coef d i 4).sum
  let d := d ++ beBytes (sum * 16) 2
  let pk := (List.range 67).map fun i => xmssChain seed idx i (15 - coef d i 4) (coef d i 4) (sub sig (36 + 32 * i) 32)
  xmssOk k sig && decide (idx < 2 ^ h)
    && decide (xmssRoot seed h 0 idx (xmssLtree seed idx 7 0 pk) (sig.drop (36 + 32 * 67)) = root)

end Sys2Proof.Machine
end

