-- ==== Sys2Proof/Machine/Lattice.lean ====
section
/-! DEFINITION. ML-DSA verification (10 R312, R313, R315; FIPS 204) for the parameter sets 44, 65 and 87. -/

namespace Sys2Proof.Machine

open Sys2Proof

/-- The modulus of R303. -/
def latQ : Nat := 8380417
/-- A parameter set: rows and columns of the matrix, weight of the challenge, bits of the mask range γ1, the rounding range
γ2, β, ω and the bytes of the challenge hash. -/
structure LatSet where
  k     : Nat
  l     : Nat
  tau   : Nat
  gBits : Nat
  g2    : Nat
  beta  : Nat
  omega : Nat
  cLen  : Nat
deriving DecidableEq, Repr
/-- The set of an operation code's index: 44, 65, 87. -/
def latSet (i : Nat) : LatSet :=
  if i = 0 then { k := 4, l := 4, tau := 39, gBits := 17, g2 := (latQ - 1) / 88, beta := 78, omega := 80, cLen := 32 }
  else if i = 1 then { k := 6, l := 5, tau := 49, gBits := 19, g2 := (latQ - 1) / 32, beta := 196, omega := 55, cLen := 48 }
  else { k := 8, l := 7, tau := 60, gBits := 19, g2 := (latQ - 1) / 32, beta := 120, omega := 75, cLen := 64 }

/-- A polynomial: its 256 coefficients modulo q. -/
abbrev Poly := List Nat

/-- b^e modulo q over the low `bits` bits of e. -/
def latPow (b e : Nat) : Nat → Nat
  | 0 => 1
  | n + 1 => let r := latPow (b * b % latQ) (e / 2) n; if e % 2 = 1 then r * b % latQ else r
/-- The eight bits of i reversed. -/
def bitRev8 (i : Nat) : Nat := ((List.range 8).map fun j => i / 2 ^ j % 2 * 2 ^ (7 - j)).sum
/-- The value of a polynomial at x. -/
def polyAt (w : Poly) (x : Nat) : Nat := w.foldr (fun c v => (v * x + c) % latQ) 0
/-- The transform of FIPS 204: the values at the odd powers of the root 1753, in bit-reversed order. -/
def latNtt (w : Poly) : Poly := (List.range 256).map fun i => polyAt w (latPow 1753 (2 * bitRev8 i + 1) 9)
/-- The coefficients of a transformed polynomial. -/
def latInv (v : Poly) : Poly :=
  let u := (List.range 256).map fun i => v.getD (bitRev8 i) 0
  (List.range 256).map fun j => polyAt u (latPow 1753 (512 - 2 * j) 10) * latPow 1753 (512 - j) 10 % latQ * 8347681 % latQ
/-- Sums and products of transformed polynomials. -/
def polyAdd (a b : Poly) : Poly := List.zipWith (fun x y => (x + y) % latQ) a b
/-- A difference. -/
def polySub (a b : Poly) : Poly := List.zipWith (fun x y => (x + latQ - y) % latQ) a b
/-- A product, value by value. -/
def polyMul (a b : Poly) : Poly := List.zipWith (fun x y => x * y % latQ) a b

/-- Field i of b bits of a little-endian number. -/
def latField (v b i : Nat) : Nat := v / 2 ^ (b * i) % 2 ^ b

/-- SHAKE256. -/
def shake256 (m : List Byte) (len : Nat) : List Byte := keccak 136 0x1F m len
/-- The coefficients below q of a stream of 3-byte groups. -/
def rejNtt : List Byte → Poly
  | a :: b :: c :: t =>
    let z := a.toNat + 256 * b.toNat + 65536 * (c.toNat % 128)
    if z < latQ then z :: rejNtt t else rejNtt t
  | _ => []
/-- The entry of the matrix in row r and column s. -/
def latEntry (rho : List Byte) (r s : Nat) : Poly :=
  (rejNtt (keccak 168 0x1F (rho ++ [BitVec.ofNat 8 s, BitVec.ofNat 8 r]) 900)).take 256
/-- The challenge from a stream of positions: position i is filled next, `signs` holds the sign bits. -/
def ballFill (tau signs : Nat) : List Byte → Nat → Poly → Poly
  | [], _, c => c
  | b :: t, i, c =>
    if i = 256 then c
    else if b.toNat ≤ i then
      ballFill tau signs t (i + 1)
        ((c.set i (c.getD b.toNat 0)).set b.toNat (if signs / 2 ^ (i + tau - 256) % 2 = 1 then latQ - 1 else 1))
    else ballFill tau signs t i c
/-- The challenge of a challenge hash. -/
def latBall (s : LatSet) (c : List Byte) : Poly :=
  let b := shake256 c 544
  ballFill s.tau (leNat (b.take 8)) (b.drop 8) (256 - s.tau) (List.replicate 256 0)

/-- The bytes of mask vector j in a signature, as fields of gBits + 1 bits. -/
def latMask (s : LatSet) (sig : List Byte) (j : Nat) : List Nat :=
  let n := 32 * (s.gBits + 1)
  let v := leNat (sub sig (s.cLen + n * j) n)
  (List.range 256).map (latField v (s.gBits + 1))
/-- The hint bytes of a signature. -/
def latHint (s : LatSet) (sig : List Byte) : List Byte := sig.drop (s.cLen + 32 * (s.gBits + 1) * s.l)
/-- Where the positions of row i end. -/
def hintEnd (s : LatSet) (y : List Byte) (i : Nat) : Nat := (y.getD (s.omega + i) 0).toNat
/-- Where they start. -/
def hintStart (s : LatSet) (y : List Byte) (i : Nat) : Nat := if i = 0 then 0 else hintEnd s y (i - 1)
/-- The positions of row i. -/
def hintRow (s : LatSet) (y : List Byte) (i : Nat) : List Byte := (y.take (hintEnd s y i)).drop (hintStart s y i)
/-- The hint of a signature is malformed (R315). -/
@[irreducible] def mldsaBadEncoding (i : Nat) (sig : List Byte) : Bool :=
  let s := latSet i
  let y := latHint s sig
  !((List.range s.k).all fun r =>
      decide (hintStart s y r ≤ hintEnd s y r ∧ hintEnd s y r ≤ s.omega)
        && ((hintRow s y r).zip ((hintRow s y r).drop 1)).all fun e => decide (e.1.toNat < e.2.toNat))
    || !(((y.take s.omega).drop (hintEnd s y (s.k - 1))).all fun b => decide (b = 0))

/-- The high part of a coefficient, moved by a hint. -/
def useHint (g2 : Nat) (h : Bool) (r : Nat) : Nat :=
  let m := (latQ - 1) / (2 * g2)
  let low := r % (2 * g2)
  let r1 := (r / (2 * g2) + (if g2 < low then 1 else 0)) % m
  if h then (if 0 < low ∧ low ≤ g2 then (r1 + 1) % m else (r1 + m - 1) % m) else r1
/-- A polynomial of b-bit coefficients as bytes. -/
def latPack (b : Nat) (w : Poly) : List Byte := leBytes (w.foldr (fun c v => v * 2 ^ b + c) 0) (32 * b)

/-- ML-DSA verification with an empty context string: parameter set, public key, signature, message. -/
@[irreducible] def mldsaVerify (i : Nat) (pk sig m : List Byte) : Bool :=
  let s := latSet i
  let rho := pk.take 32
  let z := (List.range s.l).map (latMask s sig)
  let zh := z.map fun v => latNtt (v.map fun c => (2 ^ s.gBits + latQ - c) % latQ)
  let ch := latNtt (latBall s (sig.take s.cLen))
  let y := latHint s sig
  let w := (List.range s.k).map fun r =>
    let t := leNat (sub pk (32 + 320 * r) 320)
    let t1 := latNtt ((List.range 256).map fun j => latField t 10 j * 8192 % latQ)
    let az := (List.range s.l).foldl (fun v j => polyAdd v (polyMul (latEntry rho r j) (zh.getD j []))) (List.replicate 256 0)
    let row := (hintRow s y r).map (·.toNat)
    latPack (if i = 0 then 6 else 4) ((latInv (polySub az (polyMul ch t1))).zipIdx.map fun e => useHint s.g2 (row.contains e.2) e.1)
  let mu := shake256 (shake256 pk 64 ++ [0, 0] ++ m) 64
  (z.all fun v => v.all fun c => decide (s.beta < c ∧ c + s.beta < 2 * 2 ^ s.gBits))
    && decide (shake256 (mu ++ w.flatten) s.cLen = sig.take s.cLen)

end Sys2Proof.Machine
end

