-- ==== Sys2Proof/Machine/Tab.lean ====
section
/-! DEFINITION. Sparse tables: the canonical list form of every memory and of every bank of like things. -/

namespace Sys2Proof.Machine

/-- A sparse table: (key, value) pairs, keys strictly rising, no value equal to what an unlisted key reads as. -/
abbrev Tab (α : Type) := List (Nat × α)

/-- The value at key `n`; `d` is what an unlisted key reads as. -/
def Tab.get {α : Type} (d : α) : Tab α → Nat → α
  | [], _ => d
  | (k, v) :: t, n => if k = n then v else Tab.get d t n

/-- The table without key `n`. -/
def Tab.del {α : Type} : Tab α → Nat → Tab α
  | [], _ => []
  | (k, v) :: t, n => if k = n then Tab.del t n else (k, v) :: Tab.del t n

/-- `v` inserted at key `n` of a table that does not list `n`, in key order. -/
def Tab.ins {α : Type} : Tab α → Nat → α → Tab α
  | [], n, v => [(n, v)]
  | (k, w) :: t, n, v => if n < k then (n, v) :: (k, w) :: t else (k, w) :: Tab.ins t n v

/-- The table with `v` at key `n`; writing the unlisted value removes the entry. -/
def Tab.put {α : Type} [DecidableEq α] (d : α) (t : Tab α) (n : Nat) (v : α) : Tab α :=
  if v = d then Tab.del t n else Tab.ins (Tab.del t n) n v

/-- Change the value at key `n` by `f`. -/
def Tab.upd {α : Type} [DecidableEq α] (d : α) (t : Tab α) (n : Nat) (f : α → α) : Tab α :=
  Tab.put d t n (f (Tab.get d t n))

/-- Every key of `t` lies above `n`. -/
def Tab.above {α : Type} (n : Nat) : Tab α → Bool
  | [] => true
  | (k, _) :: t => decide (n < k) && Tab.above n t

/-- The canonical form: keys strictly rising, no listed value equal to the unlisted one. -/
def Tab.wf {α : Type} [DecidableEq α] (d : α) : Tab α → Bool
  | [] => true
  | (k, v) :: t => decide (v ≠ d) && Tab.above k t && Tab.wf d t

/-- The `len` values from key `n` on. -/
def Tab.range {α : Type} (d : α) (t : Tab α) (n : Nat) : Nat → List α
  | 0 => []
  | len + 1 => Tab.get d t n :: Tab.range d t (n + 1) len

/-- The table with the values `vs` at the keys from `n` on. -/
def Tab.putList {α : Type} [DecidableEq α] (d : α) (t : Tab α) (n : Nat) : List α → Tab α
  | [] => t
  | v :: vs => Tab.putList d (Tab.put d t n v) (n + 1) vs

/-- The table with every key in [lo, hi) unlisted. -/
def Tab.clear {α : Type} (t : Tab α) (lo hi : Nat) : Tab α :=
  t.filter fun e => decide (e.1 < lo ∨ hi ≤ e.1)

end Sys2Proof.Machine
end

