-- ==== Sys2Proof/Machine/Containers.lean ====
section
/-! DEFINITION. Container layouts and signature checks (04). -/

namespace Sys2Proof.Machine

open Sys2Proof

/-- The frame header of a container of `type` with body length `body` (R107, R109); signed types carry a scheme and a
signer, unsigned ones carry none. -/
def frameOk (c : List Byte) (type body : Nat) (signed : Bool) : Bool :=
  decide (field c 0 4 = 0x4E434657) && decide (field c 4 2 = type) && decide (field c 6 2 = 1)
    && decide (field c 8 4 = body) && decide (body % 16 = 0) && zeros c 0x13 13
    && (if signed then decide (1 ≤ field c 0x10 2 ∧ field c 0x10 2 ≤ 0x0A) && decide (field c 0x0C 4 ≠ 0)
          && decide ((byteAt c 0x12).toNat < 16 ∨ byteAt c 0x12 = 0xFE)
        else decide (field c 0x0C 4 = 0) && decide (field c 0x10 2 = 0) && decide (byteAt c 0x12 = 0xFF))

/-- SCHEME of a container (R107). -/
def cScheme (c : List Byte) : Nat := field c 0x10 2
/-- SIGNER_KD of a container (R107). -/
def cSigner (c : List Byte) : Nat := (byteAt c 0x12).toNat
/-- BODY_LENGTH (R107). -/
def cBody (c : List Byte) : Nat := field c 8 4
/-- SIG_LENGTH (R107). -/
def cSigLen (c : List Byte) : Nat := field c 0x0C 4
/-- The signed message: bytes 0x00 to 0x1F + BODY_LENGTH (R108). -/
def cMessage (c : List Byte) : List Byte := c.take (0x20 + cBody c)
/-- The container digest: SHA-384 of the message (R108). -/
def cDigest (c : List Byte) : List Byte := sha384 (cMessage c)
/-- The signature block (R108). -/
def cSigBlock (c : List Byte) : List Byte := sub c (0x20 + cBody c) (cSigLen c)

/-- KEYBLOCK_LENGTH of a signature block (R111). -/
def sbKeyLen (b : List Byte) : Nat := field b 0 4
/-- SIGNATURE_LENGTH of a signature block (R111). -/
def sbSigLen (b : List Byte) : Nat := field b 4 4
/-- The key block without padding (R112). -/
def sbKeyBlock (b : List Byte) : List Byte := sub b 16 (sbKeyLen b)
/-- The signature without padding (R111). -/
def sbSignature (b : List Byte) : List Byte := sub b (16 + roundUp (sbKeyLen b) 16) (sbSigLen b)
/-- The form fields of a signature block: reserved bytes, padding, total length (R111). -/
def sbFormOk (b : List Byte) (sigLen : Nat) : Bool :=
  let k := roundUp (sbKeyLen b) 16
  let g := roundUp (sbSigLen b) 16
  zeros b 8 8 && decide (sigLen = 16 + k + g) && decide (b.length = sigLen)
    && zeros b (16 + sbKeyLen b) (k - sbKeyLen b) && zeros b (16 + k + sbSigLen b) (g - sbSigLen b)

/-- Modulus bits an RSA key block may state (R113). -/
def rsaParamOk (n : Nat) : Bool := decide (2048 ≤ n ∧ n ≤ 8192 ∧ n % 64 = 0)

/-- Key block and signature lengths of a scheme (R113). -/
def schemeLengthsOk (scheme param kl sl : Nat) : Bool :=
  match scheme with
  | 1 => decide (kl = 72 ∧ sl = 64)
  | 2 => decide (kl = 104 ∧ sl = 96)
  | 3 => decide (kl = 140 ∧ sl = 132)
  | 4 => decide (kl = 12 + param / 8 ∧ sl = param / 8)
  | 5 => decide (kl = 40 ∧ sl = 64)
  | 6 => decide (kl = 1384 ∧ sl = 2484)
  | 7 => decide (kl = 2056 ∧ sl = 3405)
  | 8 => decide (kl = 2696 ∧ sl = 4723)
  | 9 => decide ((kl = 68 ∨ kl = 60) ∧ sl ≤ 16384)
  | 10 => decide (kl = 76 ∧ (sl = 2500 ∨ sl = 2692 ∨ sl = 2820))
  | _ => false

/-- PARAM of a key block (R112, R113). -/
def paramOk (scheme param : Nat) : Bool := if scheme = 4 then rsaParamOk param else decide (param = 0)

/-- The key block passes R112 and R114 against the container's scheme. -/
def keyBlockOk (scheme : Nat) (b : List Byte) : Bool :=
  let k := sbKeyBlock b
  decide (field k 0 2 = scheme) && zeros k 4 4 && paramOk scheme (field k 2 2)
    && schemeLengthsOk scheme (field k 2 2) (sbKeyLen b) (sbSigLen b)
    && (if scheme = 4 then decide (128 ≤ (byteAt k 8).toNat)
          && decide (sub k (8 + field k 2 2 / 8) 4 = [0, 1, 0, 1]) else true)
    && (if scheme = 9 then hssOk (k.drop 8) (sbSignature b) else true)
    && (if scheme = 10 then xmssOk (k.drop 8) (sbSignature b) else true)

/-- The hash-based schemes run on a lane (R322). -/
def hashScheme (scheme : Nat) : Bool := decide (scheme = 9 ∨ scheme = 10)

/-- Lengths of the ECDSA parts of a hybrid: key, signature, ECDSA scheme, ML-DSA scheme (R113). -/
def hybridParts (scheme : Nat) : Option (Nat × Nat × Nat × Nat) :=
  match scheme with
  | 6 => some (64, 64, 1, 0x44) | 7 => some (96, 96, 2, 0x65) | 8 => some (96, 96, 2, 0x87) | _ => none

/-- ECDSA of curve c on a key X ‖ Y and a signature r ‖ s, with the checks of R315. -/
def ecdsaPart (c : Nat) (key digest sig : List Byte) : Bool :=
  let l := (curveBits c + 7) / 8
  let x := beNat (key.take l)
  let y := beNat (key.drop l)
  decide (x < curveP c ∧ y < curveP c) && onCurve c x y && ecdsaVerify c x y (beNat (sig.take l)) (beNat (sig.drop l)) digest
/-- RSASSA-PSS on a key modulus ‖ exponent. -/
def rsaPart (key digest sig : List Byte) : Bool :=
  let m := beNat (key.take (key.length - 4))
  let s := beNat sig
  decide (m % 2 = 1 ∧ 0 < s ∧ s < m) && pssOk ((key.length - 4) / 8) (powMod s 65537 m 17) digest
/-- Verification of one signature part by its code: a single scheme of R113, or 0x44, 0x65, 0x87 for the ML-DSA part of a
hybrid. -/
def partVerifies (scheme : Nat) (key digest sig : List Byte) : Bool :=
  match scheme with
  | 1 => ecdsaPart 0 key digest sig
  | 2 => ecdsaPart 1 key digest sig
  | 3 => ecdsaPart 2 key digest sig
  | 4 => rsaPart key digest sig
  | 5 => !edBadEncoding key (sig.take 32) && !edLowOrder key && edVerify key sig digest
  | 9 => hssVerify key digest sig
  | 10 => xmssVerify key digest sig
  | 0x44 => !mldsaBadEncoding 0 sig && mldsaVerify 0 key sig digest
  | 0x65 => !mldsaBadEncoding 1 sig && mldsaVerify 1 key sig digest
  | 0x87 => !mldsaBadEncoding 2 sig && mldsaVerify 2 key sig digest
  | _ => false
/-- The signature of a block over a 48-byte digest verifies; both parts of a hybrid must (R113). -/
def sigVerifies (scheme : Nat) (digest : List Byte) (b : List Byte) : Bool :=
  let key := (sbKeyBlock b).drop 8
  let sig := sbSignature b
  match hybridParts scheme with
  | some (kl, sl, e, m) => partVerifies e (key.take kl) digest (sig.take sl) && partVerifies m (key.drop kl) digest (sig.drop sl)
  | none => partVerifies scheme key digest sig

/-- The key-block digest (R112). -/
def keyDigest (b : List Byte) : List Byte := sha384 (sbKeyBlock b)

/-- Length of a digest algorithm's output (R115). -/
def digestLen (alg : Nat) : Nat :=
  match alg with
  | 1 => 32 | 2 => 48 | 3 => 64 | 4 => 32 | 5 => 48 | 6 => 64 | 7 => 48 | _ => 0
/-- A digest in the 64-byte form of R116. -/
def digest64 (alg : Nat) (m : List Byte) : List Byte := padTo (padTo (digestOf alg m) (digestLen alg)) 64
/-- The 48-byte form of a slot digest (R116). -/
def digest48 (d64 : List Byte) : List Byte := d64.take 48

/-! ### Operand memory (R307, R319) -/

/-- An integer of k words from word w on (R307). -/
def memInt (m : Tab W64) (w : Nat) : Nat → Nat
  | 0 => 0
  | k + 1 => (Tab.get 0 m w).toNat + 2 ^ 64 * memInt m (w + 1) k
/-- A byte string of n bytes from word w on (R307). -/
def memBytes (m : Tab W64) (w n : Nat) : List Byte := leBytes (memInt m w (ceilDiv n 8)) n
/-- An integer written to k words from word w on. -/
def memPutInt (m : Tab W64) (w v : Nat) (k : Nat) : Tab W64 :=
  Tab.putList 0 m w ((List.range k).map fun i => BitVec.ofNat 64 (v / 2 ^ (64 * i)))

/-- What the verdict unit writes into operand memory for one part of a signature: big-endian strings of R113 in the
integer form, byte strings as they are. -/
def partMem (scheme : Nat) (key digest sig : List Byte) : Tab W64 :=
  let num : Tab W64 → Nat → List Byte → Tab W64 := fun m w b => memPutInt m w (beNat b) (ceilDiv b.length 8)
  let str : Tab W64 → Nat → List Byte → Tab W64 := fun m w b => memPutInt m w (leNat b) (ceilDiv b.length 8)
  match scheme with
  | 1 | 2 | 3 =>
    let l := (curveBits (scheme - 1) + 7) / 8
    str (num (num (num (num [] 0x080 (key.take l)) 0x100 (key.drop l)) 0x180 (sig.take l)) 0x200 (sig.drop l)) 0x380 digest
  | 4 => str (num (num [] 0x000 (key.take (key.length - 4))) 0x080 sig) 0x380 digest
  | 5 => str (str (str [] 0x080 key) 0x100 sig) 0x380 digest
  | _ => str (str (str [] 0x000 key) 0x160 sig) 0x3C0 digest
/-- Operand memory of a chain-mode operation on a signature block over a digest, of the second part of a hybrid where
`second` says so (R319, R320). -/
def chainMem (scheme : Nat) (digest b : List Byte) (second : Bool) : Tab W64 :=
  let key := (sbKeyBlock b).drop 8
  let sig := sbSignature b
  match hybridParts scheme with
  | some (kl, sl, e, m) =>
    if second then partMem m (key.drop kl) digest (sig.drop sl) else partMem e (key.take kl) digest (sig.take sl)
  | none => partMem scheme key digest sig
/-- Leave tokens of a chain-mode verification: of the larger part of a hybrid (R312, R320). -/
def chainTokens (scheme : Nat) (b : List Byte) : Nat :=
  if scheme = 4 then (if field (sbKeyBlock b) 2 2 ≤ 4096 then 2 else 3) else if (hybridParts scheme).isSome then 3 else 2

/-! ### Schedule containers (R126) -/

/-- SECTION_COUNT. -/
def secCount (c : List Byte) : Nat := field c 0x24 4
/-- Section i of the section table: type, offset, length. -/
def secEntry (c : List Byte) (i : Nat) : Nat × Nat × Nat :=
  (field c (0x30 + 16 * i) 2, field c (0x34 + 16 * i) 4, field c (0x38 + 16 * i) 4)
/-- A section table holds exactly the types listed, in order, and the sections stand in that order without overlap, each
on a 64-byte boundary, inside the container. -/
def sectionsOk (c : List Byte) (types : List Nat) : Bool :=
  decide (secCount c = types.length) && zeros c 0x21 3 && zeros c 0x28 8
    && (List.range types.length).all fun i =>
      let e := secEntry c i
      decide (e.1 = types.getD i 0) && zeros c (0x32 + 16 * i) 2 && zeros c (0x3C + 16 * i) 4
        && decide (e.2.1 % 64 = 0 ∧ 0x30 + 16 * types.length ≤ e.2.1 ∧ e.2.1 + e.2.2 ≤ 0x20 + cBody c)
        && (decide (i = 0) || decide ((secEntry c (i - 1)).2.1 + (secEntry c (i - 1)).2.2 ≤ e.2.1))
/-- The bytes of a section. -/
def sectionOf (c : List Byte) (type : Nat) : List Byte :=
  match (List.range (secCount c)).find? fun i => decide ((secEntry c i).1 = type) with
  | some i => sub c (secEntry c i).2.1 (secEntry c i).2.2
  | none => []

/-- A legend entry keeps the rules of R182 and names no reserved action (R172). -/
def legendOk (w : Nat) : Bool :=
  decide (w % 16 = 0) && (if bitOf w 31 then decide (bitsOf w 27 16 = 0)
      && decide (bitsOf w 30 28 = 0 ∨ bitsOf w 30 28 = 1 ∨ bitsOf w 30 28 = 5)
    else decide (bitsOf w 30 28 = 0) && (List.range 4).all fun i => decide (bitsOf w (18 + 3 * i) (16 + 3 * i) ≠ 7))
/-- A trie entry of a port with `cLanes` lanes in its C phase holds no reserved value (R17, R172, R177, R196). The other
bits of an empty entry (KIND 0b00) have no layout in the spec; the model accepts any value of them (log 66, DESIGN CHOICE). -/
def trieEntryOk (cLanes n : Nat) : Bool :=
  match bitsOf n 127 126 with
  | 0 => true
  | 1 => decide (bitsOf n 93 0 = 0) && decide (bitsOf n 109 94 < 2 ^ 2 ^ cLanes)
  | 2 => decide (bitsOf n 123 121 ≠ 7 ∧ bitsOf n 117 116 ≠ 3 ∧ bitsOf n 115 114 ≠ 3 ∧ bitsOf n 113 112 ≠ 3
      ∧ bitsOf n 105 104 ≠ 3 ∧ bitsOf n 102 101 ≠ 3 ∧ bitsOf n 49 47 ≠ 7 ∧ bitsOf n 46 0 = 0)
  | _ => false
/-- The control context of a port holds no reserved value (R182, R198, R258). -/
def controlContextOk (c : List Byte) : Bool :=
  ((List.range 16).all fun i => legendOk (field c (4 * i) 4))
    && ((List.range 4).all fun i => decide (byteAt c (0x53 + 4 * i) = 0) && decide (field c (0x50 + 4 * i) 3 ≠ 0))
    && decide (20 ≤ (byteAt c 0x60).toNat ∧ (byteAt c 0x60).toNat ≤ 28) && decide ((byteAt c 0x61).toNat < 8)
    && decide ((byteAt c 0x62).toNat < 8) && decide (byteAt c 0x61 ≠ byteAt c 0x62)
    && decide (bitsOf (byteAt c 0x63).toNat 3 2 = 0) && zeros c 0x64 28
/-- A region context holds no reserved value: unused, answer, glean, pin, serve set (R199, R200, R255, R259 to R261). Bytes 1
to 127 of an unused one (KIND 0x00) have no layout in the spec; the model accepts any value of them (log 66, DESIGN CHOICE). -/
def regionContextOk (c : List Byte) : Bool :=
  match (byteAt c 0).toNat with
  | 0 => true
  | 1 => decide (1 ≤ (byteAt c 1).toNat ∧ (byteAt c 1).toNat ≤ 64) && decide ((byteAt c 2).toNat < (byteAt c 1).toNat)
      && decide ((byteAt c 3).toNat ≤ 1) && zeros c 4 60 && zeros c (0x40 + (byteAt c 1).toNat) (64 - (byteAt c 1).toNat)
  | 2 => decide (1 ≤ (byteAt c 1).toNat ∧ (byteAt c 1).toNat ≤ 6) && zeros c 2 126
  | 3 => zeros c 1 3 && decide (field c 4 4 % 4096 = 0)
      && decide (4096 ≤ field c 8 4 ∧ field c 8 4 ≤ 8 * 1024 * 1024 ∧ field c 8 4 % 4096 = 0) && zeros c 0x14 108
  | 4 => decide ((byteAt c 1).toNat = 1 ∨ (byteAt c 1).toNat = 2) && zeros c 2 126
  | _ => false
/-- The 128 contexts of a port (R198 to R200, R255, R259 to R261). -/
def contextsOk (ctx : List Byte) : Bool :=
  controlContextOk (ctx.take 128) && ((List.range 127).all fun i => regionContextOk (sub ctx (128 * (i + 1)) 128))
    && decide (((List.range 127).filter fun i => decide ((byteAt ctx (128 * (i + 1))).toNat = 4)).length ≤ 1)
/-- A record of the RULES section: INDEX, reserved bytes, and an entry without reserved values whose BUILD reads 0
(R185). -/
def ruleRecordOk (r : List Byte) : Bool :=
  let e := field r 16 16
  decide (field r 0 4 < 131072) && zeros r 4 12 && decide (bitsOf e 126 120 < 96) && decide (bitsOf e 83 81 ≠ 7)
    && decide (bitsOf e 68 0 = 0)

/-- A PORT_PARAMS record is in range (R527). -/
def paramsOk (r : List Byte) (port : Nat) : Bool :=
  decide ((byteAt r 0).toNat = port) && decide (byteAt r 1 = 0 ∨ byteAt r 1 = 3)
    && decide (byteAt r 2 = 1 ∨ byteAt r 2 = 2 ∨ byteAt r 2 = 4) && decide ((byteAt r 3).toNat < 2)
    && decide (1000 ≤ field r 4 4 ∧ field r 4 4 ≤ 104000) && decide ((byteAt r 8).toNat < 8)
    && decide ((byteAt r 9).toNat < 7) && decide ((byteAt r 10).toNat < 7)
    && decide ((byteAt r 11).toNat % 16 = 0) && decide ((byteAt r 12).toNat &&& (255 - (byteAt r 11).toNat) = 0)
    && zeros r 13 19

/-- A PROOF section keeps its form (R238, R239). The rule does not call the codes of a row that it does not list (PORT, TRIE, PATH, KIND)
reserved; the model accepts them (log 66, DESIGN CHOICE). -/
def proofOk (r : List Byte) : Bool :=
  decide (field r 0 2 = 1) && zeros r 8 8 && decide (r.length = 64 + 32 * field r 4 4)
    && (List.range (field r 4 4)).all fun i =>
      zeros r (64 + 32 * i + 7) 1 && zeros r (64 + 32 * i + 10) 2 && zeros r (64 + 32 * i + 24) 8

/-- A SHAPE byte of a MASTER read with its clock code: lanes one, two or four; DTR only on four lanes and exactly at a DTR
clock (R134, R472). -/
def shapeOk (clock shape : Nat) : Bool :=
  decide (shape < 16) && decide (shape % 4 ≠ 3) && decide (bitOf shape 2 = decide (4 ≤ clock))
    && (!bitOf shape 2 || decide (shape % 4 = 2))
/-- A list of MASTER frame records ends with a record of OUT_LEN 0 and zeros, each record in range (R528). -/
def masterFramesOk (r : List Byte) : Nat → Bool
  | 0 => r.all (· = 0)
  | n + 1 =>
    if byteAt r 0 = 0 then r.all (· = 0)
    else decide ((byteAt r 0).toNat ≤ 8 ∧ (byteAt r 1).toNat ≤ 4 ∧ (byteAt r 2).toNat < 32 ∧ (byteAt r 3).toNat < 4)
      && (decide ((byteAt r 1).toNat ≠ 0) || decide (byteAt r 2 = 0)) && zeros r (4 + (byteAt r 0).toNat) (8 - (byteAt r 0).toNat)
      && zeros r 0x14 4 && masterFramesOk (r.drop 24) n
/-- An ENTRY_SEQ record of port p; an unused port's is zero (R528). -/
def entryRecOk (r : List Byte) (p : Nat) (used : Bool) : Bool :=
  decide ((byteAt r 0).toNat = p)
    && (if used then
      decide ((byteAt r 1).toNat < 7 ∧ (byteAt r 2).toNat < 32 ∧ (byteAt r 3).toNat < 4 ∧ (byteAt r 4).toNat < 32)
        && decide (1 ≤ (byteAt r 5).toNat ∧ (byteAt r 5).toNat ≤ 8) && zeros r 6 2
        && zeros r (8 + (byteAt r 5).toNat) (8 - (byteAt r 5).toNat) && decide ((byteAt r 0x12).toNat < 32)
        && shapeOk (byteAt r 1).toNat (byteAt r 0x11).toNat && decide (byteAt r 0x13 = 3 ∨ byteAt r 0x13 = 4) && zeros r 0x14 12 && masterFramesOk (sub r 0x20 224) 9
        && (decide (4 ≤ (byteAt r 1).toNat) || (decide (byteAt r 3 = byteAt r 1) && decide (byteAt r 4 = byteAt r 2)))
    else zeros r 1 255)
/-- A HANDBACK_SEQ record of port p (R529). -/
def handRecOk (r : List Byte) (p : Nat) (used : Bool) : Bool :=
  decide ((byteAt r 0).toNat = p) && zeros r 1 7
    && (if used then masterFramesOk (sub r 8 24) 1 && masterFramesOk (sub r 0x20 224) 9 else zeros r 8 248)

/-- A sheaf schedule container of sheaf k passes the form rules R17, R107, R126, R177, R182, R185, R198 to R200, R255,
R258 to R261, R527. -/
def sheafFormOk (c : List Byte) (k : Nat) : Bool :=
  frameOk c 6 (cBody c) false && decide ((byteAt c 0x20).toNat = k) && sectionsOk c [1, 2, 3, 4, 5, 6, 7]
    && decide (0x20 + cBody c ≤ 0x100000)
    && decide ((sectionOf c 2).length = 0x10000) && decide ((sectionOf c 3).length = 0x4000)
    && decide ((sectionOf c 5).length = 0x20000) && decide ((sectionOf c 7).length = 256)
    && decide ((sectionOf c 4).length % 32 = 0) && proofOk (sectionOf c 6)
    && decide (32 ≤ (sectionOf c 1).length)
    && ((List.range 4096).all fun i =>
      trieEntryOk (byteAt (sectionOf c 7) (32 * (i / 512) + 2)).toNat (field (sectionOf c 2) (16 * i) 16))
    && ((List.range 8).all fun t => contextsOk (sub (sectionOf c 5) (0x4000 * t) 0x4000))
    && ((List.range ((sectionOf c 4).length / 32)).all fun i => ruleRecordOk (sub (sectionOf c 4) (32 * i) 32))
    && ((List.range 8).all fun t => decide (field (sectionOf c 1) (4 * t) 4 < 2 ^ 24))
    && ((List.range 8).all fun t => paramsOk (sub (sectionOf c 7) (32 * t) 32) (8 * k + t))

/-- The RULES records of a sheaf container: index and entry (R185). -/
def ruleRecords (sec : List Byte) : List (Nat × W128) :=
  (List.range (sec.length / 32)).map fun i =>
    (field sec (32 * i) 4, BitVec.ofNat 128 (field sec (32 * i + 16) 16))

/-- A wake schedule container passes its form rules (R126, R234 to R236). -/
def wakeFormOk (c : List Byte) : Bool :=
  frameOk c 7 (cBody c) false && proofOk (sectionOf c 6) && decide (byteAt c 0x20 = 0xFF) && sectionsOk c [6, 0x101, 0x102, 0x103, 0x104]
    && decide (0x20 + cBody c ≤ 0x100000)
    && decide (field (sectionOf c 0x101) 0 4 = 20)
    && decide (1 ≤ field (sectionOf c 0x101) 4 4 ∧ field (sectionOf c 0x101) 4 4 ≤ 1024)
    && decide (field (sectionOf c 0x101) 8 4 ≤ 3120000) && zeros (sectionOf c 0x101) 12 4
    && decide ((sectionOf c 0x101).length = 16 ∧ (sectionOf c 0x102).length = 16 + 8 * 15360) && zeros (sectionOf c 0x102) 8 8
    && ((List.range 15360).all fun i => decide (field (sectionOf c 0x102) (16 + 8 * i) 4 % 2 ^ 27 = 0))
    && decide (field (sectionOf c 0x102) 0 2 = 20 ∧ field (sectionOf c 0x102) 2 2 = 768 ∧ field (sectionOf c 0x102) 4 4 = 1968000)
    && decide ((sectionOf c 0x103).length = 96 * 256) && decide ((sectionOf c 0x104).length = 96 * 256)
    && ((List.range 96).all fun p => decide ((byteAt (sectionOf c 0x103) (256 * p)).toNat = p)
        && decide ((byteAt (sectionOf c 0x104) (256 * p)).toNat = p))

/-- One slot-table record: start, port, round, chunk, kind (R234). -/
def slotRecord (sec : List Byte) (i : Nat) : Nat × Nat × Nat × Nat × Nat :=
  let w := field sec (16 + 8 * i) 8
  (bitsOf w 63 43, bitsOf w 42 36, bitsOf w 35 33, bitsOf w 32 29, bitsOf w 28 27)

/-- Records of a lane are sorted by START, 2,560 cycles apart, and keep the bounds of R233; no job appears twice and
every one appears once (R235). -/
def slotTableOk (sec : List Byte) : Bool :=
  let recs := (List.range 15360).map (slotRecord sec)
  let jobs := recs.filter fun r => decide (r.2.2.2.2 = 1 ∨ r.2.2.2.2 = 2)
  ((List.range 15360).all fun i =>
      decide (i % 768 = 767) || decide ((slotRecord sec i).1 + 2560 ≤ (slotRecord sec (i + 1)).1))
    && (recs.all fun r => decide (r.1 < 1966080 ∧ r.2.2.2.2 < 3 ∧ r.2.1 < 96 ∧ r.2.2.1 < 5))
    && (jobs.all fun r =>
      let ready := 393600 * r.2.2.1 + 24576 * r.2.2.2.1
      decide (ready ≤ r.1 ∧ r.1 + 2560 ≤ ready + 73728))
    && decide (((jobs.map fun r => (r.2.1 * 8 + r.2.2.1) * 64 + r.2.2.2.1 * 4 + r.2.2.2.2).eraseDups).length = jobs.length)
    && decide (jobs.length = 96 * 5 * 16 * 2)

/-! ### The policy (R125) -/

/-- Offset of the policy record of port p. -/
def polRec (p : Nat) : Nat := 0x310 + 80 * p
/-- WAKE_USE is USED. -/
def polUsed (c : List Byte) (p : Nat) : Bool := bitOf (byteAt c (polRec p + 1)).toNat 0
/-- MANIFEST_MODE is SHELF. -/
def polShelf (c : List Byte) (p : Nat) : Bool := bitOf (byteAt c (polRec p + 1)).toNat 1
/-- DIGEST_ALG. -/
def polAlg (c : List Byte) (p : Nat) : Nat := (byteAt c (polRec p + 2)).toNat
/-- CONFLICT_DISP. -/
def polDisp (c : List Byte) (p : Nat) : Nat := (byteAt c (polRec p + 3)).toNat
/-- SIGNER_SET. -/
def polSigners (c : List Byte) (p : Nat) : Nat := field c (polRec p + 4) 2
/-- SCHEMES. -/
def polSchemes (c : List Byte) (p : Nat) : Nat := field c (polRec p + 6) 2
/-- FLOOR. -/
def polFloor (c : List Byte) (p : Nat) : Nat := field c (polRec p + 8) 4
/-- INRUSH_WEIGHT. -/
def polWeight (c : List Byte) (p : Nat) : Nat := (byteAt c (polRec p + 0x0C)).toNat
/-- SETTLE in ms. -/
def polSettle (c : List Byte) (p : Nat) : Nat := field c (polRec p + 0x0E) 2
/-- A region of the read plan: start address and bursts; 0 manifest, 1 slot A, 2 slot B. -/
def polRegion (c : List Byte) (p i : Nat) : Nat × Nat :=
  (field c (polRec p + 0x10 + 8 * i) 4, field c (polRec p + 0x14 + 8 * i) 4)
/-- GLEAN_RANGE i: start address and length. -/
def polGlean (c : List Byte) (p i : Nat) : Nat × Nat :=
  (field c (polRec p + 0x28 + 8 * i) 4, field c (polRec p + 0x2C + 8 * i) 4)
/-- TAG_PAGES. -/
def polTagPages (c : List Byte) (p : Nat) : Nat := field c (polRec p + 0x48) 4
/-- POLICY_EPOCH. -/
def polEpoch (c : List Byte) : Nat := field c 0x20 4
/-- STAND_POOL of stand k. -/
def polPool (c : List Byte) (k : Nat) : Nat := (byteAt c (0x30 + k)).toNat
/-- SHEAF_DIGEST of sheaf k. -/
def polSheafDigest (c : List Byte) (k : Nat) : List Byte := sub c (0x70 + 48 * k) 48
/-- WAKE_DIGEST. -/
def polWakeDigest (c : List Byte) : List Byte := sub c 0x40 48
/-- RELEASE_ORDER of stand k: 16 positions. -/
def polOrder (c : List Byte) (k : Nat) : List Nat := (sub c (0x2B0 + 16 * k) 16).map (·.toNat)
/-- STAND_ORDER. -/
def polStandOrder (c : List Byte) : List Nat := (sub c 0x28 6).map (·.toNat)
/-- A list is a permutation of 0 to n − 1. -/
def isPerm (l : List Nat) (n : Nat) : Bool := decide (l.length = n) && (List.range n).all fun i => l.contains i
/-- The bursts of a port's read plan (R69). -/
def polBursts (c : List Byte) (p : Nat) : Nat := (polRegion c p 0).2 + (polRegion c p 1).2 + (polRegion c p 2).2
/-- An address lies in GLEAN_RANGE (R77); a length of 0 ends the list. -/
def inGleanRange (c : List Byte) (p a : Nat) : Bool :=
  (((List.range 4).map (polGlean c p)).takeWhile fun r => decide (r.2 ≠ 0)).any fun r => decide (r.1 ≤ a ∧ a < r.1 + r.2)

/-- The record of an unused port is zero but for PORT and FLAGS (R125). -/
def polUnusedOk (c : List Byte) (p : Nat) : Bool := zeros c (polRec p + 2) 78
/-- The record of a used port is in range (R125, R68). -/
def polUsedOk (c : List Byte) (p : Nat) : Bool :=
  decide (1 ≤ polAlg c p ∧ polAlg c p ≤ 7) && decide (polDisp c p ≤ 2) && decide (polSigners c p % 16 = 0)
    && decide (polSchemes c p < 1024) && decide (1 ≤ polWeight c p ∧ polWeight c p ≤ 16) && zeros c (polRec p + 0x0D) 1
    && decide (1 ≤ polSettle c p ∧ polSettle c p ≤ 2000) && zeros c (polRec p + 0x4C) 4
    && ((List.range 3).all fun i => decide ((polRegion c p i).1 % 65536 = 0)) && decide (polBursts c p ≤ 1024)
    && (if polShelf c p then decide (polRegion c p 0 = (0, 0)) else decide ((polRegion c p 0).2 = 1))
    && ((List.range 4).all fun i => decide ((polGlean c p i).1 % 65536 = 0 ∧ (polGlean c p i).2 % 65536 = 0))
/-- The form and range checks of a policy (R17, R107, R125). -/
def policyFormOk (c : List Byte) : Bool :=
  frameOk c 5 8432 true && decide (field c 0x24 2 ≤ 1000) && zeros c 0x26 2 && zeros c 0x2E 2 && zeros c 0x36 10
    && decide (c.length = 0x20 + 8432 + cSigLen c)
    && ((List.range 96).all fun p => decide ((byteAt c (polRec p)).toNat = p)
      && decide ((byteAt c (polRec p + 1)).toNat < 4)
      && (if polUsed c p then polUsedOk c p else polUnusedOk c p))
/-- The orders are permutations (R125). -/
def policyOrdersOk (c : List Byte) : Bool :=
  isPerm (polStandOrder c) 6 && (List.range 6).all fun k => isPerm (polOrder c k) 16
/-- STAND_POOL and INRUSH_WEIGHT agree (R398). -/
def policyPoolsOk (c : List Byte) : Bool :=
  ((List.range 6).all fun k => decide (1 ≤ polPool c k ∧ polPool c k ≤ 32))
    && (List.range 96).all fun p => !polUsed c p || decide (polWeight c p ≤ polPool c (p % 6))

/-! ### Manifests and image headers (R117 to R121) -/

/-- One slot entry of a port record (R119). -/
structure Entry where
  valid   : Bool
  version : Nat
  length  : Nat
  digest  : List Byte
  prior   : List Byte
  root    : List Byte
deriving DecidableEq, Repr

/-- The slot entry at offset `o`. -/
def entryAt (c : List Byte) (o : Nat) : Entry :=
  { valid := decide (byteAt c o = 1), version := field c (o + 4) 4, length := field c (o + 8) 4,
    digest := sub c (o + 0x10) 64, prior := sub c (o + 0x50) 64, root := sub c (o + 0x90) 48 }

/-- The form of a slot entry: SLOT byte, reserved fields, LENGTH bounds, digest fill; an empty entry is zero (R116,
R120). `bursts` is the slot region's size. -/
def entryFormOk (c : List Byte) (o slot alg bursts : Nat) : Bool :=
  let e := entryAt c o
  decide ((byteAt c o).toNat ≤ 1) && decide ((byteAt c (o + 1)).toNat = slot) && zeros c (o + 2) 2 && zeros c (o + 0x0C) 4
    && (if e.valid then
          decide (e.length % 256 = 0 ∧ 4096 ≤ e.length ∧ e.length + 256 ≤ 65536 * bursts)
            && zeros e.digest (digestLen alg) (64 - digestLen alg) && zeros e.prior (digestLen alg) (64 - digestLen alg)
        else zeros c (o + 2) 190)

/-- The port record at offset `o` of a manifest passes R120 for port p under policy c. -/
def portRecordOk (m : List Byte) (o : Nat) (c : List Byte) (p : Nat) : Bool :=
  decide ((byteAt m o).toNat = p) && decide ((byteAt m (o + 1)).toNat = polAlg c p) && zeros m (o + 2) 14
    && entryFormOk m (o + 0x10) 1 (polAlg c p) (polRegion c p 1).2
    && entryFormOk m (o + 0xD0) 2 (polAlg c p) (polRegion c p 2).2

/-- A port manifest passes its form rules for port p (R107, R111, R119, R120). -/
def manifestFormOk (m : List Byte) (c : List Byte) (p : Nat) : Bool :=
  frameOk m 2 400 true && decide (0x20 + 400 + cSigLen m ≤ m.length) && sbFormOk (cSigBlock m) (cSigLen m)
    && portRecordOk m 0x20 c p

/-- Offset of port p's record in the shelf manifest (R121). -/
def shelfRec (p : Nat) : Nat := 0x30 + 400 * p
/-- PRESENT of record p (R121). -/
def shelfPresent (m : List Byte) (p : Nat) : Bool := bitOf (field m 0x24 12) p
/-- The shelf manifest passes its form rules (R121). -/
def shelfFormOk (m : List Byte) (c : List Byte) : Bool :=
  frameOk m 3 38416 true && sbFormOk (cSigBlock m) (cSigLen m)
    && (List.range 96).all fun p =>
      decide ((byteAt m (shelfRec p)).toNat = p)
        && (if shelfPresent m p then portRecordOk m (shelfRec p) c p else zeros m (shelfRec p + 1) 399)

/-- An image header agrees with its entry (R118). -/
def headerAgrees (h : List Byte) (e : Entry) (alg port : Nat) : Bool :=
  frameOk h 1 32 false && decide (field h 0x20 4 = e.version) && decide (field h 0x24 4 = e.length)
    && decide ((byteAt h 0x28).toNat = alg) && decide ((byteAt h 0x29).toNat = 0xFF ∨ (byteAt h 0x29).toNat = port)
    && zeros h 0x2A 2 && zeros h 0x34 12

/-! ### Bundles (R128, R129) -/

/-- Base of a bundle slot in the home flash (R128). -/
def slotBase (s : Slot) : Nat := match s with | .a => 0 | .b => 0x01000000
/-- Offset of part i inside a slot. -/
def partOff (i : Nat) : Nat := if i = 0 then 0x10000 else if i = 1 then 0xF0000 else 0x150000
/-- Size limit of part i in bytes (R51). -/
def partMax (i : Nat) : Nat := if i = 0 then 896 * 1024 else if i = 1 then 384 * 1024 else 12288 * 1024
/-- LENGTH of part i in a bundle header. -/
def partLen (h : List Byte) (i : Nat) : Nat := field h (0x30 + 64 * i) 4
/-- DIGEST of part i in a bundle header. -/
def partDigest (h : List Byte) (i : Nat) : List Byte := sub h (0x40 + 64 * i) 48
/-- A bundle header passes its form rules (R17, R107, R129). -/
def bundleFormOk (h : List Byte) : Bool :=
  frameOk h 8 208 true && decide (cScheme h = 8 ∨ cScheme h = 9) && zeros h 0x27 1 && zeros h 0x2B 1 && zeros h 0x2C 4
    && ((List.range 3).all fun i => zeros h (0x34 + 64 * i) 12 && decide (partLen h i ≤ partMax i))
    && decide (0x20 + 208 + cSigLen h ≤ 0x10000) && sbFormOk (cSigBlock h) (cSigLen h)

end Sys2Proof.Machine
end

