-- ==== Sys2Proof/Machine/StateParts.lean ====
section
/-! DEFINITION. The parts of State: one structure of plain data per block of the SV96. Defaults are the reset values;
the ones the spec does not give are named in notes/assumptions/1 to 4. -/

namespace Sys2Proof.Machine

/-- Main-domain states (R44). -/
inductive DevState | off | start | production | sealed | fwless | service | ride | headless
deriving DecidableEq, Repr

/-- Power-good detectors (R40). -/
structure Supplies where
  core : Bool := false
  sram : Bool := false
  aon  : Bool := false
  io   : BitVec 12 := 0
  ioH  : Bool := false
  sd   : Bool := false
  sda  : Bool := false
  vbat : Bool := false
deriving DecidableEq, Repr

/-- Stages of the seed core's bundle pass (R52 to R55). -/
inductive BundleStep | idle | headers | reading | verifying | good | none
deriving DecidableEq, Repr

/-- A verified bundle (R55, R110, R483): slot, version, vectors, container digest, and the lengths and digests of its parts,
all of them as the verified header has them. -/
structure Bundle where
  slot    : Slot := .a
  version : W32 := 0
  canopy  : W24 := 0
  link    : W24 := 0
  digest  : List Byte := []
  lens    : List Nat := []
  digs    : List (List Byte) := []
deriving DecidableEq, Repr

/-- Who holds LEAD (R27). -/
inductive Lead | none | a | b
deriving DecidableEq, Repr

/-- Start-up, clocks, core release (02). `head` and `digs` are the candidate's header and the digests of its parts as the
bundle pass read them (R110); `bankOut` names the banks outside their limits: S0 to S11, H, VDD_SD, VDDA_SD (R36, R379);
`linkReload` says that a restarted link core waits for its reload (R418). -/
structure Boot where
  dev           : DevState := .off
  orderAF       : Bool := false
  sup           : Supplies := {}
  refPresent    : Bool := false
  refHoldover   : Bool := false
  coreLock      : Bool := false
  flashLock     : Bool := false
  sensed        : Bool := false
  seedOut       : Bool := false
  step          : BundleStep := .idle
  cand          : Option Slot := .none
  head          : List Byte := []
  digs          : List (List Byte) := []
  failedA       : Bool := false
  failedB       : Bool := false
  probes        : BitVec 4 := 0
  bundle        : Option Bundle := .none
  running       : Bundle := {}
  canopyOut     : Bool := false
  linkOut       : Bool := false
  linkReload    : Bool := false
  bankOut       : BitVec 15 := 0
  watchOut      : Bool := false
  lead          : Lead := .none
  leadShadowBad : Bool := false
  warm          : Bool := false
  entryDone     : Bool := false
  restartMerged : BitVec 8 := 0
  fallback      : BitVec 4 := 0
  failing       : List (Nat × Nat) := []
  laneSched     : Bool := false
  epoch         : W32 := 1
  nonce         : List Byte := []
  vselPins      : BitVec 13 := 0
  vsel          : BitVec 13 := 0
  tries         : Nat := 0
deriving DecidableEq, Repr

/-- Port modes (R130). -/
inductive PortMode | isolated | master | pass | dark
deriving DecidableEq, Repr

/-- A port in its stand controller (R23, R95 to R97, R485). `hold` is the hold state, `holdN` its inverted shadow. -/
structure PHold where
  hold     : Bool := true
  holdN    : Bool := false
  token    : Option W32 := none
  latch    : Bool := false
  latchBy  : List Nat := []
  settle   : Option Nat := none
  pg       : Bool := false
  mode     : PortMode := .isolated
  noted    : Bool := false
  handback : Bool := false
deriving DecidableEq, Repr

/-- A stand controller (R36 to R38, R98): release gate and firebreak state with their inverted shadows, and the status of
the last stand command or token that it refused (R38). -/
structure Stand where
  gate       : Bool := true
  gateN      : Bool := false
  fire       : Bool := true
  fireN      : Bool := false
  status     : BitVec 16 := 0
  opened     : Bool := false
  faults     : Nat := 0
deriving DecidableEq, Repr

/-- The values of a PORT_PARAMS record that the edge machine holds (R527). -/
structure PortParams where
  mode3      : Bool := false
  cLanes     : Nat := 1
  contUse    : Bool := false
  fMax       : Nat := 0
  stall      : Nat := 0
  stallRank  : Nat := 0
  breachRank : Nat := 0
  contMask   : Byte := 0
  contValue  : Byte := 0
deriving DecidableEq, Repr

/-- How a host frame ended. -/
inductive FrameEnd | none | empty | committed | killed | stalled | ignored
deriving DecidableEq, Repr

/-- What the last host frame put on a port's pins (R138 to R143): the lanes the flash sampled at each of its pulses,
the generated pulses, and the bytes driven to the host. `flash` holds the lanes of the edges the host drives; `hio` the
levels of the lanes of `hioMask` at each data edge that the device drives to the host (R152, R153). -/
structure FrameOut where
  flash   : List (BitVec 4) := []
  pulses  : Nat := 0
  makeUp  : Bool := false
  catchUp : Bool := false
  spoil   : Bool := false
  host    : List Byte := []
  hioMask : BitVec 4 := 0
  hio     : List (BitVec 4) := []
  ended   : FrameEnd := .none
deriving DecidableEq, Repr

/-- A frame that the device sends in MASTER (R134, R135, R528): its bytes, the clock code, shape and capture delay of R528,
the wait edges and the bytes read after them. -/
structure MasterFrame where
  out     : List Byte
  clock   : Nat
  shape   : Byte
  capture : Nat
  wait    : Nat
  read    : Nat
deriving DecidableEq, Repr

/-- What a flow's step does to a flash with the part profile's commands (R446): the erase of a 64 KiB block at an address, the
program of bytes from an address on, in pages of the part's PAGE. -/
inductive FlashOp
  | erase (a : Nat)
  | program (a : Nat) (bytes : List Byte)
deriving DecidableEq, Repr

/-- A port's edge machine (R137, R154, R166); `master` holds the frames of the last MASTER sequence, `flash` what the last step
of a flow does to the flash; 127 is the home flash. -/
structure PEdge where
  params   : PortParams := {}
  addr4    : Bool := false
  cont     : Bool := false
  contLeaf : BitVec 8 := 0
  tag      : BitVec 2 := 0
  out      : FrameOut := {}
  master   : List MasterFrame := []
  flash    : List FlashOp := []
deriving DecidableEq, Repr

/-- The counters of a port in the order of R201, R167 and R267 (R484). -/
inductive Ctr
  | chaffRead | chaffProgram | chaffErase | chaffOther | filled | severed | undecided
  | ragged | length | stalled | breach | late | heldActivity | merge
  | verified | mismatch | unobserved | untagged | served | notReady | repeated
deriving DecidableEq, Repr

/-- A port's filter state (R203, R209) and its loaded slices: coarse map (R181) and contexts (R198, R199); `genFrame` is the
generation that its last frame latched (R171). -/
structure PWin where
  gen        : Bool := false
  genN       : Bool := true
  genFrame   : Bool := false
  build0     : BitVec 16 := 0
  build1     : BitVec 16 := 0
  flipPend   : Bool := false
  deferred   : Bool := false
  coarseOnly : Bool := false
  lastCmd    : Byte := 0
  wel        : Bool := false
  busy       : Bool := false
  coarse     : List Byte := []
  ctx        : List Byte := []
  tries      : List Byte := []
  params     : List Byte := []
  voidPins   : List Nat := []
deriving DecidableEq, Repr

/-- A slot of the answer cache (R223, R295). -/
structure CacheSlot where
  valid   : Bool := false
  context : BitVec 7 := 0
  bytes   : List Byte := []
deriving DecidableEq, Repr

/-- A rule lookup waiting for its slot (R220, R293). -/
structure Lookup where
  rd     : BitVec 4
  index  : BitVec 17
  dt     : W36
  direct : Bool
deriving DecidableEq, Repr

/-- A port's decision path, answer cache and event queue (R222, R223, R292); `cross` holds crossings that wait for
room in the queue (R163), `ecc` the tag and span of each lookup that met an uncorrectable rule entry (R212). -/
structure PDec where
  decs    : List W36 := []
  lookups : List Lookup := []
  cache   : Tab CacheSlot := []
  events  : List W36 := []
  cross   : List W36 := []
  ecc     : List (Nat × Nat) := []
deriving DecidableEq, Repr

/-- A sheaf: the loaded schedule container and its match (R58), and the bytes of its THREADS section (R205). -/
structure Sheaf where
  matched  : Bool := false
  refused  : Bool := false
  released : Bool := false
  threads  : List Byte := []
deriving DecidableEq, Repr

/-- Rebuild engine states (R210). -/
inductive RebuildState | idle | rebuilding | flipping | blocked
deriving DecidableEq, Repr

/-- The rule table and the rebuild engine (R203, R205, R210); `owner` names the sheaf that wrote an index. -/
structure Rules where
  bank0    : Tab W128 := []
  bank1    : Tab W128 := []
  owner0   : Tab Nat := []
  owner1   : Tab Nat := []
  state    : RebuildState := .idle
  staging  : Bool := true
  done     : Nat := 0
  stBuild  : BitVec 16 := 0
  policy   : List Byte := []
  slices   : List (List Byte) := []
  restart  : Bool := false
deriving DecidableEq, Repr

/-- The accepted policy (R125). -/
structure Policy where
  bytes  : List Byte := []
  digest : List Byte := []
  signer : BitVec 4 := 0
deriving DecidableEq, Repr

/-- Wake stages (R72). -/
inductive WakeStage | idle | entry | round | window | drain | verdict
deriving DecidableEq, Repr

/-- The shelf manifest as decided before a wake (R84); `stale` says that the home flash or the policy has changed since. -/
structure Shelf where
  decided  : Bool := false
  stale    : Bool := false
  rejected : Bool := false
  revoked  : Bool := false
  rollback : W32 := 0
  signer   : BitVec 4 := 0
  digest   : List Byte := []
  bytes    : List Byte := []
  epoch    : W32 := 0
deriving DecidableEq, Repr

/-- A hashing job that waits for the service lane (R229): of a leaf of a transfer (R443), of the link firmware that LEAD
reloads (R418), of the resident image of a handover (R420). -/
inductive SvcJob | leaf (xfer i : Nat) | reload | image
deriving DecidableEq, Repr

/-- What a signature that the verdict unit has verified decides (R81, R319): a port's manifest of a wake, the shelf manifest,
the policy that stands in the home flash, the command in progress of a mailbox, the manifest that a recovery flow has
pulled, the bundle of a handover that a mailbox has asked for, the authorisation of an owner root. -/
inductive VerUse
  | port (p : Nat) | shelf | policy | command (mb : Nat) | flow (p : Nat) | handover (mb : Nat) | root (src : Agent)
deriving DecidableEq, Repr

/-- A verification of the verdict unit (R319, R320): its use, the scheme, the digest and the signer's block, and the scheme
part under way. -/
structure ChainJob where
  use     : VerUse
  scheme  : Nat := 0
  digest  : List Byte := []
  block   : List Byte := []
  second  : Bool := false
deriving DecidableEq, Repr

/-- The shelf wake (R67 to R76, R101, R102, R232): `again` holds the ports that Shentiha has still to rewake (R65, R76),
`deal` the ports whose verifications were dealt at the start (R83). Beside it the lanes whose test waits for its end (R231), the
jobs of the service lane and the verifications that wait for an engine outside a wake, oldest first (R229, R319). -/
structure Wake where
  stage     : WakeStage := .idle
  round     : Nat := 0
  rewake    : Bool := false
  firstDone : Bool := false
  again     : List Nat := []
  endNext   : Bool := false
  sched     : List Byte := []
  schedOk   : Bool := false
  lanes     : List Nat := []
  serving   : List Nat := []
  dealt     : List Nat := []
  deal      : List Nat := []
  policy    : Option Policy := none
  shelf     : Shelf := {}
  prechecks : List (BitVec 16) := []
  standNext : Nat := 0
  tests     : List Nat := []
  svcJobs   : List SvcJob := []
  verify    : List ChainJob := []
deriving DecidableEq, Repr

/-- The state of a port's manifest verification in a wake (R81 to R83). -/
inductive SigState | none | running (e : Nat) | ok | failed
deriving DecidableEq, Repr

/-- A port during a wake (R70 to R86). -/
structure PWake where
  part       : Bool := false
  incomplete : Bool := false
  aborted    : Bool := false
  pgLow      : Bool := false
  pgFell     : Bool := false
  idBad      : Bool := false
  granary    : Bool := false
  staging    : List Byte := []
  slotA      : Tab (List Byte) := []
  slotB      : Tab (List Byte) := []
  manifest   : List Byte := []
  tagJobs    : Nat := 0
  groups     : Nat := 0
  sig        : SigState := .none
deriving DecidableEq, Repr

/-- A port's verdict record (R92, R93) and the slot results it was decided on (R86, R90); `rewritten` says that a recovery flow
has written its flash since (R123). -/
structure PVerd where
  verdict : BitVec 4 := 0
  reason  : BitVec 4 := 0
  chosen  : BitVec 2 := 0
  mode    : Bool := false
  signer  : BitVec 4 := 0
  meas    : List Byte := []
  digA    : List Byte := []
  digB    : List Byte := []
  validA  : Bool := false
  validB  : Bool := false
  manDig  : List Byte := []
  imgA    : List Byte := []
  imgB    : List Byte := []
  verA    : W32 := 0
  verB    : W32 := 0
  lenA    : Nat := 0
  lenB    : Nat := 0
  rootA   : List Byte := []
  rootB   : List Byte := []
  rewritten : Bool := false
  floor   : W32 := 0
  wEpoch  : W32 := 0
  noticed : List (BitVec 4) := []
deriving DecidableEq, Repr

/-- SET_STATE (R268). -/
inductive SetState | none | staging | staged | verified | void
deriving DecidableEq, Repr

/-- Half of a leaf waiting for its glean slot (R228, R252): flash address of the leaf, its bytes so far, the alarm
rank of the glean context in force. -/
structure GleanItem where
  addr : Nat
  data : List Byte
  rank : Nat
  half : Bool := false
deriving DecidableEq, Repr

/-- A SERVE span that the port's serve slots read ahead: its context, the next word's address, the last address; in one that goes
on at address 0 after the end of the part, the part's size (R183, R256). -/
structure ServeSpan where
  ctx  : Nat
  next : Nat
  last : Nat
  size : Nat := 0
deriving DecidableEq, Repr

/-- A port's Granary status (R268), glean buffer (R252), serve buffer of up to 4 words by address and the span it reads
ahead (R256); `setLen` and `setMan` say what the serve set covers: LENGTH of its slot, and the length of its manifest (R262). -/
structure PGran where
  setState     : SetState := .none
  setSlot      : Slot := .a
  flashRetired : Bool := false
  tagsVoid     : Bool := false
  underrun     : Bool := false
  notReadySeen : Bool := false
  mismatchLeaf : BitVec 20 := 0
  glean        : List GleanItem := []
  serve        : List (Nat × List Byte) := []
  span         : Option ServeSpan := none
  setLen       : Nat := 0
  setMan       : Nat := 0
deriving DecidableEq, Repr

/-- A relocation (R248): the group, its new group once running. -/
structure Reloc where
  group   : Nat
  target  : Option Nat := none
  overdue : Bool := false
deriving DecidableEq, Repr

/-- A line of the prefetch buffer (R265): way order is recency. -/
structure XipLine where
  line : Nat
  data : List Byte
deriving DecidableEq, Repr

/-- An execute-in-place fetch under way (R265, R266); `ahead` says that the line is the next one of a miss, which no core
waits for. -/
structure XipFetch where
  core  : Bool
  addr  : W24
  tries : Nat := 0
  ahead : Bool := false
deriving DecidableEq, Repr

/-- The Granary, its directories, scrub and relocation, and the execute-in-place unit (08). -/
structure Granary where
  data     : Tab Byte := []
  map      : Tab W32 := []
  tagDir   : Tab Nat := []
  srvDir   : Tab Nat := []
  scrub    : Nat := 0
  uses     : Nat := 0
  relocs   : List Reloc := []
  sets     : Tab (List XipLine) := []
  fetch    : Option XipFetch := none
  held     : List XipFetch := []
  tagging  : Bool := false
deriving DecidableEq, Repr

/-- Run states of a core or thread (R286, R292, R296, R299). -/
inductive CoreRun | reset | running | waitEvent | waitIrq | halted | faulted | stopped
deriving DecidableEq, Repr

/-- A register a result lands in. -/
inductive Dest | d (n : BitVec 4) | a (n : BitVec 3) | y (n : BitVec 2) | fl
deriving DecidableEq, Repr

/-- A result in flight: it lands at the start of slot `slot` (R289). -/
structure Landing where
  slot : Nat
  dest : Dest
  val  : W72
deriving DecidableEq, Repr

/-- Bytes a store wrote that no reader sees before slot `slot` (R288). -/
structure StoreIn where
  slot  : Nat
  addr  : Nat
  bytes : List Byte
deriving DecidableEq, Repr

/-- A core or a sequencer thread (R274, R287, R289, R290); `flaws` are the registers whose Gnoby check fails (R276). -/
structure Core where
  run     : CoreRun := .reset
  d       : Tab W36 := []
  a       : Tab W24 := []
  y       : Tab W72 := []
  fl      : BitVec 4 := 0
  pc      : W24 := 0
  slot    : Nat := 0
  land    : List Landing := []
  xfer    : List (Nat × W24) := []
  epc     : W24 := 0
  cause   : BitVec 10 := 0
  eaddr   : W24 := 0
  evec    : W24 := 0
  status  : BitVec 3 := 0
  iena    : BitVec 16 := 0
  lines   : BitVec 16 := 0
  tcmp    : W36 := 0xFFFFFFFFF
  ebt     : W24 := 0
  cych    : BitVec 28 := 0
  stores  : List StoreIn := []
  thCause : Byte := 0
  flaws   : List Dest := []
  badRegs : List Nat := []
deriving DecidableEq, Repr

/-- A stored word whose check fails (R382, R384, R393): 8 bytes of a local memory with the check that stands beside them, an
entry of a rule bank, a granule's word
of a port's coarse map, a context, an entry of a port's tries (of CONT from 256 on), a last-good digest or a
backup-log entry in backup memory, the HOLDING register of a holder of a pool. -/
inductive Flaw
  | mem (m word : Nat) (check : Byte)
  | holding (q h : Nat)
  | rule (bank : Bool) (index : Nat)
  | coarse (p granule : Nat)
  | context (p i : Nat)
  | trie (p entry : Nat)
  | lastGood (p : Nat)
  | backupLog (entry : W128)
deriving DecidableEq, Repr

/-- Engine states (R311). -/
inductive EngState | idle | busy | aborting | retired
deriving DecidableEq, Repr

/-- What firmware does with the result of an operation that it starts itself (R349, R439): the public key of the slot that a
provenance statement for a mailbox names, the signature under such a body, the signature under an SPDM response of a lane. -/
inductive KTask
  | provPub (mb slot : Nat) (body : List Byte)
  | provSign (mb : Nat) (body : List Byte)
  | spdmSign (l xfer : Nat) (digest response : List Byte)
deriving DecidableEq, Repr

/-- A Kernel engine (R306, R311); `op` is the accepted operation word, `waiting` for its leave, `key` what the start
read from a slot, `keyFail` a failed slot check, `outSlot` the reserved target (R336), `task` what firmware does with the
result, `gone` that a retirement aborts the operation (R327). -/
structure Engine where
  mem     : Tab W64 := []
  state   : EngState := .idle
  owner   : BitVec 2 := 0
  done    : Bool := false
  wrBusy  : Bool := false
  refused : Bool := false
  result  : BitVec 4 := 0
  lastOp  : BitVec 6 := 0
  by_     : BitVec 2 := 0
  other   : BitVec 4 × BitVec 6 := (0, 0)
  op      : W32 := 0
  waiting : Bool := false
  key     : Option (BitVec 512) := none
  keyFail : Bool := false
  keyAttr : W32 := 0
  outSlot : Option Nat := none
  chain   : Option ChainJob := none
  task    : Option KTask := none
  gone    : Bool := false
deriving DecidableEq, Repr

/-- A key slot (R328, R329, R336, R339): the two stored shares, under the keystream of the slot store (R338), the 8 check bits
of each 64 bits of a share, the attribute word and its inverted shadow. -/
structure KeySlot where
  share0   : BitVec 512 := 0
  share1   : BitVec 512 := 0
  ecc0     : List Byte := []
  ecc1     : List Byte := []
  attr     : W32 := 0
  attrN    : W32 := 0xFFFFFFFF
  instn    : W64 := 0
  bad      : Bool := false
  reserved : Bool := false
  remasks  : Nat := 0
deriving DecidableEq, Repr

/-- The key unit and the identity unit (11); `tasks` are operations of LEAD that wait for an engine (R349, R439), `rootJob` is the
verification that a ROOT_GENERATE waits for (R341). -/
structure Keys where
  slots     : Tab KeySlot := []
  tasks     : List KTask := []
  rootJob   : Option ChainJob := none
  kSlot     : Bool := false
  kSlotKey  : BitVec 256 := 0
  keyin     : List W32 := []
  keyout    : List W32 := []
  result    : BitVec 16 := 0
  provOut   : List Byte := []
  root      : BitVec 256 := 0
  rootMask  : BitVec 256 := 0
  rootState : BitVec 2 := 0
  rootFail  : Bool := false
  rootFailed : Bool := false
  idLock    : Bool := false
  devid     : List Byte := []
  cert      : List Byte := []
  lcBad     : Bool := false
  redraw    : Bool := false
deriving DecidableEq, Repr

/-- One physical copy of an OTP bit as the three reads of R45 see it. -/
inductive CopySt | none | weak | sound | unstable
deriving DecidableEq, Repr

/-- The two copies of a logical OTP bit (R351). -/
structure OtpBit where
  c0 : CopySt := .none
  c1 : CopySt := .none
deriving DecidableEq, Repr

/-- Fuse controller states (R366). -/
inductive FuseState | idle | armed | burning | sensing
deriving DecidableEq, Repr

/-- Who gets the answer of a fuse function. -/
structure FuseClient where
  mb  : Nat
  tag : Byte
  cmd : Byte
deriving DecidableEq, Repr

/-- The fuse controller (12): `word` of the function that runs (function code 6: the re-sense of RESENSE), `plan` the
copies that it pulses as FIRE found them (R363), `resense` a re-sense that waits for the end of a burn or of another
re-sense, `inside` that the die temperature lies in the burn window. -/
structure Fuses where
  otp      : Tab OtpBit := []
  latched  : Tab Bool := []
  current  : Tab Bool := []
  weakMap  : List W32 := []
  state    : FuseState := .idle
  done     : Bool := false
  drift    : Bool := false
  overflow : Bool := false
  tempOk   : Bool := false
  inside   : Bool := false
  plan     : List (Nat × Nat) := []
  result   : BitVec 16 := 0
  arm      : Option (Agent × W32 × W64) := Option.none
  word     : W32 := 0
  src      : Agent := .seed
  image    : List W32 := []
  waiting  : Bool := false
  resense  : Option W32 := Option.none
  grant    : Option (BitVec 4 × Byte) := Option.none
  client   : Option FuseClient := Option.none
  lrQueue  : List Nat := []
deriving DecidableEq, Repr

/-- An ACTIVE alarm (R376, R470). `tkind`: 0 device, 1 port, 2 sheaf, 3 stand (R388). -/
structure Alarm where
  seq    : Nat
  code   : Nat
  rank   : Nat
  tkind  : Nat
  target : Nat
  coinc  : W32
  data   : W32
  acked  : Bool := false
  normal : Bool := false
deriving DecidableEq, Repr

/-- A record that waits for the evidence log: KIND, body, and the alarm rank when it stands in the alarm queue. -/
structure LogRec where
  kind : Nat
  body : List Byte
  rank : Option Nat := none
deriving DecidableEq, Repr

/-- The alarm arbiter (13). -/
structure Alarms where
  active     : List Alarm := []
  seq        : Nat := 0
  ranks      : Tab Nat := []
  mark       : W32 := 0
  window     : Option Nat := none
  queue      : List LogRec := []
  noteMerged : BitVec 16 := 0
  lostMerged : BitVec 16 := 0
  lastNote   : BitVec 16 := 0
  lastLost   : BitVec 16 := 0
deriving DecidableEq, Repr

/-- The backup domain (R373, R381, R386, R387, R89, R419): `restarts` and the STUMBLED slots last until the next cold start;
`persist` holds the level sources whose condition has tripped,
with the clock time since which it reads normal again. -/
structure Backup where
  sealLatch : Bool := false
  clock     : BitVec 48 := 0
  log       : List W128 := []
  overflow  : BitVec 16 := 0
  overTime  : BitVec 48 := 0
  disarmed  : List Nat := []
  persist   : List (Nat × Option Nat) := []
  rankFlag  : Bool := true
  zeroFlag  : Bool := false
  lastGood  : Tab (List Byte) := []
  restarts  : List (Nat × Slot) := []
  stumbledA : Bool := false
  stumbledB : Bool := false
  watchCnt  : Byte := 0
  switches  : BitVec 2 := 0
  brank     : Tab Nat := []
deriving DecidableEq, Repr

/-- Log unit states (R391). -/
inductive LogState | scanning | running | stopped | erasing
deriving DecidableEq, Repr

/-- The log unit (R388 to R391): `closed` says that the open segment already ends in a SEAL, `ptr` is APPEND_PTR,
`first` and `entries` belong to the open segment, `retires` are the standing RETIRE bodies, `images` is the measurement log
of R117: port and IMAGE_ID of each slot that a record names, `reapplied` that LEAD has re-applied the standing retirements of this
start (R414). -/
structure Log where
  state    : LogState := .scanning
  carried  : Bool := false
  openSeg  : Nat := 0
  closed   : Bool := false
  ptr      : Nat := 0
  seq      : Nat := 0
  chain    : List Byte := []
  epoch    : Nat := 0
  first    : Nat := 0
  entries  : Nat := 0
  waiting  : List LogRec := []
  retires  : List (List Byte) := []
  images   : List (Nat × List Byte) := []
  reapplied : Bool := false
deriving DecidableEq, Repr

/-- Pool states (R403). -/
inductive PoolSt | ok | frozen | reconciling
deriving DecidableEq, Repr

/-- What a reconciliation returns (R400): a holder, the cause, and how many of its units; all where none is named. -/
structure PoolRet where
  holder : Nat
  cause  : Nat
  units  : Option Nat := none
deriving DecidableEq, Repr

/-- A pool's census (R393): HOLDING of the holders and the HELD copies; `recount` says that the census is recounted for a
census fault, `fault` that the alarm of a refused return has still to be raised (R396, R399); `ret` the returns of a
reconciliation that runs or waits, `late` returns that land after it, `claims` units that go to a RETIRED holder as soon as
the pool grants. -/
structure Pool where
  total   : Nat := 0
  free    : Nat := 0
  held    : Tab Nat := []
  holding : Tab Nat := []
  st      : PoolSt := .ok
  newTot  : Option Nat := none
  recount : Bool := false
  fault   : Bool := false
  ret     : List PoolRet := []
  late    : List (Nat × Nat) := []
  claims  : List (Nat × Nat) := []
deriving DecidableEq, Repr

/-- Who waits for device leave (R394, R395). -/
inductive LvUse
  | kernel (e : Nat) | chain (e : Nat) | wake | runtime | fuse | canopyA | canopyB | linkCore | retrain (l : Nat)
  | recovery (p : Nat) | bundle
deriving DecidableEq, Repr

/-- A waiting LV request. -/
structure LvReq where
  use : LvUse
  n   : Nat
deriving DecidableEq, Repr

/-- The census unit and the LV arbiter (14). -/
structure Leave where
  pools  : Tab Pool := []
  queue  : List LvReq := []
deriving DecidableEq, Repr

/-- Channel states (R411). -/
inductive ChState | inService | probing | retired | kept
deriving DecidableEq, Repr

/-- A channel (R408 to R411). -/
structure Chan where
  state      : ChState := .inService
  bucket     : Nat := 0
  try_       : Nat := 0
  cause      : Byte := 0
  transients : Byte := 0
deriving DecidableEq, Repr

/-- Handover states (R423). -/
inductive HoState | idle | checking | loading | waitingReady | switching | reloading | tagging
deriving DecidableEq, Repr

/-- The live handover (R420 to R423) and the link core's restarts (R418); `linkSlot` is the bundle slot of the firmware that
the link core runs. -/
structure Handover where
  state     : HoState := .idle
  slot      : Slot := .a
  old       : Bundle := {}
  new       : Bundle := {}
  stale     : Bool := false
  running   : Slot := .a
  linkSlot  : Slot := .a
  stumbledA : Bool := false
  stumbledB : Bool := false
  result    : BitVec 16 := 0
  linkTimes : List Nat := []
deriving DecidableEq, Repr

/-- Lane states (R429). -/
inductive LaneSt | down | training | up | secured | retired
deriving DecidableEq, Repr

/-- A frame the device hands to a lane (R433), with the addresses of R428 and the EtherType of CFG; no destination where the
rules name no peer role. -/
structure TxFrame where
  src     : List Byte := []
  dst     : List Byte := []
  ether   : Nat := 0x88B5
  lane    : Nat
  type    : Nat
  flags   : Nat
  xfer    : W32
  index   : Nat
  payload : List Byte
  sent    : Nat
  limit   : Nat
deriving DecidableEq, Repr

/-- An SPDM request that is arriving: its XFER, its segments by INDEX, the INDEX of the one with LAST (R438). -/
structure SpdmIn where
  xfer : W32
  segs : Tab (List Byte) := []
  last : Option Nat := none
deriving DecidableEq, Repr

/-- An SPDM response in its turn: lane, XFER, its bytes once it is signed (R438, R439). -/
structure SpdmOut where
  lane : Nat
  xfer : Nat
  msg  : Option (List Byte)
deriving DecidableEq, Repr

/-- A link lane (R427, R429, R434 to R436, R430); `fails` counts the failed
attempts at each rate; `spdmVca`, `spdmCert`, `spdmMeas` are the transcripts of DSP0274. -/
structure LaneLink where
  st       : LaneSt := .down
  rate     : BitVec 3 := 0
  los      : Bool := true
  sak      : BitVec 2 := 0
  retrains : Byte := 0
  advert   : BitVec 6 := 0
  fails    : Tab Nat := []
  sent     : Nat := 0
  limit    : Nat := 0
  counted  : Nat := 0
  told     : Nat := 0
  peerLim  : Nat := 0
  ctrs     : Tab Nat := []
  spdmIn   : List SpdmIn := []
  spdmVca  : List Byte := []
  spdmCert : List Byte := []
  spdmMeas : List Byte := []
  changing : Bool := false
  due      : Bool := false
  wait     : List TxFrame := []
  grantOk  : Bool := false
deriving DecidableEq, Repr

/-- An image transfer (R441 to R443): `kind` 1 manifest, 2 header, 3 slot image, 4 shelf manifest. `bytes` is the object so
far. Of a slot image: the leaves it takes in `want`, in `open_` those requested and not verified (leaf, quarters that have
arrived, path), in `ok` those verified, in `fails` the failures per leaf. `base` is the flash address of its first byte. -/
structure Xfer where
  port  : Nat := 0
  kind  : Nat := 0
  ref   : List Byte := []
  lane  : Nat := 0
  susp  : Bool := false
  bytes : List Byte := []
  next  : Nat := 0
  last  : Bool := false
  open_ : List (Nat × List Nat × List Byte) := []
  fails : Tab Nat := []
  want  : List Nat := []
  ok    : List Nat := []
  len   : Nat := 0
  root  : List Byte := []
  base  : Nat := 0
deriving DecidableEq, Repr

/-- STATE of a recovery flow (R472). -/
inductive FlowSt | idle | pulling | erasing | programming | rewaking | done | failed
deriving DecidableEq, Repr

/-- A recovery flow (R444 to R448); `flow` 1 to 5 as in RECOVER, `stepNo` the step that comes next, `leaves` the leaves
used so far of `total`, `man` and `hdr` the accepted manifest and header, in SHELF mode the shelf manifest that the flow began
with, `check` the verification of the pulled manifest that runs or waits. -/
structure Flow where
  st     : FlowSt := .idle
  flow   : Nat := 0
  slot   : Slot := .a
  page   : Nat := 0
  ref    : List Byte := []
  xfer   : Nat := 0
  reason : BitVec 16 := 0
  leaves : Nat := 0
  total  : Nat := 0
  man    : List Byte := []
  hdr    : List Byte := []
  stepNo : Nat := 0
  token  : Bool := false
  cancel : Bool := false
  check  : Option ChainJob := none
deriving DecidableEq, Repr

/-- The link core's and recovery's state common to both lanes (16): the peers' MAC addresses by 2 role + lane, the ABORT
frames and the notices that wait for a SECURED lane, the SPDM responses in the order of their requests (R438). -/
structure Link where
  lanes    : Tab LaneLink := []
  auto     : Bool := true
  ckn      : List Byte := []
  peers    : Tab (List Byte) := []
  xfers    : Tab Xfer := []
  nextXfer : Nat := 1
  flows    : Tab Flow := []
  notices  : List Nat := []
  aborts   : List (Nat × Nat) := []
  spdmOut  : List SpdmOut := []
deriving DecidableEq, Repr

/-- A command whose answer waits for a verification or an engine: its code, its arguments, the object that it has consumed, the
verification that it waits for (R461, R466). -/
structure Call where
  code   : Nat
  args   : List W32 := []
  obj    : List Byte := []
  sig    : Option ChainJob := none
deriving DecidableEq, Repr

/-- A mailbox (R457 to R460, R476): `parity` says that a word of the oldest request fails its parity (R384), `tag` of the
command in progress, `call` what it waits with, `owed` responses that wait for credits (R463), `frozen` the word outside the
census (R476), `paused` that a handover keeps it not ready (R478). -/
structure Mbox where
  req       : List W32 := []
  rsp       : List W32 := []
  reqLimit  : Nat := 0
  resets    : Nat := 0
  ready     : Bool := false
  offered   : Nat := 0
  delivered : Nat := 0
  aborted   : Bool := false
  frozen    : Option W32 := none
  tag       : Option Byte := none
  call      : Option Call := none
  owed      : List (List W32) := []
  parity    : Bool := false
  paused    : Bool := false
deriving DecidableEq, Repr

/-- The object buffer (R465). -/
structure ObjBuf where
  owner   : Option Nat := none
  kind    : Nat := 0
  len     : Nat := 0
  bytes   : Tab Byte := []
  written : Tab Bool := []
deriving DecidableEq, Repr

/-- A CRC_ON that SET_MSPI chose: it comes into force when the `left`-th word of mailbox `mb` from now on is acknowledged (R454). -/
structure CrcChange where
  mb   : Nat
  left : Nat
  on   : Bool
deriving DecidableEq, Repr
/-- MSPI, mailboxes, the abort unit and the register window's own words (17, 18): `crcs` are the changes of CRC_ON that wait for
their acknowledgement, oldest first; `out` and `outBytes` are what the last frame returned; `abortOf` the targets of the last
abort, by function and index (R477). -/
structure Mspi where
  crcOn      : Bool := false
  crcs       : List CrcChange := []
  abortOf    : List (Nat × Nat) := []
  lastMb     : BitVec 3 := 0
  lastResult : BitVec 4 := 0
  ctrs       : Tab Nat := []
  boxes      : Tab Mbox := []
  lastServed : Nat := 0
  obj        : ObjBuf := {}
  merged     : Byte := 0
  out        : List W32 := []
  outBytes   : List Byte := []
  latch      : Tab (Option W32) := []
  unmapped   : BitVec 16 := 0
  roWrites   : BitVec 16 := 0
  scratch    : W32 := 0
deriving DecidableEq, Repr

end Sys2Proof.Machine
end

