-- ==== Sys2Proof/Machine/State.lean ====
section
/-! DEFINITION. The state of the SV96, its reset, and the reasons a step can stop. -/

namespace Sys2Proof.Machine

/-- The whole state of the block. Banks of like things are sparse tables keyed by their number. -/
structure State where
  /-- Start-up, supplies, clocks, release of cores (02). -/
  boot    : Boot := {}
  /-- Ports in their stand controllers, keyed by port (01, 03). -/
  hold    : Tab PHold := []
  /-- Stand controllers, keyed by stand (01 R23). -/
  stands  : Tab Stand := []
  /-- Edge machines, keyed by port (05). -/
  edge    : Tab PEdge := []
  /-- Port counters, keyed by 32 p + position in R484. -/
  ctr     : Tab Nat := []
  /-- Winnow, keyed by port (06). -/
  win     : Tab PWin := []
  /-- Decision paths and event queues, keyed by port (07, 09). -/
  dec     : Tab PDec := []
  /-- Sheaves, keyed by sheaf (02 R58). -/
  sheaves : Tab Sheaf := []
  /-- Rule table and rebuild engine (06). -/
  rules   : Rules := {}
  /-- The shelf wake (03). -/
  wake    : Wake := {}
  /-- Ports in the wake, keyed by port (03). -/
  wport   : Tab PWake := []
  /-- Verdict records, keyed by port (03 R92, R93). -/
  verd    : Tab PVerd := []
  /-- The Granary; pages 0 to 15 are SYSTEM (08 R243). -/
  gran    : Granary := { map := (List.range 16).map fun n => (n, 0xDFC00000) }
  /-- Granary status of the ports, keyed by port (08 R268). -/
  pgran   : Tab PGran := []
  /-- Cores: 0 seed, 1 and 2 Canopy A and B, 3 link, 4 watch, 8 + 8 s + t thread t of SQs (09). -/
  cores   : Tab Core := []
  /-- Local memories: 0 seed, 1 and 2 Canopy, 3 link, 4 watch, 5 backup memory, 8 + s SQs (09 R300). -/
  mems    : Tab (Tab Byte) := []
  /-- Stored words whose check fails: no command of the table disturbs a word, a new write mends it (13 R384; log 49). -/
  flaws   : List Flaw := []
  /-- Kernel engines, keyed by engine (10). -/
  engines : Tab Engine := []
  /-- Key unit and identity unit (11). -/
  keys    : Keys := {}
  /-- Fuse controller (12). -/
  fuses   : Fuses := {}
  /-- Alarm arbiter (13). -/
  alarms  : Alarms := {}
  /-- Backup domain (13). -/
  backup  : Backup := {}
  /-- Evidence-log unit (13). -/
  log     : Log := {}
  /-- Pools and leave; TOTAL as R392 states it, FREE equal to TOTAL (14). -/
  leave   : Leave := { pools :=
    [(0, { total := 48, free := 48 }), (8, { total := 24, free := 24 }), (9, { total := 131056, free := 131056 }),
     (10, { total := 64, free := 64 }), (11, { total := 64, free := 64 })]
     ++ (List.range 16).map fun i => (16 + i, { total := 256, free := 256 }) }
  /-- Channels, keyed by 128 code + index (15). -/
  chans   : Tab Chan := []
  /-- Live handover (15). -/
  hand    : Handover := {}
  /-- Trust link and recovery (16). -/
  link    : Link := {}
  /-- MSPI, mailboxes, abort unit, register window (17, 18). -/
  mspi    : Mspi := {}
  /-- The home flash (04 R109). -/
  home    : Tab Byte := []
  /-- The home flash is in continuous-read state (08 R265). -/
  homeCont : Bool := false
  /-- Frames handed to the link lanes since reset, oldest first (16 R433). -/
  linkOut : List TxFrame := []
  /-- The slot counter CYC (07 R217). -/
  cyc     : W64 := 0
  /-- The model's own counter of free values. -/
  fresh   : Nat := 0
  /-- Commands that wait, first in, first out. -/
  pending : List Instr := []
deriving DecidableEq, Repr

/-- The block after main-power reset: every field at the value its default states. -/
def State.reset : State := {}

/-- Faults. No command of the SV96 ends in one: every error the spec
describes sets state or takes an exception, so this type has no constructor. Safe. -/
inductive Fault
deriving DecidableEq, Repr

/-- Refusals. -/
inductive Refusal
  /-- Raised by an arm of exec whose command has no meaning yet; `mnemonic` names it. Safe: nothing is claimed. -/
  | notModelled (mnemonic : String)
deriving DecidableEq, Repr

end Sys2Proof.Machine
end

