-- ==== Sys2Proof/Machine/Otp.lean ====
section
/-! DEFINITION. The OTP array: units, the reads of a sense, counters, key-digest slots, the weak map (12). -/

namespace Sys2Proof.Machine

open Sys2Proof

/-- An OTP unit of R352: code, group (R386 codes, then 5 LR, 6 HP, 7 TRIM, 8 CFG), base, bits, the field its lock
covers (offset, bits), offsets of COMPLETE and LOCK. -/
structure OtpUnit where
  code  : Nat
  group : Nat
  base  : Nat
  bits  : Nat
  cover : Nat × Nat := (0, 0)
  comp  : Option Nat := none
  lock  : Option Nat := none
deriving DecidableEq, Repr

/-- The unit table of R352. -/
def otpUnits : List OtpUnit :=
  [{ code := 0x00, group := 0, base := 0x0000, bits := 64, cover := (8, 8), comp := some 16, lock := some 32 },
   { code := 0x01, group := 5, base := 0x0040, bits := 64 },
   { code := 0x02, group := 4, base := 0x0080, bits := 320, cover := (0, 256), comp := some 256, lock := some 272 },
   { code := 0x03, group := 1, base := 0x0200, bits := 512, cover := (0, 384), comp := some 384, lock := some 400 }]
  ++ ((List.range 8).map fun n => { code := 0x10 + n, group := 3, base := 0x0400 + 256 * n, bits := 256 })
  ++ ((List.range 16).map fun n =>
      { code := 0x20 + n, group := 2, base := 0x0C00 + 512 * n, bits := 512, cover := (0, 384), comp := some 384, lock := some 400 })
  ++ [{ code := 0x30, group := 6, base := 0x2C00, bits := 512, cover := (0, 480), comp := some 480, lock := some 496 },
      { code := 0x31, group := 7, base := 0x2E00, bits := 384, cover := (0, 352), comp := some 352, lock := some 368 },
      { code := 0x32, group := 8, base := 0x3000, bits := 512, cover := (0, 480), comp := some 480, lock := some 496 }]

/-- The unit of a code. -/
def otpUnit (code : Nat) : Option OtpUnit := otpUnits.find? fun u => decide (u.code = code)
/-- The unit whose range holds an address. -/
def otpUnitAt (a : Nat) : Option OtpUnit := otpUnits.find? fun u => decide (u.base ≤ a ∧ a < u.base + u.bits)
/-- A group of class K (R48). -/
def classK (group : Nat) : Bool := decide (group ≤ 4)
/-- Bit `i` of a unit belongs to a field of R352; the others are reserved. -/
def OtpUnit.named (u : OtpUnit) (i : Nat) : Bool :=
  if u.group = 0 then decide (i < 5 ∨ i = 8 ∨ (16 ≤ i ∧ i ≤ 32))
  else if u.group = 1 then decide (i ≤ 400)
  else if u.group = 2 then decide (i ≤ 401)
  else if u.group = 3 then true
  else if u.group = 4 then decide (i ≤ 272)
  else if u.group = 5 then decide (i < 24)
  else if u.group = 7 then decide (i ≤ 368)
  else decide (i ≤ 496)

/-! ### One bit (R45 to R47, R367) -/

/-- The copy reads programmed at normal reference on both reads. -/
def CopySt.firm : CopySt → Bool
  | .weak => true | .sound => true | _ => false
/-- The logical value: the OR of the copies at normal reference; a copy that reads both ways counts programmed
(DEDUCED, log 18). -/
def OtpBit.value (b : OtpBit) : Bool := decide (b.c0 ≠ .none) || decide (b.c1 ≠ .none)
/-- The two normal reads of the bit differ. -/
def OtpBit.disagree (b : OtpBit) : Bool :=
  (decide (b.c0 = .unstable) || decide (b.c1 = .unstable)) && !(b.c0.firm || b.c1.firm)
/-- WEAK (R47). A bit whose two normal reads disagree and that no copy shows at raised reference is not weak (DESIGN CHOICE,
log 51). -/
def OtpBit.isWeak (b : OtpBit) : Bool := (b.c0.firm || b.c1.firm) && decide (b.c0 ≠ .sound) && decide (b.c1 ≠ .sound)
/-- HALF (R367). -/
def OtpBit.isHalf (b : OtpBit) : Bool :=
  (decide (b.c0 = .sound) && decide (b.c1 = .none)) || (decide (b.c1 = .sound) && decide (b.c0 = .none))
/-- The copies that fail at raised reference: bit c for copy c. -/
def OtpBit.failing (b : OtpBit) : Nat := (decide (b.c0 ≠ .sound)).toNat + 2 * (decide (b.c1 ≠ .sound)).toNat

/-- The bit at a logical address. -/
def State.otpBit (s : State) (a : Nat) : OtpBit := Tab.get {} s.fuses.otp a
/-- A latched value (R45). -/
def State.latched (s : State) (a : Nat) : Bool := Tab.get false s.fuses.latched a
/-- The value with the burns made since the sense (R356). -/
def State.current (s : State) (a : Nat) : Bool := Tab.get false s.fuses.current a

/-- The bytes of `n` bytes of content from bit address `a` on (R353). -/
def otpBytes (t : Tab Bool) (a n : Nat) : List Byte :=
  (List.range n).map fun k => BitVec.ofNat 8 (maskOf ((List.range 8).filter fun j => Tab.get false t (a + 8 * k + j)))
/-- The field of `n` bits from bit address `a` on. -/
def otpField (t : Tab Bool) (a n : Nat) : Nat := maskOf ((List.range n).filter fun j => Tab.get false t (a + j))
/-- The number of programmed bits in [a, a + n). -/
def otpCount (t : Tab Bool) (a n : Nat) : Nat := ((List.range n).filter fun j => Tab.get false t (a + j)).length

/-- LC_LATCHED (R340, R356). -/
def State.lcLatched (s : State) : Nat := otpCount s.fuses.latched 0 5
/-- LC_CURRENT (R340). -/
def State.lcCurrent (s : State) : Nat := otpCount s.fuses.current 0 5
/-- Count of MCn. -/
def mcCount (t : Tab Bool) (n : Nat) : Nat := otpCount t (0x400 + 256 * n) 256
/-- LOCK of KDn. -/
def kdLock (t : Tab Bool) (n : Nat) : Bool := Tab.get false t (0xC00 + 512 * n + 400)
/-- REVOKE of KDn. -/
def kdRevoke (t : Tab Bool) (n : Nat) : Bool := Tab.get false t (0xC00 + 512 * n + 401)
/-- DIGEST of KDn, 48 bytes. -/
def kdDigest (t : Tab Bool) (n : Nat) : List Byte := otpBytes t (0xC00 + 512 * n) 48
/-- KDn signs (R360). -/
def State.kdSigns (s : State) (n : Nat) : Bool := kdLock s.fuses.latched n && !kdRevoke s.fuses.latched n
/-- The fuse root, 256 bits (R342). -/
def fuseRoot (t : Tab Bool) : Nat := otpField t 0x80 256

/-- The completeness word of a unit agrees with the field its lock covers (R353). -/
def crcAgrees (t : Tab Bool) (u : OtpUnit) : Bool :=
  match u.comp with
  | none => true
  | some o => decide (crc16 (otpBytes t (u.base + u.cover.1) (u.cover.2 / 8)) = otpField t (u.base + o) 16)

/-! ### The sense (R45 to R50) -/

/-- The addresses R49 names for a unit. -/
def unitFailures (otp : Tab OtpBit) (lat : Tab Bool) (u : OtpUnit) : List Nat :=
  let as := ((List.range u.bits).filter u.named).map (u.base + ·)
  let dis := as.filter fun a => (Tab.get {} otp a).disagree
  let crc := match u.comp, u.lock with
    | some c, some l => if Tab.get false lat (u.base + l) && !crcAgrees lat u then [u.base + c] else []
    | _, _ => []
  let steps := if u.group = 0 then 5 else if u.group = 3 then 256 else 0
  let run := (List.range steps).filter fun i =>
    !Tab.get false lat (u.base + i) && (List.range steps).any fun j => decide (i < j) && Tab.get false lat (u.base + j)
  let weak := if classK u.group then as.filter fun a => (Tab.get {} otp a).isWeak else []
  let fr := if u.group = 4 && !Tab.get false lat 8 then as.filter fun a => Tab.get false lat a else []
  dis ++ crc ++ run.map (u.base + ·) ++ weak ++ fr

/-- The content of HP or CFG keeps its reserved bytes zero (R472). -/
def contentOk (lat : Tab Bool) (group : Nat) : Bool :=
  if group = 6 then
    let c := otpBytes lat 0x2C00 60
    zeros c 56 4 && decide ((byteAt c 1).toNat / 16 = 0)
  else if group = 8 then
    let c := otpBytes lat 0x3000 60
    zeros c 4 4 && zeros c 18 42 && decide ((byteAt c 0).toNat / 16 = 0 ∧ (byteAt c 1).toNat / 4 = 0)
      && decide (field c 8 10 / 2 ^ 75 = 0)
  else true

/-- The failing groups with the lowest address each names (R49); class C groups fail on their content too (R472). -/
def failingGroups (otp : Tab OtpBit) (lat : Tab Bool) : List (Nat × Nat) :=
  (List.range 9).filterMap fun g =>
    let bits := (otpUnits.filter fun u => decide (u.group = g)).flatMap (unitFailures otp lat)
    match bits with
    | [] => if contentOk lat g then none else some (g, 0)
    | b :: bs => some (g, bs.foldl min b)

/-! ### The weak map (R367) -/

/-- A weak-map entry. -/
def weakEntry (half : Bool) (copies : Nat) (later : Bool) (a : Nat) : W32 :=
  BitVec.ofNat 32 (2 ^ 31 + half.toNat * 2 ^ 30 + copies % 4 * 2 ^ 28 + later.toNat * 2 ^ 27 + a % 2 ^ 14)
/-- VALID of an entry. -/
def weakValid (w : W32) : Bool := bitOf w.toNat 31
/-- ADDRESS of an entry. -/
def weakAddr (w : W32) : Nat := w.toNat % 2 ^ 14
/-- Number of valid entries (WEAK_COUNT). -/
def Fuses.weakCount (f : Fuses) : Nat := (f.weakMap.filter weakValid).length

/-- The 25 sources with a rank register in R472's order. -/
def rankSources : List Nat :=
  [0x0101, 0x0102, 0x0103, 0x0104, 0x0105, 0x0110, 0x0111, 0x0120, 0x0121, 0x0122, 0x0130, 0x0140, 0x0141, 0x0401, 0x0402,
   0x0405, 0x0501, 0x0502, 0x0503, 0x0504, 0x0508, 0x0509, 0x050A, 0x050B, 0x050C]

/-- The content of CFG in force: the fuses', or the ROM defaults where CFG has failed (R50): bytes 0 and 1 are the
ROM's, the other defaults are those of zero fields (R472). -/
def State.cfg (s : State) : List Byte :=
  if bitOf s.boot.fallback.toNat 3 then padTo (Config.romCfg.take 2) 60 else otpBytes s.fuses.latched 0x3000 60

/-- The bits that the function of `word` pulses, in order, with the copies named; FIRE keeps them (R363, R365, R368). -/
def Fuses.targets (f : Fuses) : List (Nat × Nat) :=
  let w := f.word.toNat
  let fn := bitsOf w 23 20
  let arg := bitsOf w 11 0
  match otpUnit (bitsOf w 19 12) with
  | none => []
  | some u =>
    let at_ := fun (l : List Nat) => (l.filter fun a => !Tab.get false f.current a).map fun a => (a, 3)
    if fn = 1 then at_ (((List.range (min u.bits 512)).filter fun i => bitOf (f.image.getD (i / 32) 0).toNat (i % 32)).map (u.base + ·))
    else if fn = 2 then at_ (match u.lock with | some l => [u.base + l] | none => [])
    else if fn = 3 then at_ ((List.range arg).map (u.base + ·))
    else if fn = 4 then at_ [u.base + 401]
    else if fn = 5 then
      let e := f.weakMap.getD arg 0
      if weakValid e then [(weakAddr e, bitsOf e.toNat 29 28)] else []
    else []

/-- One copy of a bit takes a state. -/
def Fuses.setCopy (f : Fuses) (a c : Nat) (v : CopySt) : Fuses :=
  let otp := Tab.upd {} f.otp a fun b => if c = 0 then { b with c0 := v } else { b with c1 := v }
  { f with otp := otp, current := Tab.put false f.current a (Tab.get false f.current a || (Tab.get {} otp a).value) }

/-- COPIES of a weak-map entry loses a copy that verified; VALID clears with the last (R368). -/
def weakDone (w : W32) (c : Nat) : W32 :=
  let w := w &&& ~~~ (BitVec.ofNat 32 (2 ^ (28 + c)))
  if bitsOf w.toNat 29 28 = 0 then w &&& 0x7FFFFFFF else w
/-- A copy verifies; a REBURN takes it out of its weak-map entry (R365, R368). -/
def Fuses.copySound (f : Fuses) (a c : Nat) : Fuses :=
  let f := f.setCopy a c .sound
  if bitsOf f.word.toNat 23 20 = 5 then
    let i := bitsOf f.word.toNat 11 0
    { f with weakMap := setAt f.weakMap i (weakDone (f.weakMap.getD i 0) c) }
  else f
/-- A bit whose copies in the mask verify. -/
def Fuses.burnBit (f : Fuses) (a mask : Nat) : Fuses :=
  let f := if bitOf mask 0 then f.copySound a 0 else f
  if bitOf mask 1 then f.copySound a 1 else f

/-- The state a copy is left in where the spec does not say (an interrupted pulse): a free value. -/
def copyOf (n : Nat) : CopySt := if n % 3 = 0 then .none else if n % 3 = 1 then .weak else .sound
/-- What a pulse that did not verify leaves: no pulse returns a programmed copy to 0 (R351). -/
def CopySt.pulsed (old v : CopySt) : CopySt := if v = .none ∨ old = .sound then old else v
/-- Copy c of a bit. -/
def OtpBit.copy (b : OtpBit) (c : Nat) : CopySt := if c = 0 then b.c0 else b.c1

/-! ### Words of the controller (R359, R364, R366) -/

/-- FUNCTION of a FUSE_ARM or FUSE_FIRE word. -/
def fuseFn (w : W32) : Nat := bitsOf w.toNat 23 20
/-- UNIT. -/
def fuseUnit (w : W32) : Nat := bitsOf w.toNat 19 12
/-- ARG. -/
def fuseArg (w : W32) : Nat := bitsOf w.toNat 11 0

/-- STATE code of the fuse status word. -/
def FuseState.code : FuseState → Nat | .idle => 0 | .armed => 1 | .burning => 2 | .sensing => 3
/-- The fuse status word. -/
def State.fuseStatus (s : State) : W32 :=
  let f := s.fuses
  BitVec.ofNat 32 (f.state.code * 2 ^ 30 + f.done.toNat * 2 ^ 29 + f.drift.toNat * 2 ^ 28 + f.overflow.toNat * 2 ^ 27
    + f.tempOk.toNat * 2 ^ 26 + f.weakCount * 2 ^ 16 + f.result.toNat)
/-- The counter word of a unit: MCn by n, LC by 8. -/
def State.counterWord (s : State) (n : Nat) : W32 :=
  let c := if n = 8 then s.lcCurrent else mcCount s.fuses.current n
  let l := if n = 8 then s.lcLatched else mcCount s.fuses.latched n
  BitVec.ofNat 32 (c * 2 ^ 16 + l)

/-- What the response of a fuse command carries: the counter word of an ADVANCE, else the status word (R470, R473). -/
def State.fuseReport (s : State) (cmd : Byte) : W32 :=
  let u := fuseUnit s.fuses.word
  if cmd = 0x42 ∧ 0x10 ≤ u ∧ u ≤ 0x17 then s.counterWord (u - 0x10)
  else if cmd = 0x42 ∨ cmd = 0x47 then s.counterWord 8
  else s.fuseStatus

end Sys2Proof.Machine
end

