-- ==== Sys2Proof/Machine/Ops.lean ====
section
/-! DEFINITION. The named operations over the state that every family shares: accessors, pools, holds, alarms and
their responses, counters, events, channel errors. -/

namespace Sys2Proof.Machine

open Sys2Proof

/-- Read a port in its stand controller. -/
def State.ph (s : State) (i : Nat) : PHold := Tab.get {} s.hold i
/-- Change a port in its stand controller. -/
def State.phU (s : State) (i : Nat) (f : PHold → PHold) : State := { s with hold := Tab.upd {} s.hold i f }

/-- Read a stand controller. -/
def State.st (s : State) (i : Nat) : Stand := Tab.get {} s.stands i
/-- Change a stand controller. -/
def State.stU (s : State) (i : Nat) (f : Stand → Stand) : State := { s with stands := Tab.upd {} s.stands i f }

/-- Read a port's edge machine. -/
def State.pe (s : State) (i : Nat) : PEdge := Tab.get {} s.edge i
/-- Change a port's edge machine. -/
def State.peU (s : State) (i : Nat) (f : PEdge → PEdge) : State := { s with edge := Tab.upd {} s.edge i f }

/-- Read a port's filter state. -/
def State.pw (s : State) (i : Nat) : PWin := Tab.get {} s.win i
/-- Change a port's filter state. -/
def State.pwU (s : State) (i : Nat) (f : PWin → PWin) : State := { s with win := Tab.upd {} s.win i f }

/-- Read a port's decision path. -/
def State.pd (s : State) (i : Nat) : PDec := Tab.get {} s.dec i
/-- Change a port's decision path. -/
def State.pdU (s : State) (i : Nat) (f : PDec → PDec) : State := { s with dec := Tab.upd {} s.dec i f }

/-- Read a sheaf. -/
def State.sh (s : State) (i : Nat) : Sheaf := Tab.get {} s.sheaves i
/-- Change a sheaf. -/
def State.shU (s : State) (i : Nat) (f : Sheaf → Sheaf) : State := { s with sheaves := Tab.upd {} s.sheaves i f }

/-- Read a port in the wake. -/
def State.pk (s : State) (i : Nat) : PWake := Tab.get {} s.wport i
/-- Change a port in the wake. -/
def State.pkU (s : State) (i : Nat) (f : PWake → PWake) : State := { s with wport := Tab.upd {} s.wport i f }

/-- Read a port's verdict record. -/
def State.pv (s : State) (i : Nat) : PVerd := Tab.get {} s.verd i
/-- Change a port's verdict record. -/
def State.pvU (s : State) (i : Nat) (f : PVerd → PVerd) : State := { s with verd := Tab.upd {} s.verd i f }

/-- Read a port's Granary status. -/
def State.pg (s : State) (i : Nat) : PGran := Tab.get {} s.pgran i
/-- Change a port's Granary status. -/
def State.pgU (s : State) (i : Nat) (f : PGran → PGran) : State := { s with pgran := Tab.upd {} s.pgran i f }

/-- Read a core or thread. -/
def State.co (s : State) (i : Nat) : Core := Tab.get {} s.cores i
/-- Change a core or thread. -/
def State.coU (s : State) (i : Nat) (f : Core → Core) : State := { s with cores := Tab.upd {} s.cores i f }

/-- Read a Kernel engine. -/
def State.en (s : State) (i : Nat) : Engine := Tab.get {} s.engines i
/-- Change a Kernel engine. -/
def State.enU (s : State) (i : Nat) (f : Engine → Engine) : State := { s with engines := Tab.upd {} s.engines i f }

/-- Read a channel. -/
def State.ch (s : State) (i : Nat) : Chan := Tab.get {} s.chans i
/-- Change a channel. -/
def State.chU (s : State) (i : Nat) (f : Chan → Chan) : State := { s with chans := Tab.upd {} s.chans i f }

/-- Read a link lane. -/
def State.ln (s : State) (i : Nat) : LaneLink := Tab.get {} s.link.lanes i
/-- Change a link lane. -/
def State.lnU (s : State) (i : Nat) (f : LaneLink → LaneLink) : State :=
  { s with link := { s.link with lanes := Tab.upd {} s.link.lanes i f } }

/-- Read a mailbox. -/
def State.mb (s : State) (i : Nat) : Mbox := Tab.get {} s.mspi.boxes i
/-- Change a mailbox. -/
def State.mbU (s : State) (i : Nat) (f : Mbox → Mbox) : State :=
  { s with mspi := { s.mspi with boxes := Tab.upd {} s.mspi.boxes i f } }

/-- Read a pool. -/
def State.po (s : State) (q : Nat) : Pool := Tab.get {} s.leave.pools q
/-- Change a pool. -/
def State.poU (s : State) (q : Nat) (f : Pool → Pool) : State :=
  { s with leave := { s.leave with pools := Tab.upd {} s.leave.pools q f } }

/-- Read a key slot. -/
def State.ks (s : State) (n : Nat) : KeySlot := Tab.get {} s.keys.slots n
/-- Change a key slot. -/
def State.ksU (s : State) (n : Nat) (f : KeySlot → KeySlot) : State :=
  { s with keys := { s.keys with slots := Tab.upd {} s.keys.slots n f } }

/-- The keystream over one stored share of a slot (R338). -/
def State.slotStream (s : State) (n share : Nat) : BitVec 512 := Config.slotStream s.keys.kSlotKey n share (s.ks n).remasks
/-- The key of a slot: its two shares combined (R330, R338). -/
def State.slotKey (s : State) (n : Nat) : BitVec 512 :=
  ((s.ks n).share0 ^^^ s.slotStream n 0) ^^^ ((s.ks n).share1 ^^^ s.slotStream n 1)
/-- The check bits of a stored share: 8 for each 64 of its bits (R339). -/
def shareEccs (x : BitVec 512) : List Byte := (List.range 8).map fun i => Config.shareEcc (x.extractLsb' (64 * i) 64)
/-- Shares as the slot store holds them, with their check bits (R338, R339). -/
def KeySlot.stored (k : KeySlot) (a b : BitVec 512) : KeySlot :=
  { k with share0 := a, share1 := b, ecc0 := shareEccs a, ecc1 := shareEccs b }
/-- The attribute word and its shadow change together (R339). -/
def KeySlot.withAttr (k : KeySlot) (attr : W32) : KeySlot := { k with attr := attr, attrN := ~~~attr }
/-- A slot passes its checks: the attribute word agrees with its shadow, the shares of a key with their check bits (R339). -/
def KeySlot.sound (k : KeySlot) : Bool :=
  decide (k.attrN = ~~~k.attr)
    && (!k.attr.getLsbD 31 || (decide (k.ecc0 = shareEccs k.share0) && decide (k.ecc1 = shareEccs k.share1)))
/-- A key stored as share 0 = key XOR M and share 1 = M, each under its keystream (R338). -/
def State.storeKey (s : State) (n : Nat) (key m : BitVec 512) : State :=
  s.ksU n fun k => k.stored (key ^^^ m ^^^ Config.slotStream s.keys.kSlotKey n 0 k.remasks)
    (m ^^^ Config.slotStream s.keys.kSlotKey n 1 k.remasks)
/-- Read a byte of local memory `m`. -/
def State.memGet (s : State) (m a : Nat) : Byte := Tab.get 0 (Tab.get [] s.mems m) a
/-- The word of a flaw lies in bytes [a, b) of local memory `m`. -/
def Flaw.inMem (m a b : Nat) : Flaw → Bool
  | .mem n w _ => decide (n = m ∧ a ≤ 8 * w ∧ 8 * w + 8 ≤ b)
  | _ => false
/-- The word of 8 bytes at index `i` of local memory `m`, 36 bits of it (R270, R300). -/
def State.memWord (s : State) (m i : Nat) : W36 := BitVec.ofNat 36 (leNat (Tab.range 0 (Tab.get [] s.mems m) (8 * i) 8))
/-- The stored check of a word of local memory `m` that a read of [a, a + size) takes does not match it (R382, R384). -/
def State.memBad (s : State) (m a size : Nat) : Bool :=
  s.flaws.any fun x => match x with
    | .mem n w check => decide (n = m ∧ a < 8 * w + 8 ∧ 8 * w < a + size) && decide (check ≠ memCheck w (s.memWord m w))
    | _ => false
/-- Write bytes of local memory `m`; words written whole carry a good check. -/
def State.memPut (s : State) (m a : Nat) (bs : List Byte) : State :=
  { s with mems := Tab.upd [] s.mems m fun t => Tab.putList 0 t a bs
           flaws := s.flaws.filter fun x => !x.inMem m a (a + bs.length) }
/-- Zero local memory `m`. -/
def State.memZero (s : State) (m : Nat) : State :=
  { s with mems := Tab.put [] s.mems m [], flaws := s.flaws.filter fun x => match x with | .mem n _ _ => decide (n ≠ m) | _ => true }
/-- The flaws that satisfy `p` are mended. -/
def State.mend (s : State) (p : Flaw → Bool) : State := { s with flaws := s.flaws.filter fun x => !p x }

/-- Bank VDDIO_H is good and inside its limits (R500). -/
def State.homeUp (s : State) : Bool := s.boot.sup.ioH && !s.boot.bankOut.getLsbD 12
/-- A byte that stands in the home flash; an unwritten one is erased. -/
def State.homeByte (s : State) (a : Nat) : Byte := Tab.get 0xFF s.home a
/-- A read of `len` bytes of the home flash; while its bank is down each byte is a free value (R500). -/
def State.homeGet (s : State) (a len : Nat) : List Byte :=
  if s.homeUp then Tab.range 0xFF s.home a len else (List.range len).map fun i => Config.homeDead s.fresh (a + i)
/-- The content of HP in force (R472); a failed group sets the reads alone to those of R50. -/
def State.hp (s : State) : List Byte := otpBytes s.fuses.latched 0x2C00 60
/-- A frame that the home port sends in single SDR (R472; its clock is the slowest of R134, log 57). -/
def homeFrame (out : List Byte) (read : Nat) : MasterFrame := { out := out, clock := 0, shape := 0, capture := 0, wait := 0, read := read }
/-- An address of the home flash as HP has it (R472). -/
def State.homeAddr (s : State) (a : Nat) : List Byte := (leBytes a (if byteAt s.hp 15 = 4 then 4 else 3)).reverse
/-- The set-up frames or the exit frame of HP: up to n records of 8 bytes (R472). -/
def homeRecs (r : List Byte) : Nat → List MasterFrame
  | 0 => []
  | n + 1 => if byteAt r 0 = 0 then [] else homeFrame (sub r 1 (byteAt r 0).toNat) 0 :: homeRecs (r.drop 8) n
/-- The exit frame of continuous read (R265, R472). -/
def State.homeExit (s : State) : List MasterFrame := if s.homeCont then homeRecs (sub s.hp 48 8) 1 else []
/-- A read of n bytes from address a: READ_CMD, left out in continuous read, SHAPE, CLOCK, WAIT and CAPTURE of HP; command 0x0B with
8 wait edges in single SDR at 25 MHz after a failure of HP (R50, R265, R472). -/
def State.homeRead (s : State) (a n : Nat) : MasterFrame :=
  let h := s.hp
  if bitOf s.boot.fallback.toNat 1 then { out := 0x0B :: s.homeAddr a, clock := 0, shape := 0, capture := 0, wait := 8, read := n }
  else
    let m := if bitOf (byteAt h 1).toNat 3 then [byteAt h 13] else []
    { out := (if s.homeCont then [] else [byteAt h 0]) ++ s.homeAddr a ++ m, clock := (byteAt h 2).toNat, shape := byteAt h 1,
      capture := (byteAt h 4).toNat, wait := (byteAt h 3).toNat, read := n }
/-- The pages of bytes from address a on: start and content of each, none wider than the part's PAGE. -/
def pagesOf (size a : Nat) (bs : List Byte) : List (Nat × List Byte) :=
  if size = 0 then [(a, bs)]
  else (List.range ((a + bs.length + size - 1) / size - a / size)).map fun i =>
    let lo := max a (size * (a / size + i))
    (lo, sub bs (lo - a) (size * (a / size + i + 1) - lo))
/-- The frames of erases and programs with the commands of HP: write enable, the erase or the page, status read (R472). -/
def State.homeFrames (s : State) (l : List FlashOp) : List MasterFrame :=
  let h := s.hp
  let op := fun (out : List Byte) => [homeFrame [byteAt h 8] 0, homeFrame out 0, homeFrame [byteAt h 11] 1]
  s.homeExit ++ l.flatMap fun o => match o with
    | .erase a => op (byteAt h 10 :: s.homeAddr a)
    | .program a bs => (pagesOf (field h 6 2) a bs).flatMap fun e => op (byteAt h 9 :: s.homeAddr e.1 ++ e.2)
/-- The home port sends frames; 127 is its edge machine. -/
def State.homeSends (s : State) (l : List MasterFrame) : State := s.peU 127 fun e => { e with master := l }
/-- What the home port does to the home flash; the exit frame of its continuous read comes first (R265). While its bank is down no
frame leaves the device (R500). -/
def State.homeDoes (s : State) (l : List FlashOp) (content : Tab Byte) : State :=
  if s.homeUp then { s.homeSends (s.homeFrames l) with home := content, homeCont := false } else s
/-- Program bytes of the home flash. -/
def State.homePut (s : State) (a : Nat) (bs : List Byte) : State := s.homeDoes [.program a bs] (Tab.putList 0xFF s.home a bs)
/-- Erase [a, a + len) of the home flash. -/
def State.homeErase (s : State) (a len : Nat) : State :=
  s.homeDoes ((List.range (ceilDiv len 65536)).map fun i => .erase (a + 65536 * i)) (Tab.clear s.home a (a + len))

/-- The next free value (log 10). -/
def State.drawn (s : State) (i : Nat) : Nat := Config.draw (s.fresh + i)
/-- `n` free values have been used. -/
def State.used (s : State) (n : Nat) : State := { s with fresh := s.fresh + n }

/-- What a block's own function leaves behind. -/
def after (o : Host.Outcome State Fault Refusal) (s : State) : State := match o with | .next t => t | _ => s

/-- All ports. -/
def allPorts : List Nat := List.range 96
/-- The stand of a port (R12). -/
def standOf (p : Nat) : Nat := p % 6
/-- The sheaf of a port (R12). -/
def sheafOf (p : Nat) : Nat := p / 8
/-- The 16 ports of stand k in position order (R23, R29). -/
def standPorts (k : Nat) : List Nat := (List.range 16).map fun i => k + 6 * i
/-- The 8 ports of sheaf s (R20). -/
def sheafPorts (s : Nat) : List Nat := (List.range 8).map fun t => 8 * s + t
/-- Number of a core in State.cores. -/
def coreNo : CoreId → Nat
  | .seed => 0 | .canopyA => 1 | .canopyB => 2 | .link => 3 | .watch => 4 | .sq k t => 8 + 8 * k.val + t.val
/-- Local memory of a core. -/
def memNo : CoreId → Nat
  | .seed => 0 | .canopyA => 1 | .canopyB => 2 | .link => 3 | .watch => 4 | .sq k _ => 8 + k.val

/-- Apply `f` for every element of a list, in order. -/
def State.each {α : Type} (s : State) (l : List α) (f : State → α → State) : State := l.foldl f s

/-- The carrier of `p` is in the glade: released (R92 RELEASED). -/
def State.inGlade (s : State) (p : Nat) : Bool := !(s.ph p).hold

/-- A port is held: its hold state or its shadow says so (R26). -/
def State.heldNow (s : State) (p : Nat) : Bool := (s.ph p).hold || !(s.ph p).holdN

/-- The states of the last column of R505: ports work, Pn_PG is sampled. -/
def DevState.late (d : DevState) : Bool := match d with | .service | .ride | .headless => true | _ => false
/-- The I/O bank of a port is good and inside its limits (R36, R500). -/
def State.bankUp (s : State) (p : Nat) : Bool :=
  s.boot.sup.io.getLsbD (sheafOf p) && !s.boot.bankOut.getLsbD (sheafOf p)

/-! ### Pools (14) -/

/-- Units a pool's holders hold. -/
def Pool.sumHeld (q : Pool) : Nat := (q.held.map (·.2)).sum

/-- A pool grants only in state OK and when FREE covers the grant (R399, R404). -/
def State.canGrant (s : State) (q n : Nat) : Bool := decide ((s.po q).st = .ok) && decide (n ≤ (s.po q).free)

/-- A grant of n units to holder h in one cycle (R393); a pool that cannot grant them grants none (R399, R404). -/
def State.poolGrant (s : State) (q h n : Nat) : State :=
  if s.canGrant q n then
    s.poU q fun p => { p with
      free := p.free - n, held := Tab.upd 0 p.held h (· + n), holding := Tab.upd 0 p.holding h (· + n) }
  else s
/-- Units that pass to a RETIRED holder: at once, or as soon as the pool grants again (R392, R400). -/
def State.poolClaim (s : State) (q h n : Nat) : State :=
  if s.canGrant q n then s.poolGrant q h n else s.poU q fun p => { p with claims := p.claims ++ [(h, n)] }

/-- A pool starts its reconciliation as the census fault asks; one that stays frozen waits for a warm restart (R399, R401). -/
def Pool.recounts (p : Pool) : Pool := if p.st = .frozen then p else { p with st := .reconciling, recount := true }
/-- A return of n units by holder h in one cycle (R393); during reconciliation it lands after it, and what the
reconciliation itself returns whole is not returned twice (R400). The census unit refuses one above HELD: nothing moves, and
the census fault follows (R396). -/
def State.poolBack (s : State) (q h n : Nat) : State :=
  s.poU q fun p =>
    if p.st = .reconciling then
      (if p.ret.any fun r => decide (r.holder = h) && r.units.isNone then p else { p with late := p.late ++ [(h, n)] })
    else if n ≤ Tab.get 0 p.held h then { p with
      free := p.free + n, held := Tab.upd 0 p.held h (· - n), holding := Tab.upd 0 p.holding h (· - n) }
    else { p.recounts with fault := true }

/-- What a holder of a pool keeps: its count without the returns that a reconciliation takes in or holds back (R400). -/
def Pool.keeps (p : Pool) (h : Nat) : Nat :=
  if p.ret.any fun r => decide (r.holder = h) && r.units.isNone then 0
  else Tab.get 0 p.held h - ((p.ret.filter fun r => decide (r.holder = h)).map fun r => r.units.getD 0).sum
    - ((p.late.filter fun e => decide (e.1 = h)).map (·.2)).sum
/-- What holder h of pool q holds. -/
def State.holds (s : State) (q h : Nat) : Nat := (s.po q).keeps h

/-- Reconciliation of a pool starts for what it returns; one that runs takes it in; a frozen pool waits for a warm restart,
CAUSE 1 (R400, R401). -/
def State.reconcileOf (s : State) (q : Nat) (rets : List PoolRet) : State :=
  s.poU q fun p => { p with
    st := if p.st = .frozen ∧ rets.all (fun r => decide (r.cause ≠ 1)) then .frozen else .reconciling
    ret := p.ret ++ rets.filter fun r => !p.ret.contains r }
/-- The same for holders whose units all return. -/
def State.reconcile (s : State) (q cause : Nat) (holders : List Nat) : State :=
  s.reconcileOf q (holders.map fun h => { holder := h, cause := cause })

/-- Holder code of an LV use (R403). -/
def LvUse.holder : LvUse → Nat
  | .kernel e => e | .chain e => e | .wake => 4 | .runtime => 5 | .fuse => 6 | .canopyA => 7 | .canopyB => 7
  | .linkCore => 7 | .bundle => 7 | .retrain _ => 8 | .recovery _ => 9

/-- Class of an LV use (R394). -/
def LvUse.urgent : LvUse → Bool
  | .chain _ => true | .wake => true | _ => false

/-- A request waits for device leave, in order of arrival (R395). -/
def State.lvAsk (s : State) (u : LvUse) (n : Nat) : State :=
  { s with leave := { s.leave with queue := s.leave.queue ++ [⟨u, n⟩] } }
/-- A waiting request is withdrawn (R395). -/
def State.lvDrop (s : State) (u : LvUse) : State :=
  { s with leave := { s.leave with queue := s.leave.queue.filter fun r => decide (r.use ≠ u) } }
/-- The leave of an LV holder returns (R396). -/
def State.lvBack (s : State) (u : LvUse) (n : Nat) : State := s.poolBack 0 u.holder n

/-- Tokens held by class 0 holders: WAKE, and engines in chain mode (R395). -/
def State.urgentHeld (s : State) : Nat :=
  s.holds 0 4 + (((List.range 4).filter fun e => (s.en e).chain.isSome).map fun e => s.holds 0 e).sum
/-- A class 1 request of n tokens keeps the RESERVE of 29 less what class 0 holders hold (R395). -/
def State.roomFor1 (s : State) (n : Nat) : Bool := s.canGrant 0 n && decide (n + (29 - s.urgentHeld) ≤ (s.po 0).free)
/-- Core number of an agent. -/
def agentCore : Agent → Option Nat | .seed => some 0 | .canopyA => some 1 | .canopyB => some 2 | .link => some 3 | .verdict => none
/-- The LEAD agent (R27). -/
def State.leadAgent (s : State) : Option Agent :=
  if s.boot.leadShadowBad then none
  else match s.boot.lead with | .a => some .canopyA | .b => some .canopyB | .none => none

/-- Some core holds LEAD: what firmware does under LEAD can happen (R27). -/
def State.leads (s : State) : Bool := s.leadAgent.isSome

/-- The agent with SECOND (R27). -/
def State.secondAgent (s : State) : Option Agent :=
  match s.leadAgent with | some .canopyA => some .canopyB | some .canopyB => some .canopyA | _ => none
/-- The core that asked for a grant, if a core did (R395). -/
def State.lvCore (s : State) (u : LvUse) : Option Nat :=
  match u with
  | .kernel _ => if s.boot.canopyOut then s.leadAgent.bind agentCore else some 0
  | .fuse => agentCore s.fuses.src
  | .bundle | .canopyA | .canopyB => some 0
  | .linkCore => s.leadAgent.bind agentCore
  | .retrain _ => some 3
  | .recovery _ => s.secondAgent.bind agentCore
  | .chain _ | .wake | .runtime => none
/-- A grant of device leave: the tokens, and line 10 on the requesting core (R395). -/
def State.lvGrant (s : State) (u : LvUse) (n : Nat) : State :=
  let s := s.poolGrant 0 u.holder n
  match s.lvCore u with
  | some c => s.coU c fun k => { k with lines := k.lines ||| 0x400 }
  | none => s
/-- A class 1 draw that no earlier request passes (R395); none where it has to wait. -/
def State.lvTake (s : State) (u : LvUse) (n : Nat) : Option State :=
  if s.leave.queue = [] && s.roomFor1 n then some (s.lvGrant u n) else none

/-! ### Mailboxes (R457, R458) -/

/-- A mailbox becomes READY: 256 request credits to SHELF, 256 response credits to FIRMWARE. A frozen pool keeps it
not ready (R476); so does a handover until its flip (R478). -/
def State.boxReady (s : State) (q : Nat) : State :=
  if s.canGrant (16 + q) 256 && s.canGrant (24 + q) 256 then
    let on := decide (s.hand.state ≠ .switching)
    ((s.poolGrant (16 + q) 0 256).poolGrant (24 + q) 0 256).mbU q fun b =>
      { b with reqLimit := (b.reqLimit + 256) % 65536, ready := on, paused := !on }
  else s
/-- The words of a mailbox go; REQ_LIMIT restarts, RESETS advances (R458). -/
def State.boxDrop (s : State) (q : Nat) : State :=
  let s := s.mbU q fun b => { b with
    req := [], rsp := [], reqLimit := 0, resets := (b.resets + 1) % 4, ready := false, offered := 0, delivered := 0,
    tag := none, call := none, owed := [], frozen := none, aborted := false, paused := false }
  let gone := decide (s.fuses.client.map (·.mb) = some q)
  { s with
    fuses := { s.fuses with client := if gone then none else s.fuses.client }
    mspi := { s.mspi with
      obj := if s.mspi.obj.owner = some q then {} else s.mspi.obj
      crcs := s.mspi.crcs.filter fun c => decide (c.mb ≠ q) } }
/-- An emptying that returns every unit of MQn and MRn (R458). -/
def State.boxEmpty (s : State) (q : Nat) : State :=
  let s := s.each [16 + q, 24 + q] fun s k => (s.poolBack k 0 (s.holds k 0)).poolBack k 1 (s.holds k 1)
  s.boxDrop q

/-- Units of a pool pass from one holder to another (R393, R458). -/
def State.poolMove (s : State) (q from_ to_ n : Nat) : State :=
  s.poU q fun p =>
    { p with
      held := Tab.upd 0 (Tab.upd 0 p.held from_ (· - n)) to_ (· + n)
      holding := Tab.upd 0 (Tab.upd 0 p.holding from_ (· - n)) to_ (· + n) }

/-- Words of a response that FIRMWARE credits cover (R463). -/
def State.rspRoom (s : State) (q : Nat) : Nat := if (s.po (24 + q)).st = .ok then s.holds (24 + q) 0 else 0

/-- Responses that wait are written in order as far as credits cover them whole (R463). -/
def State.boxFlush (s : State) (q : Nat) : State :=
  (s.mb q).owed.foldl (fun s r =>
    if (s.mb q).owed.head? = some r ∧ r.length ≤ s.rspRoom q then
      (s.poolMove (24 + q) 0 1 r.length).mbU q fun b => { b with rsp := b.rsp ++ r, owed := b.owed.drop 1 }
    else s) s

/-- A response header (R462). -/
def rspHeader (status : Nat) (tag : Byte) (n : Nat) : W32 :=
  BitVec.ofNat 32 (status % 2 ^ 16 * 2 ^ 16 + tag.toNat * 2 ^ 8 + n % 256)

/-- A response: header and result words; discarded while the mailbox's ABORTED flag stands (R462, R476). -/
def State.respond (s : State) (q : Nat) (tag : Byte) (status : Nat) (ws : List W32) : State :=
  let s := s.mbU q fun b => { b with
    tag := none, call := none, owed := if b.aborted then b.owed else b.owed ++ [rspHeader status tag ws.length :: ws] }
  s.boxFlush q

/-! ### Interrupt lines (R298) -/

/-- Cores a line is routed to. -/
def lineCores (n : Nat) : List Nat :=
  if n ≤ 3 ∨ n = 9 ∨ n = 13 then [0, 1, 2]
  else if n = 10 then [0, 1, 2, 3]
  else if n = 12 then [1, 2, 3]
  else if n = 15 then [3]
  else [1, 2]

/-- Assert or release line n on the cores it is routed to. -/
def State.setLine (s : State) (n : Nat) (v : Bool) : State :=
  s.each (lineCores n) fun s c => s.coU c fun k =>
    { k with lines := if v then k.lines ||| BitVec.ofNat 16 (2 ^ n) else k.lines &&& ~~~ (BitVec.ofNat 16 (2 ^ n)) }

/-! ### Port events (R292, R163, R164) -/

/-- An event word. -/
def eventWord (kind tag span cls leaf sector : Nat) : W36 :=
  BitVec.ofNat 36 (kind * 2 ^ 32 + tag % 4 * 2 ^ 30 + span % 16 * 2 ^ 26 + cls % 4 * 2 ^ 24 + leaf % 256 * 2 ^ 16
    + sector % 65536)

/-- KIND of an event word. -/
def eventKind (w : W36) : Nat := w.toNat / 2 ^ 32

/-- The event queue takes a word, or its crossing holds it; a frame-ended flag that meets one still held merges (R292). A
FLIP, HELD or OPEN that meets a full queue waits in order with the held crossings (DESIGN CHOICE, log 53). -/
def State.pushEvent (s : State) (p : Nat) (w : W36) : State :=
  let d := s.pd p
  if d.events.length < 4 ∧ d.cross = [] then s.pdU p fun d => { d with events := d.events ++ [w] }
  else if eventKind w = 4 ∧ d.cross.any (fun x => decide (eventKind x = 4)) then
    { s with ctr := Tab.upd 0 s.ctr (32 * p + 13) fun n => satAdd 8 n 1 }
  else s.pdU p fun d => { d with cross := d.cross ++ [w] }

/-! ### Home-bound log records (R388) -/

/-- A record that SECOND appends to the evidence log. -/
def State.logRec (s : State) (kind : Nat) (body : List Byte) : State :=
  { s with log := { s.log with waiting := s.log.waiting ++ [{ kind := kind, body := body }] } }

/-! ### The backup log (R386, R387) -/

/-- A backup-log entry. -/
def backupEntry (time code rank count data : Nat) : W128 :=
  BitVec.ofNat 128 (time % 2 ^ 48 * 2 ^ 80 + code % 2 ^ 16 * 2 ^ 64 + rank % 8 * 2 ^ 61 + 2 ^ 60
    + count % 2 ^ 16 * 2 ^ 32 + data % 2 ^ 32)

/-- RANK of a backup-log entry. -/
def entryRank (w : W128) : Nat := bitsOf w.toNat 63 61

/-- The entry is a NOTE. -/
def entryNote (w : W128) : Bool := decide (entryRank w = 0) && decide (bitsOf w.toNat 79 64 < 0x0580)

/-- Remove the first element that satisfies `f`. -/
def dropFirst {α : Type} (f : α → Bool) : List α → List α
  | [] => []
  | a :: t => if f a then t else a :: dropFirst f t

/-- One NOTE entry is merged into OVERFLOW (R387). -/
def Backup.merge (b : Backup) (w : W128) : Backup :=
  { b with overflow := BitVec.ofNat 16 (satAdd 16 b.overflow.toNat 1),
           overTime := if b.overflow = 0 then BitVec.ofNat 48 (w.toNat / 2 ^ 80) else b.overTime }

/-- An entry arrives at the backup log. -/
def Backup.add (b : Backup) (w : W128) : Backup :=
  if b.log.length < 64 then { b with log := b.log ++ [w] }
  else match b.log.find? entryNote with
    | some n => { b.merge n with log := dropFirst entryNote b.log ++ [w] }
    | none => if entryNote w then b.merge w else { b with log := b.log ++ [w] }

/-- Write one backup-log entry. -/
def State.backupLog (s : State) (code rank count data : Nat) : State :=
  { s with backup := s.backup.add (backupEntry s.backup.clock.toNat code rank count data) }

/-- The record of watch-core faults: one entry, whose COUNT follows the flag count (R302, R386). -/
def State.watchEntry (s : State) : State :=
  let n := s.backup.watchCnt.toNat
  let mine := fun (w : W128) => decide (bitsOf w.toNat 79 64 = 0x0582)
  if s.backup.log.any mine then
    { s with backup := { s.backup with
      log := s.backup.log.map fun w => if mine w then backupEntry (w.toNat / 2 ^ 80) 0x0582 0 n 0 else w } }
  else s.backupLog 0x0582 0 n 0

/-! ### Hold path (R25, R26, R131) -/

/-- The runtime lanes go back when the last port leaves the glade (R227). -/
def State.runtimeOff (s : State) : State :=
  if (allPorts.any fun p => s.inGlade p) then s
  else
    let s := s.poolBack 8 1 (s.holds 8 1)
    let s := s.lvDrop .runtime
    s.lvBack .runtime (s.holds 0 5)

/-- FLIPPING ends once every requested flip has taken effect (R205). STAGING names the other generation from then on
(DESIGN CHOICE, log 52). -/
def State.flipsEnd (s : State) : State :=
  if s.rules.state = .flipping ∧ !(allPorts.any fun q => (s.pw q).flipPend) then
    ({ s with rules := { s.rules with state := .idle, staging := !s.rules.staging } }).setLine 7 true
  else s

/-- A pending flip takes effect: GEN changes and FLIP_PEND clears (R206). -/
def State.takeFlip (s : State) (p : Nat) : State :=
  let w := s.pw p
  let g := !w.gen
  let s := s.pwU p fun w => { w with gen := g, genN := !g, flipPend := false }
  let s := s.flipsEnd
  s.pushEvent p (eventWord 5 (s.pe p).tag.toNat 0 0 0 0)

/-- The hold state of a port becomes held: Pn_HOLD_N low, the port leaves PASS or DARK, a pending flip acts, the
status model clears (R25, R131, R196, R206). -/
def State.holdPort (s : State) (p : Nat) : State :=
  let was := s.inGlade p
  let s := s.phU p fun h => { h with
    hold := true, holdN := false, noted := (if was then false else h.noted), mode := if h.mode = .master then .master else .isolated }
  let s := s.pwU p fun w => { w with wel := false, busy := false }
  let s := if (s.pw p).flipPend then s.takeFlip p else s
  let s := if was then s.pushEvent p (eventWord 6 (s.pe p).tag.toNat 0 0 0 0) else s
  if was then s.runtimeOff else s

/-! ### Granary groups (R243, R244) -/

/-- A page-map entry. -/
def pageEntry (use port : Nat) (slot reloc : Bool) (ce index : Nat) : W32 :=
  BitVec.ofNat 32 (use % 8 * 2 ^ 29 + port % 128 * 2 ^ 22 + slot.toNat * 2 ^ 21 + reloc.toNat * 2 ^ 20
    + ce % 4 * 2 ^ 18 + index % 2 ^ 17)
/-- What a FREE page reads as. -/
def pageFree : W32 := 0x1FC00000
/-- The page-map entry of a page. -/
def State.page (s : State) (n : Nat) : W32 := Tab.get pageFree s.gran.map n
/-- USE of an entry. -/
def pageUse (w : W32) : Nat := bitsOf w.toNat 31 29
/-- PORT of an entry. -/
def pagePort (w : W32) : Nat := bitsOf w.toNat 28 22
/-- SLOT of an entry. -/
def pageSlot (w : W32) : Bool := bitOf w.toNat 21
/-- INDEX of an entry. -/
def pageIndex (w : W32) : Nat := bitsOf w.toNat 16 0
/-- Write the page-map entries of group g. -/
def State.setGroup (s : State) (g : Nat) (w : W32) : State :=
  { s with gran := { s.gran with map := Tab.putList pageFree s.gran.map (8 * g) (List.replicate 8 w) } }
/-- The lowest free group (log 16). -/
def State.freeGroup (s : State) : Option Nat :=
  (List.range 16384).find? fun g => decide (2 ≤ g) && ((List.range 8).all fun i => decide (s.page (8 * g + i) = pageFree))
/-- Use and port of an entry of the tag directory; 0xFF in its key stands for the execute-in-place region. -/
def tagDirUse (key : Nat) : Nat × Nat := if key / 4096 = 0xFF then (5, 0x7F) else (1, key / 4096)
/-- Use and port of an entry of the serve directory. -/
def srvDirUse (key : Nat) : Nat × Nat :=
  if key < 2 ^ 25 then (2, key / 2 ^ 18) else if key < 2 ^ 26 then (3, (key - 2 ^ 25) / 2 ^ 17) else (4, (key - 2 ^ 26) / 2 ^ 17)
/-- Every page of a group is BAD: the directories alone name its use (R249). -/
def State.allBad (s : State) (g : Nat) : Bool := (List.range 8).all fun i => decide (pageUse (s.page (8 * g + i)) = 7)
/-- The groups that have this use and port, and slot where given: by their pages that are not BAD, and by the directories where
every page is. -/
def State.groupsOf (s : State) (use port : Nat) (slot : Option Bool) : List Nat :=
  let fits := fun (w : W32) => match slot with | none => true | some b => decide (pageSlot w = b)
  let good := (s.gran.map.filter fun e => decide (pageUse e.2 = use) && decide (pagePort e.2 = port) && fits e.2).map fun e => e.1 / 8
  let bad := ((s.gran.tagDir.filter fun e => decide (tagDirUse e.1 = (use, port)))
    ++ s.gran.srvDir.filter fun e => decide (srvDirUse e.1 = (use, port))).map (·.2)
  (good ++ bad.filter fun g => s.allBad g && fits (s.page (8 * g))).eraseDups
/-- Write one page-map entry. -/
def State.setPage (s : State) (n : Nat) (w : W32) : State :=
  { s with gran := { s.gran with map := Tab.put pageFree s.gran.map n w } }
/-- A group goes to RETIRED: its pages that are not BAD read SYSTEM 0x1_FFFE, and no page is being relocated (R243,
R249). -/
def State.groupRetired (s : State) (g : Nat) : State :=
  s.each (List.range 8) fun s i =>
    let w := s.page (8 * g + i)
    s.setPage (8 * g + i) (if pageUse w = 7 then w &&& 0xFFEFFFFF else pageEntry 6 0x7F false false 0 0x1FFFE)
/-- GP holder code of a page use (R403): TAG 0, PIN 1, SERVE 2, STAGING 3, CANOPY 4. -/
def useHolder (use : Nat) : Nat := use - 1
/-- A group's pages become FREE, those of a group with a BAD page RETIRED; no directory and no relocation names it any more
(R244, R248, R249). The pool's return goes beside it. -/
def State.dropGroup (s : State) (g : Nat) : State :=
  let bad := (List.range 8).any fun i => decide (pageUse (s.page (8 * g + i)) = 7)
  let s := { s with gran := { s.gran with
    tagDir := s.gran.tagDir.filter fun e => decide (e.2 ≠ g), srvDir := s.gran.srvDir.filter fun e => decide (e.2 ≠ g)
    relocs := s.gran.relocs.filter fun r => decide (r.group ≠ g) } }
  if bad then (s.groupRetired g).poolClaim 9 6 8 else s.setGroup g pageFree
/-- A group goes back to FREE; a group with a BAD page goes to RETIRED (R244, R249). -/
def State.returnGroup (s : State) (use g : Nat) : State := (s.poolBack 9 (useHolder use) 8).dropGroup g
/-- Groups of one use of a port go back. -/
def State.returnGroups (s : State) (use port : Nat) (slot : Option Bool) : State :=
  s.each (s.groupsOf use port slot) fun s g => s.returnGroup use g
/-- The groups of some uses of a port return through reconciliation with a CAUSE (R400, R412). -/
def State.reconcileGroups (s : State) (cause port : Nat) (uses : List Nat) : State :=
  s.each uses fun s use =>
    let gs := s.groupsOf use port none
    if gs = [] then s
    else (s.reconcileOf 9 [{ holder := useHolder use, cause := cause, units := some (8 * gs.length) }]).each gs State.dropGroup
/-- Draw a group for a use; none where the pool grants none. -/
def State.takeGroup (s : State) (use : Nat) (w : W32) : Option (Nat × State) :=
  if s.canGrant 9 8 then
    match s.freeGroup with
    | some g => some (g, (s.poolGrant 9 (useHolder use) 8).setGroup g w)
    | none => none
  else none

/-- Region context i of a port, 128 bytes (R198, R199). -/
def State.context (s : State) (p i : Nat) : List Byte := sub (s.pw p).ctx (128 * i) 128
/-- KIND of a region context. -/
def State.ctxKind (s : State) (p i : Nat) : Nat := (byteAt (s.pw p).ctx (128 * i)).toNat
/-- The port has a pin context (R259). -/
def State.hasPin (s : State) (p : Nat) : Bool := (List.range 127).any fun i => decide (s.ctxKind p (i + 1) = 3)
/-- The serve-set context of a port (R261). -/
def State.serveCtx (s : State) (p : Nat) : Option Nat :=
  ((List.range 127).find? fun i => decide (s.ctxKind p (i + 1) = 4)).map (· + 1)

/-- A slot serves its destination: K_SLOT stands, the slot is VALID, sound and unbroken, DEST has the bit, LC_BIND holds (R328,
R330, R338, R339). -/
def State.slotServes (s : State) (n dest : Nat) : Bool :=
  let k := s.ks n
  s.keys.kSlot && !k.bad && k.sound && bitOf k.attr.toNat 31 && bitOf k.attr.toNat (18 + dest)
    && !(bitOf k.attr.toNat 27 && decide (bitsOf k.attr.toNat 17 15 ≠ s.lcCurrent))
/-- The Granary can be read and written: KS1 serves its scrambler (R241, R330). -/
def State.granReady (s : State) : Bool := s.slotServes 1 4
/-- A lane can make or compare glean tags: KS0 serves it (R250, R330). -/
def State.tagsReady (s : State) : Bool := s.slotServes 0 1
/-- The keystream of the scrambler over a byte of the Granary, by its key KS1 and the byte's word (R241). -/
def State.scrambler (s : State) (a : Nat) : Byte :=
  (Config.keystream (leBytes (s.slotKey 1).toNat 32) (a / 256) (a / 16 % 16)).getD (a % 16) 0
/-- The check bits of eight stored bytes of the Granary, the bytes 8h to 8h + 7, over their page and word number (R241). -/
def State.granCheck (s : State) (h : Nat) : Byte := Config.secded (Tab.range 0 s.gran.data (8 * h) 8) (h / 32) (h / 2 % 16)
/-- A byte of the Granary: the stored byte without the keystream. -/
def State.granByte (s : State) (a : Nat) : Byte := Tab.get 0 s.gran.data a ^^^ s.scrambler a
/-- Bytes of the Granary. -/
def State.granGet (s : State) (a len : Nat) : List Byte := (List.range len).map fun i => s.granByte (a + i)
/-- Write bytes of the Granary, XORed with the keystream. -/
def State.granPut (s : State) (a : Nat) (bs : List Byte) : State :=
  { s with gran := { s.gran with data := Tab.putList 0 s.gran.data a (bs.zipIdx.map fun e => e.1 ^^^ s.scrambler (a + e.2)) } }

/-- The glean tag of a leaf under K_G (R250). -/
def State.gleanTag (s : State) (port addr : Nat) (leaf : List Byte) : W64 :=
  BitVec.ofNat 64 (leNat (kmac128 (leBytes (s.slotKey 0).toNat 32) (ascii "SV96GLEAN")
    (leBytes port 1 ++ leBytes addr 4 ++ leaf) 8))

/-! ### Kernel engine abort (R325 to R327) -/

/-- An engine accepts an abort: no output is written, reads return 0; a waiting start is withdrawn; one that is IDLE
is unaffected. -/
def State.abortEngine (s : State) (e : Nat) : State :=
  let k := s.en e
  if k.state = .busy ∨ k.waiting then
    let s := if k.waiting then (s.lvDrop (.kernel e)).lvDrop (.chain e) else s
    s.enU e fun k => { k with state := .aborting }
  else s

/-! ### Alarms and responses (13) -/

/-- ROM default rank of a source with a rank register (R372). -/
def romRank (code : Nat) : Option Nat :=
  if code = 0x0103 then some 2
  else if code = 0x0122 then some 0
  else if code = 0x0101 ∨ code = 0x0102 ∨ code = 0x0104 ∨ code = 0x0105 ∨ code = 0x0110 ∨ code = 0x0111 ∨ code = 0x0120
    ∨ code = 0x0121 ∨ code = 0x0130 ∨ code = 0x0140 ∨ code = 0x0141 ∨ code = 0x0401 ∨ code = 0x0402 ∨ code = 0x0405 then some 1
  else if (0x0501 ≤ code ∧ code ≤ 0x0504) ∨ code = 0x050A ∨ code = 0x050B then some 5
  else if code = 0x0508 ∨ code = 0x0509 ∨ code = 0x050C then some 0
  else none
/-- Floor of a source with a rank register (R372). -/
def floorRank (code : Nat) : Nat :=
  if code = 0x0103 then 2
  else if code = 0x0105 ∨ code = 0x0122 ∨ code = 0x0141 ∨ (0x0508 ≤ code ∧ code ≤ 0x050C) then 0
  else if 0x0501 ≤ code ∧ code ≤ 0x0504 then 5
  else 1
/-- A backup-domain source (R372). -/
def backupSource (code : Nat) : Bool := decide (0x0501 ≤ code ∧ code ≤ 0x050C)
/-- The rank register of a source: main ones in the alarm arbiter, backup ones in the backup domain (R373). -/
def State.rankOf (s : State) (code : Nat) : Nat :=
  let v := if backupSource code then Tab.get 0 s.backup.brank code else Tab.get 0 s.alarms.ranks code
  if v = 0 then (romRank code).getD 0 else v - 1
/-- Level sources (R376). -/
def levelSource (code : Nat) : Bool :=
  decide ((0x0101 ≤ code ∧ code ≤ 0x0122) ∨ (0x0501 ≤ code ∧ code ≤ 0x050C))

/-- The ports of a target (R374). -/
def targetPorts (tkind target : Nat) : List Nat :=
  if tkind = 1 then [target] else if tkind = 2 then sheafPorts target else if tkind = 3 then standPorts target else allPorts

/-- The ports a ZEROIZE holds: in DARK or with a pin context (R269). -/
def State.zeroizeHolds (s : State) : List Nat :=
  allPorts.filter fun p => decide ((s.ph p).mode = .dark) || s.hasPin p

/-- The ports a response of this rank holds (R374, R269); the ports of a sheaf whose bank fails are held at every rank above
(R36). -/
def State.holdSet (s : State) (rank tkind target : Nat) : List Nat :=
  if rank = 2 then targetPorts tkind target
  else if rank = 3 then allPorts.filter fun p => (targetPorts tkind target).any fun q => decide (standOf q = standOf p)
  else if rank = 4 then allPorts
  else if 5 ≤ rank then s.zeroizeHolds ++ (if tkind = 2 then (sheafPorts target).filter fun p => !s.zeroizeHolds.contains p else [])
  else []

/-- The body of an ALARM entry (R388). -/
def alarmBody (a : Alarm) (held : List Nat) : List Byte :=
  leBytes a.code 2 ++ leBytes a.rank 1 ++ leBytes a.tkind 1 ++ leBytes a.target 1 ++ leBytes 0 3 ++ leBytes a.coinc.toNat 4
    ++ leBytes a.data.toNat 4 ++ leBytes (maskOf held) 12 ++ leBytes 0 4

/-- A NOTE merges into NOTE_MERGED, a higher rank into LOST_MERGED (R378). -/
def Alarms.mergeIn (a : Alarms) (rank : Nat) : Alarms :=
  if rank = 0 then { a with noteMerged := BitVec.ofNat 16 (satAdd 16 a.noteMerged.toNat 1) }
  else { a with lostMerged := BitVec.ofNat 16 (satAdd 16 a.lostMerged.toNat 1) }

/-- An entry arrives at the alarm queue (R378). -/
def Alarms.enqueue (a : Alarms) (rank : Nat) (r : LogRec) : Alarms :=
  let low := (a.queue.filter fun x => decide (x.rank.getD 0 < 5)).length
  let note : LogRec → Bool := fun x => decide (x.rank = some 0)
  let mid : LogRec → Bool := fun x => decide (0 < x.rank.getD 0 ∧ x.rank.getD 0 < 5)
  if (rank < 5 ∧ low < 28 ∧ a.queue.length < 32) ∨ (5 ≤ rank ∧ a.queue.length < 32) then { a with queue := a.queue ++ [r] }
  else if a.queue.any note then
    { a.mergeIn 0 with queue := dropFirst note a.queue ++ [r] }
  else if rank < 5 then a.mergeIn rank
  else if a.queue.any mid then { a.mergeIn 1 with queue := dropFirst mid a.queue ++ [r] }
  else if rank = 6 ∧ a.queue.any (fun x => decide (x.rank = some 5)) then
    { a.mergeIn 1 with queue := dropFirst (fun x => decide (x.rank = some 5)) a.queue ++ [r] }
  else a.mergeIn 1

/-- DATA of an alarm for which the spec states none: a free value (log 10). -/
def noData : Nat := 2 ^ 32
/-- DATA as stated, or the next free value. -/
def State.dataOf (s : State) (data : Nat) : Nat := if data = noData then s.drawn 0 % 2 ^ 32 else data
/-- The free value of an unstated DATA has been used. -/
def State.dataUsed (s : State) (data : Nat) : State := if data = noData then s.used 1 else s

/-- The part of an alarm that every rank shares: SEQ, coincidence window and mark, holds with HOLD_LATCH, alarm queue
(R374, R375, R378, R470). -/
def State.decided (s : State) (code rank tkind target data : Nat) : State :=
  let word := s.dataOf data
  let s := s.dataUsed data
  let a := s.alarms
  let mark := if a.window.isNone then BitVec.ofNat 32 (satAdd 32 a.mark.toNat 1) else a.mark
  let al : Alarm := { seq := a.seq + 1, code := code, rank := rank, tkind := tkind, target := target, coinc := mark,
                      data := BitVec.ofNat 32 word }
  let held := s.holdSet rank tkind target
  let s := { s with alarms := { a with
    seq := a.seq + 1, mark := mark, window := some (max (a.window.getD 0) rank), active := a.active ++ [al] } }
  let s := s.each held fun s p =>
    (s.holdPort p).phU p fun h => { h with latch := true, latchBy := h.latchBy ++ [al.seq] }
  let s := { s with alarms := s.alarms.enqueue rank { kind := 0x10, body := alarmBody al held, rank := some rank } }
  s.setLine 6 true

/-! ### Fuse findings and life-cycle steps that other events cause (12, 11 R346) -/

/-- A fuse finding: alarm 0x0404 at NOTE or SIGNAL, its DATA a free value of unit and address (R370, log 10); 0xFF stands
for no unit. -/
def State.fuseAlarm (s : State) (rank : Nat) (a : Nat) : State :=
  s.decided 0x0404 rank 0 0 (Config.fuseData (((otpUnitAt a).map (·.code)).getD 0xFF) a).toNat

/-- An entry goes into the weak map: the first entry not in use, the end while fewer than 128 stand, else
WEAK_OVERFLOW and a SIGNAL alarm. A bit already listed keeps its entry, with its KIND now and the copies joined. -/
def State.weakAdd (s : State) (w : W32) : State :=
  let m := s.fuses.weakMap
  match (List.range m.length).find? fun i => weakValid (m.getD i 0) && decide (weakAddr (m.getD i 0) = weakAddr w) with
  | some i => { s with fuses := { s.fuses with weakMap := setAt m i ((m.getD i 0 &&& 0xBFFFFFFF) ||| (w &&& 0x70000000)) } }
  | none =>
    match (List.range m.length).find? fun i => !weakValid (m.getD i 0) with
    | some i => { s with fuses := { s.fuses with weakMap := setAt m i w } }
    | none =>
      if m.length < 128 then { s with fuses := { s.fuses with weakMap := m ++ [w] } }
      else ({ s with fuses := { s.fuses with overflow := true } }).fuseAlarm 1 (weakAddr w)

/-- The address is a field bit of a unit; the others are reserved (R352). -/
def otpNamed (a : Nat) : Bool := match otpUnitAt a with | some u => u.named (a - u.base) | none => false
/-- The notes of a sense about one bit: reserved bits programmed, WEAK, HALF. Every weak bit is entered in the weak map, a
reserved one too, whose alarm is the one of R352 (R47, R352, R367). -/
def State.senseBit (s : State) (a : Nat) : State :=
  let b := s.otpBit a
  let s := if b.isWeak then s.weakAdd (weakEntry false b.failing false a)
    else if b.isHalf then s.weakAdd (weakEntry true b.failing false a) else s
  if !otpNamed a then (if b.value then s.fuseAlarm 0 a else s)
  else if (b.isWeak && !((otpUnitAt a).map fun u => classK u.group).getD false) || b.isHalf then s.fuseAlarm 0 a
  else s
/-- A copy that a burn leaves without a good margin read: its bit goes into the weak map with every copy that fails at raised
reference; a HALF bit raises a NOTE alarm (R365, R367). -/
def State.burnFound (s : State) (a : Nat) : State :=
  let b := s.otpBit a
  let s := s.weakAdd (weakEntry b.isHalf b.failing true a)
  if b.isHalf then s.fuseAlarm 0 a else s

/-- Load the rank registers at a cold start (R372, R373): stored as rank + 1, 0 for the ROM default. -/
def State.loadRanks (s : State) (cfg : List Byte) : State :=
  let n := field cfg 8 10
  let s := s.each (List.range 25) fun s i =>
    let code := rankSources.getD i 0
    let v := bitsOf n (3 * i + 2) (3 * i)
    if backupSource code then
      if s.backup.rankFlag then
        let v := if v = 1 ∨ v = 6 ∨ v = 7 then max (v - 1) (floorRank code) + 1 else 0
        { s with backup := { s.backup with brank := Tab.put 0 s.backup.brank code v } }
      else s
    else
      let v := if v = 0 then 0 else max (v - 1) (floorRank code) + 1
      { s with alarms := { s.alarms with ranks := Tab.put 0 s.alarms.ranks code v } }
  { s with backup := { s.backup with rankFlag := false } }

/-- A slot cleared: key zero, attributes zero unless LOCK is 1, INSTANCE counts; an engine's reservation stays until its DONE
(R329, R333, R336). -/
def KeySlot.cleared (k : KeySlot) : KeySlot :=
  let attr := if bitOf k.attr.toNat 30 then k.attr &&& 0x7FFFFFFF else 0
  { k with
    share0 := 0, share1 := 0, ecc0 := [], ecc1 := [], attr := attr, attrN := ~~~attr
    instn := if bitOf k.attr.toNat 31 then incr64 k.instn else k.instn }

/-- LC_CURRENT has moved from `old`: what the step burn does at once (R346). -/
def State.lcMoved (s : State) (old : Nat) : State :=
  let new := s.lcCurrent
  if new = old then s
  else
    let s := s.each (List.range 64) fun s n =>
      let k := s.ks n
      let a := k.attr.toNat
      let bound := bitOf a 27 && decide (bitsOf a 17 15 ≠ new)
      let gone := (decide (4 ≤ new) && (bitOf a 27 || decide (8 ≤ n))) || decide (new = 5)
      if bound || gone then s.ksU n KeySlot.cleared else s
    if 4 ≤ new then
      { s with keys := { s.keys with root := (if s.boot.orderAF then s.keys.root else 0), rootMask := (if s.boot.orderAF then s.keys.rootMask else 0), rootState := 2 } }
    else s

/-- A burn stops partway: the copy being pulsed is left as it is found, read at raised reference and entered in the
weak map if it fails (R371, R64). How many bits had verified and what the pulse left are free values (log 10). -/
def State.burnStop (s : State) : State :=
  let old := s.lcCurrent
  let ts := s.fuses.plan
  match ts with
  | [] => s
  | _ =>
    let k := s.drawn 0 % ts.length
    let f := (ts.take k).foldl (fun (f : Fuses) t => f.burnBit t.1 t.2) s.fuses
    let t := ts.getD k (0, 0)
    let f := if s.drawn 1 % 2 = 1 ∧ t.2 = 3 then f.copySound t.1 0 else f
    let c := if t.2 = 1 then 0 else if t.2 = 2 then 1 else s.drawn 1 % 2
    let v := ((Tab.get {} f.otp t.1).copy c).pulsed (copyOf (s.drawn 2))
    let f := if v = .sound then f.copySound t.1 c else f.setCopy t.1 c v
    let s := ({ s with fuses := f }).used 3
    let s := if v = .sound then s else s.burnFound t.1
    s.lcMoved old

/-- A function ends with `code`: DONE and its line, the mailbox response, a re-sense that waits. -/
def State.fuseEnds (s : State) (code : Nat) : State :=
  let f := s.fuses
  let s : State := { s with fuses := { f with
    state := if f.resense.isSome then .sensing else .idle, word := f.resense.getD f.word, resense := none, done := true,
    result := BitVec.ofNat 16 code, arm := none, waiting := false, client := none } }
  let s := s.setLine 9 true
  match f.client with
  | some c => s.respond c.mb c.tag code [{ s with fuses := { s.fuses with word := f.word } }.fuseReport c.cmd]
  | none => s
/-- A burn or a refused burn ends: its leave returns and the FUSE entry is logged (R365, R388). -/
def State.burnEnds (s : State) (code : Nat) : State :=
  let s := s.lvBack .fuse (s.holds 0 6)
  let w := 0xA5000000 + s.fuses.word.toNat % 2 ^ 24
  let s := s.logRec 0x25 (leBytes w 4 ++ leBytes code 2 ++ leBytes 0 10)
  s.fuseEnds code

/-- The arming ends without a function: RESULT ARMING; a re-sense that waited starts (R364, R371). -/
def State.disarm (s : State) : State :=
  let f := s.fuses
  { s with fuses := { f with
    state := if f.resense.isSome then .sensing else .idle, word := f.resense.getD f.word, resense := none, arm := none, result := 0x1507 } }

/-- A running fuse burn ends after its pulse with `code`, the arming clears, waiting leave is withdrawn (R371, R395). -/
def State.fuseStop (s : State) (code : Nat) : State :=
  if s.fuses.state = .burning then (if s.fuses.waiting then s.lvDrop .fuse else s.burnStop).burnEnds code
  else if s.fuses.state = .armed then s.disarm else s

/-! ### Channels (R406 to R412) -/

/-- Code of a channel kind. -/
def chanCode : ChannelKind → Nat
  | .port => 1 | .flash => 2 | .lane => 3 | .engine => 4 | .link => 5 | .sequencer => 6 | .stand => 7 | .home => 8
/-- Number of channels of a kind. -/
def chanSize : ChannelKind → Nat
  | .port => 96 | .flash => 96 | .lane => 24 | .engine => 4 | .link => 2 | .sequencer => 12 | .stand => 6 | .home => 1
/-- Key of a channel in State.chans. -/
def chanKey (k : ChannelKind) (i : Nat) : Nat := 128 * chanCode k + i
/-- An error of a channel: it begins probing, unless it probes already, is retired or is kept (R408, R412). -/
def State.chanError (s : State) (k : ChannelKind) (i : Nat) (cause : Nat) : State :=
  s.chU (chanKey k i) fun c =>
    if c.state = .retired ∨ c.state = .probing ∨ c.state = .kept then c
    else { c with state := .probing, try_ := 1, cause := BitVec.ofNat 8 cause }
/-- A channel is retired. -/
def State.chanRetired (s : State) (k : ChannelKind) (i : Nat) : Bool := decide ((s.ch (chanKey k i)).state = .retired)

/-! ### Runtime lanes (R227) -/

/-- The lanes that are not retired, ascending. -/
def State.lanesLeft (s : State) : List Nat := (List.range 24).filter fun l => !s.chanRetired .lane l
/-- The five lanes of the runtime schedule: the highest that are not retired, ascending (R227). -/
def State.runtimeFive (s : State) : List Nat := (s.lanesLeft.reverse.take 5).reverse
/-- Those of them that no running wake holds. -/
def State.runtimeWant (s : State) : List Nat := s.runtimeFive.filter fun l => !s.wake.lanes.contains l
/-- The lanes that the runtime schedule holds, ascending; one that it has still to draw is the lowest. -/
def State.runtimeLanes (s : State) : List Nat := s.runtimeWant.drop (s.runtimeWant.length - s.holds 8 1)
/-- The schedule draws its lanes and its 5 tokens while a port is in the glade. -/
def State.runtimeDraw (s : State) : State :=
  if !s.boot.laneSched || !(allPorts.any fun p => s.inGlade p) then s
  else
    let n := s.runtimeWant.length - s.holds 8 1
    let s := if 0 < n && s.canGrant 8 n then s.poolGrant 8 1 n else s
    if 0 < s.holds 0 5 || s.leave.queue.any (fun r => decide (r.use = .runtime)) then s
    else match s.lvTake .runtime 5 with
      | some t => t
      | none => s.lvAsk .runtime 5
/-- The service lane is the highest of the five (R227). -/
def State.serviceLane (s : State) : Option Nat :=
  if s.boot.laneSched then s.runtimeFive.getLast?.filter fun l => s.runtimeLanes.contains l else none
/-- Glean lane GLi: the others of the five in ascending order. The slots of one that a wake still holds, and of those missing
with fewer than five lanes, are empty (R227, R232, R417). -/
def State.gleanLane (s : State) (i : Nat) : Option Nat :=
  if s.boot.laneSched && decide (0 < s.holds 0 5) then s.runtimeFive.dropLast[i]?.filter fun l => s.runtimeLanes.contains l
  else none

/-! ### What ends with a response (R67, R79, R269, R350) -/

/-- A wake ends: its lanes and its leave go back, and the runtime schedule takes a lane that it waits for (R67, R227, R394). -/
def State.wakeRelease (s : State) : State :=
  let s := s.lvDrop .wake
  let s := s.poolBack 8 0 (s.holds 8 0)
  let s := s.lvBack .wake (s.holds 0 4)
  ({ s with wake := { s.wake with stage := .idle, lanes := [], serving := [], endNext := false, rewake := false } }).runtimeDraw

/-- Tags made under a cleared key are void and their pages return (R79, R269). -/
def State.voidTags (s : State) : State :=
  s.each allPorts fun s p =>
    if s.groupsOf 1 p none = [] then s
    else (s.returnGroups 1 p none).pgU p fun g => { g with tagsVoid := true }

/-- Pinned and served data become unreadable: the groups return (R269). A staging that is under way keeps its groups and goes
on (DESIGN CHOICE, log 53). -/
def State.voidServed (s : State) : State :=
  s.each allPorts fun s p =>
    let s := (s.returnGroups 2 p none).returnGroups 3 p none
    s.pgU p fun g => { g with setState := if g.setState = .none then .none else .void, serve := [] }

/-- The clearing of ZEROIZE and SEAL: K_SLOT first, slots, root, tags, served data, engines, fuse burn (R374, R350,
R344, R327, R371). -/
def State.zeroize (s : State) (redraw : Bool) : State :=
  let ac := !s.boot.orderAF
  let k := s.keys
  let cleared : Tab KeySlot := (List.range 64).filterMap fun i =>
    let x := s.ks i
    let y : KeySlot := { instn := if bitOf x.attr.toNat 31 then incr64 x.instn else x.instn, bad := x.bad, reserved := x.reserved }
    if y = {} then none else some (i, y)
  let s := { s with keys := { k with
    slots := cleared, kSlot := false, kSlotKey := 0, redraw := redraw, keyin := [], keyout := [], root := if ac then 0 else k.root,
    rootMask := if ac then 0 else k.rootMask, rootState := if ac then 0 else (if k.rootState = 0 then 0 else 2) } }
  let s := (s.voidTags).voidServed
  let s := s.each (List.range 4) fun s e => s.abortEngine e
  s.fuseStop 0x4501

/-- Cores held in reset with their local memories zeroed (R56): pairs of core and memory. A line stays asserted until its
source is serviced, but for a core's own TCMP line (R298). -/
def State.coresOff (s : State) (l : List (Nat × Nat)) : State :=
  s.each l fun s c => (s.coU c.1 fun k => { lines := k.lines &&& 0xF7FF }).memZero c.2
/-- The word address of a vector: PC is a multiple of 8, so bits 2 to 0 of a vector do not reach it (R272; log 62). -/
def vectorPc (v : W24) : W24 := v &&& 0xFFFFF8
/-- A core starts at a vector with zeroed registers; asserted lines stay (R56, R275, R298). -/
def State.startCore (s : State) (c : Nat) (vector : W24) : State :=
  s.coU c fun k => { run := .running, pc := vectorPc vector, lines := k.lines &&& 0xF7FF }
/-- One thread starts anew at its vector beside its siblings: its slots are those of the sequencer's clock, which went on, and the
stores it issued still reach the shared memory on time (R218, R290, R291). -/
def State.restartThread (s : State) (c : Nat) (vector : W24) : State :=
  let slot := ((List.range 8).map fun u => (s.co (c / 8 * 8 + u)).slot).foldl max 0
  s.coU c fun k => { run := .running, pc := vectorPc vector, lines := k.lines &&& 0xF7FF, slot := slot, stores := k.stores }
/-- The threads of all sequencers and their memories. -/
def sqCores : List (Nat × Nat) := (List.range 96).map fun t => (8 + t, 8 + t / 8)

/-- The lane and the token of a bundle pass that ends before its signature has been verified (R394, R404). -/
def State.passEnds (s : State) : State :=
  if s.boot.step = .verifying then (s.poolBack 8 2 (s.holds 8 2)).lvBack .bundle 1 else s
/-- The device enters SEALED: every port held, Canopy, link and sequencers stopped, the seed core at its vector once its
release condition holds, only MB0 served; a bundle pass ends (R44, R49, R56, R374, R404, R457). -/
def State.enterSealed (s : State) : State :=
  let s := s.passEnds.wakeRelease
  let s := s.each allPorts fun s p => (s.holdPort p).phU p fun h => { h with mode := .isolated }
  let up := s.boot.sensed && s.boot.refPresent
  let s := s.coresOff ([(0, 0), (1, 1), (2, 2), (3, 3)] ++ sqCores)
  let s := if up then s.startCore 0 0 else s
  let s := s.each (List.range 8) fun s q => s.boxEmpty q
  let s : State := { s with
    boot := { s.boot with
      dev := .sealed, warm := false, seedOut := up, canopyOut := false, linkOut := false, lead := .none, laneSched := false, step := .idle },
    sheaves := s.sheaves.map fun e => (e.1, { e.2 with released := false }),
    keys := { s.keys with tasks := [], rootJob := none },
    wake := { s.wake with verify := [] },
    hand := { s.hand with state := .idle },
    backup := { s.backup with sealLatch := true } }
  if up then s.boxReady 0 else s

/-- An alarm is decided and its response acts; a ZEROIZE or SEAL clears first and writes its backup-log entry (R374 to
R378, R386, R470). After a SEAL no ZEROIZE redraws the keys (R375). -/
def State.raise (s : State) (code rank tkind target data : Nat) : State :=
  let word := s.dataOf data
  let s := s.dataUsed data
  let s := if 5 ≤ rank then (s.backupLog code rank 0 word).zeroize (decide (rank = 5) && !s.backup.sealLatch) else s
  let s := s.decided code rank tkind target word
  let s := if rank = 5 ∧ s.wake.stage ≠ .idle then { s with wake := { s.wake with endNext := true } } else s
  if rank = 6 then s.enterSealed else s

/-- An alarm whose rank comes from its source's rank register. -/
def State.raiseReg (s : State) (code tkind target data : Nat) : State := s.raise code (s.rankOf code) tkind target data

/-- The range [a, a + n) of the home flash touches the log region (R388). -/
def inLog (a n : Nat) : Bool := decide (a < 0x04000000) && decide (0x03000000 < a + n)
/-- A write of a core into the home flash goes through the home port's log filter: one that would touch the log region is killed and
raises the log alarm with DATA 0, refused write (R372, R389). -/
def State.logFilter (s : State) (a n : Nat) (run : State → State) : State :=
  if inLog a n then s.raiseReg 0x0405 0 0 0 else run s
/-- A program of a core. -/
def State.corePut (s : State) (a : Nat) (bs : List Byte) : State := s.logFilter a bs.length fun s => s.homePut a bs
/-- An erase of a core. -/
def State.coreErase (s : State) (a len : Nat) : State := s.logFilter a len fun s => s.homeErase a len

/-- A port's last-good digest; one whose word fails its parity is void (R89, R384). -/
def State.lastGood (s : State) (p : Nat) : List Byte :=
  if s.flaws.contains (.lastGood p) then [] else Tab.get [] s.backup.lastGood p
/-- A word of backup memory or of a mailbox fails its parity: SIGNAL (R384). R372 names no source for it; it is raised as 0x0141
(log 40). -/
def State.parityAlarm (s : State) : State := s.raise 0x0141 1 0 0 noData
/-- A last-good digest that fails its parity is void from its read on, and raises its alarm (R89, R384). -/
def State.lastGoodCheck (s : State) (p : Nat) : State :=
  if s.flaws.contains (.lastGood p) then
    ({ (s.mend fun x => decide (x = .lastGood p)) with backup := { s.backup with lastGood := Tab.put [] s.backup.lastGood p [] } } : State).parityAlarm
  else s
/-- The Gnoby alarm at a hop's owner (R382). -/
def State.gnoby (s : State) (tkind target : Nat) : State := s.raiseReg 0x0141 tkind target noData

/-- ALARM_N is driven low (R377). -/
def State.alarmLow (s : State) : Bool :=
  match s.boot.dev with
  | .service => s.alarms.active.any fun a => decide (1 ≤ a.rank)
  | .ride => s.alarms.active.any fun a => decide (1 ≤ a.rank)
  | _ => true

/-- TOP_RANK (R378): the highest rank among ACTIVE alarms, 7 for none. -/
def State.topRank (s : State) : Nat :=
  let m := s.alarms.active.foldl (fun n a => max n a.rank) 0
  if s.alarms.active = [] then 7 else if 0xFFFF ≤ s.alarms.active.length then max m 1 else m

/-! ### Counters (R10, R167, R201, R267) -/

/-- Position of a counter in R484's order. -/
def Ctr.pos : Ctr → Nat
  | .chaffRead => 0 | .chaffProgram => 1 | .chaffErase => 2 | .chaffOther => 3 | .filled => 4 | .severed => 5
  | .undecided => 6 | .ragged => 7 | .length => 8 | .stalled => 9 | .breach => 10 | .late => 11 | .heldActivity => 12
  | .merge => 13 | .verified => 14 | .mismatch => 15 | .unobserved => 16 | .untagged => 17 | .served => 18
  | .notReady => 19 | .repeated => 20
/-- Width of a counter in bits. -/
def Ctr.width : Ctr → Nat
  | .severed => 16 | .undecided => 16 | .late => 16 | .heldActivity => 16 | .merge => 8 | .mismatch => 16 | _ => 32
/-- Flag counts saturate silently; quantities raise one NOTE at their maximum (R10, R167). -/
def Ctr.flag : Ctr → Bool
  | .heldActivity => true | .merge => true | _ => false
/-- Value of a port's counter. -/
def State.count (s : State) (p : Nat) (c : Ctr) : Nat := Tab.get 0 s.ctr (32 * p + c.pos)
/-- A quantity of w bits that reaches its maximum raises one NOTE alarm 0x0208 (R10, R167). -/
def State.maxNote (s : State) (w old new tkind target : Nat) : State :=
  if old < 2 ^ w - 1 ∧ new = 2 ^ w - 1 then s.raise 0x0208 0 tkind target noData else s
/-- A counter rises by n; a quantity that reaches its maximum stops there and raises one NOTE alarm 0x0208. -/
def State.bump (s : State) (p : Nat) (c : Ctr) (n : Nat) : State :=
  let old := s.count p c
  let new := satAdd c.width old n
  let s := { s with ctr := Tab.put 0 s.ctr (32 * p + c.pos) new }
  if c.flag then s else s.maxNote c.width old new 1 p
/-- The chaff counter of a class (R201). -/
def chaffCtr (cls : Nat) : Ctr :=
  if cls = 0 then .chaffRead else if cls = 1 then .chaffProgram else if cls = 2 then .chaffErase else .chaffOther

/-! ### Faults of channels and pools (R396 to R413) -/

/-- The body of a RETIRE entry (R413). -/
def State.retireBody (s : State) (flags : Nat) (k : ChannelKind) (i reason data : Nat) : List Byte :=
  let c := s.ch (chanKey k i)
  leBytes flags 1 ++ leBytes (chanCode k) 1 ++ leBytes i 1 ++ leBytes reason 1 ++ leBytes c.cause.toNat 1
    ++ leBytes c.bucket 1 ++ leBytes 0 2 ++ leBytes s.boot.epoch.toNat 4 ++ leBytes data 4 ++ leBytes 0 16

/-- The codes of the pools (R392, R403): LV, IR0 to IR5, TL, GP, RX0 and RX1, MQ0 to MQ7, MR0 to MR7. -/
def poolCode (q : Nat) : Bool := decide (q ≤ 6 ∨ (8 ≤ q ∧ q ≤ 11) ∨ (16 ≤ q ∧ q ≤ 31))
/-- A census fault: the alarm, and reconciliation with CAUSE 2 starts at once (R399); a frozen pool stays so (R401). -/
def State.censusFault (s : State) (q : Nat) : State :=
  (s.raiseReg 0x0140 0 0 (0x100 + q)).poU q fun p => { p.recounts with fault := false }
/-- The alarm of a refused return that waits (R396, R399). -/
def State.censusAlarm (s : State) (q : Nat) : State := if (s.po q).fault then s.censusFault q else s

/-- A return the census unit checks (R396). -/
def State.poolReturn (s : State) (q h n : Nat) : State := (s.poolBack q h n).censusAlarm q

/-- HOLDING of a holder fails its Gnoby check (R393). -/
def State.holdingBad (s : State) (q : Nat) : Bool := s.flaws.any fun x => match x with | .holding r _ => decide (r = q) | _ => false
/-- The census unit's check of a pool in every core cycle (R399): FREE + ΣHELD = TOTAL, each HELD against its HOLDING, whose
own Gnoby check counts (R393; log 55). -/
def Pool.checks (p : Pool) : Bool := decide (p.free + (p.held.map (·.2)).sum = p.total) && decide (p.held = p.holding)
/-- One core cycle of the census unit: a failed check or a refused return is a census fault (R396, R399). -/
def State.censusCheck (s : State) : State :=
  s.each (s.leave.pools.map (·.1)) fun s q =>
    let p := s.po q
    if p.fault then s.censusFault q
    else if p.st = .ok ∧ s.holdingBad q then
      ((s.raiseReg 0x0141 0 0 noData).mend fun x => match x with | .holding r _ => decide (r = q) | _ => false).censusFault q
    else if p.st = .ok ∧ !p.checks then s.censusFault q
    else s

/-- The refusal of a core without LEAD raises a SIGNAL alarm (R28, R304). -/
def State.roleAlarm (s : State) : State := s.raise 0x0302 1 0 0 noData

/-- STAND_CLOSED (R467): what a stand whose gate is closed answers (R38). -/
def standClosed : BitVec 16 := 0x5201
/-- A stand whose gate is closed refuses a token or a stand command (R38). -/
def State.standRefuses (s : State) (k : Nat) : State := s.stU k fun t => { t with status := standClosed }
/-- A stand fault (R36, R38): gate and firebreak closed, OPEN clear; the second retires the stand (R412, REASON
STAND_REPEAT). -/
def State.standFault (s : State) (k : Nat) : State :=
  let s := s.stU k fun t =>
    { t with gate := false, gateN := true, fire := false, fireN := true, opened := false, faults := t.faults + 1 }
  if 2 ≤ (s.st k).faults ∧ (s.ch (chanKey .stand k)).state ≠ .retired then
    (s.chU (chanKey .stand k) fun c => { c with state := .retired }).logRec 0x31 (s.retireBody 0 .stand k 2 0)
  else s

end Sys2Proof.Machine
end

