-- ==== Sys2Proof/Machine/Kdf.lean ====
section
/-! DEFINITION. The KDF, the roots and the identity derivations (11 R340 to R348). -/

namespace Sys2Proof.Machine

open Sys2Proof

/-- Counter-mode KDF with HMAC-SHA-384, cut to `bits` bits (R345). -/
def kdf (k label context : List Byte) (bits : Nat) : List Byte :=
  let blocks := (List.range (ceilDiv bits 384)).map fun i =>
    hmac384 k (beBytes (i + 1) 4 ++ label ++ [0] ++ context ++ beBytes bits 4)
  blocks.flatten.take (bits / 8)

/-- The scalar of a derived key: (output mod (n − 1)) + 1 (R345); the output counts most significant byte first
(DEDUCED, log 20). -/
def kdfScalar (curve : Nat) (out : List Byte) : BitVec 512 := BitVec.ofNat 512 (beNat out % (curveN curve - 1) + 1)

/-- Key bits of KLEN (R328). -/
def klenBits (k : Nat) : Nat := if k = 0 then 128 else if k = 1 then 256 else if k = 2 then 384 else 512
/-- The bytes of a key of `bits` bits; byte i is bits 8i to 8i + 7 (log 20). -/
def keyBytes (k : BitVec 512) (bits : Nat) : List Byte := leBytes k.toNat (bits / 8)

/-- An attribute word (R328). -/
def attrWord (lock once bind export_ : Bool) (origin dest bound klen : Nat) : W32 :=
  BitVec.ofNat 32 (2 ^ 31 + lock.toNat * 2 ^ 30 + once.toNat * 2 ^ 29 + bind.toNat * 2 ^ 27 + export_.toNat * 2 ^ 26
    + origin % 4 * 2 ^ 24 + dest % 64 * 2 ^ 18 + bound % 8 * 2 ^ 15 + klen % 4 * 2 ^ 13)

/-- A mask M of a slot (R338). -/
def State.slotMask (s : State) : BitVec 512 := BitVec.ofNat 512 (s.drawn 0)
/-- A key goes into a slot under a fresh mask; INSTANCE counts (R329, R338). A slot whose integrity has failed takes none until
the next cold start (R339). -/
def State.placeKey (s : State) (n : Nat) (key : BitVec 512) (attr : W32) : State :=
  let s' := s.used 1
  if (s.ks n).bad then s'
  else (s'.storeKey n key s.slotMask).ksU n fun k => { k.withAttr attr with instn := incr64 k.instn }
/-- The attribute word a reserved slot takes: ONCE and LC_BIND of the argument, the rest as R332 has it (R334). -/
def State.macsecAttr (s : State) (arg : W32) (origin : Nat) : W32 :=
  attrWord true (bitOf arg.toNat 29) (bitOf arg.toNat 27) false origin 0x04 s.lcCurrent 1
/-- The placement of a key of `bits` bits. -/
def State.place' (s : State) (n key bits : Nat) (attr : W32) : State := s.placeKey n (BitVec.ofNat 512 (key % 2 ^ bits)) attr
/-- A fresh SAK of the link core in a slot (R332, R430). -/
def State.drawSak (s : State) (n : Nat) : State := (s.used 1).place' n (s.drawn 0) 256 (s.macsecAttr 0 1)
/-- A slot's shares take a fresh mask: the remask count advances and the key stays (R338). -/
def State.remask (s : State) (n : Nat) : State :=
  ((s.ksU n fun k => { k with remasks := k.remasks + 1 }).storeKey n (s.slotKey n) s.slotMask).used 1
/-- A key slot fails its integrity: cleared and locked until the next cold start (R339, R383). -/
def State.slotBad (s : State) (n : Nat) : State :=
  s.ksU n fun k => ({ instn := (if bitOf k.attr.toNat 31 then incr64 k.instn else k.instn), remasks := k.remasks, bad := true,
                      reserved := k.reserved } : KeySlot).withAttr 0x40000000
/-- A read of a slot checks its shares and its attributes; a slot that fails is cleared and locked, alarm 0x0402 (R339). -/
def State.keyCheck (s : State) (n : Nat) : State :=
  if (s.ks n).sound || (s.ks n).bad then s else (s.slotBad n).raiseReg 0x0402 0 0 noData

/-- ROOT_STATE (R343): BLOCKED in RETURNED and SCRAPPED, and after a failed compare of its shares (R383). -/
def State.rootState (s : State) : Nat :=
  if 4 ≤ s.lcCurrent ∨ s.keys.rootFail then 2 else s.keys.rootState.toNat
/-- The owner root's 32 bytes, from its two shares (R341). -/
def State.rootBytes (s : State) : List Byte := leBytes (s.keys.root ^^^ s.keys.rootMask).toNat 32
/-- ROOT_ID (R343). -/
def State.rootId (s : State) : List Byte :=
  if s.rootState = 1 then kdf s.rootBytes (ascii "SV96-ROOTID") [] 64 else List.replicate 8 0
/-- The UDS (R352). -/
def State.uds (s : State) : List Byte := otpBytes s.fuses.latched 0x200 48
/-- The identity unit derives: LC past BLANK with UDS locked, no IDENTITY_LOCK, LC register sound (R355, R348, R383). -/
def State.canDerive (s : State) : Bool :=
  decide (0 < s.lcCurrent) && s.latched (0x200 + 400) && !s.keys.idLock && !s.keys.lcBad

/-- The current KDF root (R340): none where the state has none, the owner root is not PRESENT or the UDS is not locked (R355). -/
def State.kdfRoot (s : State) : Option (List Byte) :=
  let lc := s.lcCurrent
  let uds := s.latched (0x200 + 400)
  if lc = 1 ∧ uds then some (kdf s.uds (ascii "SV96-FACTORY") [] 256)
  else if lc = 2 ∨ lc = 3 then (if s.rootState = 1 then some s.rootBytes else none)
  else if lc = 4 ∧ uds then some (kdf s.uds (ascii "SV96-RETURN") [] 256)
  else none

/-- Context C of the CDI, 61 bytes (R347). -/
def State.diceContext (s : State) (digest : List Byte) : List Byte :=
  padTo digest 48 ++ leBytes s.lcCurrent 1 ++ leBytes (mcCount s.fuses.latched 1) 2 ++ leBytes s.boot.orderAF.toNat 1
    ++ leBytes s.rootState 1 ++ s.rootId

/-- KS2 and, at a cold start, DEVID_PUB, whose engine read remasks the slot (R338, R347, R348). -/
def State.deriveDeviceId (s : State) (cold : Bool) : State :=
  if !s.canDerive then s
  else
    let d := kdfScalar 1 (kdf s.uds (ascii "SV96-DEVICEID") [] 512)
    let s := s.placeKey 2 d (attrWord true false false false 2 0x21 s.lcCurrent 2)
    if cold && s.slotServes 2 0 then
      let q := ecPub 1 (s.slotKey 2).toNat
      let s := s.remask 2
      { s with keys := { s.keys with devid := beBytes q.1 48 ++ beBytes q.2 48 } }
    else s

/-- KS3 and the Alias certificate for the bundle digest, signed with KS2; each engine read checks and remasks its slot, and one
that does not serve leaves the certificate empty (R330, R338, R339, R347, R348). -/
def State.deriveAlias (s : State) (digest : List Byte) : State :=
  if !s.canDerive then s
  else
    let c := s.diceContext digest
    let cdi := kdf s.uds (ascii "SV96-CDI") c 384
    let d := kdfScalar 1 (kdf cdi (ascii "SV96-ALIAS") [] 512)
    let s := s.placeKey 3 d (attrWord true false false false 2 0x01 s.lcCurrent 2)
    let s := (s.keyCheck 2).keyCheck 3
    if s.slotServes 2 0 && s.slotServes 3 0 then
      let q := ecPub 1 (s.slotKey 3).toNat
      let tbs := Config.aliasTbs (beBytes q.1 48 ++ beBytes q.2 48) digest (mcCount s.fuses.latched 1) (c.drop 48)
      let sig := ecdsaSign 1 (s.slotKey 2).toNat (sha384 tbs) (s.drawn 0)
      let s := ((s.used 1).remask 2).remask 3
      { s with keys := { s.keys with cert := Config.aliasCert tbs (beBytes sig.1 48 ++ beBytes sig.2 48) } }
    else s

/-- KS3 and the CERT buffer go when the bundle fails (R348). -/
def State.dropAlias (s : State) : State :=
  let s := s.ksU 3 fun k => k.cleared.withAttr (if k.bad then 0x40000000 else 0)
  { s with keys := { s.keys with cert := [] } }

/-- K_SLOT, KS0 and KS1 are drawn (R332, R338, R350). -/
def State.drawSlotKeys (s : State) : State :=
  let k0 := BitVec.ofNat 512 (s.drawn 0 % 2 ^ 256)
  let k1 := BitVec.ofNat 512 (s.drawn 1 % 2 ^ 256)
  let s := ({ s with keys := { s.keys with kSlot := true, kSlotKey := BitVec.ofNat 256 (s.drawn 2), redraw := false } } : State).used 3
  let s := s.placeKey 0 k0 (attrWord true false false false 1 0x02 s.lcCurrent 1)
  s.placeKey 1 k1 (attrWord true false false false 1 0x10 s.lcCurrent 1)

end Sys2Proof.Machine
end

