-- ==== Sys2Proof/Machine/LinkOps.lean ====
section
/-! DEFINITION. The operations of the trust link that other families share: frames sent, credits, a lane leaving SECURED,
transfers and recovery flows opening and ending (16). -/

namespace Sys2Proof.Machine

open Sys2Proof

/-! ### Frames sent (R433 to R435) -/

/-- Lane counters in the order of R435: RX_FRAMES, TX_FRAMES, MACSEC_DROP, LOST, OVERRUN, MALFORMED. -/
def laneCtrWidth (i : Nat) : Nat := if i < 3 then 32 else 16
/-- A lane counter rises by n; at its maximum it stops and one NOTE alarm 0x0208 reports it (R10, R435; log 54). -/
def State.laneCount (s : State) (l i n : Nat) : State :=
  let w := laneCtrWidth i
  let old := Tab.get 0 (s.ln l).ctrs i
  (s.lnU l fun k => { k with ctrs := Tab.put 0 k.ctrs i (satAdd w old n) }).maxNote w old (satAdd w old n) 0 0

/-- The other link lane. -/
def otherLane (l : Nat) : Nat := 1 - l
/-- A lane carries the trust protocol (R429, R450). -/
def State.secured (s : State) (l : Nat) : Bool := s.boot.linkOut && decide ((s.ln l).st = .secured)
/-- The lane that carries NOTICEs: LK0 when it is SECURED, else LK1 (R449). -/
def State.laneUp (s : State) : Option Nat := if s.secured 0 then some 0 else if s.secured 1 then some 1 else none

/-- Frames a limit admits beyond a count (R434); none where the limit has been passed. -/
def windowOf (limit count : Nat) : Nat :=
  let d := (limit + 65536 - count % 65536) % 65536
  if 32768 ≤ d then 0 else d
/-- The device may send its next frame on the lane (R434). -/
def LaneLink.mayTx (k : LaneLink) : Bool :=
  decide ((k.peerLim + 65536 - (k.sent + 1) % 65536) % 65536 ≤ 32767)

/-- The source address of both lanes (R428). -/
def State.macAddress (s : State) : List Byte := 0x02 :: (sha384 (padTo s.keys.devid 96)).take 5
/-- The destination address of a frame type: the image store's (role 1) or the recovery agent's (role 2) on that lane, as
Shentiha has set it (R428, R433); the requester of an SPDM message and the peer of HELLO and CREDIT have none stated. -/
def State.peerAddress (s : State) (lane type : Nat) : List Byte :=
  if type = 0x20 ∨ type = 0x23 then Tab.get [] s.link.peers (2 + lane)
  else if type = 0x30 then Tab.get [] s.link.peers (4 + lane) else []
/-- The EtherType of the trust protocol: that of CFG, 0x88B5 where it is zero (R433, R472). -/
def State.etherType (s : State) : Nat := if field s.cfg 2 2 = 0 then 0x88B5 else field s.cfg 2 2
/-- A frame goes on the wire with the lane's SENT and LIMIT; HELLO restarts SENT (R433, R435). -/
def State.emit (s : State) (f : TxFrame) : State :=
  let k := s.ln f.lane
  let n := if f.type = 1 then 0 else (k.sent + 1) % 65536
  let s := s.lnU f.lane fun k => { k with sent := n, told := if f.type ≤ 2 then k.limit else k.told }
  let s : State := { s with linkOut := s.linkOut ++ [{ f with
    sent := n, limit := k.limit, src := s.macAddress, ether := s.etherType, dst := s.peerAddress f.lane f.type }] }
  s.laneCount f.lane 1 1

/-- The device sends a frame; it waits while the peer's LIMIT forbids it (R434, log 23). -/
def State.tx (s : State) (lane type flags : Nat) (xfer : Nat) (index : Nat) (payload : List Byte) : State :=
  let f : TxFrame := { lane := lane, type := type, flags := flags, xfer := BitVec.ofNat 32 xfer, index := index, payload := payload, sent := 0, limit := 0 }
  let k := s.ln lane
  if !s.secured lane then s
  else if type = 1 || (k.wait = [] && k.mayTx) then s.emit f
  else s.lnU lane fun k => { k with wait := k.wait ++ [f] }

/-- Frames that waited go out as far as the peer's LIMIT allows. -/
def State.txDrain (s : State) (lane : Nat) : State :=
  s.each (s.ln lane).wait fun s f =>
    if (s.ln lane).mayTx && decide ((s.ln lane).wait.head? = some f) then
      (s.lnU lane fun k => { k with wait := k.wait.drop 1 }).emit f
    else s

/-- A response on its lane, in segments of 1,968 bytes with the request's XFER (R438). -/
def State.spdmSend (s : State) (l x : Nat) (m : List Byte) : State :=
  let n := max 1 (ceilDiv m.length 1968)
  s.each (List.range n) fun s i => s.tx l 0x10 (if i + 1 = n then 1 else 0) x i (sub m (1968 * i) 1968)
/-- The responses whose turn has come go out, in the order in which their requests were complete (R438). -/
def State.spdmFlush (s : State) : State :=
  let go := s.link.spdmOut.takeWhile fun r => r.msg.isSome
  let s : State := { s with link := { s.link with spdmOut := s.link.spdmOut.drop go.length } }
  s.each go fun s r => s.spdmSend r.lane r.xfer (r.msg.getD [])

/-- A lane grants its FREE buffers to the peer, at most 64 beyond the frames counted, and tells the peer each 8 (R434). -/
def State.grantRx (s : State) (l : Nat) : State :=
  let q := 10 + l
  let k := s.ln l
  if !s.secured l ∨ (s.po q).st ≠ .ok then s
  else
    let n := min (s.po q).free (64 - (k.limit + 65536 - k.counted) % 65536)
    let s := if n = 0 then s else (s.poolGrant q 0 n).lnU l fun k => { k with limit := (k.limit + n) % 65536 }
    let k := s.ln l
    if 8 ≤ (k.limit + 65536 - k.told) % 65536 then s.tx l 2 0 0 0 [] else s

/-! ### Transfers (R433, R441 to R443, R450) -/

/-- A PULL frame (R433): OP, KIND, FIRST, COUNT, OBJECT_REF. -/
def State.pull (s : State) (x lane op kind first count : Nat) (ref : List Byte) : State :=
  s.tx lane 0x20 0 x 0 (leBytes op 1 ++ leBytes kind 1 ++ leBytes 0 2 ++ leBytes first 4 ++ leBytes count 2 ++ leBytes 0 6 ++ padTo ref 64)

/-- Read a transfer. -/
def State.xf (s : State) (x : Nat) : Xfer := Tab.get {} s.link.xfers x
/-- Change an open transfer. -/
def State.xfU (s : State) (x : Nat) (f : Xfer → Xfer) : State :=
  { s with link := { s.link with xfers := s.link.xfers.map fun e => if e.1 = x then (x, f e.2) else e } }
/-- A transfer is open. -/
def State.xferOpen (s : State) (x : Nat) : Bool := s.link.xfers.any fun e => decide (e.1 = x)

/-- Read a recovery flow; 127 is that of the shelf manifest. -/
def State.fl (s : State) (p : Nat) : Flow := Tab.get {} s.link.flows p
/-- Change a recovery flow. -/
def State.flU (s : State) (p : Nat) (f : Flow → Flow) : State :=
  { s with link := { s.link with flows := Tab.upd {} s.link.flows p f } }
/-- A flow is under way. -/
def Flow.active (f : Flow) : Bool := decide (f.st ≠ .idle) && decide (f.st ≠ .done) && decide (f.st ≠ .failed)

/-- Bytes of leaf i of an image (R122). -/
def leafLen (len i : Nat) : Nat := min 4096 (len - 4096 * i)
/-- Nodes of the path of leaf i in a tree of n leaves (R442). -/
def pathLen : Nat → Nat → Nat → Nat
  | 0, _, _ => 0
  | f + 1, i, n => if n ≤ 1 then 0 else (if i + 1 = n ∧ n % 2 = 1 then 0 else 1) + pathLen f (i / 2) ((n + 1) / 2)

/-- Key of the STAGING block of a flash address in the serve directory. -/
def stagKey (p a : Nat) : Nat := 2 ^ 26 + p * 2 ^ 17 + a / 2048 % 2 ^ 17
/-- The STAGING group of a port's 2 KiB block, drawn and filled with 0xFF where there is none (R262, R443). -/
def State.stageBlock (s : State) (p a : Nat) : Option State :=
  if Tab.get 0 s.gran.srvDir (stagKey p a) ≠ 0 then some s
  else match s.takeGroup 4 (pageEntry 4 p false false 0 (a / 2048)) with
    | some (g, s) => some (({ s with gran := { s.gran with srvDir := Tab.put 0 s.gran.srvDir (stagKey p a) g } } : State).granPut
        (2048 * g) (List.replicate 2048 0xFF))
    | none => none
/-- STAGING groups for n bytes from flash address a; none where the pool lacks groups. -/
def State.stageRange (s : State) (p a n : Nat) : Option State :=
  (List.range ((a + n + 2047) / 2048 - a / 2048)).foldl (fun o i => o.bind fun s => s.stageBlock p (2048 * (a / 2048 + i))) (some s)
/-- Bytes go into a port's STAGING groups. -/
def State.stagePut (s : State) (p a : Nat) (bs : List Byte) : State :=
  s.each (List.range (ceilDiv bs.length 256)) fun s i =>
    let g := Tab.get 0 s.gran.srvDir (stagKey p (a + 256 * i))
    if g = 0 then s
    else s.granPut (2048 * g + (a + 256 * i) % 2048) (sub bs (256 * i) 256)
/-- Bytes of a port's STAGING groups. -/
def State.stageGet (s : State) (p a n : Nat) : List Byte :=
  (List.range n).map fun i =>
    let g := Tab.get 0 s.gran.srvDir (stagKey p (a + i))
    if g = 0 then 0xFF else s.granByte (2048 * g + (a + i) % 2048)

/-- LEAVES requests for the next leaves wanted, in runs, at most 4 open and as far as STAGING groups can be drawn (R441,
R443, R446). -/
def State.pullMore (s : State) (x : Nat) : State :=
  let t := s.xf x
  let todo := t.want.filter fun i => !t.ok.contains i && !(t.open_.any fun o => decide (o.1 = i))
  match todo with
  | [] => s
  | i :: _ =>
    let run := ((List.range (4 - t.open_.length)).takeWhile fun k => decide (todo[k]? = some (i + k))).length
    if t.susp ∨ run = 0 then s
    else
      match s.stageRange t.port (t.base + 4096 * i) (min (4096 * run) (t.len - 4096 * i)) with
      | none => s
      | some s =>
        let s := s.pull x t.lane 2 3 i run t.ref
        s.xfU x fun t => { t with open_ := t.open_ ++ (List.range run).map fun k => (i + k, [], []) }

/-- A transfer opens for the flow of p on the lane in use (R441). -/
def State.xferStart (s : State) (p : Nat) (t : Xfer) : State :=
  let x := s.link.nextXfer
  let t := { t with port := p, lane := s.laneUp.getD 0, susp := s.link.auto }
  let s : State := { s with link := { s.link with nextXfer := x % (2 ^ 32 - 1) + 1, xfers := Tab.put {} s.link.xfers x t } }
  let s := s.flU p fun f => { f with xfer := x }
  (s.pull x t.lane 1 t.kind 0 0 t.ref).pullMore x

/-- CLOSE ends a transfer; its STAGING groups stay with the flow (R441). -/
def State.xferClose (s : State) (x : Nat) : State :=
  let t := s.xf x
  let s := s.pull x t.lane 3 t.kind 0 0 t.ref
  { s with link := { s.link with xfers := s.link.xfers.filter fun e => decide (e.1 ≠ x) } }

/-- An open transfer asks again from its first leaf not verified, or for its whole object (R450). -/
def State.resumeXfer (s : State) (x lane : Nat) : State :=
  let s := s.xfU x fun t => { t with lane := lane, susp := false, open_ := [], bytes := if t.last then t.bytes else [], next := if t.last then t.next else 0 }
  let t := s.xf x
  if t.last then s else (s.pull x lane 1 t.kind 0 0 t.ref).pullMore x

/-- An ABORT frame (R443). -/
def State.abortFrame (s : State) (lane x reason : Nat) : State := s.tx lane 0x23 0 x 0 (leBytes reason 2 ++ leBytes 0 14)
/-- The ABORT frame of a transfer; it waits for a SECURED lane (R443, R450). -/
def State.sendAbort (s : State) (x reason : Nat) : State :=
  match s.laneUp with
  | some l => s.abortFrame (if s.secured (s.xf x).lane then (s.xf x).lane else l) x reason
  | none => { s with link := { s.link with aborts := s.link.aborts ++ [(x, reason)] } }

/-! ### Recovery flows (R446, R471) -/

/-- A flow ends: its RECOVERY token goes back, the port leaves MASTER, its STAGING groups return, STATE and REASON are
set. -/
def State.flowEnd (s : State) (p : Nat) (st : FlowSt) (reason : Nat) : State :=
  let f := s.fl p
  let s := s.lvDrop (.recovery p)
  let s := if f.token then s.lvBack (.recovery p) 1 else s
  let s := s.returnGroups 4 p none
  let s := if f.flow = 3 ∧ (s.pg p).setState = .staging then s.pgU p fun g => { g with setState := .none } else s
  let s := if (f.flow = 1 ∨ f.flow = 2) ∧ (s.ph p).mode = .master ∧ !(s.pk p).part then s.phU p fun h => { h with mode := .isolated } else s
  s.flU p fun f => { f with st := st, reason := BitVec.ofNat 16 reason, token := false, cancel := false, check := none, stepNo := 0 }

/-- A transfer is forgotten, and its flow ends (R443, R450). -/
def State.xferDrop (s : State) (x reason : Nat) : State :=
  let p := (s.xf x).port
  let s : State := { s with link := { s.link with xfers := s.link.xfers.filter fun e => decide (e.1 ≠ x) } }
  if (s.fl p).active ∧ (s.fl p).xfer = x then s.flowEnd p .failed reason else s
/-- A staging request for which the pool lacks groups is refused: the transfer closes, and the flow's REASON is the status
GRANARY_SHORT, which the ABORT frame cannot carry (R262; log 53). -/
def State.stageShort (s : State) (x : Nat) : State :=
  let p := (s.xf x).port
  ((s.sendAbort x 1).xferDrop x 1).flU p fun f => { f with reason := 0x2601 }
/-- A transfer fails with a REASON: ABORT is sent. -/
def State.xferFail (s : State) (x reason : Nat) : State :=
  if s.xferOpen x then (s.sendAbort x reason).xferDrop x reason else s
/-- A flow fails, with its transfer if one is open. -/
def State.flowFail (s : State) (p reason : Nat) : State :=
  let f := s.fl p
  if !f.active then s
  else if s.xferOpen f.xfer then s.xferFail f.xfer reason
  else s.flowEnd p .failed reason

/-! ### Lanes -/

/-- A reserved slot is empty and open for a new key (R332, log 34). -/
def State.slotEmptied (s : State) (n : Nat) : State := s.ksU n fun k => k.cleared.withAttr (if k.bad then 0x40000000 else 0)
/-- A link-lane event: line 15 (R298). -/
def State.laneEvent (s : State) : State := s.setLine 15 true

/-- A SAK change starts on a lane: KS7 takes the next SAK; while the other lane changes it waits (R430, R431). -/
def State.sakChange (s : State) (l : Nat) : State :=
  if !s.secured l ∨ (s.ln l).changing then s
  else if (s.ln (otherLane l)).changing then s.lnU l fun k => { k with due := true }
  else if (s.ks 7).bad || !(s.ks 7).sound || (s.ks 7).reserved then s
  else (s.drawSak 7).lnU l fun k => { k with changing := true, due := false, sak := 3 }
/-- A change on a lane has ended: the one that waited for it on the other lane starts (R431). -/
def State.sakNext (s : State) (l : Nat) : State :=
  if (s.ln (otherLane l)).due && !(s.ln l).changing then s.sakChange (otherLane l) else s

/-- The SPDM requests in progress on a lane are discarded, with the signatures they wait for; later responses take their turn
(R438, R450). -/
def State.spdmDiscard (s : State) (l : Nat) : State :=
  let mine := fun (t : KTask) => match t with | .spdmSign m _ _ _ => decide (m = l) | _ => false
  let s := s.lnU l fun k => { k with spdmIn := [] }
  let s : State := { s with
    keys := { s.keys with tasks := s.keys.tasks.filter fun t => !mine t }
    link := { s.link with spdmOut := s.link.spdmOut.filter fun r => decide (r.lane ≠ l) } }
  let s := s.each (List.range 4) fun s e => s.enU e fun k => { k with task := if k.task.any mine then none else k.task }
  s.spdmFlush
/-- Frames that wait for the peer's window when their lane leaves SECURED: an ABORT and the CLOSE of a transfer go on the other lane
when that one is SECURED; else the ABORT waits for a lane (R450). The others belong to what is resumed or discarded. -/
def State.waitMoves (s : State) (l : Nat) (fs : List TxFrame) : State :=
  let o := otherLane l
  s.each fs fun s f =>
    if f.type ≠ 0x23 ∧ ¬(f.type = 0x20 ∧ byteAt f.payload 0 = 3) then s
    else if s.secured o then s.tx o f.type f.flags f.xfer.toNat f.index f.payload
    else if f.type = 0x23 then { s with link := { s.link with aborts := s.link.aborts ++ [(f.xfer.toNat, field f.payload 0 2)] } }
    else s
/-- A lane leaves its state for `st`: out of SECURED its PEER buffers return, its SPDM requests are discarded, its
transfers continue on the other lane when that one is SECURED, a SAK change on it is abandoned and KS7 clears, whereupon one
that waited on the other lane starts (R431, R435, R438, R450). UP keeps the lane's rate. -/
def State.laneLeave (s : State) (l : Nat) (st : LaneSt) : State :=
  let k := s.ln l
  let s := if k.grantOk then s.lvBack (.retrain l) 2 else s.lvDrop (.retrain l)
  let s := if k.st = .secured then s.poolReturn (10 + l) 0 (s.holds (10 + l) 0) else s
  let s := if k.changing then s.slotEmptied 7 else s
  let s := s.lnU l fun k => { k with
    st := st, rate := if st = .up then k.rate else 0, sak := 0, changing := false,
    due := false, wait := [], grantOk := false, sent := 0, limit := 0, counted := 0, told := 0, peerLim := 0 }
  let s := (s.spdmDiscard l).laneEvent
  let o := otherLane l
  let s := if k.changing then s.sakNext l else s
  let s := s.waitMoves l k.wait
  if k.st = .secured && s.secured o then
    s.each ((s.link.xfers.filter fun e => decide (e.2.lane = l) && !e.2.susp).map (·.1)) fun s x => s.resumeXfer x o
  else s

/-- A lane with signal starts training: 2 tokens of device leave first (R394, R429). -/
def State.laneTrain (s : State) (l : Nat) : State :=
  let k := s.ln l
  if !s.boot.linkOut ∨ k.st ≠ .down ∨ k.los then s
  else match s.lvTake (.retrain l) 2 with
    | some s => (s.lnU l fun k => { k with
        st := .training, grantOk := true, retrains := BitVec.ofNat 8 (satAdd 8 k.retrains.toNat 1) }).laneEvent
    | none => if s.leave.queue.any (fun r => decide (r.use = .retrain l)) then s else s.lvAsk (.retrain l) 2

/-! ### The service lane (R229) -/

/-- A job of the service lane has still a requester that waits for it. -/
def State.svcLive (s : State) : SvcJob → Bool
  | .leaf x i => s.xferOpen x && (s.xf x).open_.any fun o => decide (o.1 = i)
  | .reload => s.boot.linkReload
  | .image => decide (s.hand.state = .loading)
/-- A job of the service lane can run now: a suspended transfer's cannot. -/
def State.svcRuns (s : State) (j : SvcJob) : Bool :=
  s.svcLive j && (match j with | .leaf x _ => !(s.xf x).susp | .reload | .image => true)
/-- The service lane probes: its slots run empty (R406). -/
def State.svcProbes (s : State) : Bool := s.serviceLane.any fun l => decide ((s.ch (chanKey .lane l)).state ≠ .inService)
/-- The job that the service lane runs next: in the order of arrival. -/
def State.svcNext (s : State) : Option SvcJob := if s.svcProbes then none else s.wake.svcJobs.find? s.svcRuns
/-- The service lane is free for another hashing job of a core or of the home port: the runtime schedule has no such lane, or
every job that was requested before has ended (R229). -/
def State.svcFree (s : State) : Bool := s.serviceLane.isNone || (!s.svcProbes && s.svcNext.isNone)
/-- A job is requested. -/
def State.svcAsk (s : State) (j : SvcJob) : State :=
  { s with wake := { s.wake with svcJobs := s.wake.svcJobs.filter (fun k => decide (k ≠ j)) ++ [j] } }
/-- A job is done. -/
def State.svcDone (s : State) (j : SvcJob) : State :=
  { s with wake := { s.wake with svcJobs := s.wake.svcJobs.filter fun k => decide (k ≠ j) && s.svcLive k } }
/-- A leaf fails: it is requested again; the third failure fails the transfer with REASON 3 (R443). -/
def State.leafFailed (s : State) (x i : Nat) : State :=
  let s := (s.svcDone (.leaf x i)).xfU x fun t => { t with fails := Tab.upd 0 t.fails i (· + 1) }
  let t := s.xf x
  if 3 ≤ Tab.get 0 t.fails i then s.xferFail x 3
  else
    let s := s.xfU x fun t => { t with open_ := t.open_.map fun e => if e.1 = i then (i, [], []) else e }
    s.pull x t.lane 2 3 i 1 t.ref
/-- The job that the service lane runs fails: a leaf is requested again, a core's hash is run again behind the others (R475; log 71). -/
def State.svcFails (s : State) : State :=
  match s.svcNext with
  | some (.leaf x i) => s.leafFailed x i
  | some j => s.svcAsk j
  | none => s

end Sys2Proof.Machine
end

