-- ==== Sys2Proof/Machine/Verify.lean ====
section
/-! DEFINITION. Verifications of the verdict unit in chain mode (10 R319 to R321; 03 R81, R83; 14 R394): how one starts on an
engine, and how those outside a wake wait for one. -/

namespace Sys2Proof.Machine

open Sys2Proof

/-- An engine can take an operation: idle, no start waits on it, its channel in service (R304, R406). -/
def State.engineFree (s : State) (e : Nat) : Bool :=
  decide ((s.en e).state = .idle) && !(s.en e).waiting && decide ((s.ch (chanKey .engine e)).state = .inService)
/-- A Kernel engine is left: not every one is retired (R417). -/
def State.engineLeft (s : State) : Bool := (List.range 4).any fun e => !s.chanRetired .engine e

/-- The verdict unit writes a verification into an engine and draws its class 0 leave; the operation begins with the grant
(R319, R320, R394, R395). -/
def State.chainStart (s : State) (e : Nat) (j : ChainJob) : State :=
  let n := chainTokens j.scheme j.block
  let s := s.enU e fun k => { k with chain := some j, owner := 3, mem := chainMem j.scheme j.digest j.block false }
  if s.canGrant 0 n && !s.leave.queue.any (fun r => r.use.urgent) then (s.poolGrant 0 e n).enU e fun k => { k with state := .busy }
  else (s.lvAsk (.chain e) n).enU e fun k => { k with waiting := true }

/-- What a verification decides still waits for it; the verifications of a wake are dealt by the wake itself. -/
def State.verLive (s : State) (j : ChainJob) : Bool :=
  match j.use with
  | .port _ => false
  | .shelf => !s.wake.shelf.decided && decide (s.wake.shelf.digest = j.digest)
  | .policy => s.wake.policy.isNone
  | .command q => ((s.mb q).call.map (·.sig)).getD none = some j
  | .flow p => decide ((s.fl p).check = some j)
  | .handover _ => decide (s.hand.state = .checking)
  | .root _ => decide (s.keys.rootJob = some j)
/-- The oldest verification that waits starts on the lowest free engine, beside a wake on the highest (DESIGN CHOICE, log 25). -/
def State.verStart (s : State) : State :=
  let order := if s.wake.stage = .idle then List.range 4 else (List.range 4).reverse
  match s.wake.verify.filter s.verLive, order.find? s.engineFree with
  | j :: t, some e => ({ s with wake := { s.wake with verify := t } } : State).chainStart e j
  | l, _ => { s with wake := { s.wake with verify := l } }
/-- A verification for this use runs or waits. -/
def State.verUnder (s : State) (u : VerUse) : Bool :=
  s.wake.verify.any (fun j => decide (j.use = u)) || (List.range 4).any fun e => decide ((s.en e).chain.map (·.use) = some u)
/-- A verification whose engine did not finish it is due again, before the others; a wake deals its own again (R321). -/
def State.verAgain (s : State) (j : ChainJob) : State :=
  match j.use with
  | .port _ => s
  | _ => ({ s with wake := { s.wake with verify := { j with second := false } :: s.wake.verify } }).verStart
/-- The verdict unit verifies a signature outside a wake. A hash-based one is decided on a lane, any other waits for an engine;
with none left it fails (R322, R394; DESIGN CHOICE, log 25). -/
def State.verify (s : State) (j : ChainJob) (done : Bool → State → State) : State :=
  if hashScheme j.scheme then done (sigVerifies j.scheme j.digest j.block) s
  else if !s.engineLeft then done false s
  else ({ s with wake := { s.wake with verify := s.wake.verify ++ [j] } }).verStart
/-- The standing retirements of the log act again since this start, or the log is STOPPED (R414). -/
def State.standingDone (s : State) : Bool := s.log.reapplied || decide (s.log.state = .stopped)
/-- The verification of a container's signature. -/
def jobOf (u : VerUse) (c : List Byte) : ChainJob := { use := u, scheme := cScheme c, digest := cDigest c, block := cSigBlock c }

end Sys2Proof.Machine
end

