-- ==== Sys2Proof/Machine/Retire.lean ====
section
/-! DEFINITION. Retirement of channels and their probes (15 R408 to R414, R425). -/

namespace Sys2Proof.Machine

open Sys2Proof

/-! ### What a port's policy uses -/

/-- Entry i of a port's NORMAL (0) or CONT (1) trie, as a 128-bit word (R176). -/
def PWin.trieEntry (w : PWin) (cont : Bool) (i : Nat) : Nat := leNat (sub w.tries (0x1000 * cont.toNat + 16 * i) 16)
/-- The legend entry of a code (R182). -/
def PWin.legend (w : PWin) (code : Nat) : Nat := field w.ctx (4 * code) 4
/-- A rule entry of a bank. -/
def State.rule (s : State) (bank : Bool) (i : Nat) : W128 :=
  Tab.get 0 (if bank then s.rules.bank1 else s.rules.bank0) i
/-- An action that needs the thread: EMULATE or SERVE. -/
def threadAction (a : Nat) : Bool := decide (a = 3 ∨ a = 4)
/-- The port's loaded policy uses EMULATE or SERVE: in a leaf, a legend entry or a rule of its active generation. -/
def State.usesServe (s : State) (p : Nat) : Bool :=
  let w := s.pw p
  let leaf := fun (e : Nat) => decide (bitsOf e 127 126 = 2) && !bitOf e 120 && threadAction (bitsOf e 123 121)
  ((List.range 256).any fun i => leaf (w.trieEntry false i) || leaf (w.trieEntry true i))
    || ((List.range 16).any fun c =>
      let l := w.legend c
      !bitOf l 31 && (threadAction (bitsOf l 18 16) || threadAction (bitsOf l 21 19) || threadAction (bitsOf l 24 22)
        || threadAction (bitsOf l 27 25)))
    || ((if w.gen then s.rules.bank1 else s.rules.bank0).any fun e =>
      bitOf e.2.toNat 127 && decide (bitsOf e.2.toNat 126 120 = p) && threadAction (bitsOf e.2.toNat 83 81))

/-- The policy's bytes; none before one is accepted. -/
def State.pol (s : State) : List Byte := (s.wake.policy.map (·.bytes)).getD []

/-! ### Gleaned leaves that no lane will check (R64, R252) -/

/-- Key of a granule in the tag directory. -/
def tagKey (p a : Nat) : Nat := p * 4096 + a / 65536 % 4096
/-- The TAG group that holds the tag of a leaf; none where the leaf has no tag: outside the tagged ranges, tags void,
unchosen slot, tag page BAD (R249, R251, R252). -/
def State.leafGroup (s : State) (p a : Nat) : Option Nat :=
  let g := Tab.get 0 s.gran.tagDir (tagKey p a)
  if g = 0 || (s.pg p).tagsVoid || !inGleanRange s.pol p a then none
  else if pageUse (s.page (8 * g + a / 8192 % 8)) = 7 then none
  else some g

/-- Half-leaves of a port that wait for a glean slot are not checked: a leaf that has a tag counts UNOBSERVED, one without
counts UNTAGGED (R64, R252). -/
def State.gleanDropOf (s : State) (p : Nat) : State :=
  let items := (s.pg p).glean
  let tagged := (items.filter fun i => (s.leafGroup p i.addr).isSome).length
  let s := s.pgU p fun g => { g with glean := [] }
  (s.bump p .unobserved tagged).bump p .untagged (items.length - tagged)

/-! ### A wake meets a retirement (R76, R102) -/

/-- The 5-round frame that the wake is in. -/
def State.wakeFrame (s : State) : Nat := (s.wake.round - 1) / 5
/-- A record of the slot table is a job. -/
def isJob (r : Nat × Nat × Nat × Nat × Nat) : Bool := decide (r.2.2.2.2 = 1 ∨ r.2.2.2.2 = 2)
/-- The lane that runs record i of virtual lane v: virtual lane v on the v-th lane, or with fewer than 20 lanes the jobs in
order of START and virtual lane dealt to the lanes in turn (R232, R237). -/
def State.recLane (s : State) (sec : List Byte) (v i : Nat) : Option Nat :=
  let a := s.wake.lanes.length
  if 20 ≤ a then s.wake.lanes[v]?
  else
    let r := slotRecord sec (768 * v + i)
    let before := (List.range 15360).filter fun j =>
      let q := slotRecord sec j
      isJob q && (decide (q.1 < r.1) || (decide (q.1 = r.1) && decide (j / 768 < v)))
    s.wake.lanes[before.length % a]?
/-- The lane that the schedule gives a job of a port's chunk in round b of a frame; none where the table has no such job
(R32, R234). -/
def State.jobLane (s : State) (p b chunk : Nat) (tags : Bool) : Option Nat :=
  let sec := sectionOf s.wake.sched 0x102
  let mine := fun (k : Nat) => decide ((slotRecord sec k).2 = (p, b % 5, chunk, if tags then 2 else 1))
  ((List.range 15360).find? mine).bind fun k => s.recLane sec (k / 768) (k % 768)
/-- The ports with a job on a lane in the wake's current frame. -/
def State.lanePorts (s : State) (lane : Nat) : List Nat :=
  let sec := sectionOf s.wake.sched 0x102
  let c := (s.wake.policy.map (·.bytes)).getD []
  allPorts.filter fun p => (s.pk p).part && (List.range 20).any fun v => (List.range 768).any fun i =>
    let r := slotRecord sec (768 * v + i)
    decide (r.2.1 = p) && isJob r && decide (5 * s.wakeFrame + r.2.2.1 < polBursts c p)
      && decide (s.recLane sec v i = some lane)
/-- The ports that had a job on a failed lane in this frame are incomplete (R76); the entry stage has no jobs (R231). -/
def State.laneFailed (s : State) (lane : Nat) : State :=
  if s.wake.stage = .idle ∨ s.wake.stage = .entry then s
  else s.each (s.lanePorts lane) fun s p => s.pkU p fun w => { w with incomplete := true }

/-- A failed check of a lane job is an error of the hop's owner, a lane or a port; a Gnoby failure raises its alarm there
(R382, R406). -/
def State.hopError (s : State) (x : HopCheck) (lane p : Nat) : State :=
  match x with
  | .ok => s
  | .lane => (s.chanError .lane lane 1).gnoby 0 0
  | .laneEcc => s.chanError .lane lane 2
  | .beat => (s.chanError .port p 1).gnoby 1 p
  | .buffer => s.chanError .port p 2

/-- A port may leave ISOLATED: neither it nor its flash side is retired, or a verified set serves it (R130, R261). A flash that a
recovery flow has written since the last decision, or works on, serves nothing until a rewake has decided it (R123). -/
def State.portServes (s : State) (p : Nat) : Bool :=
  !s.chanRetired .port p && (if (s.pg p).flashRetired then decide ((s.pg p).setState = .verified) else !(s.pv p).rewritten)
/-- A token is minted for the current epoch, while the port's sequencer is released. A stand whose gate is closed refuses
tokens with its status; the token waits in its register all the same (R38, R58, R95, R100). -/
def State.mint (s : State) (p : Nat) : State :=
  if !(s.sh (sheafOf p)).released || !s.portServes p then s
  else
    let s := s.phU p fun h => { h with token := some s.boot.epoch }
    if (s.st (standOf p)).gate then s else s.standRefuses (standOf p)
/-- A handback succeeds: status model, ADDR4 and CONT clear, the flash side is released, the token is minted (R94, R154,
R196). -/
def State.handbackDone (s : State) (p : Nat) : State :=
  let s := s.phU p fun h => { h with handback := false, mode := .isolated }
  let s := s.pwU p fun w => { w with wel := false, busy := false }
  (s.peU p fun e => { e with addr4 := false, cont := false }).mint p

/-! ### Effects of retirement (R412) -/

/-- A lane retires: it returns to TL by reconciliation and passes to the RETIRED holder, the runtime schedule takes the next
lane (R392, R400, R412). -/
def State.retireLane (s : State) (l : Nat) : State :=
  let s := s.laneFailed l
  let holder := if s.wake.lanes.contains l then some 0 else if s.runtimeLanes.contains l then some 1 else none
  let s := s.chU (chanKey .lane l) fun c => { c with state := .retired }
  let s := match holder with
    | some h => s.reconcileOf 8 [{ holder := h, cause := 0, units := some 1 }]
    | none => s
  (s.poolClaim 8 3 1).runtimeDraw

/-- A lane's bit in LR reads programmed. -/
def State.lrBurned (s : State) (l : Nat) : Bool := s.current (0x40 + l)

/-- A reserved target of an engine's operation is released (R336). -/
def State.outRelease (s : State) (e : Nat) : State :=
  match (s.en e).outSlot with
  | some n => (s.ksU n fun k => { k with reserved := false }).enU e fun k => { k with outSlot := none }
  | none => s
/-- A retired engine has no work left: STATE RETIRED, its leave reconciles (R311, R400, R412). -/
def State.engineGone (s : State) (e : Nat) : State :=
  let s := if 0 < s.holds 0 e then s.reconcile 0 0 [e] else s
  s.enU e fun k => { k with state := .retired, mem := [], waiting := false, key := none, keyFail := false, chain := none, wrBusy := false, gone := false }
/-- An engine retires: work in flight is aborted first, a wake deals its verifications to the others (R83, R326, R327). -/
def State.retireEngine (s : State) (e : Nat) : State :=
  let s : State := { s with wake := { s.wake with serving := s.wake.serving.filter fun x => decide (x ≠ e) } }
  let s := s.each allPorts fun s p =>
    if (s.pk p).sig = .running e then s.pkU p fun w => { w with sig := .none } else s
  let s := s.abortEngine e
  if (s.en e).state = .aborting then s.enU e fun k => { k with gone := true } else s.engineGone e

/-- A port leaves a running wake before its verdict: PENDING, its tags and pins go back, through reconciliation where a
retirement is the cause, its MASTER sequence ends (R87, R102, R135, R412). -/
def State.wakeOut (s : State) (p : Nat) (retired : Bool) : State :=
  if !(s.pk p).part || decide (s.wake.stage = .idle) then s
  else
    let s := if retired then s.reconcileGroups 0 p [1, 2] else (s.returnGroups 1 p none).returnGroups 2 p none
    let s := s.phU p fun h => { h with mode := if h.mode = .master then .isolated else h.mode }
    (s.pvU p fun v => { v with verdict := 0, reason := 0, chosen := 0 }).pkU p fun w => { w with part := false }
/-- A port or its flash side retires: no token, no handback, no MASTER frame goes on; in a wake its slots idle and it ends
incomplete (R130, R135, R412; log 54). -/
def State.masterOff (s : State) (p : Nat) : State :=
  let s := s.phU p fun h => { h with token := none, handback := false, mode := if h.mode = .master then .isolated else h.mode }
  if (s.pk p).part && decide (s.wake.stage ≠ .idle) then s.pkU p fun w => { w with aborted := true } else s
/-- A sequencer retires: threads stop, its ports filter by the coarse map alone, those whose policy uses EMULATE or
SERVE are held, waiting lookups go, its ports leave a running wake (R36, R37, R102, R211). A pin or serve-set context counts
as use of SERVE (log 52). In the frame in flight FILL already acts as DENY and GLEAN as PASS, by R37; R211 names the next rise of the
select only (log 68, DESIGN CHOICE). -/
def State.retireSequencer (s : State) (k : Nat) : State :=
  let s := s.each (List.range 8) fun s t => s.coU (8 + 8 * k + t) fun c => { c with run := .stopped }
  let s := s.shU k fun h => { h with released := false }
  s.each (sheafPorts k) fun s p =>
    let s := s.pwU p fun w => { w with coarseOnly := true }
    let s := s.pdU p fun d => { d with lookups := [], decs := [] }
    let s := s.wakeOut p true
    if s.usesServe p || s.hasPin p || (s.serveCtx p).isSome then s.holdPort p else s

/-- A link lane retires: its leave and its buffers return by reconciliation, it is powered down (R400, R412, R429). -/
def State.retireLink (s : State) (l : Nat) : State :=
  let s := if (s.ln l).grantOk then (s.reconcileOf 0 [{ holder := 8, cause := 0, units := some 2 }]).lnU l fun k => { k with grantOk := false }
    else s
  let s := if 0 < s.holds (10 + l) 0 + s.holds (10 + l) 1 then s.reconcile (10 + l) 0 [0, 1] else s
  (s.laneLeave l .retired).lnU l fun k => { k with los := true }
/-- What a retired port or flash side held returns by reconciliation: the inrush leave of a release, the token of a flow, which
fails, and the pages of some uses (R400, R412). -/
def State.portGives (s : State) (p : Nat) (uses : List Nat) : State :=
  let s := if (s.fl p).token then (s.reconcileOf 0 [{ holder := 9, cause := 0, units := some 1 }]).flU p fun f => { f with token := false } else s
  let q := 1 + standOf p
  let s := if 0 < s.holds q (p / 6) then (s.reconcile q 0 [p / 6]).phU p fun h => { h with settle := none } else s
  (s.reconcileGroups 0 p uses).flowFail p 1

/-- The effects of a retirement, without its log entry; the home port is kept (R412). -/
def State.retireActs (s : State) (k : ChannelKind) (i : Nat) : State :=
  match k with
  | .port =>
    let s := (((s.chU (chanKey k i) fun c => { c with state := .retired }).holdPort i).masterOff i).portGives i [1, 2, 3, 4]
    s.pgU i fun g => { g with setState := .none }
  | .flash =>
    let s := (((s.chU (chanKey k i) fun c => { c with state := .retired }).holdPort i).masterOff i).portGives i [1, 2, 4]
    s.pgU i fun g => { g with flashRetired := true }
  | .lane => s.retireLane i
  | .engine => (s.chU (chanKey k i) fun c => { c with state := .retired }).retireEngine i
  | .link => (s.chU (chanKey k i) fun c => { c with state := .retired }).retireLink i
  | .sequencer => (s.chU (chanKey k i) fun c => { c with state := .retired }).retireSequencer i
  | .stand =>
    let s := s.chU (chanKey k i) fun c => { c with state := .retired }
    s.stU i fun t => { t with gate := false, gateN := true, fire := false, fireN := true, opened := false }
  | .home => s.chU (chanKey k i) fun c => { c with state := .kept, try_ := 0 }

/-- DATA of a RETIRE entry: faulted thread of a sequencer, 0xFFFF for a lane whose LR burn is queued; a lane whose bit in LR
stands has had its burn, whose RESULT was 0 (R413). -/
def State.retireData (s : State) (k : ChannelKind) (i : Nat) : Nat :=
  match k with
  | .lane => if s.lrBurned i then 0 else 0xFFFF
  | .sequencer => ((List.range 8).find? fun t => decide ((s.co (8 + 8 * i + t)).run = .faulted)).getD 0
  | _ => 0

/-- A channel is classified permanent: its effects act in this cycle, the RETIRE entry is appended, a lane's LR bit
waits to be burned (R412, R413). -/
def State.retire (s : State) (k : ChannelKind) (i reason : Nat) : State :=
  if s.chanRetired k i then s
  else
    let body := s.retireBody (if k = .home then 4 else 0) k i reason (s.retireData k i)
    let s := s.retireActs k i
    let s := (s.chU (chanKey k i) fun c => { c with try_ := 0 }).logRec 0x31 body
    if k = .lane && !s.lrBurned i then { s with fuses := { s.fuses with lrQueue := s.fuses.lrQueue ++ [i] } } else s

/-- A lane fails its entry-stage test: reported, and retired with CAUSE known-answer failure and REASON ENTRY_TEST (R230,
R231, R411, R413). -/
def State.entryTestFailed (s : State) (l : Nat) : State :=
  ((s.gnoby 0 0).chU (chanKey .lane l) fun c => { c with cause := 3 }).retire .lane l 3

/-! ### Probes (R406, R408, R410, R425) -/

/-- A channel's probe may run now: a lane's waits for the verdict stage while a wake holds it and for the runtime
schedule in a warm restart. -/
def State.probeReady (s : State) (k : ChannelKind) (i : Nat) : Bool :=
  match k with
  | .lane => !s.wake.lanes.contains i && s.boot.laneSched
  | .stand => false
  | _ => true

/-- What a passed probe gives back to the unit. -/
def State.probePassed (s : State) (k : ChannelKind) (i : Nat) : State :=
  match k with
  | .sequencer =>
    s.each (List.range 8) fun s t =>
      if (s.co (8 + 8 * i + t)).run = .faulted then
        let v := field (s.sh i).threads (4 * t) 3
        s.restartThread (8 + 8 * i + t) (BitVec.ofNat 24 v)
      else s
  | .flash => if (s.ph i).handback && s.bankUp i then s.handbackDone i else s
  | _ => s

/-- PROBE (R408). -/
def execProbe (k : ChannelKind) (i : Nat) (pass : Bool) (s : State) : Host.Outcome State Fault Refusal :=
  let c := s.ch (chanKey k i)
  if c.state ≠ .probing ∨ chanSize k ≤ i ∨ !s.probeReady k i then .next s
  else if pass then
    let s := s.probePassed k i
    if 16 ≤ c.bucket then .next (s.retire k i 1)
    else .next (s.chU (chanKey k i) fun c => { c with
      state := .inService, try_ := 0, bucket := c.bucket + 1, transients := BitVec.ofNat 8 (satAdd 8 c.transients.toNat 1) }).verStart
  else if c.try_ < 3 then .next (s.chU (chanKey k i) fun c => { c with try_ := c.try_ + 1 })
  else .next (s.retire k i 0)

/-- BUCKET_DECAY (R409): 225 s have passed; a bucket above 0 loses 1. -/
def execBucketDecay (k : ChannelKind) (i : Nat) (s : State) : Host.Outcome State Fault Refusal :=
  if chanSize k ≤ i then .next s
  else .next (s.chU (chanKey k i) fun c => { c with bucket := c.bucket - 1 })

/-! ### Standing retirements (R414) -/

/-- CHANNEL and INDEX of a RETIRE body. -/
def retireOf (b : List Byte) : Nat × Nat := ((byteAt b 1).toNat, (byteAt b 2).toNat)
/-- The kind of a channel code. -/
def kindOf (code : Nat) : Option ChannelKind :=
  match code with
  | 1 => some .port | 2 => some .flash | 3 => some .lane | 4 => some .engine | 5 => some .link | 6 => some .sequencer
  | 7 => some .stand | 8 => some .home | _ => none

/-- RETIREMENT_REAPPLY (R414): after the log scan and before any wake LEAD re-applies every standing retirement; the
lanes of LR were retired at the sense. -/
def execRetirementReapply (s : State) : Host.Outcome State Fault Refusal :=
  if s.boot.dev ≠ .service ∨ !s.leads ∨ s.log.state ≠ .running ∨ s.wake.stage ≠ .idle then .next s
  else
    let s := s.each s.log.retires fun s b =>
      match kindOf (retireOf b).1 with
      | some k => if s.chanRetired k (retireOf b).2 then s else s.retireActs k (retireOf b).2
      | none => s
    .next { s with log := { s.log with reapplied := true } }

/-! ### Reads of an engine's registers (R306, R308, R311) -/

/-- The agent that owns operations outside chain mode: the seed core until Canopy release, then LEAD (R304). -/
def State.kernelAgent (s : State) : Option Agent := if s.boot.canopyOut then s.leadAgent else some .seed
/-- OWNER code of that agent (R311). -/
def ownerCode (a : Agent) : BitVec 2 := match a with | .seed => 1 | .canopyA => 2 | .canopyB => 2 | _ => 0
/-- RESULT and LAST_OP of the last operation that an owner started; RESULT reads 0 while the engine is BUSY (R311). -/
def Engine.resultFor (k : Engine) (owner : BitVec 2) : BitVec 4 × BitVec 6 :=
  let r := if owner = k.by_ then (k.result, k.lastOp) else k.other
  if k.state = .busy then (0, r.2) else r
/-- The status word of an engine as an agent reads it (R311). -/
def State.engineStatus (s : State) (e : Nat) (src : Agent) : W32 :=
  let k := s.en e
  let st := match k.state with | .idle => 0 | .busy => 1 | .aborting => 2 | .retired => 3
  let r := if s.kernelAgent = some src then k.resultFor (ownerCode src) else (0, 0)
  BitVec.ofNat 32 (st * 2 ^ 30 + (if k.chain.isSome then 3 else k.owner.toNat) * 2 ^ 28 + k.done.toNat * 2 ^ 27 + k.wrBusy.toNat * 2 ^ 26
    + k.refused.toNat * 2 ^ 25 + r.1.toNat * 2 ^ 20 + r.2.toNat * 2 ^ 14)
/-- A region that an owner reads: of the mode of the engine's last operation (R306). -/
def Engine.readable (k : Engine) (w : Nat) : Bool := decide (w < 0x390) || (decide (0x30 ≤ k.lastOp.toNat) && decide (w < 0x3D0))
/-- A read of operand memory: 0 while the engine is BUSY or ABORTING and in regions that read 0; a read by another agent
returns 0 and raises a SIGNAL alarm (R306, R308, R319). -/
def State.operandRead (s : State) (e : Nat) (src : Agent) (w : Nat) : W64 × State :=
  let k := s.en e
  if s.kernelAgent ≠ some src ∨ k.chain.isSome then (0, s.raise 0x0303 1 0 0 noData)
  else if k.state ≠ .idle ∨ !k.readable w then (0, s)
  else (Tab.get 0 k.mem w, s)

end Sys2Proof.Machine
end

