-- ==== Sys2Proof/Machine/Master.lean ====
section
/-! DEFINITION. The frames a port sends in MASTER: wake entry, wake read, handback, continuous-read exit (05 R134, R135,
R157; 03 R70, R94; 04 R528, R529). -/

namespace Sys2Proof.Machine

open Sys2Proof

/-- The replies to the frames of a sequence, in order: of each frame the bytes that each of its tries read. -/
abbrev Replies := List (List (List Byte))

/-- ENTRY_SEQ record of a port. -/
def State.entryRec (s : State) (p : Nat) : List Byte := sub (sectionOf s.wake.sched 0x103) (256 * p) 256
/-- HANDBACK_SEQ record of a port. -/
def State.handRec (s : State) (p : Nat) : List Byte := sub (sectionOf s.wake.sched 0x104) (256 * p) 256

/-- The frame records of a sequence: up to n of 24 bytes; one with OUT_LEN 0 ends the list (R528). -/
def frameRecs (r : List Byte) : Nat → List (List Byte)
  | 0 => []
  | n + 1 => if byteAt r 0 = 0 then [] else sub r 0 24 :: frameRecs (r.drop 24) n
/-- The frame of a record: one lane, SDR mode 0, 25 MHz, capture delay 0 (R528, R529). -/
def recFrame (r : List Byte) : MasterFrame :=
  { out := sub r 4 (byteAt r 0).toNat, clock := 0, shape := 0, capture := 0, wait := (byteAt r 2).toNat, read := (byteAt r 1).toNat }
/-- The bytes read agree with EXPECT under MASK. -/
def replyOk (r got : List Byte) : Bool :=
  (List.range (byteAt r 1).toNat).all fun i => decide ((byteAt got i ^^^ byteAt r (0x0C + i)) &&& byteAt r (0x10 + i) = 0)
/-- A frame's compare holds: none is asked, the read bytes agree, or in a POLL those of some try do. -/
def frameHolds (r : List Byte) (tries : List (List Byte)) : Bool :=
  if bitOf (byteAt r 3).toNat 1 then tries.any (replyOk r)
  else !bitOf (byteAt r 3).toNat 0 || replyOk r (tries.headD [])
/-- Every compare of a sequence holds. -/
def seqHolds (rs : List (List Byte)) (got : Replies) : Bool :=
  (List.range rs.length).all fun i => frameHolds (rs.getD i []) (got.getD i [])

/-- A port sends frames in MASTER; a frame that is polled stands once. -/
def State.sendMaster (s : State) (p : Nat) (l : List MasterFrame) : State := s.peU p fun e => { e with master := l }

/-- The identification read of a port (R70, R528). -/
def idFrame (r : List Byte) : MasterFrame :=
  { out := [0x9F], clock := (byteAt r 3).toNat, shape := 0, capture := (byteAt r 4).toNat, wait := 0, read := (byteAt r 5).toNat }
/-- The set-up records of a port. -/
def State.setupRecs (s : State) (p : Nat) : List (List Byte) := frameRecs (sub (s.entryRec p) 0x20 224) 9
/-- The handback records of a port. -/
def State.handRecs (s : State) (p : Nat) : List (List Byte) := frameRecs (sub (s.handRec p) 0x20 224) 9
/-- The wake entry of a port: identification read, then the set-up frames (R70). -/
def State.entryFrames (s : State) (p : Nat) : List MasterFrame := idFrame (s.entryRec p) :: (s.setupRecs p).map recFrame
/-- The identification bytes match and every set-up compare holds (R528). -/
def State.entryOk (s : State) (p : Nat) (id : List Byte) (got : Replies) : Bool :=
  let r := s.entryRec p
  decide (id = sub r 8 (byteAt r 5).toNat) && seqHolds (s.setupRecs p) got
/-- The frame of a burst of the wake read at flash address a: READ_CMD, the address most significant byte first, at CLOCK
with CAPTURE (R71, R528). -/
def State.burstFrame (s : State) (p a : Nat) : MasterFrame :=
  let r := s.entryRec p
  { out := byteAt r 0x10 :: (leBytes a (byteAt r 0x13).toNat).reverse, clock := (byteAt r 1).toNat, shape := byteAt r 0x11,
    capture := (byteAt r 2).toNat, wait := (byteAt r 0x12).toNat, read := 65536 }

/-- A port with CONT set sends the EXIT frame of its part before any other MASTER frame, and CONT clears (R157); none
leaves on a bank that is down (R500). -/
def State.contExit (s : State) (p : Nat) : State :=
  if (s.pe p).cont && s.bankUp p then
    (s.sendMaster p ((frameRecs (sub (s.handRec p) 8 24) 1).map recFrame)).peU p fun e => { e with cont := false }
  else s

end Sys2Proof.Machine
end

