-- ==== Sys2Proof/Machine/Startup.lean ====
section
/-! DEFINITION. Start-up: supplies, clocks, fuse sense, the bundle pass, core release (02). -/

namespace Sys2Proof.Machine

open Sys2Proof

/-! ### Supplies (R39 to R44) -/

/-- Main power-good (R41). -/
def State.mainGood (s : State) : Bool := s.boot.sup.core && s.boot.sup.sram && s.boot.sup.aon

/-- Write the good signal of a supply. -/
def Supplies.set (u : Supplies) (x : Supply) (v : Bool) : Supplies :=
  match x with
  | .core => { u with core := v }
  | .sram => { u with sram := v }
  | .aon => { u with aon := v }
  | .io k => { u with io := if v then u.io ||| BitVec.ofNat 12 (2 ^ k.val) else u.io &&& ~~~ (BitVec.ofNat 12 (2 ^ k.val)) }
  | .ioH => { u with ioH := v }
  | .sd => { u with sd := v }
  | .sda => { u with sda := v }
  | .vbat => { u with vbat := v }

/-- A flaw of the watch core's memory, of backup memory or of what stands there. -/
def Flaw.inBackup : Flaw → Bool
  | .mem m _ _ => decide (m = 4 ∨ m = 5)
  | .lastGood _ | .backupLog _ => true
  | _ => false
/-- Main-power reset (R43): everything of the main domain at its reset value; supplies, clock input, backup domain,
OTP array, home flash and the battery-backed root stay. A burn under way is cut short (R371). -/
def State.mainReset (s : State) (dev : DevState) : State :=
  let s : State := if s.fuses.state = .burning && !s.fuses.waiting then s.burnStop else s
  let ac := !s.boot.orderAF
  { State.reset with
    boot := { sup := s.boot.sup, refPresent := s.boot.refPresent, vselPins := s.boot.vselPins,
              watchOut := s.boot.watchOut, dev := dev }
    hold := (s.hold.map fun e => (e.1, ({ pg := e.2.pg } : PHold))).filter fun e => decide (e.2 ≠ {})
    cores := (if s.co 4 = {} then [] else [(4, s.co 4)])
    mems := s.mems.filter fun e => decide (e.1 = 4 ∨ e.1 = 5)
    keys := { root := if ac then s.keys.root else 0, rootMask := if ac then s.keys.rootMask else 0, rootState := if ac then s.keys.rootState else 0,
              rootFailed := s.keys.rootFail || (s.keys.rootFailed && decide (s.boot.dev = .off ∨ s.boot.dev = .start)) }
    fuses := { otp := s.fuses.otp, inside := s.fuses.inside }
    backup := s.backup
    flaws := s.flaws.filter Flaw.inBackup
    home := s.home
    fresh := s.fresh
    pending := s.pending }

/-- The main domain enters START: a new epoch and boot nonce, fuse sense begins, the pool set-up draws SPARE (R41, R91,
R244). -/
def State.coldStart (s : State) : State :=
  let s := s.mainReset .start
  let s := ({ s with boot := { s.boot with epoch := 1, nonce := leBytes (s.drawn 0) 16 } }).used 1
  s.each (List.range 8) fun s _ => match s.takeGroup 6 (pageEntry 6 0x7F false false 0 0x1FFFF) with
    | some (_, t) => t
    | none => s

/-- A backup cold start: the watch core starts from its ROM vector, backup memory is clear, the first log entry is
0x0580, the case switches' normal levels are those read now (R42, R373, R506). -/
def State.backupCold (s : State) : State :=
  if s.boot.watchOut || !(s.boot.sup.aon || s.boot.sup.vbat) then s
  else
    let s := s.mend Flaw.inBackup
    let s : State := { s with boot := { s.boot with watchOut := true }, backup := { switches := BitVec.ofNat 2 (s.drawn 0) } }
    let s := (((s.used 1).memZero 4).memZero 5).startCore 4 0
    s.backupLog 0x0580 0 0 0

/-- The backup domain has lost both supplies: its state is gone, and on SV96-AC the owner root with it (R42, R344). -/
def State.backupLost (s : State) : State :=
  if s.boot.sup.aon || s.boot.sup.vbat then s
  else
    let s : State := { s with boot := { s.boot with watchOut := false }, backup := {} }
    let s := ((s.memZero 4).memZero 5).coU 4 fun _ => {}
    if s.boot.orderAF then s
    else { s with keys := { s.keys with root := 0, rootMask := 0, rootState := 0 } }

/-- The bank of a supply in Boot.bankOut, and its alarm with its target (R36, R372, R512). -/
def bankAlarm (x : Supply) : Option (Nat × Nat × Nat × Nat) :=
  match x with
  | .io k => some (k.val, 0x0103, 2, k.val)
  | .ioH => some (12, 0x0104, 0, 0)
  | .sd => some (13, 0x0105, 0, 0)
  | .sda => some (14, 0x0105, 0, 0)
  | _ => none
/-- SUPPLY_GOOD (R40 to R42, R499). -/
def execSupplyGood (x : Supply) (s : State) : Host.Outcome State Fault Refusal :=
  let was := s.mainGood
  let s := ({ s with boot := { s.boot with sup := s.boot.sup.set x true } }).backupCold
  if s.mainGood && !was then
    let s := s.coldStart
    .next { s with boot := { s.boot with vsel := s.boot.vselPins } }
  else match bankAlarm x with
    | some (i, _) => .next { s with boot := { s.boot with bankOut := s.boot.bankOut &&& ~~~(BitVec.ofNat 15 (2 ^ i)) } }
    | none => .next s

/-- A bank leaves its limits: its alarm, once until it reads normal again; gleaning of a sheaf's ports stops (R36). -/
def State.bankFails (s : State) (x : Supply) : State :=
  match bankAlarm x with
  | some (i, code, tkind, target) =>
    if s.boot.dev = .off ∨ s.boot.bankOut.getLsbD i then s
    else
      let s : State := { s with boot := { s.boot with bankOut := s.boot.bankOut ||| BitVec.ofNat 15 (2 ^ i) } }
      let s := if i < 12 then s.each (sheafPorts i) fun s p => s.gleanDropOf p else s
      s.raiseReg code tkind target noData
  | none => s
/-- SUPPLY_NOT_GOOD (R36, R40 to R43, R500): a bank that is not good is outside its limits. -/
def execSupplyNotGood (x : Supply) (s : State) : Host.Outcome State Fault Refusal :=
  let was := s.mainGood
  let s : State := { s with boot := { s.boot with sup := s.boot.sup.set x false } }
  let s : State := if was && !s.mainGood then s.mainReset .off else s.bankFails x
  .next s.backupLost

/-- BACKUP_DOMAIN_SUPPLIED (R42, R56): VBAT is fitted. -/
def execBackupDomainSupplied (s : State) : Host.Outcome State Fault Refusal :=
  .next ({ s with boot := { s.boot with sup := s.boot.sup.set .vbat true } }).backupCold

/-! ### Clocks (R531) -/

/-- The clock-failure path: the main domain is reset and waits in START; the straps keep their sampled value. -/
def State.clockFail (s : State) : State :=
  let v := s.boot.vsel
  let s := s.coldStart
  { s with boot := { s.boot with vsel := v } }

/-- REFCLK_LOSS (R531). A loss before the seed core is released raises 0x0110 as any other (DESIGN CHOICE, log 51). -/
def execRefclkLoss (s : State) : Host.Outcome State Fault Refusal :=
  if !s.boot.refPresent then .next s
  else
    let s : State := { s with boot := { s.boot with refPresent := false, refHoldover := s.boot.coreLock } }
    .next (if s.boot.dev = .off then s else s.raiseReg 0x0110 0 0 noData)

/-- REFCLK_HOLDOVER_EXPIRY (R531). -/
def execRefclkHoldoverExpiry (s : State) : Host.Outcome State Fault Refusal :=
  .next (if s.boot.refHoldover then s.clockFail else s)

/-- PLL_LOCK_LOSS (R531). -/
def execPllLockLoss (flashSide : Bool) (s : State) : Host.Outcome State Fault Refusal :=
  if (if flashSide then s.boot.flashLock else s.boot.coreLock) then .next (s.raiseReg 0x0111 0 0 noData).clockFail
  else .next s

/-- REFCLK_RETURN (R531). -/
def execRefclkReturn (s : State) : Host.Outcome State Fault Refusal :=
  .next { s with boot := { s.boot with refPresent := true, refHoldover := false } }

/-! ### Fuse sense (R45 to R50) -/

/-- The owner root as the sense finds it (R342, R343, R355). -/
def State.senseRoot (s : State) : State :=
  let k := s.keys
  let s : State := if s.boot.orderAF then
      { s with keys := { k with root := BitVec.ofNat 256 (fuseRoot s.fuses.latched), rootMask := 0, rootState := if s.latched (0x80 + 272) then 1 else 0 } }
    else { s with keys := { k with rootState := if k.rootState = 1 then 1 else 0 } }
  { s with keys := { s.keys with lcBad := false, rootFail := false } }

/-- FUSE_SENSE_DONE (R45 to R50, R53, R340, R355, R367, R372, R381, R454): also in a device that a SEAL response has put
in SEALED before. -/
def execFuseSenseDone (s : State) : Host.Outcome State Fault Refusal :=
  if (s.boot.dev ≠ .start ∧ s.boot.dev ≠ .sealed) ∨ s.boot.sensed then .next s
  else
    let otp := s.fuses.otp
    let lat : Tab Bool := otp.filterMap fun e => if e.2.value then some (e.1, true) else none
    let fails := failingGroups otp lat
    let fb := maskOf ((fails.filter fun f => decide (5 ≤ f.1)).map fun f => f.1 - 5)
    let s : State := { s with fuses := { s.fuses with latched := lat, current := lat, weakMap := [], overflow := false, tempOk := s.fuses.inside } }
    let s : State := { s with boot := { s.boot with
      sensed := true, orderAF := Tab.get false lat 8, failing := fails.filter (fun f => classK f.1), fallback := BitVec.ofNat 4 fb } }
    let s := s.each (otp.map (·.1)) fun s a => s.senseBit a
    let s := s.each (fails.filter fun f => decide (5 ≤ f.1)) fun s f => s.fuseAlarm 1 f.2
    let s : State := if 0 < s.lcLatched && !s.latched (0x200 + 400) then s.fuseAlarm 1 (0x200 + 400) else s
    let s := s.loadRanks s.cfg
    let s : State := { s with mspi := { s.mspi with crcOn := bitOf (byteAt s.cfg 0).toNat 0 } }
    let s := s.each ((List.range 24).filter fun n => Tab.get false lat (0x40 + n)) fun s n =>
      (s.chU (chanKey .lane n) fun c => { c with state := .retired }).poolGrant 8 3 1
    let s := s.senseRoot
    let bad := fails.filter fun f => classK f.1
    if bad ≠ [] then
      let s := s.each bad fun s f => s.backupLog 0x0581 0 0 (f.1 * 2 ^ 24 + f.2)
      .next { s with boot := { s.boot with dev := .sealed } }
    else if s.backup.sealLatch ∨ s.lcLatched = 5 then .next { s with boot := { s.boot with dev := .sealed } }
    else if s.lcLatched = 0 then .next { s with boot := { s.boot with dev := .production } }
    else .next s

/-! ### The seed core and the bundle (R52 to R56) -/

/-- SEED_CORE_RELEASE (R56, R415): at a cold start the PLLs lock, the per-boot keys are drawn and the fault record
clears; on every run KS3 and the CERT buffer are empty and the bundle stages begin. -/
def execSeedCoreRelease (probes : BitVec 4) (s : State) : Host.Outcome State Fault Refusal :=
  let cold := !s.boot.coreLock && decide (s.boot.dev = .start ∨ s.boot.dev = .sealed ∨ s.boot.dev = .production)
  let warm := (decide (s.boot.dev = .ride) && s.boot.entryDone) || (s.boot.coreLock && decide (s.boot.dev = .sealed))
  if !(s.mainGood && s.boot.refPresent && s.boot.sensed && !s.boot.seedOut && (cold || warm)) then .next s
  else
    let s := s.startCore 0 0
    let s : State := { s with boot := { s.boot with seedOut := true, probes := probes, failedA := false, failedB := false } }
    let s : State := if !cold then s
      else
        let s : State := { s with
          boot := { s.boot with coreLock := true, flashLock := true }
          cyc := 0
          backup := { s.backup with restarts := [], stumbledA := false, stumbledB := false } }
        let s : State := if s.backup.zeroFlag then
            let s := s.zeroize true
            { s with backup := { s.backup with zeroFlag := false } }
          else s
        s.drawSlotKeys
    let s := s.dropAlias
    let s : State := { s with keys := { s.keys with idLock := false }, hand := { s.hand with stale := false } }
    if s.boot.dev = .start ∨ s.boot.dev = .ride then .next { s with boot := { s.boot with step := .headers, cand := none } }
    else .next (s.boxReady 0)

/-- The bytes of a bundle slot's header container. -/
def State.bundleHeader (s : State) (x : Slot) : List Byte := s.homeGet (slotBase x) 0x10000
/-- VERSION of a bundle header. -/
def bundleVersion (h : List Byte) : Nat := field h 0x20 4
/-- The bytes of part i of a bundle slot under its header h. -/
def State.partBytes (s : State) (x : Slot) (h : List Byte) (i : Nat) : List Byte :=
  s.homeGet (slotBase x + partOff i) (partLen h i)
/-- The digests of the three parts of a slot as a pass under header h reads them (R110). -/
def State.partDigests (s : State) (x : Slot) (h : List Byte) : List (List Byte) :=
  (List.range 3).map fun i => sha384 (s.partBytes x h i)
/-- A slot is STUMBLED (R419). -/
def State.stumbled (s : State) (x : Slot) : Bool := match x with | .a => s.backup.stumbledA | .b => s.backup.stumbledB
/-- The signer of a bundle under LC_LATCHED (R53, R129). -/
def State.bundleSigner (s : State) (h : List Byte) : Bool :=
  let b := cSigBlock h
  let lc := s.lcLatched
  if lc = 1 then decide (cSigner h = 0xFE) && decide (keyDigest b = padTo Config.vendorRoot 48)
  else if lc = 2 ∨ lc = 3 then decide (cSigner h < 4) && s.kdSigns (cSigner h)
    && decide (keyDigest b = kdDigest s.fuses.latched (cSigner h))
  else if lc = 4 then decide (cSigner h = 0xFE) && decide (keyDigest b = padTo Config.returnRoot 48)
  else false
/-- A bundle header passes but for its signature: form, key block, signer (R17, R53 to R55, R107, R111, R129). -/
def State.headForm (s : State) (h : List Byte) : Bool := bundleFormOk h && keyBlockOk (cScheme h) (cSigBlock h) && s.bundleSigner h
/-- A bundle header passes with its signature. -/
def State.headOk (s : State) (h : List Byte) : Bool := s.headForm h && sigVerifies (cScheme h) (cDigest h) (cSigBlock h)
/-- Header and part digests of one pass make a valid bundle (R55, R110). -/
def State.passOk (s : State) (h : List Byte) (digs : List (List Byte)) : Bool :=
  s.headOk h && decide (digs = (List.range 3).map (partDigest h))
/-- A pass over a slot finds a valid bundle; a STUMBLED slot fails verification (R55, R419). -/
def State.bundleOk (s : State) (x : Slot) : Bool :=
  let h := s.bundleHeader x
  s.passOk h (s.partDigests x h) && !s.stumbled x
/-- The other slot. -/
def otherSlot : Slot → Slot | .a => .b | .b => .a
/-- Two headers of equal version with different digests (R52). -/
def headsConflict (h g : List Byte) : Bool := decide (bundleVersion h = bundleVersion g) && decide (cDigest h ≠ cDigest g)
/-- Two valid bundles of equal version with different digests (R52, R55). -/
def State.bundleConflict (s : State) : Bool :=
  s.bundleOk .a && s.bundleOk .b && headsConflict (s.bundleHeader .a) (s.bundleHeader .b)
/-- A slot may be the candidate: not failed before, not STUMBLED, a header that passes its form, at or above the MC1
floor (R52). -/
def State.slotOpen (s : State) (x : Slot) : Bool :=
  let failed := match x with | .a => s.boot.failedA | .b => s.boot.failedB
  !failed && !s.stumbled x && bundleFormOk (s.bundleHeader x)
    && decide (mcCount s.fuses.latched 1 ≤ bundleVersion (s.bundleHeader x))
/-- The candidate of R52. Of two open slots of equal version slot A comes first: where their digests differ neither is used
in the end, where they are equal the rule names none (DESIGN CHOICE, log 51). -/
def State.bundleCandidate (s : State) : Option Slot :=
  let a := s.slotOpen .a
  let b := s.slotOpen .b
  if a && b then
    (if bundleVersion (s.bundleHeader .a) < bundleVersion (s.bundleHeader .b) then some .b else some .a)
  else if a then some .a else if b then some .b else none

/-- No slot yields a valid bundle: FWLESS at a cold start, HEADLESS in a warm restart, with MB0 served (R55, R66). -/
def State.noBundle (s : State) : State :=
  let s := s.dropAlias
  let s := s.coresOff [(1, 1), (2, 2), (3, 3)]
  let dev := if s.boot.dev = .start ∨ s.boot.dev = .fwless then DevState.fwless else DevState.headless
  let s : State := { s with boot := { s.boot with dev := dev, step := .none, cand := none, bundle := none } }
  if (s.mb 0).ready then s else s.boxReady 0

/-- BUNDLE_HEADERS_READ (R52, R419). -/
def execBundleHeadersRead (s : State) : Host.Outcome State Fault Refusal :=
  if s.boot.step ≠ .headers then .next s
  else
    let s : State := { s with hand := { s.hand with stumbledA := s.stumbled .a, stumbledB := s.stumbled .b } }
    match s.bundleCandidate with
    | some x => .next { s with boot := { s.boot with step := .reading, cand := some x } }
    | none => .next s.noBundle

/-- Tags over the execute-in-place region of a slot, `len` bytes, each in the CANOPY group of its granule; the old groups
return (R251, R264). A job whose key or whose Granary fails it makes none (R330). -/
def State.tagRegion (s : State) (x : Slot) (len : Nat) : State :=
  let s := s.returnGroups 5 0x7F none
  let base := slotBase x + partOff 2
  let s := s.each (if s.tagsReady && s.granReady then List.range (ceilDiv len 65536) else []) fun s i =>
    let a := base + 65536 * i
    match s.takeGroup 5 (pageEntry 5 0x7F false false 0 (a / 65536 % 4096)) with
    | some (g, s) =>
      let s : State := { s with gran := { s.gran with tagDir := Tab.put 0 s.gran.tagDir (tagKey 0xFF a) g } }
      s.granPut (2048 * g) ((List.range (min 256 (ceilDiv len 256 - 256 * i))).flatMap fun j =>
        leBytes (s.gleanTag 0xFF (a + 256 * j) (s.homeGet (a + 256 * j) 256)).toNat 8)
    | none => s
  { s with gran := { s.gran with sets := [], fetch := none, held := [] } }

/-- The parts of a slot go into the Canopy and link memories. -/
def State.loadImages (s : State) (x : Slot) (h : List Byte) : State :=
  let r := s.partBytes x h 0
  ((((s.memZero 1).memZero 2).memZero 3).memPut 1 0 r).memPut 2 0 r |>.memPut 3 0 (s.partBytes x h 1)

/-- The engine that runs a part which R54 or R348 assigns to engine e: the lowest that passed its probe in place of one
that failed (R415). -/
def State.seedEngine (s : State) (e : Nat) : Option Nat :=
  if bitOf s.boot.probes.toNat e then some e else (List.range 4).find? fun i => bitOf s.boot.probes.toNat i
/-- The engines of a bundle pass with their leave and the code of the last operation of each: the parts of a hybrid on K0 and K1,
EC_PUBGEN of KS3 on K3, the signature under KS2 on K2; an engine with several parts runs them one after another under the
largest leave (R54, R310, R348, R415; log 51). -/
def State.seedJobs (s : State) (h : List Byte) : List (Nat × Nat × Nat) :=
  let jobs := (if (hybridParts (cScheme h)).isSome then [(0, 2, 0x11), (1, 3, 0x32)] else []) ++ [(3, 2, 0x1D), (2, 2, 0x15)]
  let on := jobs.filterMap fun j => (s.seedEngine j.1).map fun e => (e, j.2)
  (List.range 4).filterMap fun e =>
    match on.filter fun j => decide (j.1 = e) with
    | [] => none
    | l => some (e, l.foldl (fun n j => max n j.2.1) 0, l.foldl (fun _ j => j.2.2) 0)
/-- The tokens that a pass draws: one of CORE and those of its engines. -/
def State.seedTokens (s : State) (h : List Byte) : Nat := 1 + ((s.seedJobs h).map (·.2.1)).sum
/-- A lane is free for a pass, and so are its engines (R54, R304). -/
def State.seedReady (s : State) (h : List Byte) : Bool :=
  s.canGrant 8 1 && (s.seedJobs h).all (fun j => decide ((s.en j.1).state = .idle) && !(s.en j.1).waiting)
/-- The pass has its tokens: it takes its lane, the engines their leave, which are then busy for the seed core (R54, R394). -/
def State.seedHold (s : State) (h : List Byte) : State :=
  (s.seedJobs h).foldl (fun s j => (s.poolMove 0 7 j.1 j.2.1).enU j.1 fun k => { k with
      state := .busy, owner := 1, op := 0, done := false, lastOp := BitVec.ofNat 6 j.2.2, by_ := 1
      other := if k.by_ = 1 then k.other else (k.result, k.lastOp) })
    (s.poolGrant 8 2 1)
/-- The bundle pass draws one lane, one CORE token and the leave of its engines; none where it has to wait (R54, R394, R395). -/
def State.seedDraw (s : State) (h : List Byte) : Option State :=
  if s.seedReady h then (s.lvTake .bundle (s.seedTokens h)).map fun t => t.seedHold h else none
/-- The pass ends: lane, token and engines return, with their DONE (R305, R394). -/
def State.seedReturn (s : State) (h : List Byte) : State :=
  let s := (s.poolBack 8 2 (s.holds 8 2)).lvBack .bundle 1
  (s.seedJobs h).foldl (fun s j =>
    if (s.en j.1).state = .busy then
      ((s.poolBack 0 j.1 (s.holds 0 j.1)).enU j.1 fun k => { k with state := .idle, done := true, result := 0 }).setLine j.1 true
    else s) s
/-- No engine of the pass was stopped on its way, and at least one passed its probe (R54, R415). -/
def State.seedRan (s : State) (h : List Byte) : Bool :=
  decide (s.boot.probes ≠ 0) && (s.seedJobs h).all fun j => decide ((s.en j.1).state = .busy)

/-- The pass over a candidate with its leave: the seed core keeps header and part digests; images, tags, KS2 and the Alias key,
without an engine no more than KS2 (R52, R110, R264, R348, R415). -/
def State.seedPass (s : State) (x : Slot) (h : List Byte) : State :=
  let s : State := { s with boot := { s.boot with step := .verifying, head := h, digs := s.partDigests x h } }
  let s := (s.loadImages x h).tagRegion x (partLen h 2)
  let on := decide (s.boot.probes ≠ 0)
  let s := s.deriveDeviceId (on && decide (s.boot.dev = .start))
  if on then s.deriveAlias (cDigest h) else s
/-- A request for this use waits. -/
def State.lvWaits (s : State) (u : LvUse) : Bool := s.leave.queue.any fun r => decide (r.use = u)
/-- BUNDLE_CANDIDATE_READ (R52, R110, R264, R348, R395): one pass over the candidate, once it has its leave. -/
def execBundleCandidateRead (s : State) : Host.Outcome State Fault Refusal :=
  match s.boot.step, s.boot.cand with
  | .reading, some x =>
    let h := s.bundleHeader x
    .next (if !s.seedReady h ∨ s.lvWaits .bundle then s
      else match s.seedDraw h with
        | some s => s.seedPass x h
        | none => s.lvAsk .bundle (s.seedTokens h))
  | _, _ => .next s
/-- The leave of a bundle pass has been granted after a wait: n tokens of CORE. -/
def State.seedGranted (s : State) (n : Nat) : State :=
  match s.boot.step, s.boot.cand with
  | .reading, some x =>
    let h := s.bundleHeader x
    if s.seedReady h ∧ n = s.seedTokens h then (s.seedHold h).seedPass x h else s.lvBack .bundle n
  | _, _ => s.lvBack .bundle n

/-- What the rules keep of a verified bundle, from the header that was verified (R110). -/
def bundleFrom (x : Slot) (h : List Byte) : Bundle :=
  { slot := x, version := BitVec.ofNat 32 (bundleVersion h), canopy := BitVec.ofNat 24 (field h 0x24 4),
    link := BitVec.ofNat 24 (field h 0x28 4), digest := cDigest h,
    lens := (List.range 3).map (partLen h), digs := (List.range 3).map (partDigest h) }
/-- Part i of a verified bundle, where its slot still holds it (R31, R110). -/
def State.bundleImage (s : State) (b : Bundle) (i : Nat) : Option (List Byte) :=
  let r := s.homeGet (slotBase b.slot + partOff i) (b.lens.getD i 0)
  if sha384 r = b.digs.getD i [] then some r else none

/-- BUNDLE_SIGNATURE_VERIFIED (R52 to R55, R66, R110, R415): a valid candidate gives the seed verdict GOOD; a bad one zeroes
the loaded memories and the other slot is tried. -/
def execBundleSignatureVerified (s : State) : Host.Outcome State Fault Refusal :=
  match s.boot.step, s.boot.cand with
  | .verifying, some x =>
    let h := s.boot.head
    let good := s.passOk h s.boot.digs
    let ran := s.seedRan h
    let s := s.seedReturn h
    if good && s.bundleOk (otherSlot x) && headsConflict h (s.bundleHeader (otherSlot x)) then .next s.noBundle
    else if good && ran then .next { s with boot := { s.boot with step := .good, bundle := some (bundleFrom x h) } }
    else
      let s := (s.dropAlias).coresOff [(1, 1), (2, 2), (3, 3)]
      let s : State := match x with
        | .a => { s with boot := { s.boot with failedA := true } }
        | .b => { s with boot := { s.boot with failedB := true } }
      match s.bundleCandidate with
      | some y => .next { s with boot := { s.boot with step := .reading, cand := some y } }
      | none => .next s.noBundle
  | _, _ => .next s

/-- The START log record (R388). -/
def State.startBody (s : State) : List Byte :=
  leBytes 4 1 ++ leBytes s.boot.fallback.toNat 1 ++ leBytes 0 2 ++ padTo s.boot.running.digest 48 ++ leBytes 0 12

/-- Shentiha on LEAD opens the next stand of STAND_ORDER; a stand whose gate is closed refuses (R27, R38, R97, R98). -/
def State.openNext (s : State) : State :=
  match s.wake.policy with
  | none => s
  | some p =>
    if s.wake.standNext < 6 ∧ s.leadAgent.isSome then
      let k := (polStandOrder p.bytes).getD s.wake.standNext 0
      let s : State := { s with wake := { s.wake with standNext := s.wake.standNext + 1 } }
      if (s.st k).gate then s.stU k fun t => { t with opened := true, status := 0 } else s.standRefuses k
    else s

/-- The Canopy cores start in one cycle, A with LEAD; SERVICE. After a warm restart the wake is due again for the ports then held
(R27, R57, R65, R348, R391, R415, R422). -/
def State.canopyGo (s : State) (b : Bundle) : State :=
  let again := if s.boot.dev = .ride then allPorts.filter fun p => s.heldNow p && polUsed s.pol p else s.wake.again
  let s := (s.startCore 1 b.canopy).startCore 2 b.canopy
  let s := (s.ksU 2 fun k => k.cleared.withAttr (if k.bad then 0x40000000 else 0)).memZero 0
  let s := s.coU 0 fun k => { k with run := .halted }
  let s : State := { s with
    keys := { s.keys with idLock := true },
    wake := { s.wake with again := again },
    boot := { s.boot with dev := .service, step := .idle, warm := false, entryDone := false, laneSched := s.boot.laneSched || decide (s.boot.dev ≠ .ride), canopyOut := true, lead := .a, leadShadowBad := false, running := b },
    hand := { s.hand with running := b.slot },
    log := { s.log with state := .scanning, reapplied := false } }
  let s := s.each (List.range 8) fun s q => (if (s.mb q).ready then s.boxEmpty q else s).boxReady q
  let s := s.logRec 0x23 s.startBody
  let s := s.each ((List.range 4).filter fun e => !bitOf s.boot.probes.toNat e) fun s e =>
    if s.chanRetired .engine e then s
    else
      let s := (s.chU (chanKey .engine e) fun c => { c with state := .retired, cause := 3 }).enU e fun k =>
        { k with state := .retired }
      s.logRec 0x31 (s.retireBody 0 .engine e 4 0)
  let s : State := { s with boot := { s.boot with seedOut := false } }
  if s.wake.firstDone then s.openNext else s
/-- CANOPY_RELEASE (R57, R394): both cores in one cycle, with a leave token each; a request that has to wait is queued. -/
def execCanopyRelease (s : State) : Host.Outcome State Fault Refusal :=
  match s.boot.step, s.boot.bundle with
  | .good, some b =>
    .next (if s.boot.dev = .sealed ∨ s.lvWaits .canopyB then s
      else match (s.lvTake .canopyA 1).bind fun t => t.lvTake .canopyB 1 with
        | some t => t.canopyGo b
        | none => (s.lvAsk .canopyA 1).lvAsk .canopyB 1)
  | _, _ => .next s
/-- A Canopy token has been granted after a wait: at the release both cores start with the second one, in a handover its core
starts (R57, R394, R420). -/
def State.canopyGranted (s : State) (c : Nat) : State :=
  match s.boot.step, s.boot.bundle with
  | .good, some b => if c = 2 then s.canopyGo b else s
  | _, _ =>
    if s.boot.canopyOut then s.coU c fun k => if k.run = .reset then { k with run := .running } else k
    else s.lvBack .canopyA 1

/-- CANOPY_LEAVE_RETURN (R57, R396): 1 ms after its grant the token of one core returns. -/
def execCanopyLeaveReturn (s : State) : Host.Outcome State Fault Refusal :=
  .next (if 0 < s.holds 0 7 ∧ s.boot.step ≠ .verifying then s.lvBack .canopyA 1 else s)

/-- The link core may be released: SERVICE, its supplies good, held in reset (R56, R59). -/
def State.linkReady (s : State) : Bool := decide (s.boot.dev = .service) && s.boot.sup.sd && s.boot.sup.sda && !s.boot.linkOut
/-- The link core starts at LINK_ENTRY of the running bundle (R56); after a reload the transfers resume (R418, R450). -/
def State.linkGo (s : State) : State :=
  let reload := s.boot.linkReload
  let s := s.startCore 3 s.boot.running.link
  let s := (({ s with boot := { s.boot with linkOut := true, linkReload := false }, hand := { s.hand with linkSlot := s.boot.running.slot } } : State).laneTrain 0).laneTrain 1
  match reload, s.laneUp with
  | true, some l => s.each ((s.link.xfers.filter fun e => e.2.susp).map (·.1)) fun s x => s.resumeXfer x l
  | _, _ => s
/-- The link core's leave token is drawn, or its request waits (R394, R395). -/
def State.linkAsk (s : State) : State :=
  if s.lvWaits .linkCore then s
  else match s.lvTake .linkCore 1 with
    | some s => s.linkGo
    | none => s.lvAsk .linkCore 1
/-- The link core's token has been granted after a wait. -/
def State.linkGranted (s : State) : State := if s.linkReady then s.linkGo else s.lvBack .linkCore 1
/-- LINK_CORE_RELEASE (R56, R59): with the image that the seed core has loaded. -/
def execLinkCoreRelease (s : State) : Host.Outcome State Fault Refusal :=
  .next (if s.linkReady && !s.boot.linkReload then s.linkAsk else s)

end Sys2Proof.Machine
end

