-- ==== Sys2Proof/Machine/Restart.lean ====
section
/-! DEFINITION. Warm restart, its entry stage, and the faults of the cores (02 R61 to R66, 15 R418, R419). -/

namespace Sys2Proof.Machine

open Sys2Proof

/-- The RX pools when the link core stops: what waits for processing is dropped; a lane that is not trained returns
its PEER buffers too (R400, R450). -/
def State.rxDrop (s : State) : State :=
  s.each [0, 1] fun s l =>
    let trained := decide ((s.ln l).st = .up ∨ (s.ln l).st = .secured)
    let s := s.reconcile (10 + l) 1 (if trained then [1] else [0, 1])
    let s : State := { s with link := { s.link with spdmOut := [] } }
    s.lnU l fun k => { k with spdmIn := [], wait := [] }

/-- The fault record of R419: backup-clock time and running slot of the last three; three of one slot within 600 s make it
STUMBLED. -/
def Backup.restartFault (b : Backup) (x : Slot) : Backup :=
  let l := b.restarts ++ [(b.clock.toNat, x)]
  let l := l.drop (l.length - 3)
  let three := decide (l.length = 3) && (l.all fun e => decide (e.2 = x)) && decide (b.clock.toNat ≤ (l.getD 0 (0, x)).1 + 600 * 1024)
  { b with
    restarts := l
    stumbledA := b.stumbledA || (three && decide (x = .a))
    stumbledB := b.stumbledB || (three && decide (x = .b)) }

/-- Half-leaves that wait for a glean slot count UNOBSERVED (R64). -/
def State.gleanDrop (s : State) : State := s.each allPorts fun s p => s.gleanDropOf p

/-- A rebuild under way is discarded and restarts after SERVICE; FLIPPING and BLOCKED are kept (R62, R212). SHEAVES_DONE counts the
current rebuild alone (R210): with none running the model keeps the last rebuild's count, and clears it here with the discarded one
(log 65, DESIGN CHOICE). -/
def State.rebuildDrop (s : State) : State :=
  let r := s.rules
  if r.state = .rebuilding then
    { s with rules := { r with
      state := .idle, restart := true, done := 0, slices := [],
      bank0 := if r.staging then r.bank0 else [], owner0 := if r.staging then r.owner0 else [],
      bank1 := if r.staging then [] else r.bank1, owner1 := if r.staging then [] else r.owner1 } }
  else s

/-- Engines in a warm restart: operations aborted, operand memory zeroed; DONE and RESULT, that of either owner, clear at once on an
idle engine and after its abort on another (R62, R327). -/
def State.enginesStop (s : State) : State :=
  s.each (List.range 4) fun s e =>
    let s := s.abortEngine e
    let s := if (s.en e).state = .idle then s.setLine e false else s
    s.enU e fun k =>
      if k.state = .idle then { k with mem := [], owner := 0, done := false, result := 0, other := (0, k.other.2), waiting := false }
      else { k with waiting := false }

/-- Transfers and flows fail with REASON 0x0001, no frame sent: the link core is in reset (R450). -/
def State.recoveryStop (s : State) : State :=
  let s := s.each (s.link.xfers.map (·.1)) fun s x => s.xferDrop x 1
  s.each (s.link.flows.map (·.1)) fun s p => if (s.fl p).active then s.flowEnd p .failed 1 else s

/-- The CANOPY groups of a GP pool that stays frozen return in a warm restart, to be drawn afresh (R264, R401). -/
def State.canopyBack (s : State) : State :=
  if (s.po 9).st = .frozen then (s.reconcile 9 1 [4]).each (s.groupsOf 5 0x7F none) State.dropGroup else s
/-- What a warm restart does in its first cycle (R62, R64, R98, R400); the held ports are rewaken after it (R65). -/
def State.rideStart (s : State) : State :=
  let again := allPorts.filter fun p => s.heldNow p && polUsed s.pol p
  let s := s.reconcile 0 1 [0, 1, 2, 3, 4, 5, 6, 7, 9]
  let s := s.reconcile 8 1 [0, 1, 2]
  let s := s.canopyBack
  let s := s.reconcile 9 1 [3]
  let s := s.each (List.range 16) fun s q => s.reconcile (16 + q) 1 [0, 1]
  let s := (s.each (List.range 8) fun s q => s.boxDrop q).setLine 5 false
  let s : State := { s with leave := { s.leave with queue := s.leave.queue.filter fun r => match r.use with | .retrain _ => true | _ => false } }
  let s : State := { s with fuses := { s.fuses with grant := none } }
  let s := ((s.fuseStop 0x4501).gleanDrop).rebuildDrop
  let s := (s.enginesStop).recoveryStop
  let s := s.rxDrop
  let s := s.each allPorts fun s p => s.returnGroups 4 p none
  let s := s.coresOff [(0, 0), (1, 1), (2, 2), (3, 3)]
  let s := s.each (List.range 6) fun s k => s.stU k fun t => { t with opened := false }
  let s := s.each allPorts fun s p => s.phU p fun h => { h with handback := false, mode := if h.mode = .master then .isolated else h.mode }
  { s with
    wake := { s.wake with stage := .idle, lanes := [], serving := [], endNext := false, rewake := false, prechecks := [], standNext := 0, again := again, deal := [], svcJobs := [], verify := [] }
    keys := { s.keys with tasks := [], rootJob := none }
    wport := []
    boot := { s.boot with
      dev := .ride, warm := true, entryDone := false, step := .idle, cand := none, seedOut := false, canopyOut := false,
      linkOut := false, linkReload := false, lead := .none, laneSched := false, epoch := BitVec.ofNat 32 (satAdd 32 s.boot.epoch.toNat 1) }
    hand := { s.hand with state := .idle }
    log := { s.log with state := .scanning, reapplied := false }
    gran := { s.gran with sets := [], fetch := none, held := [], tagging := false }
    mspi := { s.mspi with obj := {} } }

/-- A warm restart starts (R61): only out of SERVICE; one that meets a running one is merged; a fault of R418 is
recorded (R419). -/
def State.warmRestart (s : State) (fault : Bool) : State :=
  if s.boot.dev = .ride ∨ s.boot.dev = .headless then
    { s with boot := { s.boot with restartMerged := BitVec.ofNat 8 (satAdd 8 s.boot.restartMerged.toNat 1) } }
  else if s.boot.dev ≠ .service then s
  else
    let s : State := if fault then { s with backup := s.backup.restartFault s.hand.running } else s
    s.rideStart

/-- The link core is reset and its memory zeroed; the third restart within 600 s is a warm restart (R418). -/
def State.linkRestart (s : State) (counted : Bool) : State :=
  let now := s.backup.clock.toNat
  let times := if counted then ((s.hand.linkTimes ++ [now]).filter fun t => decide (now - t ≤ 600 * 1024)) else s.hand.linkTimes
  let s : State := { s with hand := { s.hand with linkTimes := times } }
  if counted && decide (3 ≤ times.length) then ({ s with hand := { s.hand with linkTimes := [] } }).warmRestart true
  else
    let s := (s.coresOff [(3, 3)]).rxDrop
    let s := s.each (s.link.xfers.map (·.1)) fun s x => s.xfU x fun t => { t with susp := true }
    let s : State := { s with boot := { s.boot with linkOut := false, linkReload := true } }
    if s.serviceLane.isSome then s.svcAsk .reload else s

/-- CANOPY_WATCHDOG_EXPIRY (R61, R418). -/
def execCanopyWatchdogExpiry (s : State) : Host.Outcome State Fault Refusal :=
  .next (if s.boot.canopyOut || decide (s.boot.dev = .ride) || decide (s.boot.dev = .headless) then s.warmRestart true else s)

/-- The self-test of a stand whose gate a fault has closed: comparators, shadows, census (R38). -/
def State.standTest (s : State) (k : Nat) (comparators : Bool) : Bool :=
  let t := s.st k
  comparators && (t.gate != t.gateN) && (t.fire != t.fireN)
    && ((standPorts k).all fun p => (s.ph p).hold != (s.ph p).holdN)
    && decide (((s.po (1 + k)).holding.map (·.2)).sum ≤ (s.po (1 + k)).total)

/-- WARM_RESTART_ENTRY_DONE (R38, R63): the entry stage ends; the gate of a faulted stand reopens if its self-test
passed. -/
def execWarmRestartEntryDone (comparators : BitVec 6) (s : State) : Host.Outcome State Fault Refusal :=
  if s.boot.dev ≠ .ride ∨ s.boot.entryDone then .next s
  else
    let s := s.each (List.range 6) fun s k =>
      if (s.st k).gate || s.chanRetired .stand k then s
      else if s.standTest k (comparators.getLsbD k) then
        (s.poU (1 + k) fun p => { p with held := p.holding, free := p.total - (p.holding.map (·.2)).sum, st := .ok }).stU k
          fun t => { t with gate := true, gateN := false, fire := true, fireN := false }
      else s.standFault k
    .next { s with boot := { s.boot with entryDone := true } }

/-- LINK_CORE_RELOADED (R31, R56, R394, R418): LEAD has reloaded the restarted link core from the running bundle and checked
PART 1 on the service lane; one that differs leaves the core in reset with its memory zeroed. -/
def execLinkCoreReloaded (s : State) : Host.Outcome State Fault Refusal :=
  if s.linkReady && s.leads && s.boot.linkReload && !s.wake.svcJobs.contains .reload then
    match s.bundleImage s.boot.running 1 with
    | none => .next (s.memZero 3)
    | some part =>
      .next (s.memPut 3 0 part).linkAsk
  else .next s

/-- RUNTIME_LANE_SCHEDULE_RELOAD (R63, R227, R425): the runtime lane schedule is back; with a port in the glade it draws
its lanes and its leave. -/
def execRuntimeLaneScheduleReload (s : State) : Host.Outcome State Fault Refusal :=
  if s.boot.dev = .service && s.leads && !s.boot.laneSched then
    .next ({ s with boot := { s.boot with laneSched := true } }).runtimeDraw
  else .next s

end Sys2Proof.Machine
end

