-- ==== Sys2Proof/Machine/Policy.lean ====
section
/-! DEFINITION. Acceptance of a policy and the loading of schedule containers (02 R58, 04 R125 to R127). -/

namespace Sys2Proof.Machine

open Sys2Proof

/-- The container that starts at a home-flash address, as long as its header states. -/
def State.homeContainer (s : State) (a limit : Nat) : List Byte :=
  let h := s.homeGet a 0x20
  s.homeGet a (min limit (0x20 + cBody h + cSigLen h))

/-- The signer of a signed container matches a KD slot: named by SIGNER_KD, inside the mask, programmed, holding the
key block's digest (R112). -/
def signerMatch (t : Tab Bool) (mask : Nat) (c : List Byte) : Bool :=
  decide (cSigner c < 16) && bitOf mask (cSigner c) && kdLock t (cSigner c)
    && decide (keyDigest (cSigBlock c) = kdDigest t (cSigner c))

/-- The verdict unit's checks of a policy, but for its signature (R17, R107, R111, R112, R125, R398). -/
def State.policyOk (s : State) (c : List Byte) : Bool :=
  let b := cSigBlock c
  policyFormOk c && policyOrdersOk c && policyPoolsOk c && sbFormOk b (cSigLen c)
    && decide (mcCount s.fuses.latched 2 ≤ polEpoch c) && keyBlockOk (cScheme c) b
    && signerMatch s.fuses.latched 0xFFF0 c && !kdRevoke s.fuses.latched (cSigner c)

/-- The POLICY log body (R388). -/
def policyBody (c : List Byte) : List Byte := leBytes (polEpoch c) 4 ++ leBytes 0 12 ++ padTo (cDigest c) 48

/-- A policy is accepted: the stand pools take their new totals when they stand empty (R398), the change is logged.
Where it names another WAKE_DIGEST the spec does not say when that wake schedule is loaded: the model keeps the one loaded, and the
next load of the containers takes the new one (R101; log 67, DESIGN CHOICE). -/
def State.takePolicy (s : State) (c : List Byte) : State :=
  let p : Policy := { bytes := c, digest := cDigest c, signer := BitVec.ofNat 4 (cSigner c) }
  let s : State := { s with wake := { s.wake with policy := some p, shelf := { s.wake.shelf with stale := true } } }
  let s := s.each (List.range 6) fun s k => s.poU (1 + k) fun q => { q with newTot := some (polPool c k) }
  s.logRec 0x24 (policyBody c)

/-- A wake schedule container is accepted under a policy (R17, R126, R235, R528, R529). -/
def wakeSchedOk (w pol : List Byte) : Bool :=
  wakeFormOk w && slotTableOk (sectionOf w 0x102) && decide (cDigest w = polWakeDigest pol)
    && (List.range 96).all fun p =>
      entryRecOk (sub (sectionOf w 0x103) (256 * p) 256) p (polUsed pol p)
        && handRecOk (sub (sectionOf w 0x104) (256 * p) 256) p (polUsed pol p)

/-- The wake schedule is read from its home-flash area (R126; log 21). -/
def State.loadWakeSched (s : State) : State :=
  let w := s.homeContainer 0x02020000 0x100000
  { s with wake := { s.wake with sched := w, schedOk := wakeSchedOk w s.pol } }

/-- The policy of the home flash. -/
def State.homePolicy (s : State) : List Byte := s.homeContainer 0x02010000 0x10000
/-- No policy is accepted: the sheaves whose load waits for one stay in reset (R58). -/
def State.noPolicy (s : State) : State :=
  s.each (List.range 12) fun s k => if (s.sh k).released then s else s.shU k fun h => { h with matched := false, refused := true }
/-- The signature of a policy has been verified: the policy is taken while it still stands in the home flash (R125). -/
def State.policyVerified (s : State) (j : ChainJob) (ok : Bool) : State :=
  let c := s.homePolicy
  if ok && decide (jobOf .policy c = j) then
    let s := s.takePolicy c
    if s.wake.schedOk then s else s.loadWakeSched
  else s.noPolicy
/-- The policy and the wake schedule are read once they are first needed; the policy's signature goes to an engine (R125, R394;
log 21). -/
def State.readPolicy (s : State) : State :=
  if s.wake.policy.isSome then (if s.wake.schedOk then s else s.loadWakeSched)
  else if s.verUnder .policy then s
  else if s.policyOk s.homePolicy then
    let j := jobOf .policy s.homePolicy
    s.verify j fun ok s => s.policyVerified j ok
  else s

/-- The edge machine's values of a PORT_PARAMS record (R527). -/
def paramsOf (r : List Byte) : PortParams :=
  { mode3 := decide (byteAt r 1 = 3), cLanes := (byteAt r 2).toNat, contUse := decide (byteAt r 3 = 1), fMax := field r 4 4,
    stall := (byteAt r 8).toNat, stallRank := (byteAt r 9).toNat, breachRank := (byteAt r 10).toNat,
    contMask := byteAt r 11, contValue := byteAt r 12 }

/-- A port's slices of a sheaf container. -/
def sliceCoarse (c : List Byte) (t : Nat) : List Byte := sub (sectionOf c 3) (2048 * t) 2048
/-- Contexts. -/
def sliceCtx (c : List Byte) (t : Nat) : List Byte := sub (sectionOf c 5) (16384 * t) 16384
/-- Tries. -/
def sliceTries (c : List Byte) (t : Nat) : List Byte := sub (sectionOf c 2) (8192 * t) 8192
/-- Parameters. -/
def sliceParams (c : List Byte) (t : Nat) : List Byte := sub (sectionOf c 7) (32 * t) 32

/-- A flaw of a port's slices. -/
def Flaw.ofPort (p : Nat) : Flaw → Bool
  | .coarse q _ | .context q _ | .trie q _ => decide (q = p)
  | _ => false
/-- A flaw of an entry of a rule bank. -/
def Flaw.inRules (bank : Bool) (is_ : Nat → Bool) : Flaw → Bool
  | .rule b i => b == bank && is_ i
  | _ => false
/-- A port takes its slices (R58, R205). -/
def State.takeSlices (s : State) (p : Nat) (c : List Byte) : State :=
  let t := p % 8
  let s := (s.mend (Flaw.ofPort p)).pwU p fun w => { w with
    coarse := sliceCoarse c t, ctx := sliceCtx c t, tries := sliceTries c t, params := sliceParams c t, voidPins := [] }
  s.peU p fun e => { e with params := paramsOf (sliceParams c t) }

/-- Write a sheaf's RULES with a build into a bank; owners name the sheaf (R202, R205). -/
def State.writeRules (s : State) (k : Nat) (bank : Bool) (build : Nat) (recs : List (Nat × W128)) : State :=
  let r := s.rules
  let own : Tab Nat := if bank then r.owner1 else r.owner0
  let old : List Nat := (own.filter fun e => decide (e.2 = k + 1)).map (·.1)
  let tab : Tab W128 := (if bank then r.bank1 else r.bank0).filter fun e => !old.contains e.1
  let own : Tab Nat := own.filter fun e => decide (e.2 ≠ k + 1)
  let tab := recs.foldl (fun t e => Tab.put 0 t e.1 ((e.2 &&& ~~~ (BitVec.ofNat 128 (0xFFFF * 2 ^ 48))) ||| BitVec.ofNat 128 (build % 65536 * 2 ^ 48))) tab
  let own := recs.foldl (fun t e => Tab.put 0 t e.1 (k + 1)) own
  let s := s.mend (Flaw.inRules bank fun i => recs.any fun e => decide (e.1 = i))
  { s with rules := if bank then { r with bank1 := tab, owner1 := own } else { r with bank0 := tab, owner0 := own } }

/-- A RULES index of a container is another sheaf's in a bank (R127). -/
def State.rulesCollide (s : State) (k : Nat) (bank : Bool) (recs : List (Nat × W128)) : Bool :=
  let own : Tab Nat := if bank then s.rules.owner1 else s.rules.owner0
  recs.any fun e => decide (Tab.get 0 own e.1 ≠ 0 ∧ Tab.get 0 own e.1 ≠ k + 1)

/-- Home-flash address of the schedule container of sheaf k. -/
def schedBase (k : Nat) : Nat := 0x02120000 + 0x100000 * k

/-- Build of a port's active generation (R209). -/
def PWin.build (w : PWin) : Nat := (if w.gen then w.build1 else w.build0).toNat

/-- The threads of a released sequencer start at their vectors (R56). -/
def State.startThreads (s : State) (k : Nat) (threads : List Byte) : State :=
  s.each (List.range 8) fun s t => s.startCore (8 + 8 * k + t) (BitVec.ofNat 24 (field threads (4 * t) 3))

/-- The sequencer of a matching container is loaded and released; a retired one stays stopped (R56, R58, R176, R205). -/
def State.loadSequencer (s : State) (k : Nat) (c : List Byte) : State :=
  let thr := sectionOf c 1
  let s := ((s.memZero (8 + k)).memPut (8 + k) 0 (thr.drop 32)).memPut (8 + k) 0x30000 (sectionOf c 2)
  if s.chanRetired .sequencer k then s.shU k fun h => { h with threads := thr }
  else
    let s := s.shU k fun _ => { matched := true, released := true, threads := thr }
    let s := s.each (sheafPorts k) fun s p => s.pdU p fun d => { d with decs := [], lookups := [], cache := [] }
    s.startThreads k thr

/-- A matching container is loaded into the active generation and its sequencer is released (R58, R205). -/
def State.takeSheaf (s : State) (k : Nat) (c : List Byte) : State :=
  let w := s.pw (8 * k)
  let build := if w.build = 0 then 1 else w.build
  let s := s.writeRules k w.gen build (ruleRecords (sectionOf c 4))
  let s : State := { s with rules := { s.rules with stBuild := if s.rules.stBuild = 0 then 1 else s.rules.stBuild } }
  let s := s.each (sheafPorts k) fun s p =>
    (s.takeSlices p c).pwU p fun w => { w with
      coarseOnly := false, deferred := false, build0 := if w.gen then w.build0 else BitVec.ofNat 16 build,
      build1 := if w.gen then BitVec.ofNat 16 build else w.build1 }
  s.loadSequencer k c

/-- SCHEDULE_CONTAINER_LOAD (R27, R58, R127, R414): by the core with LEAD, while SQk is in reset, once the standing retirements
act; it waits while the policy is being verified. -/
def execScheduleContainerLoad (k : SheafId) (s : State) : Host.Outcome State Fault Refusal :=
  if s.boot.dev ≠ .service ∨ !s.leads ∨ (s.sh k.val).released ∨ s.chanRetired .sequencer k.val ∨ !s.standingDone then .next s
  else
    let s := s.readPolicy
    let c := s.homeContainer (schedBase k.val) 0x100000
    let recs := ruleRecords (sectionOf c 4)
    if s.wake.policy.isNone && s.verUnder .policy then .next s
    else if s.wake.policy.isSome && sheafFormOk c k.val && decide (cDigest c = polSheafDigest s.pol k.val)
        && !s.rulesCollide k.val (s.pw (8 * k.val)).gen recs then
      .next (s.takeSheaf k.val c)
    else .next (s.shU k.val fun h => { h with matched := false, refused := true })

end Sys2Proof.Machine
end

