-- ==== Sys2Proof/Machine/Wake.lean ====
section
/-! DEFINITION. The shelf wake up to the verdict stage (03 R67 to R85, R101, R102, R232; 08 R259, R262). -/

namespace Sys2Proof.Machine

open Sys2Proof

/-! ### Start (R67, R101) -/

/-- Loading under R58 has ended for every sheaf. -/
def State.loadsEnded (s : State) : Bool :=
  (List.range 12).all fun k => (s.sh k).released || (s.sh k).refused || s.chanRetired .sequencer k

/-- Some port of the policy is in SHELF mode. -/
def State.anyShelf (s : State) : Bool := allPorts.any fun p => polUsed s.pol p && polShelf s.pol p

/-- The conditions of R67 but for the leave, with the standing retirements applied (R414) and TL able to grant (R399). -/
def State.wakeReady (s : State) : Bool :=
  decide (s.boot.dev = .service) && decide (s.wake.stage = .idle) && s.wake.policy.isSome && s.loadsEnded && s.wake.schedOk
    && (!s.anyShelf || (s.wake.shelf.decided && !s.wake.shelf.stale)) && s.keys.kSlot && s.standingDone
    && decide ((s.po 8).st = .ok)

/-- LANE_LEAVE of the loaded wake schedule (R126). -/
def State.laneLeave' (s : State) : Nat := field (sectionOf s.wake.sched 0x101) 0 4
/-- ROUNDS of the loaded wake schedule (R236). -/
def State.wakeRounds (s : State) : Nat := field (sectionOf s.wake.sched 0x101) 4 4

/-- A port can take part: released sequencer, good bank, host and flash side in service, or a staged serve set (R36, R59,
R67, R261, R262; log 24). -/
def State.canWake (s : State) (p : Nat) : Bool :=
  (s.sh (sheafOf p)).released && s.heldNow p && s.bankUp p && !s.chanRetired .port p
    && (!(s.pg p).flashRetired || decide ((s.pg p).setState = .staged ∨ (s.pg p).setState = .verified))

/-- The lanes a wake maps onto: up to 20 of the lowest that are neither retired nor runtime lanes (R232). -/
def State.wakeLanes (s : State) : List Nat :=
  let run := s.runtimeLanes
  (s.lanesLeft.filter fun l => !run.contains l).take 20

/-- The engines that serve a wake (R83): with four in service the three lowest, else all that are left. -/
def State.servingEngines (s : State) : List Nat :=
  let l := (List.range 4).filter fun e => decide ((s.en e).state ≠ .retired)
  if l.length = 4 then l.take 3 else l

/-- The port wakes from its staged serve set instead of its flash (R262). -/
def State.granaryWake (s : State) (p : Nat) : Bool :=
  (s.pg p).flashRetired && decide ((s.pg p).setState = .staged ∨ (s.pg p).setState = .verified)
/-- What a wake does to every held port it names, whether or not the port can take part: the token is void, tags, pins and,
unless the wake reads it, the serve set go back; the verdict is PENDING until the port is decided, and the last record
stays until it is rewritten (R67, R70, R93, R95, R101, R262). -/
def State.portReset (s : State) (p : Nat) : State :=
  let s := (s.returnGroups 1 p none).returnGroups 2 p none
  let s := if s.granaryWake p then s
    else (s.returnGroups 3 p none).pgU p fun g => { g with setState := if g.setState = .staging then .staging else .none }
  let s := s.pgU p fun g => { g with tagsVoid := false }
  let s := s.phU p fun h => { h with token := none, handback := false, mode := .isolated }
  let s := s.pwU p fun w => { w with voidPins := [] }
  s.pvU p fun v => { noticed := v.noticed, meas := v.meas, wEpoch := s.boot.epoch, floor := BitVec.ofNat 32 (polFloor s.pol p), mode := polShelf s.pol p }
/-- A port takes part: a used and powered one enters MASTER, where the continuous-read exit comes first (R70, R131,
R157). -/
def State.portWake (s : State) (p : Nat) : State :=
  let gran := s.granaryWake p
  let on := (s.ph p).pg
  let s := if polUsed s.pol p && on && !gran then (s.phU p fun h => { h with mode := .master }).contExit p else s
  s.pkU p fun _ => { part := true, pgLow := !on, granary := gran }

/-- A port takes part in PORT mode with a manifest read from its carrier. -/
def State.portMode (s : State) (p : Nat) : Bool :=
  (s.pk p).part && polUsed s.pol p && !polShelf s.pol p && !(s.pk p).pgLow

/-- The wake starts with its leave granted: banks that are not good are treated under R36, then lanes, engines, ports; the
verifications are dealt (R59, R67, R72, R83). A ZEROIZE or SEAL response to such a bank takes the wake's conditions away, and
its leave returns. -/
def State.wakeGo (s : State) (ports : List Nat) : State :=
  let s := s.each (List.finRange 12) fun s k => if s.bankUp (8 * k.val) then s else s.bankFails (.io k)
  let lanes := s.wakeLanes
  if !s.wakeReady || !s.canGrant 8 lanes.length then s.lvBack .wake (s.holds 0 4)
  else
  let s := s.poolGrant 8 0 lanes.length
  let s : State := { s with wport := [] }
  let s := s.each (ports.filter s.heldNow) fun s p => let s := s.portReset p; if s.canWake p then s.portWake p else s
  { s with wake := { s.wake with
    stage := .entry, round := 0, again := s.wake.again.filter fun p => !ports.contains p, endNext := false, lanes := lanes,
    serving := s.servingEngines, dealt := s.servingEngines, deal := allPorts.filter s.portMode } }

/-- The ports a waiting wake or rewake names. -/
def State.wakeAsked (s : State) : List Nat := allPorts.filter fun p => (s.pk p).part

/-- A wake or rewake is asked for: it starts at once when the arbiter grants its leave, else when it does (R67, R395). -/
def State.wakeAsk (s : State) (rewake : Bool) (ports : List Nat) : State :=
  let n := s.laneLeave'
  let s : State := { s with wake := { s.wake with rewake := rewake } }
  if s.canGrant 0 n && !s.leave.queue.any (fun r => r.use.urgent) then (s.poolGrant 0 4 n).wakeGo ports
  else
    let s : State := { s with wport := [] }
    let s := s.each ports fun s p => s.pkU p fun w => { w with part := true }
    s.lvAsk .wake n

/-- The wake's leave has been granted after a wait. -/
def State.wakeGranted (s : State) : State :=
  if s.wakeReady then s.wakeGo s.wakeAsked else s.lvBack .wake (s.holds 0 4)

/-- The ports of the next wake that Shentiha starts by itself: all of them after a cold start, later those to be rewoken
(R65, R67, R76). -/
def State.autoPorts (s : State) : List Nat := if s.wake.firstDone then s.wake.again.filter s.heldNow else allPorts
/-- WAKE_AUTO_START (R65, R67, R76, R83): the first wake after a cold start, the rewake of the held ports after a warm
restart, and the rewake of incomplete ports. -/
def execWakeAutoStart (s : State) : Host.Outcome State Fault Refusal :=
  if s.wakeReady && s.leads && decide (s.autoPorts ≠ []) && !s.leave.queue.any (fun r => decide (r.use = .wake)) && s.wakeLanes ≠ [] then
    .next (s.wakeAsk s.wake.firstDone s.autoPorts)
  else .next s

/-! ### Entry (R70, R72, R230, R231, R528) -/

/-- The wake's lanes after a change of what is retired or runtime: the pool follows the map (R232). -/
def State.wakeRemap (s : State) : State :=
  if s.wake.stage = .idle then s else
  let old := s.wake.lanes
  let keep := old.filter fun l => !s.chanRetired .lane l
  let want := (s.runtimeFive.filter fun l => s.boot.laneSched && (allPorts.any fun p => s.inGlade p) && keep.contains l)
  let base := keep.filter fun l => !want.contains l
  let s := if want = [] then s else s.poolBack 8 0 want.length
  let s : State := { s with wake := { s.wake with lanes := base } }
  let s := s.runtimeDraw
  let more := (s.wakeLanes.filter fun l => !base.contains l).take (20 - base.length)
  if s.canGrant 8 more.length then
    { s.poolGrant 8 0 more.length with wake := { s.wake with lanes := (List.range 24).filter fun l => base.contains l || more.contains l } }
  else s

/-- A port that reads its flash cannot send MASTER frames: its flash side probes, or its bank is down (R406, R500). -/
def State.masterBarred (s : State) (p : Nat) : Bool :=
  !(s.pk p).granary && (!s.bankUp p || decide ((s.ch (chanKey .flash p)).state ≠ .inService))
/-- WAKE_ENTRY_END (R70, R72, R135, R231, R528): every port that reads its flash has sent its entry sequence and `ids` and
`replies` are what it read; a port whose identification or set-up compare fails ends as NO_FLASH. -/
def execWakeEntryEnd (ids : List (PortId × List Byte)) (replies : List (PortId × List (List (List Byte))))
    (badLanes : List LaneId) (s : State) : Host.Outcome State Fault Refusal :=
  if s.wake.stage ≠ .entry then .next s
  else
    let s := s.each (badLanes.map (·.val)) fun s l => if s.wake.lanes.contains l then s.entryTestFailed l else s
    let s := s.wakeRemap
    if s.wake.stage ≠ .entry then .next s else
    let s := s.each allPorts fun s p =>
      let w := s.pk p
      if !w.part || !polUsed s.pol p || w.pgLow || w.pgFell || w.aborted || w.granary then s
      else if s.masterBarred p then s.pkU p fun w => { w with incomplete := true }
      else
        let id := ((ids.find? fun e => decide (e.1.val = p)).map (·.2)).getD []
        let got := ((replies.find? fun e => decide (e.1.val = p)).map (·.2)).getD []
        let s := s.sendMaster p (s.entryFrames p)
        if s.entryOk p id got then s else s.pkU p fun w => { w with idBad := true }
    .next { s with wake := { s.wake with stage := .round, round := 0 } }

/-! ### Rounds and lane jobs (R71, R73, R76 to R78, R259, R262) -/

/-- The regions of a read plan in order, each with its slot: none for the manifest. -/
def planRegions (c : List Byte) (p : Nat) : List (Option Slot × Nat × Nat) :=
  [(none, (polRegion c p 0).1, (polRegion c p 0).2), (some .a, (polRegion c p 1).1, (polRegion c p 1).2),
   (some .b, (polRegion c p 2).1, (polRegion c p 2).2)]
/-- Burst b of a plan: region, flash address, burst number inside the region. -/
def planBurst : List (Option Slot × Nat × Nat) → Nat → Option (Option Slot × Nat × Nat)
  | [], _ => none
  | (x, a, n) :: r, b => if b < n then some (x, a + 65536 * b, b) else planBurst r (b - n)

/-- Key of the serve set's 2 KiB block of a flash address in the serve directory. -/
def setKey (p a : Nat) : Nat := 2 ^ 25 + p * 2 ^ 17 + a / 2048 % 2 ^ 17
/-- Key of a pinned 2 KiB host block of a slot in the serve directory. -/
def pinKey (p : Nat) (x : Slot) (a : Nat) : Nat := (p * 2 + (decide (x = .b)).toNat) * 2 ^ 17 + a / 2048 % 2 ^ 17

/-- The serve set covers a flash address: the manifest, bytes 0 to LENGTH − 1 of its slot region, the region's last 64
bytes (R262). -/
def State.setRange (s : State) (p a : Nat) : Bool :=
  let g := s.pg p
  let m := (polRegion s.pol p 0).1
  let r := polRegion s.pol p (match g.setSlot with | .a => 1 | .b => 2)
  let top := r.1 + 65536 * r.2
  decide (m ≤ a ∧ a < m + g.setMan) || decide (r.1 ≤ a ∧ a < r.1 + g.setLen) || decide (top ≤ a + 64 ∧ a < top)
/-- The port's serve set covers an address and holds its block (R262, R263). -/
def State.setCovers (s : State) (p a : Nat) : Bool := s.setRange p a && decide (Tab.get 0 s.gran.srvDir (setKey p a) ≠ 0)
/-- A byte of a port's serve set by flash address; what the set does not cover reads 0xFF (R262). -/
def State.setByte (s : State) (p a : Nat) : Byte :=
  if s.setCovers p a then s.granByte (2048 * Tab.get 0 s.gran.srvDir (setKey p a) + a % 2048) else 0xFF
/-- A burst of the serve set at address a meets a BAD page, whose words are never ready, or the Granary cannot be read (R241,
R249, R257). -/
def State.setBad (s : State) (p a : Nat) : Bool :=
  !s.granReady || (List.range 256).any fun i =>
    let x := a + 256 * i
    let g := Tab.get 0 s.gran.srvDir (setKey p x)
    s.setCovers p x && decide (pageUse (s.page (8 * g + x / 256 % 8)) = 7)

/-- Groups of TAG that a port holds. -/
def State.tagGroups (s : State) (p : Nat) : Nat := (s.pk p).groups

/-- The slot whose region holds a flash address; A where neither does. -/
def slotOfAddr (c : List Byte) (p a : Nat) : Bool :=
  decide ((polRegion c p 2).1 ≤ a ∧ a < (polRegion c p 2).1 + 65536 * (polRegion c p 2).2)

/-- The group for the tags of a granule, drawn inside the TAG_PAGES allotment (R77, R78). -/
def State.tagGroup (s : State) (p a : Nat) : Option (Nat × State) :=
  let g := Tab.get 0 s.gran.tagDir (tagKey p a)
  if g ≠ 0 then some (g, s)
  else if polTagPages s.pol p < 8 * (s.tagGroups p + 1) then none
  else match s.takeGroup 1 (pageEntry 1 p (slotOfAddr s.pol p a) false 0 (a / 65536 % 4096)) with
    | some (g, s) =>
      let s := s.pkU p fun w => { w with groups := w.groups + 1 }
      some (g, { s with gran := { s.gran with tagDir := Tab.put 0 s.gran.tagDir (tagKey p a) g } })
    | none => none

/-- The 16 tags of a 4 KiB chunk at flash address a; a job whose key or whose Granary fails it makes none (R77, R250, R251,
R330). -/
def State.chunkTags (s : State) (p a : Nat) (bs : List Byte) : State :=
  if !s.tagsReady || !s.granReady then s
  else s.each (List.range 16) fun s i =>
    let x := a + 256 * i
    if !inGleanRange s.pol p x then s
    else match s.tagGroup p x with
      | some (g, s) => s.granPut (2048 * g + 8 * (x / 256 % 256)) (leBytes (s.gleanTag p x (sub bs (256 * i) 256)).toNat 8)
      | none => s

/-- Pin contexts of a port: index, host start, length, source in slot A and in slot B (R259). -/
def State.pins (s : State) (p : Nat) : List (Nat × Nat × Nat × Nat × Nat) :=
  ((List.range 127).map (· + 1)).filterMap fun i =>
    if s.ctxKind p i = 3 then
      let c := s.context p i
      some (i, field c 4 4, field c 8 4, field c 0x0C 4, field c 0x10 4)
    else none

/-- The PIN group of a host block of a slot. -/
def State.pinGroup (s : State) (p : Nat) (x : Slot) (a : Nat) : Option (Nat × State) :=
  let g := Tab.get 0 s.gran.srvDir (pinKey p x a)
  if g ≠ 0 then some (g, s)
  else match s.takeGroup 2 (pageEntry 2 p (decide (x = .b)) false 0 (a / 2048)) with
    | some (g, s) => some (g, { s with gran := { s.gran with srvDir := Tab.put 0 s.gran.srvDir (pinKey p x a) g } })
    | none => none

/-- The bytes of a chunk that lie in pinned sources go to their PIN groups (R259). -/
def State.chunkPins (s : State) (p : Nat) (x : Slot) (a : Nat) (bs : List Byte) : State :=
  if !s.granReady then s
  else s.each (s.pins p) fun s c =>
    let host := c.2.1
    let len := c.2.2.1
    let src := match x with | .a => c.2.2.2.1 | .b => c.2.2.2.2
    s.each (List.range (bs.length / 256)) fun s j =>
      let f := a + 256 * j
      s.each (List.range 256) fun s i =>
        if src ≤ f + i ∧ f + i < src + len then
          let h := host + (f + i - src)
          match s.pinGroup p x h with
          | some (g, s) => s.granPut (2048 * g + h % 2048) [byteAt bs (256 * j + i)]
          | none => s
        else s

/-- The wake is over for a ZEROIZE: its ports stand PENDING with reason NONE, what tags and pins they drew goes back (R79,
R87, R102). -/
def State.wakeCut (s : State) : State :=
  let s := s.each allPorts fun s p => s.wakeOut p false
  ({ s with wport := [] }).wakeRelease

/-- The bytes a port takes in a round: its flash's, or its staged set's, of which a burst with a BAD page cannot be read (R71,
R249, R262). -/
def State.roundBytes (s : State) (p b : Nat) (got : List Byte) : List Byte :=
  match planBurst (planRegions s.pol p) b with
  | none => []
  | some (_, a, _) =>
    if !(s.pk p).granary then padTo got 65536
    else if s.setBad p a then []
    else (List.range 65536).map fun i => s.setByte p (a + i)

/-- The data captured in a port's burst fails its Gnoby check: nothing of it is used, the wake leaves the port incomplete
(R76, R382, R406). -/
def State.captureBad (s : State) (p : Nat) : State :=
  let s := s.pkU p fun w => { w with staging := [], incomplete := true }
  (s.chanError .flash p 1).gnoby 1 p

/-- WAKE_ROUND (R71): every participating port reads one burst; the sequence stops at the signature window after round 0
and at the drain after the last round. -/
def execWakeRound (bursts : List (PortId × List Byte)) (failed : List PortId) (s : State) : Host.Outcome State Fault Refusal :=
  if s.wake.stage ≠ .round then .next s
  else if s.wake.endNext then .next s.wakeCut
  else
    let b := s.wake.round
    let s := s.each allPorts fun s p =>
      let w := s.pk p
      if !w.part || w.pgLow || w.pgFell || w.aborted || polBursts s.pol p ≤ b then s.pkU p fun w => { w with staging := [] }
      else if s.masterBarred p then s.pkU p fun w => { w with staging := [], incomplete := true }
      else
        let got := ((bursts.find? fun e => decide (e.1.val = p)).map (·.2)).getD []
        let bs := s.roundBytes p b got
        let s := match planBurst (planRegions s.pol p) b with
          | some (_, a, _) => if w.granary then s else s.sendMaster p [s.burstFrame p a]
          | none => s
        s.pkU p fun w => { w with incomplete := w.incomplete || decide (bs = []), staging := bs, manifest := if b = 0 && !polShelf s.pol p then bs else w.manifest }
    let n := b + 1
    let s : State := { s with wake := { s.wake with round := n, stage := if n = 1 then .window else if s.wakeRounds ≤ n then .drain else .round } }
    .next (s.each (failed.map (·.val)) fun s p => if (s.pk p).staging = [] || (s.pk p).granary then s else s.captureBad p)

/-- SIGNATURE_WINDOW_END (R72). -/
def execSignatureWindowEnd (s : State) : Host.Outcome State Fault Refusal :=
  if s.wake.stage ≠ .window then .next s
  else .next { s with wake := { s.wake with stage := if s.wakeRounds ≤ 1 then .drain else .round } }

/-- WAKE_LANE_JOB (R32, R73, R76, R77, R259): the digest job or the tag job of a chunk of the port's last burst ends on the
lane that the schedule gives it, and on no other. -/
def execWakeLaneJob (p : PortId) (chunk : Fin 16) (tags : Bool) (lane : LaneId) (check : HopCheck) (s : State) : Host.Outcome State Fault Refusal :=
  let w := s.pk p.val
  if (s.wake.stage ≠ .round ∧ s.wake.stage ≠ .window ∧ s.wake.stage ≠ .drain) ∨ !w.part ∨ w.staging = []
      ∨ s.jobLane p.val (s.wake.round - 1) chunk.val tags ≠ some lane.val
      ∨ (s.ch (chanKey .lane lane.val)).state ≠ .inService then .next s
  else if check ≠ .ok then .next ((s.laneFailed lane.val).hopError check lane.val p.val)
  else match planBurst (planRegions s.pol p.val) (s.wake.round - 1) with
    | none => .next s
    | some (x, a, n) =>
      let bs := sub w.staging (4096 * chunk.val) 4096
      let addr := a + 4096 * chunk.val
      if tags then .next ((s.chunkTags p.val addr bs).pkU p.val fun w => { w with tagJobs := w.tagJobs + 1 })
      else match x with
        | none => .next s
        | some x =>
          let s := s.chunkPins p.val x addr bs
          let key := 16 * n + chunk.val
          .next (s.pkU p.val fun w => match x with
            | .a => { w with slotA := Tab.put [] w.slotA key bs }
            | .b => { w with slotB := Tab.put [] w.slotB key bs })

/-- WAKE_FRAME_BOUNDARY (R232): retired lanes leave the map, a runtime lane is taken from it. -/
def execWakeFrameBoundary (s : State) : Host.Outcome State Fault Refusal :=
  if s.wake.stage ≠ .round ∧ s.wake.stage ≠ .drain then .next s else .next s.wakeRemap

/-! ### Manifests and their verification (R80 to R84) -/

/-- The shelf manifest is decided: its signature verifies or does not (R84). -/
def State.shelfVerified (s : State) (ok : Bool) : State :=
  let m := s.wake.shelf.bytes
  { s with wake := { s.wake with shelf := { s.wake.shelf with
    decided := true, rejected := !ok, revoked := ok && kdRevoke s.fuses.latched (cSigner m) } } }
/-- SHELF_MANIFEST_DECIDE (R81, R84, R121, R319): before a wake the verdict unit reads the shelf manifest at home-flash address
0x0200_0000; one that passes its other checks has its signature verified on an engine before it is decided. -/
def execShelfManifestDecide (s : State) : Host.Outcome State Fault Refusal :=
  if s.boot.dev ≠ .service ∨ s.wake.policy.isNone ∨ s.wake.stage ≠ .idle ∨ s.verUnder .shelf then .next s
  else
    let m := s.homeContainer 0x02000000 0x10000
    let b := cSigBlock m
    let matched := signerMatch s.fuses.latched 0xFFF0 m
    let good := shelfFormOk m s.pol && decide (mcCount s.fuses.latched 0 ≤ field m 0x20 4) && keyBlockOk (cScheme m) b && matched
    let s : State := { s with wake := { s.wake with shelf :=
      { rollback := BitVec.ofNat 32 (field m 0x20 4), signer := if matched then BitVec.ofNat 4 (cSigner m) else 0,
        digest := cDigest m, bytes := m, epoch := s.boot.epoch } } }
    .next (if good then s.verify (jobOf .shelf m) fun ok s => s.shelfVerified ok else s.shelfVerified false)

/-- The port's manifest passes its form rules. -/
def State.manFormOk (s : State) (p : Nat) : Bool := manifestFormOk (s.pk p).manifest s.pol p

/-- The checks of a manifest that stand before its verification (R82, R112, R114). -/
def State.manKeyOk (s : State) (p : Nat) : Bool :=
  let m := (s.pk p).manifest
  s.manFormOk p && keyBlockOk (cScheme m) (cSigBlock m) && signerMatch s.fuses.latched (polSigners s.pol p) m
    && bitOf (polSchemes s.pol p) (cScheme m - 1)

/-- A manifest whose verification an engine has still to run. -/
def State.chainDue (s : State) (p : Nat) : Bool :=
  s.portMode p && s.manKeyOk p && !hashScheme (cScheme (s.pk p).manifest) && decide ((s.pk p).sig = .none)

/-- Ports whose verifications were dealt when the wake started, in port order (R83). -/
def State.dealtPorts (s : State) : List Nat := s.wake.deal
/-- Engine of a port's place in the static plan; another serving engine once that one has failed (R83, R102). -/
def State.chainEngine (s : State) (p : Nat) : Option Nat :=
  let i := s.dealtPorts.idxOf p
  match s.wake.dealt[i % s.wake.dealt.length]? with
  | none => none
  | some e => if s.wake.serving.contains e then some e else s.wake.serving[i % s.wake.serving.length]?
/-- The engine's own share before reruns, both in port order (R83, R102). -/
def State.chainQueue (s : State) (e : Nat) : List Nat :=
  let due := s.dealtPorts.filter fun p => s.chainDue p && decide (s.chainEngine p = some e)
  let own := fun (p : Nat) => decide (s.wake.dealt[(s.dealtPorts.idxOf p) % s.wake.dealt.length]? = some e)
  due.filter own ++ due.filter fun p => !own p

/-- CHAIN_VERIFY_START (R83, R319, R394): the engine dealt to the port, in the order of its share, with class 0
leave. -/
def execChainVerifyStart (p : PortId) (s : State) : Host.Outcome State Fault Refusal :=
  if s.wake.stage ≠ .window ∧ s.wake.stage ≠ .round ∧ s.wake.stage ≠ .drain then .next s
  else match s.chainEngine p.val with
    | none => .next s
    | some e =>
      if (s.chainQueue e).head? ≠ some p.val ∨ !s.engineFree e then .next s
      else
        let s := s.pkU p.val fun w => { w with sig := .running e }
        .next (s.chainStart e (jobOf (.port p.val) (s.pk p.val).manifest))

/-- HASH_SIGNATURE_VERIFY (R82, R322): in the signature window a lane decides a hash-based signature. -/
def execHashSignatureVerify (p : PortId) (s : State) : Host.Outcome State Fault Refusal :=
  let m := (s.pk p.val).manifest
  if s.wake.stage ≠ .window ∨ !s.portMode p.val ∨ !s.manKeyOk p.val ∨ !hashScheme (cScheme m) ∨ (s.pk p.val).sig ≠ .none
      ∨ s.wake.lanes = [] then .next s
  else .next (s.pkU p.val fun w => { w with sig := if sigVerifies (cScheme m) (cDigest m) (cSigBlock m) then .ok else .failed })

/-- DRAIN_END (R72). -/
def execDrainEnd (s : State) : Host.Outcome State Fault Refusal :=
  if s.wake.stage ≠ .drain then .next s
  else if s.wake.endNext then .next s.wakeCut
  else .next { s with wake := { s.wake with stage := .verdict } }

end Sys2Proof.Machine
end

