-- ==== Sys2Proof/Machine/Verdict.lean ====
section
/-! DEFINITION. The verdict stage, handback and dispensation (03 R86 to R95, 08 R260, R262). -/

namespace Sys2Proof.Machine

open Sys2Proof

/-- Verdict codes of R92. -/
def vPending : Nat := 0
def vGood : Nat := 1
def vBad : Nat := 2
def vConflict : Nat := 3
def vStranded : Nat := 4
def vAbsent : Nat := 5

/-- The bytes a wake read of a slot's region, from chunk 0 on: none where a chunk is missing. -/
def slotBytes (t : Tab (List Byte)) (bursts : Nat) : Option (List Byte) :=
  if (List.range (16 * bursts)).all fun k => decide ((Tab.get [] t k).length = 4096) then
    some ((List.range (16 * bursts)).flatMap fun k => Tab.get [] t k)
  else none

/-- What a slot's checks find: its entry, digest, and the first failing check (0 none, 7 HEADER, 8 DIGEST, 9 ROLLBACK). -/
structure SlotCheck where
  e      : Entry
  digest : List Byte
  image  : List Byte := []
  fail   : Nat
deriving DecidableEq, Repr

/-- The checks of one slot (R86, R118): `sound`, then the floor. -/
def checkSlot (e : Entry) (bs : List Byte) (alg port floor : Nat) : SlotCheck :=
  let d := digest64 alg (bs.take e.length)
  let h := sub bs (bs.length - 64) 64
  { e := e, digest := d, image := sub h 0x2C 8
    fail := if !e.valid || !headerAgrees h e alg port then 7
      else if d ≠ e.digest then 8
      else if e.version < floor then 9 else 0 }

/-- The slot counts as newer (R86). -/
def newer (x y : SlotCheck) : Bool := decide (y.e.version < x.e.version) || decide (x.e.prior = y.digest)

/-- A decision: verdict, reason, chosen slot (0 none, 1 A, 2 B). -/
structure Decision where
  verdict : Nat
  reason  : Nat
  chosen  : Nat
deriving DecidableEq, Repr

/-- The resolution of a CONFLICT (R88). -/
def resolveConflict (lastGood : List Byte) (disp : Nat) (a b : SlotCheck) : Decision :=
  let z := List.replicate 48 (0 : Byte)
  let g := padTo lastGood 48
  if g ≠ z && decide (digest48 a.digest = g) then ⟨vConflict, 12, 1⟩
  else if g ≠ z && decide (digest48 b.digest = g) then ⟨vConflict, 12, 2⟩
  else if disp = 1 ∨ disp = 2 then ⟨vConflict, 13, disp⟩
  else ⟨vConflict, 14, 0⟩

/-- The slot choice of R86 from the slot checks on. -/
def chooseSlot (revoked : Bool) (lastGood : List Byte) (disp : Nat) (a b : SlotCheck) : Decision :=
  let va := decide (a.fail = 0) && !revoked
  let vb := decide (b.fail = 0) && !revoked
  if !va && !vb then
    if revoked && (decide (a.fail = 0) || decide (b.fail = 0)) then ⟨vStranded, 11, 0⟩
    else ⟨vBad, max a.fail b.fail, 0⟩
  else if va && !vb then ⟨vGood, 0, 1⟩
  else if vb && !va then ⟨vGood, 0, 2⟩
  else if a.digest = b.digest then ⟨vGood, 0, 1⟩
  else if a.e.version = b.e.version then resolveConflict lastGood disp a b
  else if newer a b && !newer b a then ⟨vGood, 0, 1⟩
  else if newer b a && !newer a b then ⟨vGood, 0, 2⟩
  else resolveConflict lastGood disp a b

/-- Manifest bytes and record offset that decide a port. -/
def State.portRecord (s : State) (p : Nat) : List Byte × Nat :=
  if polShelf s.pol p then (s.wake.shelf.bytes, shelfRec p) else ((s.pk p).manifest, 0x20)

/-- Entry A or B of the port's record. -/
def State.portEntry (s : State) (p : Nat) (x : Slot) : Entry :=
  let r := s.portRecord p
  entryAt r.1 (r.2 + match x with | .a => 0x10 | .b => 0xD0)

/-- A slot's check of a port, with its read bytes. -/
def State.slotCheck (s : State) (p : Nat) (x : Slot) : SlotCheck :=
  let w := s.pk p
  let r := match x with | .a => polRegion s.pol p 1 | .b => polRegion s.pol p 2
  let bs := (slotBytes (match x with | .a => w.slotA | .b => w.slotB) r.2).getD []
  checkSlot (s.portEntry p x) bs (polAlg s.pol p) p (polFloor s.pol p)

/-- Every chunk of both slots was hashed. -/
def State.allRead (s : State) (p : Nat) : Bool :=
  let w := s.pk p
  (slotBytes w.slotA (polRegion s.pol p 1).2).isSome && (slotBytes w.slotB (polRegion s.pol p 2).2).isSome

/-- The KD index of the signer of the port's manifest, when a key block matched (R92). -/
def State.manSigner (s : State) (p : Nat) : Option Nat :=
  if polShelf s.pol p then
    (if s.wake.shelf.decided && signerMatch s.fuses.latched 0xFFF0 s.wake.shelf.bytes then some (cSigner s.wake.shelf.bytes) else none)
  else if s.manFormOk p && signerMatch s.fuses.latched (polSigners s.pol p) (s.pk p).manifest then
    some (cSigner (s.pk p).manifest)
  else none

/-- The shelf manifest is rejected, or has no record for the port (R84, R121; log 27). -/
def State.shelfBad (s : State) (p : Nat) : Bool := s.wake.shelf.rejected || !shelfPresent s.wake.shelf.bytes p

/-- The verdict of a port (R84, R86): the order of the tests is that of the rule. With no Kernel engine in service every woken port
ends PENDING (R83, R417). -/
def State.verdictOf (s : State) (p : Nat) : Decision :=
  let w := s.pk p
  let c := s.pol
  let shelf := polShelf c p
  let m := w.manifest
  if !polUsed c p then ⟨vAbsent, 1, 0⟩
  else if w.pgLow then ⟨vAbsent, 2, 0⟩
  else if w.pgFell then ⟨vAbsent, 3, 0⟩
  else if !s.engineLeft || w.incomplete || w.aborted || !s.allRead p || (!shelf && s.manKeyOk p && decide (w.sig ≠ .ok ∧ w.sig ≠ .failed)) then
    ⟨vPending, 15, 0⟩
  else if w.idBad then ⟨vBad, 4, 0⟩
  else
    let ea := s.portEntry p .a
    let eb := s.portEntry p .b
    if (if shelf then s.shelfBad p else !s.manFormOk p) || (!ea.valid && !eb.valid) then ⟨vBad, if shelf then 10 else 5, 0⟩
    else if !shelf && (!s.manKeyOk p || decide (w.sig ≠ .ok)) then ⟨vBad, 6, 0⟩
    else
      let revoked := if shelf then s.wake.shelf.revoked else kdRevoke s.fuses.latched (cSigner m)
      chooseSlot revoked (s.lastGood p) (polDisp c p) (s.slotCheck p .a) (s.slotCheck p .b)

/-- The verdict word (R92). -/
def State.verdictWord (s : State) (p : Nat) : W32 :=
  let v := s.pv p
  let h := s.ph p
  BitVec.ofNat 32 (v.verdict.toNat * 2 ^ 28 + v.reason.toNat * 2 ^ 24 + v.chosen.toNat * 2 ^ 22
    + (decide (h.token = some s.boot.epoch)).toNat * 2 ^ 21 + (s.inGlade p).toNat * 2 ^ 20 + h.latch.toNat * 2 ^ 19
    + v.mode.toNat * 2 ^ 18 + v.signer.toNat * 2 ^ 12)

/-- The measurement record of R93, 113 bytes. -/
def State.record (s : State) (p : Nat) : List Byte :=
  let v := s.pv p
  let ver := if v.chosen = 1 then v.verA.toNat else if v.chosen = 2 then v.verB.toNat else 0
  let dig := if v.chosen = 1 then digest48 v.digA else if v.chosen = 2 then digest48 v.digB else []
  leBytes p 1 ++ leBytes (s.verdictWord p).toNat 4 ++ leBytes ver 4 ++ padTo dig 48 ++ padTo v.manDig 48
    ++ leBytes v.floor.toNat 4 ++ leBytes v.wEpoch.toNat 4

/-- IMAGE_ID of the chosen slot's image header; zero without a choice (R117). -/
def PVerd.chosenImage (v : PVerd) : List Byte := padTo (if v.chosen = 1 then v.imgA else if v.chosen = 2 then v.imgB else []) 8
/-- The measurement record is rewritten and logged; the chosen slot's IMAGE_ID goes into the measurement log (R93, R117,
R388; log 54). -/
def State.writeRecord (s : State) (p : Nat) : State :=
  let r := s.record p
  let s := (s.pvU p fun v => { v with meas := r }).logRec 0x20 (padTo r 128)
  { s with log := { s.log with images := s.log.images ++ [(p, (s.pv p).chosenImage)] } }

/-- The recovery agent is informed: always for BAD and STRANDED, for another kind when it is not the last one (R87, R449;
log 26). -/
def State.notice (s : State) (p : Nat) : State :=
  let v := s.pv p
  let tell := decide (v.verdict.toNat = vBad ∨ v.verdict.toNat = vStranded) || !v.noticed.contains v.verdict
  let s := s.pvU p fun v => { v with noticed := [v.verdict] }
  if tell then { s with link := { s.link with notices := (List.range 96).filter fun q => decide (q = p) || s.link.notices.contains q } }
  else s

/-- The rank of the verdict alarm (R87, R88): none for PENDING and GOOD. -/
def verdictRank (d : Decision) : Option Nat :=
  if d.verdict = vBad ∨ d.verdict = vStranded then some 1
  else if d.verdict = vAbsent then some 0
  else if d.verdict = vConflict then some (if d.reason = 12 then 0 else 1)
  else none

/-- The groups of one use whose granule or slot is not the chosen one go back; all of them without a choice (R78, R259). -/
def State.keepSlot (s : State) (p chosen : Nat) : State :=
  if chosen = 0 then (s.returnGroups 1 p none).returnGroups 2 p none
  else
    let s := s.each (s.groupsOf 1 p none) fun s g =>
      let w := s.page (8 * g)
      let a := pageIndex w % 4096 * 65536
      let inA := decide ((polRegion s.pol p 1).1 ≤ a ∧ a < (polRegion s.pol p 1).1 + 65536 * (polRegion s.pol p 1).2)
      let inB := slotOfAddr s.pol p a
      if (chosen = 1 ∧ inB) ∨ (chosen = 2 ∧ inA) then s.returnGroup 1 g else s
    s.returnGroups 2 p (some (decide (chosen = 1)))

/-- A pin context whose chosen source does not lie in bytes 0 to LENGTH − 1 of its slot is void (R260). -/
def State.voidPinsOf (s : State) (p chosen : Nat) : State :=
  s.each (s.pins p) fun s c =>
    let base := (polRegion s.pol p chosen).1
    let len := if chosen = 1 then (s.pv p).lenA else (s.pv p).lenB
    let src := if chosen = 1 then c.2.2.2.1 else c.2.2.2.2
    if base ≤ src ∧ src + c.2.2.1 ≤ base + len then s
    else
      let x : Slot := if chosen = 1 then .a else .b
      let s := s.pwU p fun w => { w with voidPins := w.voidPins ++ [c.1] }
      s.each (List.range (c.2.2.1 / 2048)) fun s i =>
        let g := Tab.get 0 s.gran.srvDir (pinKey p x (c.2.1 + 2048 * i))
        if g = 0 then s else s.returnGroup 2 g

/-- SET_STATE after a Granary-mode rewake (R262). -/
def State.setVerdict (s : State) (p : Nat) (d : Decision) : State :=
  let x := if (s.pg p).setSlot = .a then 1 else 2
  if d.verdict = vGood ∧ d.chosen = x then
    let s := s.pgU p fun g => { g with setState := .verified }
    s.handbackDone p
  else (s.returnGroups 3 p none).pgU p fun g => { g with setState := .void }

/-- One port is decided: record, alarm, tags, pins, handback or set (R86 to R88, R94); a CONFLICT reads the last-good digest (R88,
R384). MANIFEST_DIGEST of a port whose manifest was not read is the digest of no bytes, which the spec does not say (log 56). -/
def State.decidePort (s : State) (p : Nat) : State :=
  let d := s.verdictOf p
  let s := if d.verdict = vConflict then s.lastGoodCheck p else s
  let a := s.slotCheck p .a
  let b := s.slotCheck p .b
  let revoked := if polShelf s.pol p then s.wake.shelf.revoked else kdRevoke s.fuses.latched (cSigner (s.pk p).manifest)
  let known := decide (d.verdict = vGood ∨ d.verdict = vConflict)
  let s := s.pvU p fun v => { v with
    rewritten := false, verdict := BitVec.ofNat 4 d.verdict, reason := BitVec.ofNat 4 d.reason, chosen := BitVec.ofNat 2 d.chosen,
    signer := BitVec.ofNat 4 ((s.manSigner p).getD 0), digA := a.digest, digB := b.digest,
    validA := known && decide (a.fail = 0) && !revoked, validB := known && decide (b.fail = 0) && !revoked,
    manDig := cDigest (if polShelf s.pol p then s.wake.shelf.bytes else (s.pk p).manifest), imgA := a.image, imgB := b.image,
    verA := BitVec.ofNat 32 a.e.version, verB := BitVec.ofNat 32 b.e.version, lenA := a.e.length, lenB := b.e.length,
    rootA := a.e.root, rootB := b.e.root }
  let s := if d.chosen = 0 ∧ d.verdict = vConflict then s.returnGroups 1 p none else s.keepSlot p d.chosen
  let s := if d.chosen = 0 then s else s.voidPinsOf p d.chosen
  let gran := (s.pk p).granary
  let s := if gran then s.setVerdict p d
    else if d.chosen ≠ 0 then s.phU p fun h => { h with handback := true }
    else s.phU p fun h => { h with mode := .isolated }
  let s := (s.writeRecord p).notice p
  match verdictRank d with
  | some r => s.raise 0x0301 r 1 p noData
  | none => s

/-- The ports that Shentiha rewakes after a wake: those left incomplete, but for a port abort (R76, R83, R102). -/
def State.incompletePorts (s : State) : List Nat :=
  allPorts.filter fun p => (s.pk p).part && !(s.pk p).aborted && decide ((s.verdictOf p).reason = 15)
/-- VERDICT_STAGE (R67, R72, R86, R98, R102): every participating port is decided in port order, and the wake ends; after the
first wake the first stand opens. A ZEROIZE in the drain or in the verdict stage ends the wake here. -/
def execVerdictStage (s : State) : Host.Outcome State Fault Refusal :=
  if s.wake.stage ≠ .verdict then .next s
  else if s.wake.endNext then .next s.wakeCut
  else
    let again := s.incompletePorts
    let s := s.each (allPorts.filter fun p => (s.pk p).part) fun s p => s.decidePort p
    let s := s.wakeRelease
    let first := !s.wake.firstDone
    let s := ({ s with wake := { s.wake with firstDone := true, again := (s.wake.again ++ again).eraseDups } }).runtimeDraw
    .next (if first then s.openNext else s)

/-- HANDBACK (R94, R529): the port has sent its handback frames and `replies` are what it read back. A passed readback mints
the token; a failed one is a channel error of the flash side, whose probe repeats the handback; no other MASTER frame goes out while
it probes (R406), on a bank that is down (R500), or for a flash that waits for its rewake (R123). A port read from the Granary has no
flash to hand back. -/
def execHandback (p : PortId) (replies : List (List (List Byte))) (s : State) : Host.Outcome State Fault Refusal :=
  if !(s.ph p.val).handback ∨ s.boot.dev ≠ .service ∨ (s.ch (chanKey .flash p.val)).state ≠ .inService ∨ !s.portServes p.val
      ∨ !s.bankUp p.val then .next s
  else
    let s := (s.contExit p.val).sendMaster p.val ((s.handRecs p.val).map recFrame)
    if seqHolds (s.handRecs p.val) replies then .next (s.handbackDone p.val)
    else .next (s.chanError .flash p.val 4)

end Sys2Proof.Machine
end

