-- ==== Sys2Proof/Machine/Release.lean ====
section
/-! DEFINITION. Stands, tokens, release, power-good of carriers, critical registers (01 R23 to R28, 03 R95 to R100,
13 R383). -/

namespace Sys2Proof.Machine

open Sys2Proof

/-- STAND_STAGGER_EXPIRY (R97, R98): in SERVICE, after the first wake. -/
def execStandStaggerExpiry (s : State) : Host.Outcome State Fault Refusal :=
  if s.boot.dev = .service && s.wake.firstDone then .next s.openNext else .next s

/-- A port is eligible for release (R96, R58, R95). -/
def State.eligible (s : State) (p : Nat) : Bool :=
  let h := s.ph p
  let t := s.st (standOf p)
  s.heldNow p && decide (h.token = some s.boot.epoch) && !h.latch && h.pg && t.gate && !t.gateN && t.opened && s.portServes p

/-- The ports of stand k in release order (R97). -/
def State.releaseOrder (s : State) (k : Nat) : List Nat := (polOrder s.pol k).map fun i => k + 6 * i

/-- The port that the stand releases in this cycle: the first eligible one, when the pool covers it. -/
def State.nextRelease (s : State) (k : Nat) : Option Nat :=
  match (s.releaseOrder k).find? s.eligible with
  | some p => if s.canGrant (1 + k) (polWeight s.pol p) then some p else none
  | none => none

/-- Digest of the chosen slot in its 48-byte form (R89, R116). -/
def PVerd.chosenDigest (v : PVerd) : List Byte := if v.chosen = 1 then digest48 v.digA else if v.chosen = 2 then digest48 v.digB else []

/-- The RELEASE log body (R388). -/
def releaseBody (p chosen weight epoch : Nat) : List Byte :=
  leBytes p 1 ++ leBytes chosen 1 ++ leBytes weight 1 ++ leBytes 0 1 ++ leBytes epoch 4 ++ leBytes 0 8

/-- A release: leave drawn, pass-through or serving in place live, token spent, Pn_HOLD_N no longer driven, last-good
digest written, settle timer started, runtime lanes drawn at the first one (R25, R89, R97, R131, R227, R261). -/
def State.release (s : State) (p : Nat) : State :=
  let k := standOf p
  let w := polWeight s.pol p
  let dark := (s.pg p).flashRetired && decide ((s.pg p).setState = .verified)
  let s := s.poolGrant (1 + k) (p / 6) w
  let s := s.phU p fun h => { h with
    hold := false, holdN := true, token := none, settle := some (polSettle s.pol p), mode := if dark then .dark else .pass }
  let s : State := { s with backup := { s.backup with lastGood := Tab.put [] s.backup.lastGood p (s.pv p).chosenDigest } }
  let s := s.mend fun x => decide (x = .lastGood p)
  let s := s.pushEvent p (eventWord 7 (s.pe p).tag.toNat 0 0 0 0)
  let s := s.logRec 0x21 (releaseBody p (s.pv p).chosen.toNat w s.boot.epoch.toNat)
  s.runtimeDraw

/-- The controller of stand Tk reports an internal Gnoby failure: the alarm, a stand fault (R36, R382). -/
def State.standGnoby (s : State) (k : Nat) : State := (s.gnoby 3 k).standFault k
/-- A fault of stand Tk's controller: the alarm of its cause, and the stand fault (R36, R383, R399). -/
def State.standFails (s : State) (k : Nat) (c : StandCause) : State :=
  match c with
  | .gnoby => s.standGnoby k
  | .gate | .firebreak => (s.raiseReg 0x0140 3 k noData).standFault k
  | .census => (s.censusFault (1 + k)).standFault k
/-- PORT_RELEASE (R25, R36, R38, R96 to R100, R400): one cycle of stand Tk. A hold response that meets the release wins: the
token stays unspent and the leave returns in that cycle. A controller fault closes the gate: the token stays unspent and the
leave returns through reconciliation with CAUSE 3. -/
def execPortRelease (k : StandId) (meets : Meets) (s : State) : Host.Outcome State Fault Refusal :=
  if s.boot.dev ≠ .service then .next s
  else match s.nextRelease k.val, meets with
    | none, .fault c => .next (s.standFails k.val c)
    | none, _ => .next s
    | some p, .nothing => .next (s.release p)
    | some p, .hold => .next (s.phU p fun h => { h with latch := true })
    | some p, .fault c =>
      let s := (s.poolGrant (1 + k.val) (p / 6) (polWeight s.pol p)).standFails k.val c
      .next (s.reconcile (1 + k.val) 3 [p / 6])

/-- SETTLE_EXPIRY (R97, R397): the port's inrush leave returns. -/
def execSettleExpiry (p : PortId) (s : State) : Host.Outcome State Fault Refusal :=
  let q := 1 + standOf p.val
  let i := p.val / 6
  if (s.ph p.val).settle.isNone then .next s
  else
    let n := s.holds q i
    let s := s.phU p.val fun h => { h with settle := none }
    .next (if 0 < n then s.poolReturn q i n else s)

/-- The stand controller sets a port ABSENT with reason PG_LOST: record, notice and NOTE alarm as for a verdict (R87, R99;
log 29). -/
def State.pgLost (s : State) (p : Nat) : State :=
  let s := s.pvU p fun v => { v with verdict := 5, reason := 3, chosen := 0 }
  let s := s.keepSlot p 0
  ((s.writeRecord p).notice p).raise 0x0301 0 1 p noData

/-- PG_FALL (R95, R99, R102, R503): Pn_PG is sampled in SERVICE, RIDE and HEADLESS only (R505). -/
def execPgFall (p : PortId) (s : State) : Host.Outcome State Fault Refusal :=
  if !s.boot.dev.late then .next s
  else
  let h := s.ph p.val
  let out := s.inGlade p.val || h.settle.isSome
  let s := s.phU p.val fun h => { h with pg := false, token := none, settle := none }
  let s := if (s.pk p.val).part then s.pkU p.val fun w => { w with pgFell := true } else s
  if out then
    let q := 1 + standOf p.val
    let n := s.holds q (p.val / 6)
    let s := if 0 < n then s.poolReturn q (p.val / 6) n else s
    .next ((s.holdPort p.val).pgLost p.val)
  else .next s

/-- PG_RISE (R503, R505). -/
def execPgRise (p : PortId) (s : State) : Host.Outcome State Fault Refusal :=
  .next (if s.boot.dev.late then s.phU p.val fun h => { h with pg := true } else s)

/-- SHADOW_MISMATCH (R383, R26, R36, R203, R339, R399): the register takes its fail-safe value and the alarm is raised. -/
def execShadowMismatch (r : CriticalReg) (s : State) : Host.Outcome State Fault Refusal :=
  match r with
  | .hold p =>
    let s := (s.raiseReg 0x0140 1 p.val noData).holdPort p.val
    .next (s.phU p.val fun h => { h with holdN := true })
  | .gate k => .next (s.standFails k.val .gate)
  | .firebreak k => .next (s.standFails k.val .firebreak)
  | .token p => .next ((s.raiseReg 0x0140 1 p.val noData).phU p.val fun h => { h with token := none })
  | .gen p => .next ((s.raiseReg 0x0140 1 p.val noData).pwU p.val fun w => { w with genN := w.gen })
  | .lcLatched =>
    let s := s.raiseReg 0x0140 0 0 noData
    .next { s with keys := { s.keys with lcBad := true } }
  | .census q =>
    if 1 ≤ q.toNat ∧ q.toNat ≤ 6 then .next (s.standFails (q.toNat - 1) .census)
    else if poolCode q.toNat then .next (s.censusFault q.toNat)
    else .next s
  | .keyAttr n => .next (((s.raiseReg 0x0140 0 0 noData).slotBad n.val).raiseReg 0x0402 0 0 noData)
  | .ownerRoot =>
    let s := s.raiseReg 0x0140 0 0 noData
    let gone := decide (s.boot.dev = .start) && s.keys.rootFailed
    let s : State := { s with keys := { s.keys with rootFail := true } }
    .next (if gone then { s with keys := { s.keys with root := 0, rootMask := 0, rootState := 0 } } else s)
  | .leadRole =>
    let s := s.raiseReg 0x0140 0 0 noData
    .next { s with boot := { s.boot with leadShadowBad := true } }

end Sys2Proof.Machine
end

