-- ==== Sys2Proof/Machine/Glean.lean ====
section
/-! DEFINITION. Gleaning: the tag of a leaf, the outcome of a leaf and the glean slot (07 R228, 08 R250 to R255). -/

namespace Sys2Proof.Machine

open Sys2Proof

/-- The stored tag of a leaf in group g (R251). -/
def State.storedTag (s : State) (g a : Nat) : List Byte := s.granGet (2048 * g + 8 * (a / 256 % 256)) 8

/-- A group is under relocation (R248). -/
def State.relocating (s : State) (g : Nat) : Bool :=
  s.gran.relocs.any fun r => decide (r.group = g) && r.target.isSome

/-- No check can run for a leaf of the port now: its group relocates, its glean slot is empty, as that of a lane that probes is, the
lanes stand still, its sequencer is retired, or the keys of the tags or of the Granary fail (R252, R330, R406). -/
def State.gleanStopped (s : State) (p g : Nat) : Bool :=
  s.relocating g || !(s.gleanLane (p % 4)).any (fun l => decide ((s.ch (chanKey .lane l)).state = .inService))
    || !s.tagsReady || !s.granReady || s.chanRetired .sequencer (sheafOf p) || decide (s.boot.dev ≠ .service)

/-- A leaf with some but not all bytes in GLEAN spans (R252). -/
def State.leafPart (s : State) (p a : Nat) : State :=
  if (s.leafGroup p a).isNone then s.bump p .untagged 1 else s.bump p .unobserved 1

/-- A leaf that lies wholly in GLEAN spans goes to the port's glean slot (R228, R252). -/
def State.leafWhole (s : State) (p a : Nat) (data : List Byte) (rank : Nat) : State :=
  match s.leafGroup p a with
  | none => s.bump p .untagged 1
  | some g =>
    if s.gleanStopped p g then s.bump p .unobserved 1
    else s.pgU p fun q => { q with glean := q.glean ++ [{ addr := a, data := data, rank := rank }] }

/-- The check of a leaf against its tag; a mismatch raises the GLEAN alarm at the rank of the frame's own glean context
(R252, R253). -/
def State.leafCheck (s : State) (p : Nat) (i : GleanItem) : State :=
  match s.leafGroup p i.addr with
  | none => s.bump p .untagged 1
  | some g =>
    if s.gleanStopped p g then s.bump p .unobserved 1
    else if leBytes (s.gleanTag p i.addr i.data).toNat 8 = s.storedTag g i.addr then s.bump p .verified 1
    else
      let s := (s.bump p .mismatch 1).pgU p fun q => { q with mismatchLeaf := BitVec.ofNat 20 (i.addr / 256) }
      if i.rank = 7 then s else s.raise 0x0202 i.rank 1 p i.addr

/-- GLEAN_HALF_LEAF (R228, R252, R384): the port's glean slot processes the oldest half-leaf; with the second half of a leaf
its tag is compared. A leaf whose job fails its check counts UNOBSERVED (log 50). -/
def execGleanHalfLeaf (p : PortId) (check : HopCheck) (s : State) : Host.Outcome State Fault Refusal :=
  match (s.pg p.val).glean with
  | [] => .next s
  | i :: t =>
    if check ≠ .ok then
      let s := (s.pgU p.val fun q => { q with glean := t }).leafPart p.val i.addr
      .next (s.hopError check ((s.gleanLane (p.val % 4)).getD 0) p.val)
    else if !i.half then .next (s.pgU p.val fun q => { q with glean := { i with half := true } :: t })
    else .next ((s.pgU p.val fun q => { q with glean := t }).leafCheck p.val i)

end Sys2Proof.Machine
end

