-- ==== Sys2Proof/Machine/Flags.lean ====
section
/-! DEFINITION. The flags of the Fekiroth-36 and the conditions that read them (09 R277, R278). FL is N, Z, C, V from
bit 3 down. -/

namespace Sys2Proof.Machine

open Sys2Proof

/-- FL of four flags. -/
def flagsOf (n z c v : Bool) : BitVec 4 := BitVec.ofNat 4 (8 * n.toNat + 4 * z.toNat + 2 * c.toNat + v.toNat)
/-- N. -/
def flagN (f : BitVec 4) : Bool := f.getLsbD 3
/-- Z. -/
def flagZ (f : BitVec 4) : Bool := f.getLsbD 2
/-- C. -/
def flagC (f : BitVec 4) : Bool := f.getLsbD 1
/-- V. -/
def flagV (f : BitVec 4) : Bool := f.getLsbD 0

/-- Flags of a − b on 36 bits (CMP, CMPI). -/
def subFlags (a b : W36) : BitVec 4 :=
  let d := a - b
  flagsOf d.msb (decide (d = 0)) (decide (b.toNat ≤ a.toNat)) (decide (a.msb ≠ b.msb) && decide (d.msb ≠ a.msb))

/-- Flags of a AND b; C and V clear (TST). -/
def tstFlags (a b : W36) : BitVec 4 :=
  let d := a &&& b
  flagsOf d.msb (decide (d = 0)) false false

/-- A condition by its long code (R277). -/
def condHolds (cc : Nat) (f : BitVec 4) : Bool :=
  match cc with
  | 0 => true
  | 1 => flagZ f
  | 2 => !flagZ f
  | 3 => flagC f
  | 4 => !flagC f
  | 5 => flagN f
  | 6 => !flagN f
  | 7 => flagV f
  | 8 => !flagV f
  | 9 => flagC f && !flagZ f
  | 10 => !flagC f || flagZ f
  | 11 => flagN f == flagV f
  | 12 => flagN f != flagV f
  | 13 => !flagZ f && (flagN f == flagV f)
  | 14 => flagZ f || (flagN f != flagV f)
  | _ => false

/-- The long code of a paired condition code (R277). -/
def pairedCond (cc : BitVec 3) : Nat :=
  match cc.toNat with
  | 5 => 9 | 6 => 11 | 7 => 12 | n => n

end Sys2Proof.Machine
end

