-- ==== Sys2Proof/Machine/Operands.lean ====
section
/-! DEFINITION. Operand fields, instruction words and the arithmetic of the Fekiroth-36 (09 R270 to R283). -/

namespace Sys2Proof.Machine

open Sys2Proof

/-- The layouts of an instruction word (R273). -/
def wordLong (opc : Nat) (cc : BitVec 4) (operand : Nat) : W36 :=
  BitVec.ofNat 36 (cc.toNat * 2 ^ 31 + opc * 2 ^ 25 + operand)
/-- Layout R. -/
def layR (rd rs rt : BitVec 4) (fn : BitVec 13) : Nat := rd.toNat * 2 ^ 21 + rs.toNat * 2 ^ 17 + rt.toNat * 2 ^ 13 + fn.toNat
/-- Layout I. -/
def layI (rd rs : BitVec 4) (imm : BitVec 17) : Nat := rd.toNat * 2 ^ 21 + rs.toNat * 2 ^ 17 + imm.toNat
/-- Layout W. -/
def layW (rd : BitVec 4) (imm : BitVec 21) : Nat := rd.toNat * 2 ^ 21 + imm.toNat
/-- Layout AW. -/
def layAW (ad : BitVec 3) (imm : BitVec 22) : Nat := ad.toNat * 2 ^ 22 + imm.toNat
/-- Layout M. -/
def layM (rg : BitVec 4) (ab : BitVec 3) (off : BitVec 18) : Nat := rg.toNat * 2 ^ 21 + ab.toNat * 2 ^ 18 + off.toNat
/-- Layout B. -/
def layB (rs : BitVec 4) (disp : BitVec 21) : Nat := rs.toNat * 2 ^ 21 + disp.toNat
/-- Layout S. -/
def layS (rd rs : BitVec 4) (sel : Nat) (arg : BitVec 8) : Nat := rd.toNat * 2 ^ 21 + rs.toNat * 2 ^ 17 + sel * 2 ^ 8 + arg.toNat
/-- A short op in layout RR. -/
def layRR (ops : Nat) (d s : BitVec 4) (k : BitVec 3) : BitVec 16 :=
  BitVec.ofNat 16 (ops * 2 ^ 11 + d.toNat * 2 ^ 7 + s.toNat * 2 ^ 3 + k.toNat)
/-- A short op in layout RI. -/
def layRI (ops : Nat) (d : BitVec 4) (imm : BitVec 7) : BitVec 16 := BitVec.ofNat 16 (ops * 2 ^ 11 + d.toNat * 2 ^ 7 + imm.toNat)
/-- A paired word. -/
def wordPair (cc : BitVec 3) (s0 s1 : BitVec 16) : W36 :=
  BitVec.ofNat 36 (2 ^ 35 + cc.toNat * 2 ^ 32 + s0.toNat * 2 ^ 16 + s1.toNat)

/-- A count read in bits 5:0 (R282). -/
def count6 (x : W36) : Nat := x.toNat % 64
/-- SHL. -/
def shl36 (a : W36) (c : Nat) : W36 := a <<< c
/-- SHR. -/
def shr36 (a : W36) (c : Nat) : W36 := a >>> c
/-- SAR: from 36 on, copies of bit 35. -/
def sar36 (a : W36) (c : Nat) : W36 := a.sshiftRight (min c 36)
/-- ROL by c mod 36. -/
def rol36 (a : W36) (c : Nat) : W36 := a.rotateLeft (c % 36)
/-- Set bits of x below bit c. -/
def rank36 (x : W36) (c : Nat) : W36 := BitVec.ofNat 36 (((List.range (min c 36)).filter fun i => x.getLsbD i).length)
/-- Leading zeros, 36 for zero. -/
def clz36 (x : W36) : W36 :=
  BitVec.ofNat 36 (((List.range 36).reverse.takeWhile fun i => !x.getLsbD i).length)
/-- 1 or 0. -/
def bit36 (b : Bool) : W36 := if b then 1 else 0

/-- The ALU function of FN (R281). -/
def aluOp (fn : Nat) (a b : W36) : W36 :=
  match fn with
  | 0x00 => a + b
  | 0x01 => a - b
  | 0x02 => a &&& b
  | 0x03 => a ||| b
  | 0x04 => a ^^^ b
  | 0x05 => a &&& ~~~b
  | 0x06 => shl36 a (count6 b)
  | 0x07 => shr36 a (count6 b)
  | 0x08 => sar36 a (count6 b)
  | 0x09 => rol36 a (count6 b)
  | 0x0A => if a.toNat ≤ b.toNat then a else b
  | 0x0B => if a.toNat ≤ b.toNat then b else a
  | 0x0C => if a.toInt ≤ b.toInt then a else b
  | 0x0D => if a.toInt ≤ b.toInt then b else a
  | 0x0E => rank36 a (count6 b)
  | 0x0F => rank36 a 36
  | 0x10 => clz36 a
  | 0x18 => bit36 (decide (a = b))
  | 0x19 => bit36 (decide (a ≠ b))
  | 0x1A => bit36 (decide (a.toInt < b.toInt))
  | 0x1B => bit36 (decide (a.toNat < b.toNat))
  | 0x1C => bit36 (decide (a.toInt ≤ b.toInt))
  | 0x1D => bit36 (decide (a.toNat ≤ b.toNat))
  | _ => 0
/-- The FN values of R281. -/
def aluFnOk (fn : Nat) : Bool := decide (fn ≤ 0x10 ∨ (0x18 ≤ fn ∧ fn ≤ 0x1D))

/-- SHFI. -/
def shiftImm (kind : Nat) (a : W36) (c : Nat) : W36 :=
  if kind = 0 then shl36 a c else if kind = 1 then shr36 a c else if kind = 2 then sar36 a c else rol36 a c
/-- EXTI. -/
def extract36 (a : W36) (pos width : Nat) : W36 := BitVec.ofNat 36 (a.toNat / 2 ^ pos % 2 ^ width)
/-- MUL: low half, high half unsigned, high half signed. -/
def mulOp (fn : Nat) (a b : W36) : W36 :=
  if fn = 0 then a * b
  else if fn = 1 then BitVec.ofNat 36 (a.toNat * b.toNat / 2 ^ 36)
  else (BitVec.ofInt 72 (a.toInt * b.toInt)).extractLsb' 36 36
/-- The 72-bit product. -/
def prod72 (signed : Bool) (a b : W36) : W72 :=
  if signed then BitVec.ofInt 72 (a.toInt * b.toInt) else BitVec.ofNat 72 (a.toNat * b.toNat)
/-- MACY by FN: MPY, MAC, MSU, signed ones from 3, CLRY. -/
def macOp (fn : Nat) (y : W72) (a b : W36) : W72 :=
  match fn with
  | 0 => prod72 false a b
  | 1 => y + prod72 false a b
  | 2 => y - prod72 false a b
  | 3 => prod72 true a b
  | 4 => y + prod72 true a b
  | 5 => y - prod72 true a b
  | _ => 0
/-- The long of two fulls, high then low. -/
def long72 (hi lo : W36) : W72 := hi ++ lo
/-- Low full of a long. -/
def lo36 (y : W72) : W36 := y.extractLsb' 0 36
/-- High full of a long. -/
def hi36 (y : W72) : W36 := y.extractLsb' 36 36

end Sys2Proof.Machine
end

