-- ==== Sys2Proof/Machine/Landing.lean ====
section
/-! DEFINITION. The registers of a core, its address map, and how results and stores in flight land (09 R274, R288, R289,
R300). -/

namespace Sys2Proof.Machine

open Sys2Proof

/-! ### Core kinds (R30, R277, R279, R297) -/

/-- A core with register conditions: seed, Canopy. -/
def isP : CoreId → Bool | .seed => true | .canopyA => true | .canopyB => true | _ => false
/-- A core that takes exceptions: seed, Canopy, link. -/
def isE : CoreId → Bool | .sq _ _ => false | .watch => false | _ => true
/-- The watch core. -/
def isWatch : CoreId → Bool | .watch => true | _ => false
/-- A sequencer thread. -/
def isSq : CoreId → Bool | .sq _ _ => true | _ => false

/-! ### Registers and results in flight (R274, R288, R289) -/

/-- Read Dn; D0 reads 0. -/
def Core.rd (k : Core) (n : Nat) : W36 := if n = 0 then 0 else Tab.get 0 k.d n
/-- Read An. -/
def Core.ra (k : Core) (n : Nat) : W24 := Tab.get 0 k.a n
/-- Read Yn. -/
def Core.ry (k : Core) (n : Nat) : W72 := Tab.get 0 k.y n
/-- A value lands in a register; a write to D0 is discarded; a register written anew carries a good
check (R276). -/
def Core.write (k : Core) (t : Dest) (v : W72) : Core :=
  match t with
  | .d n => if n = 0 then k else { k with d := Tab.put 0 k.d n.toNat (v.setWidth 36), flaws := k.flaws.filter (· ≠ t) }
  | .a n => { k with a := Tab.put 0 k.a n.toNat (v.setWidth 24), flaws := k.flaws.filter (· ≠ t) }
  | .y n => { k with y := Tab.put 0 k.y n.toNat v, flaws := k.flaws.filter (· ≠ t) }
  | .fl => { k with fl := v.setWidth 4, flaws := k.flaws.filter (· ≠ t) }
/-- Insert a landing behind those that land no later. -/
def insLanding (x : Landing) : List Landing → List Landing
  | [] => [x]
  | y :: t => if x.slot < y.slot then x :: y :: t else y :: insLanding x t
/-- A result with a distance (R289); results in flight stand in the order in which they land. -/
def Core.lands (k : Core) (t : Dest) (v : W72) (dist : Nat) : Core :=
  { k with land := insLanding { slot := k.slot + dist, dest := t, val := v } k.land }
/-- The results due by slot n land. -/
def Core.landTo (k : Core) (n : Nat) : Core :=
  let due := k.land.filter fun x => decide (x.slot ≤ n)
  due.foldl (fun k x => k.write x.dest x.val) { k with land := k.land.filter fun x => decide (n < x.slot) }

/-- Distance of a result on a core: every one is 1 on the watch core (R301). -/
def distOn (c : CoreId) (d : Nat) : Nat := if isWatch c then 1 else d

/-! ### The address map and stores (R288, R300) -/

/-- What stands at an address for a load or a fetch. -/
inductive Place
  | rom (n : Nat)
  | mem (m : Nat)
  | device
  | xip
  | bytes (l : List Byte) (off : Nat)
  | none
deriving DecidableEq, Repr

/-- The place a core reads at an address (R300). -/
def State.place (s : State) (c : CoreId) (a : Nat) : Place :=
  match c with
  | .seed =>
    if a < 0x018000 then .rom 0 else if 0x080000 ≤ a ∧ a < 0x090000 then .mem 0
    else if 0x100000 ≤ a ∧ a < 0x400000 then .device else .none
  | .canopyA => if a < 0x100000 then .mem 1 else if a < 0x400000 then .device else .xip
  | .canopyB => if a < 0x100000 then .mem 2 else if a < 0x400000 then .device else .xip
  | .link => if a < 0x080000 then .mem 3 else if 0x100000 ≤ a ∧ a < 0x400000 then .device else .none
  | .watch =>
    if a < 0x2000 then .rom 1 else if 0x4000 ≤ a ∧ a < 0x4800 then .mem 4 else if 0x8000 ≤ a ∧ a < 0xA000 then .mem 5
    else if 0xC000 ≤ a ∧ a < 0xD000 then .device else .none
  | .sq k t =>
    let p := 8 * k.val + t.val
    if a < 0x030000 then .mem (8 + k.val)
    else if 0x030000 + t.val * 0x2000 ≤ a ∧ a < 0x032000 + t.val * 0x2000 then .mem (8 + k.val)
    else if 0x100000 + t.val * 0x4000 ≤ a ∧ a < 0x104000 + t.val * 0x4000 then .bytes (s.pw p).ctx (0x100000 + t.val * 0x4000)
    else if 0x120000 + t.val * 0x800 ≤ a ∧ a < 0x120800 + t.val * 0x800 then .bytes (s.pw p).coarse (0x120000 + t.val * 0x800)
    else .none
/-- Stores reach their memory; a store into a device register space has no memory behind it. -/
def State.storeOut (s : State) (c : CoreId) (x : StoreIn) : State :=
  match s.place c x.addr with
  | .mem m => s.memPut m x.addr x.bytes
  | _ => s
/-- The results and stores due by slot n land. -/
def State.landTo (s : State) (c : CoreId) (n : Nat) : State :=
  let k := s.co (coreNo c)
  let due := k.stores.filter fun x => decide (x.slot ≤ n)
  let s := s.coU (coreNo c) fun k => { k.landTo n with stores := k.stores.filter fun x => decide (n < x.slot) }
  s.each due fun s x => s.storeOut c x
/-- The core cycle of a thread's slot, counted from that of slot 0 of thread 0 (R218). -/
def slotCycle (t n : Nat) : Nat := 8 * n + t
/-- Insert a store behind those that reach memory no later. -/
def insStore (x : Nat × CoreId × StoreIn) : List (Nat × CoreId × StoreIn) → List (Nat × CoreId × StoreIn)
  | [] => [x]
  | y :: l => if x.1 < y.1 then x :: y :: l else y :: insStore x l
/-- The stores of a sequencer's threads that reach its memory before slot n of thread t, in their order (R291). -/
def State.sharedDue (s : State) (k : SheafId) (t n : Nat) : List (Nat × CoreId × StoreIn) :=
  (List.finRange 8).foldl (fun l u =>
    let c := CoreId.sq k u
    ((s.co (coreNo c)).stores.filter fun x => decide (slotCycle u.val x.slot ≤ slotCycle t n)).foldl
      (fun l x => insStore (slotCycle u.val x.slot, c, x) l) l) []
/-- A core comes to its slot n: its results land; on a sequencer so do the stores of every thread, each 16 core cycles after
its issue (R289, R291). -/
def State.slotTo (s : State) (c : CoreId) (n : Nat) : State :=
  match c with
  | .sq k t =>
    let due := s.sharedDue k t.val n
    let s := s.coU (coreNo c) fun x => x.landTo n
    let s := s.each due fun s x => s.storeOut x.2.1 x.2.2
    s.each (List.finRange 8) fun s u => s.coU (coreNo (.sq k u)) fun x =>
      { x with stores := x.stores.filter fun y => decide (slotCycle t.val n < slotCycle u.val y.slot) }
  | _ => s.landTo c n
/-- A thread's slots up to n pass while it waits: what is due lands, and a transfer due by then has its target issue next
(R285, R288 to R291; log 50). -/
def State.slotsPass (s : State) (c : CoreId) (n : Nat) : State :=
  (s.slotTo c n).coU (coreNo c) fun x =>
    let due := x.xfer.filter fun e => decide (e.1 ≤ n)
    { x with slot := n, pc := (due.getLast?.map (·.2)).getD x.pc, xfer := x.xfer.filter fun e => decide (n < e.1) }

/-- Every result in flight lands. -/
def Core.landRest (k : Core) : Core := k.landTo ((k.land.map (·.slot)).foldl max k.slot)
/-- A thread issues nothing further: results in flight land; its stores reach the shared memory at their own time (R291, R296). -/
def State.threadStops (s : State) (c : CoreId) : State := s.coU (coreNo c) fun k => { k.landRest with run := .faulted }

end Sys2Proof.Machine
end

