-- ==== Sys2Proof/Machine/Winnow.lean ====
section
/-! DEFINITION. Decisions of the Winnow filter: trie entries, legend codes, rule lookups and decision words (06, 09 R293,
R294). -/

namespace Sys2Proof.Machine

open Sys2Proof

/-- A trie leaf as the edge machine takes it (R136, R177); `idx` is its entry. -/
structure Leaf where
  idx      : Nat
  cls      : Nat
  action   : Nat
  check    : Bool
  aWidth   : Nat
  lanesA   : Nat
  lanesM   : Nat
  lanesD   : Nat
  mPresent : Bool
  wH       : Nat
  dDir     : Nat
  change   : Bool
  addr4    : Nat
  lenMin   : Nat
  lenMax   : Nat
  lenStep  : Nat
  alarm    : Nat
  context  : Nat
  contLeaf : Nat
  model    : Nat
  dtr      : Bool
deriving DecidableEq, Repr

/-- The lanes of a two-bit lane field (R177). -/
def laneField (n : Nat) : Nat := if n = 0 then 1 else if n = 1 then 2 else 4

/-- The leaf of a leaf entry (R177). -/
def leafOf (idx n : Nat) : Leaf :=
  { idx := idx, cls := bitsOf n 125 124, action := bitsOf n 123 121, check := bitOf n 120, aWidth := bitsOf n 119 118,
    lanesA := laneField (bitsOf n 117 116), lanesM := laneField (bitsOf n 115 114), lanesD := laneField (bitsOf n 113 112),
    mPresent := bitOf n 111, wH := bitsOf n 110 106, dDir := bitsOf n 105 104, change := bitOf n 103,
    addr4 := bitsOf n 102 101, lenMin := bitsOf n 99 86, lenMax := bitsOf n 85 72, lenStep := bitsOf n 71 68,
    alarm := bitsOf n 67 65, context := bitsOf n 64 58, contLeaf := bitsOf n 57 50, model := bitsOf n 49 47, dtr := bitOf n 100 }
/-- What an empty entry, or a branch after the last C edge, counts as: CLASS OTHER, DENY, ALARM 1 (R177). -/
def leafNone (idx : Nat) : Leaf :=
  { idx := idx, cls := 3, action := 1, check := false, aWidth := 0, lanesA := 1, lanesM := 1, lanesD := 1, mPresent := false,
    wH := 0, dDir := 0, change := false, addr4 := 0, lenMin := 0, lenMax := 0, lenStep := 0, alarm := 1, context := 0,
    contLeaf := 0, model := 0, dtr := false }
/-- The leaf that entry `idx` of a trie stands for when the walk ends there. -/
def PWin.leafAt (w : PWin) (cont : Bool) (idx : Nat) : Leaf :=
  let n := w.trieEntry cont idx
  if bitsOf n 127 126 = 2 then leafOf idx n else leafNone idx

/-- The child of branch entry n that value v selects (R178); indices stand in 8 bits. -/
def branchChild (n v : Nat) : Nat :=
  if bitOf n (94 + v) then (bitsOf n 117 110 + popCount (bitsOf n 109 94) v) % 256 else bitsOf n 125 118

/-- The walk of the NORMAL trie (R178): entry `idx` has been reached on edge k, `left` C edges follow; the leaf and the
edge on which it is reached, none where the frame ends before. -/
def PWin.walk (w : PWin) (cLanes : Nat) : List (BitVec 4) → Nat → Nat → Nat → Option (Nat × Leaf)
  | lanes, idx, k, left =>
    let n := w.trieEntry false idx
    if bitsOf n 127 126 = 1 ∧ left ≠ 0 then
      match lanes with
      | [] => none
      | v :: t => PWin.walk w cLanes t (branchChild n (v.toNat % 2 ^ cLanes)) (k + 1) (left - 1)
    else some (k - 1, w.leafAt false idx)

/-- The entries that the walk reads. -/
def PWin.walkPath (w : PWin) (cLanes : Nat) : List (BitVec 4) → Nat → Nat → List Nat
  | lanes, idx, left =>
    let n := w.trieEntry false idx
    if bitsOf n 127 126 = 1 ∧ left ≠ 0 then
      match lanes with
      | [] => [idx]
      | v :: t => idx :: PWin.walkPath w cLanes t (branchChild n (v.toNat % 2 ^ cLanes)) (left - 1)
    else [idx]

/-- A decision in force for a span: action, alarm, fill word, context, last address of the span, its source (0 leaf, 1
coarse map, 2 rule), and whether a refused lookup stands for it, or an uncorrectable coarse-map word (R172, R174, R188,
R212, R293). -/
structure Dec where
  action  : Nat
  alarm   : Nat
  fill    : Nat
  context : Nat
  last    : Nat
  source  : Nat
  refused : Bool := false
  coarse  : Bool := false
deriving DecidableEq, Repr

/-- The class's action of a legend entry (R182). -/
def legendAction (lg cls : Nat) : Nat := bitsOf lg (18 + 3 * cls) (16 + 3 * cls)

/-- The coarse code of a granule (R181). -/
def PWin.code (w : PWin) (g : Nat) : Nat :=
  let b := (byteAt w.coarse (g / 2)).toNat
  if g % 2 = 0 then b % 16 else b / 16

/-- The decision of the coarse map for an address; none for a granule that the rule table settles (R168, R181, R182,
R211). -/
def PWin.coarseDec (w : PWin) (cls a : Nat) : Option Dec :=
  let g := a / 65536
  let lg := w.legend (w.code g)
  let d : Nat → Dec := fun act =>
    { action := act, alarm := bitsOf lg 15 13, fill := bitsOf lg 12 11, context := bitsOf lg 10 4,
      last := 65536 * g + 65535, source := 1 }
  if bitOf lg 31 then (if w.coarseOnly then some (d (bitsOf lg 30 28)) else none)
  else
    let act := legendAction lg cls
    some (d (if w.coarseOnly then (if act = 2 then 1 else if act = 6 then 0 else act) else act))

/-- What a port's coarse map gives for an address: an uncorrectable word denies its granule (R212). -/
def State.coarseAt (s : State) (p cls a : Nat) : Option Dec :=
  if s.flaws.contains (.coarse p (a / 65536)) then
    some { action := 1, alarm := 7, fill := 0, context := 0, last := a / 65536 * 65536 + 65535, source := 1,
           refused := true, coarse := true }
  else (s.pw p).coarseDec cls a

/-- A decision word (R294). -/
def decWord (action alarm fill context span tag : Nat) (refused : Bool) (last : Nat) : W36 :=
  BitVec.ofNat 36 (action % 8 * 2 ^ 33 + alarm % 8 * 2 ^ 30 + fill % 4 * 2 ^ 28 + context % 128 * 2 ^ 21 + span % 16 * 2 ^ 17
    + tag % 4 * 2 ^ 15 + refused.toNat * 2 ^ 14 + last % 32 * 2 ^ 9)
/-- A decision word that is not dropped (R294). -/
def decWordOk (w : W36) : Bool :=
  decide (bitsOf w.toNat 35 33 ≠ 7) && decide (bitsOf w.toNat 13 9 ≤ 16) && decide (bitsOf w.toNat 8 0 = 0)
/-- SPAN of a decision word. -/
def decSpan (w : W36) : Nat := bitsOf w.toNat 20 17
/-- TAG of a decision word. -/
def decTag (w : W36) : Nat := bitsOf w.toNat 16 15
/-- The decision a word gives for a span that starts at address a (R188, R294). -/
def decOf (w : W36) (a : Nat) : Dec :=
  let n := w.toNat
  { action := bitsOf n 35 33, alarm := bitsOf n 32 30, fill := bitsOf n 29 28, context := bitsOf n 27 21,
    last := a / 65536 * 65536 + (if bitsOf n 13 9 = 16 then 65535 else 4096 * bitsOf n 13 9 + 4095), source := 2, refused := bitOf n 14 }

/-- The rule-table unit's answer to a lookup of a port, in the generation that its frame latched (R171, R186, R203, R293):
`dt` is in event-word form. -/
def State.lookupWord (s : State) (p : Nat) (index : BitVec 17) (dt : W36) : W36 :=
  let w := s.pw p
  let e := (s.rule w.genFrame index.toNat).toNat
  let d := dt.toNat
  let tag := bitsOf d 31 30
  let span := bitsOf d 29 26
  let cls := bitsOf d 25 24
  let sector := bitsOf d 15 0
  let build := (if w.genFrame then w.build1 else w.build0).toNat
  if !s.flaws.contains (.rule w.genFrame index.toNat) && w.gen != w.genN && bitOf e 127 && decide (bitsOf e 126 120 = p) && decide (bitsOf e 63 48 = build)
      && decide (bitsOf e 115 100 ≤ sector ∧ sector ≤ bitsOf e 99 84) && bitOf e (116 + cls) then
    decWord (bitsOf e 83 81) (bitsOf e 80 78) (bitsOf e 77 76) (bitsOf e 75 69) span tag false
      (if bitsOf e 99 84 / 16 = sector / 16 then bitsOf e 99 84 % 16 else 16)
  else decWord 1 1 0 0 span tag true 16

/-- The tag and span of a lookup whose entry is uncorrectable (R212). -/
def State.lookupEcc (s : State) (p : Nat) (index : BitVec 17) (dt : W36) : List (Nat × Nat) :=
  if s.flaws.contains (.rule (s.pw p).genFrame index.toNat) then [(bitsOf dt.toNat 31 30, bitsOf dt.toNat 29 26)] else []

/-- The port's chip size (R183). -/
def PWin.size (w : PWin) : Nat := 2 ^ (byteAt w.ctx 0x60).toNat
/-- The fill byte for address x (R192). -/
def PWin.fillByte (w : PWin) (sel x : Nat) : Byte := byteAt w.ctx (0x40 + 4 * sel + x % 4)

/-- An answer byte (R195, R197): `k` is the byte number of an unaddressed frame or the address of an addressed one. -/
def answerByte (w : PWin) (c : List Byte) (addressed : Bool) (k : Nat) : Byte :=
  let n := (byteAt c 1).toNat
  let r := (byteAt c 2).toNat
  let i := if addressed then k % n else if k < n then k else r + (k - n) % (n - r)
  let b := byteAt c (0x40 + i)
  if i = 0 ∧ byteAt c 3 = 1 then
    let wip := (byteAt w.ctx 0x61).toNat
    let wel := (byteAt w.ctx 0x62).toNat
    let b := b &&& ~~~ (BitVec.ofNat 8 (2 ^ wip)) &&& ~~~ (BitVec.ofNat 8 (2 ^ wel))
    b ||| BitVec.ofNat 8 (w.busy.toNat * 2 ^ wip) ||| BitVec.ofNat 8 (w.wel.toNat * 2 ^ wel)
  else b

/-- The port takes no thread decisions: its thread is faulted or stopped (R36, R296, R406). -/
def State.threadOff (s : State) (p : Nat) : Bool := decide ((s.co (8 + p)).run = .faulted ∨ (s.co (8 + p)).run = .stopped)
/-- RULE_LOOKUP_RESULT (R220, R293, R296): the oldest lookup of the port gets its word, which lands in Dd of the thread and,
with DIRECT, enters the port's decision path. -/
def execRuleLookupResult (p : PortId) (s : State) : Host.Outcome State Fault Refusal :=
  match (s.pd p.val).lookups with
  | [] => .next s
  | q :: t =>
    let w := s.lookupWord p.val q.index q.dt
    let bad := s.lookupEcc p.val q.index q.dt
    let s := s.pdU p.val fun d => { d with
      lookups := t, decs := if q.direct && !s.threadOff p.val then d.decs ++ [w] else d.decs, ecc := d.ecc ++ bad }
    .next (s.coU (8 + p.val) fun c => c.write (.d q.rd) (w.setWidth 72))

end Sys2Proof.Machine
end

