-- ==== Sys2Proof/Machine/Frame.lean ====
section
/-! DEFINITION. A host frame, edge by edge (05 R132 to R161, 06 R168 to R202, 08 R252 to R263). -/

namespace Sys2Proof.Machine

open Sys2Proof

/-! ### The shape of a frame (R136, R155, R168) -/

/-- Where the phases of a frame lie: counts in host edges. -/
structure Shape where
  nC     : Nat
  lanesC : Nat
  nA     : Nat
  nM     : Nat
  nW     : Nat
  leaf   : Leaf
deriving DecidableEq, Repr

/-- Address bytes of a leaf (R136, R177). -/
def Leaf.bytesA (l : Leaf) (addr4 : Bool) : Nat :=
  if l.aWidth = 0 then 0 else if l.aWidth = 1 then 3 else if l.aWidth = 2 then 4 else if addr4 then 4 else 3

/-- The shape that a leaf gives a frame; in continuous-read state there is no C phase. -/
def shapeOf (l : Leaf) (cLanes : Nat) (cont addr4 : Bool) : Shape :=
  let a := 8 * l.bytesA addr4 / l.lanesA
  { nC := if cont then 0 else 8 / cLanes, lanesC := cLanes, nA := a, nM := if l.mPresent && decide (a ≠ 0) then 8 / l.lanesM else 0,
    nW := l.wH, leaf := l }

/-- The frame has an address. -/
def Shape.addressed (h : Shape) : Bool := decide (h.nA ≠ 0)
/-- First M edge; the edge before it is eA in an addressed frame. -/
def Shape.m0 (h : Shape) : Nat := h.nC + h.nA
/-- eA: the address-complete edge. -/
def Shape.eA (h : Shape) : Nat := h.m0 - 1
/-- First wait edge. -/
def Shape.w0 (h : Shape) : Nat := h.m0 + h.nM
/-- eD: the first data edge, or the first edge past a frame without data. -/
def Shape.eD (h : Shape) : Nat := h.w0 + h.nW
/-- Data flows to the host. -/
def Shape.out (h : Shape) : Bool := decide (h.leaf.dDir = 2)
/-- Edges per data byte. -/
def Shape.epb (h : Shape) : Nat := 8 / h.leaf.lanesD
/-- Lanes on which the host drives edge k; 0 on a wait edge and in a data-out phase. Edges past a frame without data
count on the lanes of its last phase. -/
def Shape.lanesAt (h : Shape) (k : Nat) : Nat :=
  if k < h.nC then h.lanesC
  else if k < h.m0 then h.leaf.lanesA
  else if k < h.w0 then h.leaf.lanesM
  else if k < h.eD then 0
  else if h.out then 0
  else if h.leaf.dDir = 1 then h.leaf.lanesD
  else if h.nW ≠ 0 then 1
  else if h.nM ≠ 0 then h.leaf.lanesM
  else if h.nA ≠ 0 then h.leaf.lanesA
  else h.lanesC
/-- Bits that the host has driven, or the flash has sent, on the first n edges. -/
def Shape.bits (h : Shape) (n : Nat) : Nat :=
  (((List.range n).map h.lanesAt).sum) + (if h.out then (n - h.eD) * h.leaf.lanesD else 0)
/-- Bits the host drives on the first n edges. -/
def Shape.hostBits (h : Shape) (n : Nat) : Nat := ((List.range n).map h.lanesAt).sum
/-- The value of the bits on edges [a, a + n), most significant first, on `w` lanes. -/
def bitsVal (lanes : List (BitVec 4)) (a n w : Nat) : Nat :=
  ((lanes.drop a).take n).foldl (fun v x => v * 2 ^ w + x.toNat % 2 ^ w) 0
/-- The flash address of a frame, reduced modulo the part's size (R183). -/
def Shape.addr (h : Shape) (lanes : List (BitVec 4)) (size : Nat) : Nat := bitsVal lanes h.nC h.nA h.leaf.lanesA % size
/-- The edge on which M[7:4] is complete, one past it. -/
def Shape.mEdge (h : Shape) : Nat := h.m0 + (if h.leaf.lanesM = 4 then 1 else if h.leaf.lanesM = 2 then 2 else 4)
/-- M[7:4]. -/
def Shape.mBits (h : Shape) (lanes : List (BitVec 4)) : Nat := bitsVal lanes h.m0 (h.mEdge - h.m0) h.leaf.lanesM
/-- M[7:4] holds the entry value of the part's continuous read (R154, R527). -/
def PortParams.entry (q : PortParams) (m : Nat) : Bool :=
  decide (q.contMask ≠ 0) && decide (BitVec.ofNat 8 (16 * m) &&& q.contMask = q.contValue)
/-- Raise of LEN_SET in a frame that starts with ADDR4 set (R180). -/
def Shape.lenUp (h : Shape) (addr4 : Bool) : Nat := if h.leaf.aWidth = 3 && addr4 then 8 / h.leaf.lanesA else 0
/-- A frame length lies in LEN_SET (R180). -/
def Shape.lenOk (h : Shape) (addr4 : Bool) (n : Nat) : Bool :=
  let l := h.leaf
  let u := h.lenUp addr4
  if l.lenStep = 0 then decide (n = l.lenMin + u)
  else decide (l.lenMin + u ≤ n ∧ n ≤ l.lenMax + u ∧ (n - l.lenMin - u) % l.lenStep = 0)

/-! ### The frame under way -/

/-- A frame under way. `kill` is the edge after which the flash gets no pulse; `dead` a frame killed for both sides;
`words` the decision words that reach the edge machine, each with its edge; `missed` a span denied for want of a decision
and the edge of its effect point; `ecc` the spans whose lookup met an uncorrectable rule entry; `unready` the serve words
that are not ready for a fault of their own; `events` what else happens and has not yet, `cut` the edge from which no
decision of a thread comes (R37); `total` the host edges until Pn_HCS_N rises. -/
structure Fr where
  s        : State
  p        : Nat
  h        : Shape
  n        : Nat
  dark     : Bool
  addr     : Nat
  size     : Nat
  addr4    : Bool
  words    : List (Nat × W36) := []
  data     : List Byte := []
  kill     : Option Nat := none
  inM      : Bool := false
  dead     : Bool := false
  chaff    : Bool := false
  undec    : Bool := false
  alarmed  : Bool := false
  served   : Bool := false
  notReady : Bool := false
  filled   : Bool := false
  cur      : Option Dec := none
  span     : Nat := 0
  asked    : Bool := false
  next     : Option Dec := none
  host     : List Byte := []
  prev     : Option (List Byte) := none
  gl       : Option (Nat × List Byte × Bool × Nat) := none
  missed   : Option (Nat × Nat) := none
  ecc      : List Nat := []
  unready  : List (BitVec 28 × WordFault) := []
  events   : List (Nat × MidEvent) := []
  cut      : Option Nat := none
  total    : Nat := 0
deriving DecidableEq, Repr

/-- The frame tag of the frame under way. -/
def Fr.tag (f : Fr) : Nat := (f.s.pe f.p).tag.toNat
/-- The edge after which no pulse passes for a kill decided on edge k: one decided in the M phase after its first edge
waits for the last M bit (R156). -/
def Fr.killEdge (f : Fr) (k : Nat) : Nat := if f.h.m0 < k ∧ k < f.h.w0 then f.h.w0 else k
/-- The flash side is killed at edge k (R143). -/
def Fr.flashKill (f : Fr) (k : Nat) : Fr :=
  if f.kill.isSome then f else { f with kill := some (f.killEdge k), inM := decide (f.h.m0 < k ∧ k < f.h.w0) }
/-- The frame is killed at edge k for both sides. -/
def Fr.die (f : Fr) (k : Nat) : Fr := { f.flashKill k with dead := true }
/-- An alarm of the frame's port; a response that holds the port kills the frame before its commit (R142, R212). -/
def Fr.alarm (f : Fr) (code rank data k : Nat) : Fr :=
  if rank = 7 then f
  else
    let f := { f with s := f.s.raise code rank 1 f.p data }
    if f.s.heldNow f.p then f.die k else f
/-- DENY for a missing or refused decision (R170, R174, R212): 0x0206 once per frame, no FILTER alarm. -/
def Fr.undecided (f : Fr) (data k : Nat) : Fr :=
  let f := { f.die k with chaff := true, cur := none, missed := some (f.span, k) }
  if f.undec then f
  else
    let f := { f with undec := true, s := f.s.bump f.p .undecided 1 }
    f.alarm 0x0206 1 data k
/-- The FILTER alarm, once per frame (R174); a HOLD raises its own even after one (R175). Its DATA carries class and source
of the decision. -/
def Fr.filter (f : Fr) (d : Dec) (k : Nat) : Fr :=
  if (f.alarmed ∧ d.action ≠ 5) ∨ d.alarm = 7 then f
  else ({ f with alarmed := true }).alarm 0x0201 d.alarm (Config.filterData f.h.leaf.cls d.source).toNat k

/-- A context stands in a valid slot of the answer cache (R295). -/
def State.cached (s : State) (p ctx : Nat) : Option (List Byte) :=
  ((s.pd p).cache.find? fun e => e.2.valid && decide (e.2.context.toNat = ctx)).map (·.2.bytes)

/-- What an action does in DARK (R263): a substituted DENY raises no FILTER alarm; a GLEAN that names no glean context is
still a missing decision (R199). The table has no row for a SERVE that names no pin context at an address the set does not
cover: DENY (DESIGN CHOICE, log 52). -/
def Fr.darkDec (f : Fr) (d : Dec) (a : Nat) : Dec :=
  let deny : Dec := { d with action := 1, alarm := 7 }
  if !f.dark then d
  else if d.action = 1 ∨ d.action = 2 ∨ d.action = 3 ∨ d.action = 5 ∨ d.action = 7 then d
  else if f.h.out && f.h.addressed then
    if d.action = 4 then (if f.s.ctxKind f.p d.context = 3 || f.s.setCovers f.p a then d else deny)
    else if d.action = 6 && decide (f.s.ctxKind f.p d.context ≠ 2) then d
    else if f.s.setCovers f.p a then { d with action := 4, context := 0 } else deny
  else deny

/-- A decision names a context of the KIND its action needs, and the context can be read (R199, R223, R255, R259, R384). -/
def Fr.contextOk (f : Fr) (d : Dec) : Bool :=
  let k := f.s.ctxKind f.p d.context
  if d.action = 7 then false
  else if d.action = 2 then !f.s.flaws.contains (.context f.p 0)
  else if (d.action = 3 || d.action = 4 || d.action = 6) && f.s.flaws.contains (.context f.p d.context) then false
  else if d.action = 3 then decide (k = 1) && (f.s.cached f.p d.context).isSome
  else if d.action = 4 then f.dark || decide (k = 3)
  else if d.action = 6 then decide (k = 2)
  else true

/-- A span's decision takes effect at edge k, for a span that starts at address a (R169 to R175, R190, R260). -/
def Fr.apply (f : Fr) (d0 : Dec) (a k : Nat) : Fr :=
  let d := f.darkDec d0 a
  let was : Nat := (f.cur.map (·.action)).getD 0
  if f.dead then f
  else if !f.contextOk d then f.undecided 0 k
  else if d.action = 4 ∧ (f.s.pw f.p).voidPins.contains d.context then
    let f := if f.span ≠ 0 ∧ was = 4 then { f with s := f.s.bump f.p .severed 1 } else f
    ({ f.die k with chaff := true }).alarm 0x0203 1 noData k
  else if d.action = 1 ∨ d.action = 5 then
    let f := if f.span ≠ 0 ∧ was = 4 then { f with s := f.s.bump f.p .severed 1 } else f
    let f := { f.die k with chaff := true, cur := some d }
    if d.refused then f.undecided (if d.coarse then 3 else if f.ecc.contains (f.span % 16) then 2 else 1) k else f.filter d k
  else if f.span ≠ 0 ∧ was = 4 ∧ d.action ≠ 4 then
    { f.die k with s := f.s.bump f.p .severed 1, cur := none }
  else
    let f := { f with cur := some d }
    let f := if d.action = 3 ∨ d.action = 4 then f.flashKill k else f
    if d.action = 2 then f.filter d k else f

/-! ### Later spans (R189) -/

/-- The first decision word for a span to arrive by edge k (R37, R166, R222). -/
def Fr.word (f : Fr) (span k : Nat) : Option (Nat × W36) :=
  (f.words.filter fun e => decide (decSpan e.2 = span % 16) && decide (e.1 ≤ k)
      && (match f.cut with | none => true | some c => decide (e.1 ≤ c))).foldl (fun best e =>
    match best with
    | none => some e
    | some b => if e.1 < b.1 then some e else best) none

/-- Words of spans that are over by edge k go: two are in flight at most, for span t and the next (R222). -/
def Fr.prune (f : Fr) (t k : Nat) : Fr :=
  { f with words := f.words.filter fun e =>
    !decide (e.1 ≤ k) || decide (decSpan e.2 = t % 16) || decide (decSpan e.2 = (t + 1) % 16) }
/-- The decision for the next span is requested: from the coarse map at once, else with a NEXT event (R189, R292). -/
def Fr.ask (f : Fr) : Fr :=
  match f.cur with
  | none => f
  | some d =>
    if f.asked || f.dead then f
    else
      let a := (d.last + 1) % f.size
      match f.s.coarseAt f.p f.h.leaf.cls a with
      | some x => { f with asked := true, next := some x }
      | none => { f with
        asked := true, next := none,
        s := f.s.pushEvent f.p (eventWord 3 f.tag (f.span + 1) f.h.leaf.cls f.h.leaf.idx (a / 4096)) }

/-- The request is due at the byte of address a: the byte at E − 255 or beyond it. -/
def Fr.askDue (f : Fr) (a : Nat) : Fr :=
  match f.cur with
  | none => f
  | some d => if f.h.leaf.check && f.h.addressed && f.h.out && decide ((d.last + f.size - a) % f.size ≤ 255) then f.ask else f

/-- At the first byte of a new span, address a, its decision acts; k is the edge before the byte (R190). -/
def Fr.turn (f : Fr) (a k : Nat) : Fr :=
  match f.cur with
  | none => f
  | some d =>
    if f.h.leaf.check && f.h.addressed && decide (a = (d.last + 1) % f.size) then
      let found := match f.next with
        | some x => some x
        | none => if f.asked then (f.word (f.span + 1) k).map fun e => decOf e.2 a else none
      let f := ({ f with span := f.span + 1, asked := false, next := none }).prune (f.span + 1) k
      match found with
      | some x => f.apply x a k
      | none => f.undecided 0 k
    else f

/-! ### What else happens while the frame runs (R37, R142, R212, R253, R382) -/

/-- Insert an event behind those after no later edge. -/
def insEvent (x : Nat × MidEvent) : List (Nat × MidEvent) → List (Nat × MidEvent)
  | [] => [x]
  | y :: t => if x.1 < y.1 then x :: y :: t else y :: insEvent x t
/-- The frame's sequencer has retired after edge k: the coarse map alone decides; a first decision that waits for a rule
lookup resolves to DENY (R37; log 52). -/
def Fr.orphaned (f : Fr) (k : Nat) : Fr :=
  let f := { f with cut := some k }
  if f.h.leaf.check && f.cur.isNone && !f.dead && f.h.addressed && decide (f.h.eA ≤ k) && (f.word 0 k).isNone then f.undecided 0 k
  else f
/-- What an event does to the device. -/
def midEvent (p : Nat) (x : MidEvent) (s : State) : State :=
  match x with
  | .alarm code tkind target => if (romRank code.toNat).isSome then s.raiseReg code.toNat tkind.val target.toNat noData else s
  | .filter q rank => s.raise 0x0201 rank.val 1 q.val noData
  | .portAlarm code q rank => if 0x0201 ≤ code.toNat ∧ code.toNat ≤ 0x0205 then s.raise code.toNat rank.val 1 q.val noData else s
  | .pgFall q => after (execPgFall q s) s
  | .probe k i pass => after (execProbe k i pass s) s
  | .glean check => after (execGleanHalfLeaf (Fin.ofNat 96 p) check s) s
  | .crossing => (s.chanError .port p 1).gnoby 1 p
/-- An event after edge k: where it holds the port, the frame is killed before its commit; after a glean mismatch the
frame's later leaves count UNOBSERVED (R142, R212, R253). -/
def Fr.mid (f : Fr) (k : Nat) (x : MidEvent) : Fr :=
  let was := f.s.heldNow f.p
  let on := f.s.chanRetired .sequencer (sheafOf f.p)
  let f := { f with s := midEvent f.p x f.s }
  let f := if f.s.chanRetired .sequencer (sheafOf f.p) && !on then f.orphaned k else f
  if was || !f.s.heldNow f.p then f
  else
    let f := f.die k
    match x with
    | .glean _ => { f with s := f.s.gleanDropOf f.p }
    | _ => f
/-- The events after edges before k happen. -/
def Fr.upTo (f : Fr) (k : Nat) : Fr :=
  (f.events.filter fun e => decide (e.1 < k)).foldl (fun f e => f.mid e.1 e.2)
    { f with events := f.events.filter fun e => !decide (e.1 < k) }
/-- All events that are left happen. -/
def Fr.rest (f : Fr) : Fr := f.events.foldl (fun f e => f.mid e.1 e.2) { f with events := [] }

/-! ### Serving (R256 to R258) -/

/-- The 16 bytes that stand for host address x and its word, if a good check holds: the group exists, its page is not
BAD, no relocation has it and the Granary can be read. -/
def State.serveWord (s : State) (p ctx x : Nat) : Option (List Byte) :=
  let a := x / 16 * 16
  let slot : Slot := if (s.pv p).chosen = 2 then .b else .a
  let key := if s.ctxKind p ctx = 3 then pinKey p slot a else setKey p a
  let g := Tab.get 0 s.gran.srvDir key
  if g = 0 || !s.granReady || s.relocating g || decide (pageUse (s.page (8 * g + a / 256 % 8)) = 7) then none
  else some (s.granGet (2048 * g + a % 2048) 16)
/-- The word after the one at x in the order of a span. -/
def ServeSpan.step (t : ServeSpan) (x : Nat) : Nat := if x + 16 = t.size then 0 else x + 16
/-- One serve slot of a port: the next word of its span goes to the serve buffer, which holds up to 4; a word that is not
ready is retried at the next slot. `bad` names words with a fault of their own (R256, R257). -/
def State.serveSlot (s : State) (p : Nat) (bad : Nat → Bool) : State :=
  let g := s.pg p
  match g.span with
  | none => s
  | some t =>
    if 4 ≤ g.serve.length ∨ t.last < t.next ∨ bad t.next then s
    else match s.serveWord p t.ctx t.next with
      | none => s
      | some bs => s.pgU p fun g => { g with serve := g.serve ++ [(t.next, bs)], span := some { t with next := t.step t.next } }
/-- The slots before a launch point: read-ahead as far as the buffer holds (R256). -/
def State.serveAhead (s : State) (p : Nat) (bad : Nat → Bool) : State := (List.range 4).foldl (fun s _ => s.serveSlot p bad) s

/-- How far an address lies ahead of the word w0 in a span; in one that goes on at 0 addresses count round the part. -/
def aheadOf (size w0 x : Nat) : Option Nat :=
  if size = 0 then (if w0 ≤ x then some (x - w0) else none)
  else if (x + size - w0) % size ≤ 64 then some ((x + size - w0) % size) else none
/-- Reads go on at the word w0 of a SERVE span: from where they stand if the span is the same, else from there. -/
def serveFrom (ctx last size w0 : Nat) (g : PGran) : PGran :=
  let next := match g.span with
    | some t => if t.ctx = ctx ∧ t.last = last ∧ (aheadOf size w0 t.next).isSome then t.next else w0
    | none => w0
  { g with serve := g.serve.filter (fun e => (aheadOf size w0 e.1).isSome), span := some { ctx := ctx, next := next, last := last, size := size } }

/-- The fault of a word that stands in a frame's `unready`, by host address (R257, R406): a late beat holds the port that
took the turn. -/
def State.wordFault (s : State) (p : Nat) : WordFault → State
  | .granary => s
  | .beat => (s.chanError .port p 1).gnoby 1 p
  | .buffer => s.chanError .port p 2
  | .late q => (s.chanError .port q.val 8).holdPort q.val
/-- The word of address x has a fault of its own in this frame. -/
def Fr.faulty (f : Fr) (x : Nat) : Bool := f.unready.any fun e => decide (e.1.toNat / 16 = x / 16)

/-- The size at which a span goes on at address 0: that of the part where an unchecked leaf's span runs to its end (R183). -/
def Fr.wraps (f : Fr) (d : Dec) : Nat := if !f.h.leaf.check && decide (d.last + 1 = f.size) then f.size else 0
/-- The launch point of the word at address x of a SERVE span: it comes out of the serve buffer, or the treatment of a word
that is not ready is chosen and the reads go on with the next word (R256 to R258). -/
def Fr.newWord (f : Fr) (d : Dec) (x : Nat) (k : Nat) : Fr :=
  let w0 := x / 16 * 16
  let f := { f with s := (f.s.pgU f.p (serveFrom d.context d.last (f.wraps d) w0)).serveAhead f.p f.faulty }
  let f := match (f.unready.find? fun e => decide (e.1.toNat / 16 = x / 16)).map (·.2) with
    | some y => { f with s := f.s.wordFault f.p y }
    | none => f
  let f : Fr := if f.faulty x ∧ f.s.heldNow f.p = true then f.die k else f
  match ((f.s.pg f.p).serve.find? fun e => decide (e.1 = w0)).map (·.2) with
  | some bs =>
    let f := { f with prev := some bs, s := f.s.pgU f.p fun g => { g with serve := g.serve.filter fun e => decide (e.1 ≠ w0) } }
    if f.served then f else { f with served := true, s := f.s.bump f.p .served 1 }
  | none =>
    let w := f.s.pw f.p
    let c := (byteAt w.ctx 0x63).toNat
    let f := { f with s := (f.s.bump f.p .notReady 1).pgU f.p fun g => { g with
      notReadySeen := true, span := g.span.map fun (t : ServeSpan) => { t with next := if t.next = w0 then t.step w0 else t.next } } }
    let busy := (List.range 16).map fun i => w.fillByte (c % 4) i
    let f : Fr := match bitOf c 7, f.prev with
      | true, some _ => { f with s := (f.s.bump f.p .repeated 1).pgU f.p fun g => { g with underrun := true } }
      | _, _ => { f with prev := some busy }
    if f.notReady then f else ({ f with notReady := true }).alarm 0x0203 (bitsOf c 6 4) noData k

/-! ### The data phase -/

/-- A leaf under way leaves its GLEAN span unfinished (R252). -/
def Fr.gleanCut (f : Fr) : Fr :=
  match f.gl with
  | some g => { f with gl := none, s := f.s.leafPart f.p g.1 }
  | none => f

/-- A byte of a GLEAN span goes to the glean buffer; `whole` says that its last edge has come (R252). -/
def Fr.gleanByte (f : Fr) (d : Dec) (a : Nat) (b : Byte) (done : Bool) : Fr :=
  let base := a / 256 * 256
  let f := match f.gl with
    | some g => if g.1 = base then f else f.gleanCut
    | none => f
  let rank := (byteAt (f.s.context f.p d.context) 1).toNat
  let g := f.gl.getD (base, [], decide (a % 256 = 0), rank)
  let bs := g.2.1 ++ [b]
  if a % 256 ≠ 255 then { f with gl := some (base, bs, g.2.2.1, g.2.2.2) }
  else if g.2.2.1 && done then { f with gl := none, s := f.s.leafWhole f.p base bs g.2.2.2 }
  else { f with gl := none, s := f.s.leafPart f.p base }

/-- A state-changing frame with an address and a data-out phase: its decision has until the rise of Pn_HCS_N, and the flash's data
passes to the host until it acts (R169). -/
def Fr.lateRule (f : Fr) : Bool := f.h.out && f.h.leaf.change && f.h.addressed && f.h.leaf.check
/-- In DARK a span served from the serve set runs past what the set covers: DENY from there, a SERVE span left (R190, R263). -/
def Fr.pastSet (f : Fr) (a k : Nat) : Fr :=
  match f.cur with
  | none => f
  | some d =>
    if f.dark && !f.dead && decide (d.action = 4) && decide (f.s.ctxKind f.p d.context ≠ 3) && !f.s.setCovers f.p a then
      { f.die k with chaff := true, cur := none, s := f.s.bump f.p .severed 1 }
    else f

/-- Data byte j of the frame goes to the host (R140, R172, R190 to R197, R256). -/
def Fr.byte (f : Fr) (j : Nat) : Fr :=
  let e := f.h.eD + j * f.h.epb
  let a := if f.h.addressed then (f.addr + j) % f.size else j
  let f := f.upTo e
  let f := if j = 0 then f else (f.turn a (e - 1)).pastSet a (e - 1)
  if f.dead then f.gleanCut
  else match f.cur with
  | none => if f.lateRule then { f with host := f.host ++ [f.data.getD j 0xFF] } else f
  | some d =>
    let f := f.askDue a
    let f := if d.action = 6 then f else f.gleanCut
    let w := f.s.pw f.p
    if d.action = 2 then { f with filled := true, host := f.host ++ [w.fillByte d.fill a] }
    else if d.action = 3 then
      { f with host := f.host ++ [answerByte w ((f.s.cached f.p d.context).getD []) f.h.addressed a] }
    else if d.action = 4 then
      let f := if a % 16 = 0 ∨ j = 0 ∨ a = (d.last + 1) % f.size then f.newWord d a (e - 1) else f
      if f.dead then f else { f with host := f.host ++ [byteAt (f.prev.getD []) (a % 16)] }
    else
      let b := f.data.getD j 0xFF
      let f := { f with host := f.host ++ [b] }
      if d.action = 6 ∧ f.h.addressed then f.gleanByte d a b (decide (e + f.h.epb ≤ f.n)) else f

/-- The falling edge before edge e has come: in mode 0 once edge e − 1 is over, in mode 3 with edge e (R133, R169). -/
def Fr.fell (f : Fr) (e : Nat) : Bool := if (f.s.pe f.p).params.mode3 then decide (e < f.n) else decide (e ≤ f.n)
/-- The data bytes from j on whose first edge comes; a span that begins at the falling edge after the last one still takes
its decision (R169). -/
def Fr.bytes (f : Fr) : Nat → Nat → Fr
  | 0, _ => f
  | m + 1, j =>
    let e := f.h.eD + j * f.h.epb
    if f.dead then f
    else if f.n ≤ e then
      (if f.fell e && decide (j ≠ 0) then f.turn (if f.h.addressed then (f.addr + j) % f.size else j) (e - 1) else f)
    else (f.byte j).bytes m (j + 1)

/-! ### The first decision (R168 to R170) -/

/-- The data bytes whose first edge comes before edge k go out while the frame has no decision yet (R169). -/
def Fr.plain (f : Fr) (k : Nat) : Fr := (List.range ((k - f.h.eD + f.h.epb - 1) / f.h.epb)).foldl (fun f j => f.byte j) f

/-- The flash samples the catch-up pulse: a data-out phase without wait edges is reached (R141). -/
def Fr.catches (f : Fr) : Bool :=
  f.h.out && decide (f.h.nW = 0) && f.fell f.h.eD && (match f.kill with | none => true | some k => decide (f.h.eD ≤ k))

/-- M[7:4] with the entry value where the host profile declares no continuous-read use is a breach, also in a frame that the flash
does not see any more (R156, R161). -/
def Fr.mBreach (f : Fr) (lanes : List (BitVec 4)) : Fr :=
  let f := f.upTo f.h.m0
  let q := (f.s.pe f.p).params
  if f.h.nM = 0 ∨ f.n < f.h.mEdge ∨ q.contUse = true then f
  else if q.entry (f.h.mBits lanes) then
    ({ f.die f.h.m0 with s := f.s.bump f.p .breach 1 }).alarm 0x0204 q.breachRank noData f.h.m0
  else f

/-- The decision of the first span where the leaf (a FILL takes FILL0, a SERVE or GLEAN the leaf's CONTEXT: DESIGN CHOICE, log 58) or
the coarse map gives it, at its edge; a mixed granule asks the
thread with a LOOKUP event (R168, R169, R292). -/
def Fr.first (f : Fr) (eL : Nat) : Fr :=
  let l := f.h.leaf
  let k := if l.check ∨ (l.action = 4 ∧ f.h.addressed = true) then f.h.eA else eL
  let f := f.upTo k
  if f.dead then f
  else if !l.check then
    let d : Dec := { action := l.action, alarm := l.alarm, fill := 0, context := l.context, last := f.size - 1, source := 0 }
    if f.n ≤ k then f else f.apply d f.addr k
  else if !f.h.addressed || decide (f.n ≤ f.h.eA) then f
  else match f.s.coarseAt f.p l.cls f.addr with
    | some d => (f.apply d f.addr f.h.eA).askDue f.addr
    | none => { f with s := f.s.pushEvent f.p (eventWord 2 f.tag 0 l.cls l.idx (f.addr / 4096)) }

/-- The rule decision of the first span. A data-out frame needs it by e(eD − 1); any other by its rise, where `rise`
looks again. -/
def Fr.rule (f : Fr) : Fr :=
  let f := f.upTo (min f.n (match f.word 0 f.n with | some e => max f.h.eA e.1 | none => if f.h.out && !f.lateRule then f.h.eD else f.n))
  if !f.h.leaf.check || f.cur.isSome || f.dead then f
  else
    let w := if f.h.addressed && decide (f.h.eA < f.n) then f.word 0 f.n else none
    if f.h.out && !f.lateRule then
      let point := f.fell f.h.eD
      match w with
      | some e =>
        if e.1 < f.h.eD then (f.apply (decOf e.2 f.addr) f.addr (max f.h.eA (min e.1 (f.n - 1)))).askDue f.addr
        else if point then f.undecided 0 (f.h.eD - 1)
        else f.apply (decOf e.2 f.addr) f.addr (f.n - 1)
      | none => if point then f.undecided 0 (f.h.eD - 1) else f
    else match w with
      | some e => if e.1 < f.n then (if f.lateRule then f.plain (max f.h.eA e.1) else f).apply (decOf e.2 f.addr) f.addr (max f.h.eA e.1) else f
      | none => f

/-! ### The end of a frame -/

/-- Decisions dropped because the frame had ended or its span was already denied (R166, R170, R212). -/
def Fr.lates (f : Fr) : Nat :=
  (f.words.filter fun e => decide (f.n < e.1) || (match f.missed with
    | some m => decide (decSpan e.2 = m.1 % 16) && decide (m.2 < e.1)
    | none => false)).length

/-- How a frame stops: at the rise of Pn_HCS_N, by the stall timeout, by a short clock phase, by an abort. -/
inductive Stop | rise | stall | breach | abort
deriving DecidableEq, Repr

/-- The rise of Pn_HCS_N after a leaf (R148, R158, R159, R169, R170): RAGGED, the missing decision, LEN_SET. A frame that
both rules kill counts in both; in chaff a ragged one counts only when a decision denied it. -/
def Fr.rise (f : Fr) : Fr :=
  let k := f.n - 1
  let ragged := decide (f.h.bits f.total % 8 ≠ 0)
  let f := if ragged then { f with s := f.s.bump f.p .ragged 1 } else f
  let long := f.kill.isNone && !f.dead && f.h.leaf.change && !(f.h.lenOk f.addr4 f.n)
  let f :=
    if !f.h.leaf.check || f.cur.isSome || f.dead || (f.h.out && !f.lateRule) then f
    else match (if f.h.addressed && decide (f.h.eA < f.n) then f.word 0 f.n else none) with
      | some e => f.apply (decOf e.2 f.addr) f.addr k
      | none => f.undecided 0 k
  if long then { f.die k with s := f.s.bump f.p .length 1, chaff := f.chaff || !ragged } else f

/-- A stall, a breach or an abort kills the frame after its last edge (R142, R160, R161). Each breach of a frame counts in BREACH and
raises its alarm (DESIGN CHOICE, log 58). -/
def Fr.stopped (f : Fr) (st : Stop) : Fr :=
  let q := (f.s.pe f.p).params
  let k := f.n - 1
  match st with
  | .rise => f
  | .stall => ({ f.die k with s := f.s.bump f.p .stalled 1 }).alarm 0x0205 q.stallRank noData k
  | .breach => ({ f.die k with s := f.s.bump f.p .breach 1 }).alarm 0x0204 q.breachRank noData k
  | .abort => f.die k

/-- CONT after a frame whose M bits the flash received, on the edges that came after an abort too (R137, R154 to R156). A frame
with CHANGE 0 whose rise lies inside the M phase passes with its make-up pulse as any ragged frame (R159), so the flash gets part of
M; CONT follows M[7:4] where they came whole (DESIGN CHOICE, log 58). -/
def Fr.contBits (f : Fr) (lanes : List (BitVec 4)) : State :=
  let e := f.s.pe f.p
  let l := f.h.leaf
  if f.h.nM = 0 ∨ f.total < f.h.mEdge ∨ (e.cont = false ∧ l.contLeaf = 0) then f.s
  else
    let v := e.params.entry (f.h.mBits lanes)
    f.s.peU f.p fun x => { x with cont := v, contLeaf := if v && !e.cont then BitVec.ofNat 8 l.contLeaf else x.contLeaf }

/-- The commit of a frame (R137, R142, R196, R201). -/
def Fr.commit (f : Fr) (lanes : List (BitVec 4)) : State :=
  let l := f.h.leaf
  let s := if f.dark then f.s else
    let s := f.contBits lanes
    let s := if l.addr4 = 1 then s.peU f.p fun x => { x with addr4 := true }
      else if l.addr4 = 2 then s.peU f.p fun x => { x with addr4 := false } else s
    s.pwU f.p fun w =>
      if l.model = 1 then { w with wel := true }
      else if l.model = 2 then { w with wel := false }
      else if 3 ≤ l.model ∧ l.model ≤ 6 then { w with wel := false, busy := true } else w
  if f.filled then s.bump f.p .filled 1 else s

/-- The levels of the data lanes at the edges of a byte on w lanes, most significant bits first: HIO[1], HIO[1:0] or
HIO[3:0] (R152, R153). -/
def laneBits (w : Nat) (b : Byte) : List (BitVec 4) :=
  (List.range (8 / w)).map fun i => BitVec.ofNat 4 (b.toNat / 2 ^ (8 - w * (i + 1)) % 2 ^ w * (if w = 1 then 2 else 1))
/-- What the pins carried (R138, R141, R143, R148, R152, R153). A kill inside the M phase waits until the flash has the last
M bit, with the make-up pulse where the frame ends on it (R156). -/
def Fr.pins (f : Fr) (lanes : List (BitVec 4)) (ended : FrameEnd) : FrameOut :=
  let n := f.total
  let w := f.h.leaf.lanesD
  let host : FrameOut := { host := f.host, ended := ended, hioMask := if f.host = [] then 0 else if w = 1 then 2 else if w = 2 then 3 else 15,
                           hio := (f.host.flatMap (laneBits w)).take (f.n - f.h.eD) }
  let cap := if f.h.leaf.change then f.h.leaf.lenMax + f.h.lenUp f.addr4 - 1 else n
  let pulses := min (min (n - 1) cap) (f.kill.getD (n - 1))
  let catch_ := f.catches
  let mk := (f.kill.isNone && !f.dead && !catch_) || (f.inM && decide (n = f.h.w0))
  let took := if catch_ then max f.h.eD (pulses + 1) else if mk then pulses + 1 else pulses
  let driven := (List.range (min took n)).filter fun k => decide (f.h.lanesAt k ≠ 0)
  if f.dark then host
  else { host with flash := driven.map fun k => lanes.getD k 0, pulses := pulses, makeUp := mk, catchUp := catch_,
                   spoil := f.kill.isSome && decide (f.h.hostBits (min took n) % 8 = 0) }

/-- The END event with the class of the frame's leaf and its span, the pins of the frame and, after a select-high, a pending
flip (R160, R206, R292). -/
def State.frameEnd (s : State) (p : Nat) (cls span : Nat) (out : FrameOut) : State :=
  let code := match out.ended with | .stalled => 2 | .killed => 1 | _ => 0
  let s := s.peU p fun e => { e with out := out }
  let s := s.pushEvent p (eventWord 4 (s.pe p).tag.toNat span cls code 0)
  if out.ended ≠ .stalled ∧ (s.pw p).flipPend = true then s.takeFlip p else s

/-- The port's trie entry cannot be read: its thread faults (R296, R384). -/
def State.trieFault (s : State) (c : CoreId) : State :=
  let i := coreNo c
  let s := (s.threadStops c).coU i fun k => { k with thCause := 7 }
  s.chanError .sequencer (i / 8 - 1) 2

/-- The end of a frame that reached no leaf: the decision words with its tag are LATE (R158, R166). -/
def Fr.noLeaf (f : Fr) (lanes : List (BitVec 4)) (ended : FrameEnd) : State :=
  let f := f.rest
  let s := if f.words = [] then f.s else f.s.bump f.p .late f.words.length
  s.frameEnd f.p 0 0 (if ended = .empty && !f.dead then { ended := .empty } else f.pins lanes (if ended = .empty then .killed else ended))
/-- The rest of a frame whose leaf has been reached on edge eL. RAGGED is judged at the
rise of Pn_HCS_N, over the edges after a breach or an abort too (R159). -/
def Fr.run (f : Fr) (lanes : List (BitVec 4)) (eL : Nat) (st : Stop) : State :=
  let f := f.first eL
  let early := match f.word 0 f.n with | some e => decide (e.1 < f.h.mEdge) | none => false
  let f := if early then (f.rule).mBreach lanes else (f.mBreach lanes).rule
  let f := if f.h.out then f.bytes f.n f.host.length else f
  let f := f.upTo f.n
  let f := f.stopped st
  let f := if st = .stall then f else f.rise
  let f := f.rest.gleanCut
  let passed := f.kill.isNone && !f.dead
  let s := if passed then f.commit lanes
    else if f.inM && decide (f.h.w0 ≤ f.total) then f.contBits lanes else f.s
  let s := if f.chaff then s.bump f.p (chaffCtr f.h.leaf.cls) 1 else s
  let s := if f.lates = 0 then s else s.bump f.p .late f.lates
  s.frameEnd f.p f.h.leaf.cls f.span (f.pins lanes (if st = .stall then .stalled else if passed then .committed else .killed))

/-- The words that reach the port's decision path during a frame, each with its edge: those handed over before it within
3 edges (R165), then the frame's own but for those dropped at the crossing (R382); none of a thread that is faulted or
stopped (R296). -/
def State.frameWords (s : State) (p : Nat) (f : FrameIn) : List (Nat × W36) :=
  if s.threadOff p then []
  else ((s.pd p).decs.map fun w => (3, w)) ++ f.arrivals.filterMap fun e =>
    match e.2 with | .dcs w => some (e.1, w) | .lookup i dt => some (e.1, s.lookupWord p i dt) | .failed => none
/-- The edges of the words dropped at the crossing. -/
def lostEdges (f : FrameIn) : List Nat := (f.arrivals.filter fun e => decide (e.2 = .failed)).map (·.1)
/-- The events of a frame in the order of their edges, the crossing failures among them. -/
def frameEvents (f : FrameIn) : List (Nat × MidEvent) :=
  ((lostEdges f).map fun e => (e, MidEvent.crossing)).foldl (fun l x => insEvent x l) (f.events.foldl (fun l x => insEvent x l) [])
/-- The tags and spans of the port's lookups that met an uncorrectable entry. -/
def State.frameEcc (s : State) (p : Nat) (f : FrameIn) : List (Nat × Nat) :=
  (s.pd p).ecc ++ f.arrivals.flatMap fun e => match e.2 with | .lookup i dt => s.lookupEcc p i dt | _ => []

/-- A fall of Pn_HCS_N on a port that is not in PASS or DARK: counted, and noted once per hold (R132, R166). -/
def State.heldFrame (s : State) (p : Nat) (f : FrameIn) (words : Nat) : State :=
  let s := s.bump p .heldActivity 1
  let s := if words = 0 then s else s.bump p .late words
  let s := s.peU p fun e => { e with out := { ended := .ignored } }
  let s := s.each (frameEvents f) fun s x => midEvent p x.2 s
  if (s.ph p).noted then s else (s.phU p fun h => { h with noted := true }).raise 0x0207 0 1 p noData

/-- A frame from the fall of Pn_HCS_N to its end (R131 to R133, R137, R142, R158, R166, R171, R178, R179); without VDD_AON,
in OFF and on a bank that is not good the balls are dead (R500, R505). LAST_CMD keeps its value where a leaf is reached but
the frame ends before its command byte is complete (DESIGN CHOICE, log 52). -/
def State.frame (s : State) (p : Nat) (f : FrameIn) (st : Stop) : State :=
  if s.boot.dev = .off || !s.bankUp p then s
  else
    let s := s.peU p fun e => { e with tag := e.tag + 1 }
    let s := s.pwU p fun w => { w with genFrame := w.gen }
    let all := s.frameWords p f
    let ecc := s.frameEcc p f
    let s := s.pdU p fun d => { d with decs := [], ecc := [] }
    let hold := s.ph p
    if hold.mode ≠ .pass ∧ hold.mode ≠ .dark then s.heldFrame p f all.length
    else
      let e := s.pe p
      let w := s.pw p
      let tag := e.tag.toNat
      let late := all.filter fun x => decide (decTag x.2 ≠ tag)
      let words := all.filter fun x => decide (decTag x.2 = tag) && decWordOk x.2
      let s := if late = [] then s else s.bump p .late late.length
      let s := s.pgU p fun g => { g with serve := [], span := none }
      let n := f.lanes.length
      let lanes := f.lanes ++ (if st = .rise then [] else f.tail)
      let bad := decide (f.clkHigh ≠ e.params.mode3)
      let start : Fr := { s := s, p := p, h := shapeOf (leafNone 0) e.params.cLanes e.cont e.addr4, n := n, dark := decide (hold.mode = .dark),
                          addr := 0, size := w.size, addr4 := e.addr4, words := words, unready := f.unready,
                          ecc := (ecc.filter fun x => decide (x.1 = tag)).map (·.2), events := frameEvents f, total := lanes.length }
      let start := if bad then ({ start.die 0 with s := s.bump p .breach 1 }).alarm 0x0204 e.params.breachRank noData 0
        else start
      if n = 0 then ((start.upTo 1).stopped st).noLeaf [] (if st = .stall then .stalled else if st = .rise then .empty else .killed)
      else
        let found := if e.cont then some (0, w.leafAt true e.contLeaf.toNat)
          else w.walk e.params.cLanes f.lanes 0 0 (8 / e.params.cLanes)
        let path := if e.cont then [256 + e.contLeaf.toNat] else w.walkPath e.params.cLanes f.lanes 0 (8 / e.params.cLanes)
        let trieBad := path.any fun i => s.flaws.contains (.trie p i)
        let found := if trieBad then found.map fun x => (x.1, { leafNone x.2.idx with check := true }) else found
        match found with
        | none =>
          let q := (start.upTo n).stopped st
          let q := if st = .stall then q else { q.die (n - 1) with s := q.s.bump p .ragged 1 }
          q.noLeaf lanes (if st = .stall then .stalled else .killed)
        | some (eL, l) =>
          let start := start.upTo eL
          let h := shapeOf l e.params.cLanes e.cont e.addr4
          let s := if e.cont then start.s
            else
              let s := start.s.pushEvent p (eventWord 1 tag 0 l.cls l.idx 0)
              if h.nC ≤ n then
                s.pwU p fun w => { w with lastCmd := BitVec.ofNat 8 (bitsVal f.lanes 0 h.nC e.params.cLanes) }
              else s
          let q : Fr := { start with s := s, h := h, addr := h.addr f.lanes w.size, data := f.flash }
          if trieBad then
            (({ q with s := q.s.trieFault (.sq (Fin.ofNat 12 (p / 8)) (Fin.ofNat 8 (p % 8))) } : Fr).alarm 0x0141 (s.rankOf 0x0141) noData eL).run lanes eL st
          else q.run lanes eL st

/-! ### The commands -/

/-- HOST_FRAME. -/
def execHostFrame (p : PortId) (f : FrameIn) (s : State) : Host.Outcome State Fault Refusal := .next (s.frame p.val f .rise)

/-- STALL_TIMEOUT (R160): with the stall setting OFF no timeout runs. -/
def execStallTimeout (p : PortId) (f : FrameIn) (s : State) : Host.Outcome State Fault Refusal :=
  .next (if (s.pe p.val).params.stall = 0 then s else s.frame p.val f .stall)

/-- PROFILE_BREACH (R161). -/
def execProfileBreach (p : PortId) (f : FrameIn) (s : State) : Host.Outcome State Fault Refusal :=
  .next (s.frame p.val f .breach)

/-- BUSY_TIMER_EXPIRY (R196). -/
def execBusyTimerExpiry (p : PortId) (s : State) : Host.Outcome State Fault Refusal :=
  .next (s.pwU p.val fun w => { w with busy := false })

/-- CONT_EXIT_FRAME (R157, R529): a held port with CONT set runs the EXIT record, and CONT clears. -/
def execContExitFrame (p : PortId) (s : State) : Host.Outcome State Fault Refusal :=
  if s.heldNow p.val then .next (s.contExit p.val) else .next s

end Sys2Proof.Machine
end

