-- ==== Sys2Proof/Machine/Rebuild.lean ====
section
/-! DEFINITION. The rebuild engine and the flip of generations (06 R203 to R210, R212). -/

namespace Sys2Proof.Machine

open Sys2Proof

/-- REBUILD_START (R205): an accepted policy waits; while a port stands on the staging generation the state is BLOCKED. -/
def execRebuildStart (s : State) : Host.Outcome State Fault Refusal :=
  let r := s.rules
  if s.boot.dev ≠ .service ∨ !r.restart ∨ s.wake.policy.isNone ∨ r.state = .rebuilding ∨ r.state = .flipping then .next s
  else if (allPorts.any fun p => decide ((s.pw p).gen = r.staging)) then
    .next (({ s with rules := { r with state := .blocked } } : State).setLine 7 true)
  else
    let build : BitVec 16 := if r.stBuild + 1 = 0 then 1 else r.stBuild + 1
    let s := s.mend (Flaw.inRules r.staging fun _ => true)
    let s : State := { s with rules := { r with
      state := .rebuilding, restart := false, done := 0, slices := [], stBuild := build, policy := s.pol,
      bank0 := if r.staging then r.bank0 else [], owner0 := if r.staging then r.owner0 else [],
      bank1 := if r.staging then [] else r.bank1, owner1 := if r.staging then [] else r.owner1 } }
    .next ((s.setLine 7 true).each allPorts fun s p => s.pwU p fun w =>
      if r.staging then { w with build1 := build } else { w with build0 := build })

/-- A flip of a port is requested; a held port flips at once (R206). -/
def State.askFlip (s : State) (p : Nat) : State :=
  let s := s.pwU p fun w => { w with flipPend := true }
  if s.heldNow p then s.takeFlip p else s

/-- A port's slices equal the loaded copies (R205). -/
def State.slicesSame (s : State) (p : Nat) (c : List Byte) : Bool :=
  let w := s.pw p
  let t := p % 8
  decide (w.tries = sliceTries c t) && decide (w.coarse = sliceCoarse c t) && decide (w.ctx = sliceCtx c t)
    && decide (w.params = sliceParams c t)

/-- A held port takes new slices; its tries stand in its sequencer's memory too (R176, R205). -/
def State.newSlices (s : State) (p : Nat) (c : List Byte) : State :=
  (s.takeSlices p c).memPut (8 + sheafOf p) (0x30000 + p % 8 * 0x2000) (sliceTries c (p % 8))

/-- All containers match: every port flips, takes its slices and flips, or is DEFERRED (R205). -/
def State.compare (s : State) : State :=
  let s : State := { s with rules := { s.rules with state := .flipping } }
  let s := s.each (List.range 12) fun s k =>
    let c := s.rules.slices.getD k []
    let same := decide ((s.sh k).threads = sectionOf c 1)
    let all8 := (sheafPorts k).all fun p => s.heldNow p
    let s := s.each (sheafPorts k) fun s p =>
      if same && s.slicesSame p c then s.pwU p fun w => { w with flipPend := true }
      else if (same && s.heldNow p) || (!same && all8) then (s.newSlices p c).pwU p fun w => { w with flipPend := true }
      else s.pwU p fun w => { w with deferred := true }
    if !same && all8 then s.loadSequencer k c else s
  let s := ({ s with rules := { s.rules with slices := [] } } : State).setLine 7 true
  let s := s.each allPorts fun s p => if (s.pw p).flipPend && s.heldNow p then s.takeFlip p else s
  s.flipsEnd

/-- A rebuild stops: no port flips, the staging bank is unused (R127, R205). -/
def State.rebuildStop (s : State) : State :=
  let r := s.rules
  let s : State := { s with rules := { r with
    state := .idle, slices := [],
    bank0 := if r.staging then r.bank0 else [], owner0 := if r.staging then r.owner0 else [],
    bank1 := if r.staging then [] else r.bank1, owner1 := if r.staging then [] else r.owner1 } }
  s.setLine 7 true

/-- REBUILD_CONTAINER (R127, R205): the next sheaf's container is streamed from the home flash and hashed on the service lane, behind
the requests that came before (R229). -/
def execRebuildContainer (s : State) : Host.Outcome State Fault Refusal :=
  let r := s.rules
  if r.state ≠ .rebuilding ∨ !s.svcFree then .next s
  else
    let k := r.done
    let c := s.homeContainer (schedBase k) 0x100000
    let recs := ruleRecords (sectionOf c 4)
    if !(sheafFormOk c k && decide (cDigest c = polSheafDigest r.policy k)) then .next s.rebuildStop
    else if s.rulesCollide k r.staging recs then .next (s.rebuildStop.raise 0x0206 1 0 0 4)
    else
      let s := s.writeRules k r.staging r.stBuild.toNat recs
      let s : State := { s with rules := { s.rules with done := k + 1, slices := s.rules.slices ++ [c] } }
      .next (if k = 11 then s.compare else s)

/-- GENERATION_FLIP (R206): Pn_HCS_N is high and no frame of the port awaits its commit. -/
def execGenerationFlip (p : PortId) (s : State) : Host.Outcome State Fault Refusal :=
  .next (if (s.pw p.val).flipPend then s.takeFlip p.val else s)

/-- One DEFERRED port takes its slices and flips (R207). -/
def State.catchUp (s : State) (p : Nat) (c : List Byte) : State :=
  (s.newSlices p c |>.pwU p fun w => { w with deferred := false }).takeFlip p

/-- DEFERRED_PORT_UPDATE (R207): the port is held; its sheaf's container is streamed again under the digest of the
rebuild's policy. With other THREADS all eight ports must be held, and the sequencer is reloaded. -/
def execDeferredPortUpdate (p : PortId) (s : State) : Host.Outcome State Fault Refusal :=
  let k := sheafOf p.val
  if !s.svcFree || !(s.pw p.val).deferred || !s.heldNow p.val || decide (s.rules.state = .rebuilding) then .next s
  else
    let c := s.homeContainer (schedBase k) 0x100000
    if !(sheafFormOk c k && decide (cDigest c = polSheafDigest s.rules.policy k)) then .next s
    else if (s.sh k).threads = sectionOf c 1 then .next (s.catchUp p.val c)
    else if (sheafPorts k).all fun q => s.heldNow q then
      let s := s.each ((sheafPorts k).filter fun q => (s.pw q).deferred) fun s q => s.catchUp q c
      .next (s.loadSequencer k c)
    else .next s

end Sys2Proof.Machine
end

