-- ==== Sys2Proof/Machine/Granary.lean ====
section
/-! DEFINITION. Lane and self-test slots (07 R229 to R231), scrub, relocation and serve slots of the Granary
(08 R247 to R249, R256). -/

namespace Sys2Proof.Machine

open Sys2Proof

/-! ### Lanes -/

/-- A Granary uncorrectable error of a page raises 0x0401 at its owner port, or the device (R247, R372). -/
def State.granAlarm (s : State) (w : W32) : State :=
  if pagePort w < 96 then s.raiseReg 0x0401 1 (pagePort w) noData else s.raiseReg 0x0401 0 0 noData

/-- The physical lane of a self-test slot. -/
def State.testLane (s : State) (u : TestUnit) : Option Nat :=
  match u with
  | .gleanLane l => s.gleanLane l.val
  | .serviceLane => s.serviceLane
  | _ => none

/-- A lane test runs: a failure is reported and is an error of the lane. -/
def State.laneTest (s : State) (l : Nat) (ok : Bool) : State := if ok then s else (s.gnoby 0 0).chanError .lane l 3

/-- SELF_TEST_SLOT (R230, R231, R406): a failed known-answer test is reported and is an error of the unit's channel; the
rule-table unit has none. R372 names no source for such a report but the Granary's: the others raise 0x0141 (log 40). -/
def execSelfTestSlot (u : TestUnit) (ok : Bool) (s : State) : Host.Outcome State Fault Refusal :=
  if ok then .next s
  else match u with
  | .ruleTable => .next (s.gnoby 0 0)
  | .granary => .next (s.raiseReg 0x0401 0 0 noData)
  | .gleanLane _ | .serviceLane => .next (match s.testLane u with | some l => s.laneTest l false | none => s)
  | .thread k t =>
    .next (if (s.co (8 + 8 * k.val + t.val)).run = .waitEvent then (s.gnoby 1 (8 * k.val + t.val)).chanError .sequencer k.val 3 else s)
  | .wakeLane l => .next (if s.wake.stage = .entry ∧ s.wake.lanes.contains l.val then (s.entryTestFailed l.val).wakeRemap else s)

/-- LANE_TEST_REQUEST (R231): deferred while the wake holds the lane. -/
def execLaneTestRequest (l : LaneId) (ok : Bool) (s : State) : Host.Outcome State Fault Refusal :=
  if s.wake.stage ≠ .idle ∧ s.wake.lanes.contains l.val then
    .next { s with wake := { s.wake with tests := s.wake.tests ++ [l.val] } }
  else .next (s.laneTest l.val ok)

/-- DEFERRED_LANE_TEST (R231): the verdict stage has ended. -/
def execDeferredLaneTest (l : LaneId) (ok : Bool) (s : State) : Host.Outcome State Fault Refusal :=
  if s.wake.stage = .idle ∧ s.wake.tests.contains l.val then
    .next (({ s with wake := { s.wake with tests := s.wake.tests.filter fun x => decide (x ≠ l.val) } }).laneTest l.val ok)
  else .next s

/-! ### Scrub (R247, R249) -/

/-- CE_COUNT of an entry. -/
def pageCe (w : W32) : Nat := bitsOf w.toNat 19 18
/-- The pages of a use that a holder owns: TAG, PIN, SERVE, STAGING, CANOPY. -/
def heldUse (u : Nat) : Bool := decide (1 ≤ u ∧ u ≤ 5)
/-- The use of a group: that of its first page that is not BAD. -/
def State.groupUse (s : State) (g : Nat) : Nat :=
  (((List.range 8).map fun i => pageUse (s.page (8 * g + i))).find? fun u => decide (u ≠ 7)).getD 7
/-- The page of a SPARE group. -/
def spareWord (w : W32) : Bool := decide (pageUse w = 6 ∧ pageIndex w = 0x1FFFF)
/-- A group is a SPARE group. -/
def State.isSpare (s : State) (g : Nat) : Bool := (List.range 8).any fun i => spareWord (s.page (8 * g + i))
/-- A relocation copies the group: a holder owns it, or it is a drawn SPARE group (R247). -/
def State.movable (s : State) (g : Nat) : Bool := heldUse (s.groupUse g) || s.isSpare g

/-- SPARE is refilled with one free group, or a NOTE alarm says that it runs short (R248). -/
def State.refillSpare (s : State) : State :=
  match s.takeGroup 6 (pageEntry 6 0x7F false false 0 0x1FFFF) with
  | some (_, t) => t
  | none => s.raise 0x0403 0 0 0 noData

/-- Staging of a port fails (R249): its transfer closes, its groups return, SET_STATE is VOID. -/
def State.stagingVoid (s : State) (p : Nat) : State :=
  let s := s.each ((s.link.xfers.filter fun e => decide (e.2.port = p)).map (·.1)) fun s x => s.xferFail x 1
  (s.returnGroups 4 p none).pgU p fun g => { g with setState := .void }

/-- A page reads uncorrectable (R247, R249): USE becomes BAD and the alarm is raised; a free or SPARE group retires,
staging in progress fails. -/
def State.pageBad (s : State) (n : Nat) : State :=
  let w := s.page n
  let g := n / 8
  let spare := s.isSpare g
  let free := decide (pageUse w = 0)
  let s := (s.setPage n (w ||| 0xE0000000)).granAlarm w
  let s := if pageUse w = 4 then s.stagingVoid (pagePort w) else s
  if free then (s.poolClaim 9 6 8).groupRetired g
  else if spare then ((((s.poolBack 9 5 8).poolClaim 9 6 8).groupRetired g).refillSpare)
  else s

/-- A corrected error of an allocated page: CE_COUNT rises; at 2 the group is to be relocated. Pages 0 to 15 and those of
RETIRED groups hold nothing that moves (R247; log 16). -/
def State.pageCorrected (s : State) (n : Nat) : State :=
  let w := s.page n
  if pageUse w = 0 ∨ pageUse w = 7 then s
  else
    let ce := min 3 (pageCe w + 1)
    let s := s.setPage n (BitVec.ofNat 32 (w.toNat - pageCe w * 2 ^ 18 + ce * 2 ^ 18))
    if ce = 2 ∧ s.movable (n / 8) ∧ !(s.gran.relocs.any fun r => decide (r.group = n / 8)) then
      ({ s with gran := { s.gran with relocs := s.gran.relocs ++ [{ group := n / 8 }] } } : State).setLine 8 true
    else s

/-- SCRUB_READ (R247, R248): 1,023 of 1,024 uses of the slot read the next word in page order, one a known-answer word; a relocation
that runs has the slot. A page that is BAD already raises no further alarm (DESIGN CHOICE, log 59). -/
def execScrubRead (r : ScrubResult) (s : State) : Host.Outcome State Fault Refusal :=
  if s.gran.relocs.any fun r => r.target.isSome then .next s else
  let u := s.gran.uses
  let s : State := { s with gran := { s.gran with uses := (u + 1) % 1024 } }
  if u = 1023 then .next (match r with | .uncorrectable => s.raiseReg 0x0401 0 0 noData | _ => s)
  else
    let n := s.gran.scrub / 16
    let s : State := { s with gran := { s.gran with scrub := (s.gran.scrub + 1) % 2097152 } }
    .next (match r with
      | .ok => s
      | .corrected => s.pageCorrected n
      | .uncorrectable => if pageUse (s.page n) = 7 then s else s.pageBad n)

/-! ### Relocation (R248) -/

/-- The lowest SPARE group but for group `not` (log 16). -/
def State.spareGroup (s : State) (not : Nat) : Option Nat :=
  (List.range 16384).find? fun g => decide (2 ≤ g ∧ g ≠ not) && s.isSpare g
/-- RELOC of the pages of a group. -/
def State.markReloc (s : State) (g : Nat) (v : Bool) : State :=
  s.each (List.range 8) fun s i =>
    let w := s.page (8 * g + i)
    s.setPage (8 * g + i) (if v then w ||| 0x00100000 else w &&& 0xFFEFFFFF)

/-- The oldest waiting relocation starts, one at a time, into a SPARE group; one whose group has been returned is
dropped. -/
def State.relocStart (s : State) : State :=
  if s.gran.relocs.any fun r => r.target.isSome then s
  else match s.gran.relocs with
  | [] => s
  | r :: t =>
    if !s.movable r.group then { s with gran := { s.gran with relocs := t } }
    else match s.spareGroup r.group with
    | none => s
    | some g => (({ s with gran := { s.gran with relocs := { r with target := some g } :: t } } : State).markReloc r.group true)

/-- RELOCATION_START (R248): host frames are atomic here, so the owner's select is high between commands. -/
def execRelocationStart (s : State) : Host.Outcome State Fault Refusal := .next s.relocStart

/-- RELOCATION_WAIT_EXPIRY (R248): the relocation starts anyway. -/
def execRelocationWaitExpiry (s : State) : Host.Outcome State Fault Refusal :=
  .next (({ s with gran := { s.gran with
    relocs := match s.gran.relocs with | [] => [] | r :: t => { r with overdue := true } :: t } } : State).relocStart)

/-- A relocation completes: bytes and entries move, the directory entries switch, the old group retires, SPARE is
refilled. -/
def State.relocDone (s : State) (g new : Nat) : State :=
  let use := s.groupUse g
  let s := s.granPut (2048 * new) (s.granGet (2048 * g) 2048)
  let s := s.each (List.range 8) fun s i =>
    let w := s.page (8 * g + i)
    s.setPage (8 * new + i) (if pageUse w = 7 then w &&& 0xFFEFFFFF else BitVec.ofNat 32 ((w.toNat % 2 ^ 29 + use * 2 ^ 29) - pageCe w * 2 ^ 18) &&& 0xFFEFFFFF)
  let move : Tab Nat → Tab Nat := fun t => t.map fun e => if e.2 = g then (e.1, new) else e
  let s : State := { s with gran := { s.gran with tagDir := move s.gran.tagDir, srvDir := move s.gran.srvDir } }
  let s := ((s.poolBack 9 5 8).poolClaim 9 6 8).groupRetired g
  s.refillSpare

/-- RELOCATION_DONE (R248). -/
def execRelocationDone (s : State) : Host.Outcome State Fault Refusal :=
  match s.gran.relocs with
  | { group := g, target := some new, .. } :: t =>
    let s : State := { s with gran := { s.gran with relocs := t } }
    .next ((if s.movable g then s.relocDone g new else s).setLine 8 true)
  | _ => .next s

/-! ### Serve slots (R221, R256) -/

/-- SERVE_SLOT_READ (R36, R221, R256, R257): a serve slot of the port reads the next word of its span, the one that holds
`addr`. -/
def execServeSlotRead (p : PortId) (addr : BitVec 28) (s : State) : Host.Outcome State Fault Refusal :=
  .next (if s.bankUp p.val && !s.chanRetired .sequencer (sheafOf p.val) && (s.pg p.val).span.any fun t => decide (t.next / 16 = addr.toNat / 16) then s.serveSlot p.val fun _ => false else s)

end Sys2Proof.Machine
end

