-- ==== Sys2Proof/Machine/Isa.lean ====
section
/-! DEFINITION. Issue of a Fekiroth-36 word: core kinds, legal words, memory accesses, exceptions
(09 R272 to R302). The word is the command's own; notes/assumptions/30. -/

namespace Sys2Proof.Machine

open Sys2Proof

/-! ### Legal words (R273, R275, R280 to R287, R301) -/

/-- A D register field. -/
def dField (c : CoreId) (n : Nat) : Bool := decide (n < 8) || !isWatch c
/-- An A register field. -/
def aField (n : Nat) : Bool := decide (n < 8)
/-- A Y register field. -/
def yField (c : CoreId) (n : Nat) : Bool := decide (n < 4) && !isWatch c
/-- A special register exists on a core (R287). -/
def specialOk (c : CoreId) (arg : Nat) : Bool :=
  match arg with
  | 0x00 => !isP c
  | 0x01 => true
  | 0x02 | 0x03 => !isWatch c
  | n => decide (n ≤ 0x0C) && isE c

/-- A long op is legal on a core (R280, R281, R286, R301). -/
def longLegal (c : CoreId) (opc x : Nat) : Bool :=
  let rd := bitsOf x 24 21
  let rs := bitsOf x 20 17
  let rt := bitsOf x 16 13
  let fn := bitsOf x 12 0
  let imm := bitsOf x 16 0
  let d := dField c
  let all := !isWatch c
  match opc with
  | 0x00 => decide (x = 0)
  | 0x01 => aluFnOk fn && d rd && d rs && (if fn = 0x0F ∨ fn = 0x10 then decide (rt = 0) else d rt)
  | 0x02 | 0x03 | 0x04 | 0x05 => d rd && d rs
  | 0x06 => d rd && d rs && decide (imm < 256)
  | 0x07 => d rd
  | 0x08 => d rd && decide (bitsOf x 20 15 = 0)
  | 0x09 | 0x0B => !isP c && decide (rd = 0) && decide (fn = 0) && d rs && d rt
  | 0x0A => !isP c && decide (rd = 0) && d rs
  | 0x0C => all && decide (fn ≤ 2)
  | 0x0D => all && yField c rd && (decide (fn ≤ 5) || (decide (fn = 6) && decide (rs = 0) && decide (rt = 0)))
  | 0x0E => all && (if fn = 2 then yField c rd else decide (fn ≤ 1) && yField c rs && decide (rt = 0))
  | 0x0F => d rd && d rs && decide (imm < 4096) && decide (bitsOf x 11 6 ≤ 35) && decide (1 ≤ bitsOf x 5 0 ∧ bitsOf x 5 0 ≤ 36)
  | 0x10 => aField rd && aField rs
  | 0x11 => if fn = 0 then aField rd && d rs && decide (rt = 0)
    else if fn = 1 then d rd && aField rs && decide (rt = 0)
    else decide (fn = 2) && aField rd && aField rs && d rt
  | 0x12 => true
  | 0x14 | 0x15 | 0x16 | 0x1A | 0x1B | 0x1C => d rd
  | 0x17 | 0x1D => all
  | 0x18 | 0x1E => all && yField c rd
  | 0x19 | 0x1F => aField rd
  | 0x20 | 0x23 => decide (rd = 0)
  | 0x21 | 0x22 => d rd
  | 0x24 => aField rs && decide (rt = 0) && ((decide (fn = 0) && decide (rd = 0)) || (decide (fn = 1) && aField rd))
  | 0x28 => isSq c && decide (x = 0)
  | 0x29 => isSq c && decide (fn ≤ 1)
  | 0x2A => isSq c && decide (rd = 0) && decide (rt = 0) && decide (fn = 0)
  | 0x2B => isSq c && decide (rd = 0) && decide (fn = 0)
  | 0x30 =>
    let sel := bitsOf x 16 8
    let arg := bitsOf x 7 0
    match sel with
    | 1 => d rd && decide (rs = 0) && specialOk c arg
    | 2 => d rs && decide (rd = 0) && specialOk c arg
    | 3 | 5 | 6 => isE c && decide (rd = 0) && decide (rs = 0) && decide (arg = 0)
    | 4 => isE c && decide (rd = 0) && decide (rs = 0)
    | 7 => (isE c || isWatch c) && decide (rd = 0) && decide (rs = 0) && decide (arg = 0)
    | _ => false
  | _ => false

/-- A short op is legal on a core (R283, R301). -/
def shortLegal (c : CoreId) (x : Nat) : Bool :=
  let op := bitsOf x 15 11
  let d := bitsOf x 10 7
  let r := bitsOf x 6 3
  let k := bitsOf x 2 0
  let dd := dField c d
  let dr := dField c r
  match op with
  | 0x00 => decide (x = 0)
  | 0x01 | 0x02 | 0x03 | 0x04 | 0x05 | 0x06 | 0x0C | 0x0D | 0x0E | 0x18 | 0x19 => dd && dr && decide (k = 0)
  | 0x07 | 0x08 | 0x09 => dd
  | 0x0A => dd && !bitOf x 6
  | 0x0B | 0x10 | 0x12 => dd && dr
  | 0x0F => !isP c && dd && dr && decide (k = 0)
  | 0x11 => !isWatch c
  | 0x13 | 0x14 => dd
  | 0x15 => aField d
  | 0x16 => aField d && dr && decide (k = 0)
  | 0x17 => dd && aField r && decide (k = 0)
  | 0x1A => !isWatch c
  | 0x1B => yField c r && decide (k ≤ 1)
  | 0x1C => isSq c && decide (r = 0) && decide (k = 0)
  | _ => false
/-- A short op that accesses memory. -/
def shortMem (x : Nat) : Bool := decide (0x10 ≤ bitsOf x 15 11 ∧ bitsOf x 15 11 ≤ 0x14)
/-- A short DCS. -/
def shortDcs (x : Nat) : Bool := decide (bitsOf x 15 11 = 0x1C)

/-- A word is legal on a core (R272, R273, R284). -/
def wordLegal (c : CoreId) (w : W36) : Bool :=
  let n := w.toNat
  if bitOf n 35 then
    let a := bitsOf n 31 16
    let b := bitsOf n 15 0
    shortLegal c a && shortLegal c b && !(shortMem a && shortMem b) && !(shortDcs a && shortDcs b)
  else longLegal c (bitsOf n 30 25) (bitsOf n 24 0)

/-- The condition of a word by its long code. -/
def wordCond (w : W36) : Nat :=
  if bitOf w.toNat 35 then pairedCond (BitVec.ofNat 3 (bitsOf w.toNat 34 32)) else bitsOf w.toNat 34 31

/-! ### Memory (R271, R288, R291, R300) -/

/-- A core may store at an address. -/
def storeOk (c : CoreId) (a : Nat) (word : Bool) : Bool :=
  match c with
  | .seed => decide (0x080000 ≤ a ∧ a < 0x090000) || (word && decide (0x100000 ≤ a ∧ a < 0x400000))
  | .canopyA | .canopyB => decide (a < 0x100000) || (word && decide (a < 0x400000))
  | .link => decide (a < 0x080000) || (word && decide (0x100000 ≤ a ∧ a < 0x400000))
  | .watch => decide (0x4000 ≤ a ∧ a < 0x4800) || decide (0x8000 ≤ a ∧ a < 0xA000)
      || (word && decide (0xC000 ≤ a ∧ a < 0xD000))
  | .sq _ _ => decide (a < 0x030000)
/-- A core may fetch at an address. -/
def fetchOk (c : CoreId) (a : Nat) : Bool :=
  match c with
  | .seed => decide (a < 0x018000 ∨ (0x080000 ≤ a ∧ a < 0x090000))
  | .canopyA | .canopyB => decide (a < 0x100000 ∨ 0x400000 ≤ a)
  | .link => decide (a < 0x080000)
  | .watch => decide (a < 0x2000)
  | .sq _ _ => decide (a < 0x030000)

/-- A word of a range that a core reads fails its check (R384): a local memory's SECDED, the ECC of the thread's coarse map
and contexts. -/
def State.readBad (s : State) (c : CoreId) (a size : Nat) : Bool :=
  match s.place c a with
  | .mem m => s.memBad m a size
  | .bytes _ off => s.flaws.any fun x => match x with
    | .coarse p g => decide (8 + p = coreNo c ∧ 0x120000 ≤ a ∧ a - off ≤ g / 2 ∧ g / 2 < a - off + size)
    | .context p i => decide (8 + p = coreNo c ∧ a < 0x120000 ∧ a - off < 128 * i + 128 ∧ 128 * i < a - off + size)
    | _ => false
  | _ => false

/-- Home-flash address of an execute-in-place address (R264). -/
def State.xipHome (s : State) (a : Nat) : Nat := slotBase s.hand.running + partOff 2 + (a - 0x400000)
/-- The line of an execute-in-place address stands in the prefetch buffer; its bytes (R265). -/
def State.xipLine (s : State) (a : Nat) : Option (List Byte) :=
  let line := (a - 0x400000) / 256
  ((Tab.get [] s.gran.sets (line % 64)).find? fun l => decide (l.line = line)).map (·.data)
/-- The line becomes the most recent of its set (R265). -/
def State.xipTouch (s : State) (a : Nat) : State :=
  let line := (a - 0x400000) / 256
  let set := Tab.get [] s.gran.sets (line % 64)
  match set.find? fun l => decide (l.line = line) with
  | some l => { s with gran := { s.gran with
      sets := Tab.put [] s.gran.sets (line % 64) (l :: set.filter fun x => decide (x.line ≠ line)) } }
  | none => s
/-- A miss of a Canopy core: the fetch starts, or waits for the one under way (R265). -/
def State.xipStart (s : State) (b : Bool) (a : Nat) : State :=
  let f : XipFetch := { core := b, addr := BitVec.ofNat 24 a }
  if s.gran.fetch.isNone then { s with gran := { s.gran with fetch := some f } }
  else if s.gran.fetch.any (fun g => !g.ahead && decide (g.core = b ∧ g.addr = f.addr)) ∨ s.gran.held.contains f then s
  else { s with gran := { s.gran with held := s.gran.held ++ [f] } }
/-- A Canopy core waits for a fetch. -/
def State.xipWaits (s : State) (c : CoreId) : Bool :=
  let mine := fun (f : XipFetch) => !f.ahead && ((decide (c = .canopyA) && !f.core) || (decide (c = .canopyB) && f.core))
  (match s.gran.fetch with | some f => mine f | none => false) || s.gran.held.any mine

/-- What a word does: it faults with a CAUSE and, where the rules give one, EADDR; it is a TRAP; it waits for a fetch; or it goes on
with a state and a transfer. -/
inductive Res
  | fault (cause : Nat) (eaddr : Option Nat)
  | trap (arg : Nat)
  | wait (s : State)
  | go (s : State) (jump : Option W24)
deriving DecidableEq, Repr

/-- The agent of a core (R304). -/
def coreAgent : CoreId → Agent | .canopyA => .canopyA | .canopyB => .canopyB | .link => .link | _ => .seed
/-- A word of the device register space. The spec does not place its registers: which one stands at an address is a free
value, and what no rule gives reads as one (log 13). The watch core's registers are none of the engines'. -/
def State.deviceRead (s : State) (c : CoreId) (a : Nat) : W32 × State :=
  match (if isWatch c then .other else Config.deviceAt a) with
  | .status e => (s.engineStatus e.val (coreAgent c), s)
  | .operand e w high =>
    let r := s.operandRead e.val (coreAgent c) w.toNat
    (if high then BitVec.ofNat 32 (r.1.toNat / 2 ^ 32) else r.1.setWidth 32, r.2)
  | .other => (BitVec.ofNat 32 (s.drawn 0), s.used 1)

/-- Load `size` bytes, at most a full, and continue (R271, R300): ALIGN, then MAP, then INTEGRITY; a device register takes
words only. -/
def State.load (s : State) (c : CoreId) (a size align : Nat) (f : State → List Byte → Res) : Res :=
  if a % align ≠ 0 then .fault 4 (some a)
  else match s.place c a with
  | .none => .fault 5 (some a)
  | .rom n => f s ((List.range size).map fun i => Config.rom n (a + i))
  | .mem m => if s.readBad c a size then .fault 7 (some a) else f s (Tab.range 0 (Tab.get [] s.mems m) a size)
  | .bytes l off => if s.readBad c a size then .fault 7 (some a) else f s ((List.range size).map fun i => byteAt l (a - off + i))
  | .device => if size = 4 then (let r := s.deviceRead c a; f r.2 (leBytes r.1.toNat 4)) else .fault 5 (some a)
  | .xip => match s.xipLine a with
    | some l => f (s.xipTouch a) ((List.range size).map fun i => byteAt l (a % 256 + i))
    | none => .wait (s.xipStart (decide (c = .canopyB)) a)

/-- Load a long: two fulls, the low one at the lower address (R271). -/
def State.loadLong (s : State) (c : CoreId) (a : Nat) (f : State → List Byte → Res) : Res :=
  s.load c a 8 8 fun s lo => s.load c ((a + 8) % 2 ^ 24) 8 8 fun s hi => f s (lo ++ hi)

/-- A store of bytes, of a long as of its two fulls (R271): no reader sees it before slot n + 2 (R288). -/
def State.store (s : State) (c : CoreId) (a align : Nat) (bs : List Byte) : Res :=
  if a % align ≠ 0 then .fault 4 (some a)
  else if !storeOk c a (decide (bs.length = 4)) then .fault 5 (some a)
  else if 8 < bs.length ∧ !storeOk c (a + 8) false then .fault 5 (some ((a + 8) % 2 ^ 24))
  else .go (s.coU (coreNo c) fun k => { k with stores := k.stores ++ [{ slot := k.slot + distOn c 2, addr := a, bytes := bs }] }) none

/-! ### Exceptions (R296, R297, R299, R302) -/

/-- The mark of PC among the registers whose check fails; the others go by their numbers of R287 (R276). -/
def pcReg : Nat := 0x100
/-- Registers written anew carry a good check (R276). -/
def Core.mendRegs (k : Core) (l : List Nat) : Core := { k with badRegs := k.badRegs.filter fun n => !l.contains n }
/-- The registers of an exception taken at slot n, the first of its empty slots: saved pc, CAUSE with the shadow words
left, EADDR, EBT, STATUS; the handler's word issues four slots later (R297). -/
def Core.except (k : Core) (n cause eaddr : Nat) (epc : W24) (shadow : Nat) : Core :=
  { k.mendRegs ([pcReg, 0x04, 0x05, 0x06, 0x08] ++ if k.xfer = [] then [] else [0x0C]) with
    epc := epc, cause := BitVec.ofNat 10 (shadow % 4 * 256 + cause), eaddr := BitVec.ofNat 24 eaddr,
    ebt := (match k.xfer with | x :: _ => x.2 | [] => k.ebt),
    status := BitVec.ofNat 3 (4 + 2 * (k.status.getLsbD 0).toNat),
    pc := k.evec, xfer := [], slot := n + 4 }
/-- Shadow words still to issue from slot n on. -/
def Core.shadow (k : Core) (n : Nat) : Nat := match k.xfer with | x :: _ => x.1 - n | [] => 0

/-- A double fault: the core stops; warm restart, or link-core restart (R299, R418). -/
def State.doubleFault (s : State) (c : CoreId) : State :=
  let s := s.coU (coreNo c) fun k => { k with run := .stopped }
  match c with
  | .link => s.linkRestart true
  | _ => s.warmRestart true

/-- The Gnoby alarm of a core's failed read, at its port or the device (R276, R372); the watch core has none in the main
domain. -/
def State.coreGnoby (s : State) (c : CoreId) : State :=
  match c with
  | .sq k t => s.gnoby 1 (8 * k.val + t.val)
  | .watch => s
  | _ => s.gnoby 0 0

/-- A register that the entry itself reads fails its check: STATUS or EVEC. The fault of that read comes inside an entry, so it is
a double fault (R276, R297, R299; log 63). -/
def Core.entryBad (k : Core) : Bool := k.badRegs.any fun n => decide (n = 0x07 ∨ n = 0x08)

/-- A word of core c faults (R296, R297, R299, R302). An EADDR that the rules do not state is a free value. An
uncorrectable word of a sequencer's memory is an error of its own kind (R406). -/
def State.faultTaken (s : State) (c : CoreId) (cause : Nat) (eaddr : Option Nat) (epc : W24) (from_ : Nat) : State :=
  let i := coreNo c
  let k := s.co i
  match c with
  | .sq _ _ =>
    let s := (s.threadStops c).coU i fun k => { k with thCause := BitVec.ofNat 8 cause }
    s.chanError .sequencer (i / 8 - 1) (if cause = 7 ∧ eaddr.isSome = true then 2 else 5)
  | .watch =>
    let s := s.coU i fun k => { k.mendRegs [pcReg] with pc := 0x40, xfer := [], slot := k.slot + 1 }
    ({ s with backup := { s.backup with watchCnt := BitVec.ofNat 8 (satAdd 8 s.backup.watchCnt.toNat 1) } } : State).watchEntry
  | _ =>
    if k.status.getLsbD 2 || k.entryBad then s.doubleFault c
    else
      let v := eaddr.getD (s.drawn 0 % 2 ^ 24)
      let s := if eaddr.isNone then s.used 1 else s
      s.coU i fun k => k.except (k.slot + 1) cause v epc (k.shadow from_)
/-- The fault, and the alarm of an integrity fault (R276). -/
def State.faultWord (s : State) (c : CoreId) (cause : Nat) (eaddr : Option Nat) (epc : W24) (from_ : Nat) : State :=
  if cause = 7 then (s.faultTaken c cause eaddr epc from_).coreGnoby c else s.faultTaken c cause eaddr epc from_

/-- The D registers a word's fields name; D0 reads as a constant. -/
def dReads (l : List Nat) : List Dest := (l.filter (· ≠ 0)).map fun n => .d (BitVec.ofNat 4 n)
/-- An A register of a field. -/
def aRead (n : Nat) : Dest := .a (BitVec.ofNat 3 n)
/-- A Y register of a field. -/
def yRead (n : Nat) : Dest := .y (BitVec.ofNat 2 n)
/-- The registers a long op reads (R280 to R286, R293 to R295). -/
def longReads (opc x : Nat) : List Dest :=
  let rd := bitsOf x 24 21
  let rs := bitsOf x 20 17
  let rt := bitsOf x 16 13
  let fn := bitsOf x 12 0
  let ab := bitsOf x 20 18
  match opc with
  | 0x01 => if fn = 0x0F ∨ fn = 0x10 then dReads [rs] else dReads [rs, rt]
  | 0x02 | 0x03 | 0x04 | 0x05 | 0x06 | 0x0A | 0x0F | 0x2A => dReads [rs]
  | 0x08 | 0x21 | 0x22 => dReads [rd]
  | 0x09 | 0x0B | 0x0C | 0x29 | 0x2B => dReads [rs, rt]
  | 0x0D => if fn = 6 then [] else dReads [rs, rt] ++ (if fn = 0 ∨ fn = 3 then [] else [yRead rd])
  | 0x0E => if fn = 2 then dReads [rs, rt] else [yRead rs]
  | 0x10 | 0x24 => [aRead rs]
  | 0x11 => if fn = 0 then dReads [rs] else if fn = 1 then [aRead rs] else aRead rs :: dReads [rt]
  | 0x14 | 0x15 | 0x16 | 0x17 | 0x18 | 0x19 => [aRead ab]
  | 0x1A | 0x1B | 0x1C | 0x1D => aRead ab :: dReads [rd]
  | 0x1E => [aRead ab, yRead rd]
  | 0x1F => [aRead ab, aRead rd]
  | 0x30 => if bitsOf x 16 8 = 1 ∧ bitsOf x 7 0 = 0 then [.fl] else if bitsOf x 16 8 = 2 then dReads [rs] else []
  | _ => []
/-- The registers a short op reads (R283). -/
def shortReads (x : Nat) : List Dest :=
  let d := bitsOf x 10 7
  let r := bitsOf x 6 3
  let b := bitsOf x 2 0
  match bitsOf x 15 11 with
  | 0x01 | 0x02 | 0x03 | 0x04 | 0x05 | 0x0C | 0x0D | 0x0E | 0x0F | 0x18 => dReads [d, r]
  | 0x06 | 0x0B | 0x16 | 0x19 => dReads [r]
  | 0x07 | 0x09 | 0x0A | 0x1C => dReads [d]
  | 0x10 | 0x11 => aRead b :: dReads [r]
  | 0x12 => aRead b :: dReads [d, r]
  | 0x13 => [aRead b]
  | 0x14 => aRead b :: dReads [d]
  | 0x15 => [aRead d]
  | 0x17 => [aRead r]
  | 0x1A => yRead (bitsOf x 1 0) :: dReads [d, r]
  | 0x1B => [yRead r]
  | _ => []
/-- The registers a word reads whose check fails (R276). -/
def Core.readsBad (k : Core) (w : W36) : Bool :=
  let n := w.toNat
  (if bitOf n 35 then shortReads (bitsOf n 31 16) ++ shortReads (bitsOf n 15 0) else longReads (bitsOf n 30 25) (bitsOf n 24 0)).any
    fun t => k.flaws.contains t

/-- The word has issued: the next slot, the next word; a transfer taken in slot k has its target issue in k + 3 (R285). -/
def Core.advance (k : Core) (jump : Option W24) : Core :=
  let xs := k.xfer ++ (match jump with | some t => [(k.slot + 3, t)] | none => [])
  let n := k.slot + 1
  match xs.find? fun x => decide (x.1 = n) with
  | some x => { k with slot := n, pc := x.2, xfer := xs.filter fun y => decide (n < y.1) }
  | none => { k with slot := n, pc := k.pc + 8, xfer := xs }

/-- Core c issues the word w, whose effect is f (R272, R276, R277, R279, R284, R289; the order of the checks: log 12). -/
def State.issue (s : State) (c : CoreId) (w : W36) (f : State → Core → Res) : State :=
  let i := coreNo c
  if (s.co i).run ≠ .running ∨ s.xipWaits c = true then s
  else
    let s := s.slotTo c (s.co i).slot
    let k := s.co i
    if k.badRegs.contains pcReg then s.faultWord c 7 none k.pc k.slot
    else if !fetchOk c k.pc.toNat then s.faultWord c 5 none k.pc k.slot
    else if s.readBad c k.pc.toNat 8 then s.faultWord c 7 (if isSq c then some k.pc.toNat else none) k.pc k.slot
    else if !wordLegal c w then s.faultWord c 1 none k.pc k.slot
    else if isP c && decide (wordCond w ≠ 0) then s.faultWord c 2 none k.pc k.slot
    else if decide (wordCond w ≠ 0) && k.flaws.contains .fl then s.faultWord c 7 none k.pc k.slot
    else if !condHolds (wordCond w) k.fl then s.coU i fun k => k.advance none
    else if k.readsBad w then s.faultWord c 7 none k.pc k.slot
    else match f s k with
    | .fault cause ea => s.faultWord c cause ea k.pc k.slot
    | .trap arg => s.faultWord c 8 (some arg) (k.pc + 8) (k.slot + 1)
    | .wait t => t
    | .go t jump => t.coU i fun k => k.advance jump

/-- A result of core c. -/
def State.result (s : State) (c : CoreId) (t : Dest) (v : W72) (dist : Nat) : State :=
  s.coU (coreNo c) fun k => k.lands t v (distOn c dist)
/-- A long op with one D result. -/
def toD (c : CoreId) (rd : BitVec 4) (v : W36) (s : State) : Res := .go (s.result c (.d rd) (v.setWidth 72) 1) none
/-- A long op with one A result. -/
def toA (c : CoreId) (ad : BitVec 3) (v : W24) (s : State) : Res := .go (s.result c (.a ad) (v.setWidth 72) 1) none

/-- A transfer: on an E core none may issue while another is pending (R285). -/
def Core.transfer (k : Core) (c : CoreId) (f : Res) : Res := if isE c && decide (k.xfer ≠ []) then .fault 9 none else f

end Sys2Proof.Machine
end

