-- ==== Sys2Proof/Machine/Long.lean ====
section
/-! DEFINITION. The long ops of the Fekiroth-36: arithmetic, moves, loads, stores, transfers (09 R278 to R285). -/

namespace Sys2Proof.Machine

open Sys2Proof

/-- The outcome of a command that always goes on. -/
abbrev Done := Host.Outcome State Fault Refusal

/-- An immediate of a layout as a sign-extended full. -/
def sext36 {n : Nat} (x : BitVec n) : W36 := x.signExtend 36
/-- A sign-extended address. -/
def sext24 {n : Nat} (x : BitVec n) : W24 := x.signExtend 24

/-! ### Arithmetic and logic -/

/-- NOP. -/
def execNop (c : CoreId) (cc : BitVec 4) (s : State) : Done := .next (s.issue c (wordLong 0x00 cc 0) fun s _ => .go s none)
/-- ALU (R281). -/
def execAlu (c : CoreId) (cc rd rs rt : BitVec 4) (fn : BitVec 13) (s : State) : Done :=
  .next (s.issue c (wordLong 0x01 cc (layR rd rs rt fn)) fun s k => toD c rd (aluOp fn.toNat (k.rd rs.toNat) (k.rd rt.toNat)) s)
/-- ADDI. -/
def execAddi (c : CoreId) (cc rd rs : BitVec 4) (imm : BitVec 17) (s : State) : Done :=
  .next (s.issue c (wordLong 0x02 cc (layI rd rs imm)) fun s k => toD c rd (k.rd rs.toNat + sext36 imm) s)
/-- ANDI. -/
def execAndi (c : CoreId) (cc rd rs : BitVec 4) (imm : BitVec 17) (s : State) : Done :=
  .next (s.issue c (wordLong 0x03 cc (layI rd rs imm)) fun s k => toD c rd (k.rd rs.toNat &&& imm.setWidth 36) s)
/-- ORI. -/
def execOri (c : CoreId) (cc rd rs : BitVec 4) (imm : BitVec 17) (s : State) : Done :=
  .next (s.issue c (wordLong 0x04 cc (layI rd rs imm)) fun s k => toD c rd (k.rd rs.toNat ||| imm.setWidth 36) s)
/-- XORI. -/
def execXori (c : CoreId) (cc rd rs : BitVec 4) (imm : BitVec 17) (s : State) : Done :=
  .next (s.issue c (wordLong 0x05 cc (layI rd rs imm)) fun s k => toD c rd (k.rd rs.toNat ^^^ imm.setWidth 36) s)
/-- SHFI. -/
def execShfi (c : CoreId) (cc rd rs : BitVec 4) (imm : BitVec 17) (s : State) : Done :=
  .next (s.issue c (wordLong 0x06 cc (layI rd rs imm)) fun s k =>
    toD c rd (shiftImm (imm.toNat / 64 % 4) (k.rd rs.toNat) (imm.toNat % 64)) s)
/-- MOVL. -/
def execMovl (c : CoreId) (cc rd : BitVec 4) (imm : BitVec 21) (s : State) : Done :=
  .next (s.issue c (wordLong 0x07 cc (layW rd imm)) fun s _ => toD c rd (imm.setWidth 36) s)
/-- MOVH: Dd takes IMM21[14:0] above its own bits 20:0. -/
def execMovh (c : CoreId) (cc rd : BitVec 4) (imm : BitVec 21) (s : State) : Done :=
  .next (s.issue c (wordLong 0x08 cc (layW rd imm)) fun s k =>
    toD c rd (BitVec.ofNat 36 (imm.toNat % 2 ^ 15 * 2 ^ 21 + (k.rd rd.toNat).toNat % 2 ^ 21)) s)
/-- CMP. -/
def execCmp (c : CoreId) (cc rs rt : BitVec 4) (s : State) : Done :=
  .next (s.issue c (wordLong 0x09 cc (layR 0 rs rt 0)) fun s k =>
    .go (s.result c .fl ((subFlags (k.rd rs.toNat) (k.rd rt.toNat)).setWidth 72) 1) none)
/-- CMPI. -/
def execCmpi (c : CoreId) (cc rs : BitVec 4) (imm : BitVec 17) (s : State) : Done :=
  .next (s.issue c (wordLong 0x0A cc (layI 0 rs imm)) fun s k =>
    .go (s.result c .fl ((subFlags (k.rd rs.toNat) (sext36 imm)).setWidth 72) 1) none)
/-- TST. -/
def execTst (c : CoreId) (cc rs rt : BitVec 4) (s : State) : Done :=
  .next (s.issue c (wordLong 0x0B cc (layR 0 rs rt 0)) fun s k =>
    .go (s.result c .fl ((tstFlags (k.rd rs.toNat) (k.rd rt.toNat)).setWidth 72) 1) none)
/-- MUL; distance 4. -/
def execMul (c : CoreId) (cc rd rs rt : BitVec 4) (fn : BitVec 13) (s : State) : Done :=
  .next (s.issue c (wordLong 0x0C cc (layR rd rs rt fn)) fun s k =>
    .go (s.result c (.d rd) ((mulOp fn.toNat (k.rd rs.toNat) (k.rd rt.toNat)).setWidth 72) 4) none)
/-- MACY; distance 2. -/
def execMacy (c : CoreId) (cc rd rs rt : BitVec 4) (fn : BitVec 13) (s : State) : Done :=
  .next (s.issue c (wordLong 0x0D cc (layR rd rs rt fn)) fun s k =>
    .go (s.result c (.y (rd.setWidth 2)) (macOp fn.toNat (k.ry (rd.toNat % 4)) (k.rd rs.toNat) (k.rd rt.toNat)) 2) none)
/-- MVY: into D at distance 1, into Y at distance 2. -/
def execMvy (c : CoreId) (cc rd rs rt : BitVec 4) (fn : BitVec 13) (s : State) : Done :=
  .next (s.issue c (wordLong 0x0E cc (layR rd rs rt fn)) fun s k =>
    if fn = 2 then .go (s.result c (.y (rd.setWidth 2)) (long72 (k.rd rt.toNat) (k.rd rs.toNat)) 2) none
    else toD c rd (if fn = 0 then lo36 (k.ry (rs.toNat % 4)) else hi36 (k.ry (rs.toNat % 4))) s)
/-- EXTI. -/
def execExti (c : CoreId) (cc rd rs : BitVec 4) (imm : BitVec 17) (s : State) : Done :=
  .next (s.issue c (wordLong 0x0F cc (layI rd rs imm)) fun s k =>
    toD c rd (extract36 (k.rd rs.toNat) (imm.toNat / 64 % 64) (imm.toNat % 64)) s)
/-- ADDA. -/
def execAdda (c : CoreId) (cc rd rs : BitVec 4) (imm : BitVec 17) (s : State) : Done :=
  .next (s.issue c (wordLong 0x10 cc (layI rd rs imm)) fun s k => toA c (rd.setWidth 3) (k.ra (rs.toNat % 8) + sext24 imm) s)
/-- MVA. -/
def execMva (c : CoreId) (cc rd rs rt : BitVec 4) (fn : BitVec 13) (s : State) : Done :=
  .next (s.issue c (wordLong 0x11 cc (layR rd rs rt fn)) fun s k =>
    if fn = 0 then toA c (rd.setWidth 3) ((k.rd rs.toNat).setWidth 24) s
    else if fn = 1 then toD c rd ((k.ra (rs.toNat % 8)).setWidth 36) s
    else toA c (rd.setWidth 3) (k.ra (rs.toNat % 8) + (k.rd rt.toNat).setWidth 24) s)
/-- MOVA. -/
def execMova (c : CoreId) (cc : BitVec 4) (ad : BitVec 3) (imm : BitVec 22) (s : State) : Done :=
  .next (s.issue c (wordLong 0x12 cc (layAW ad imm)) fun s _ => toA c ad (imm.setWidth 24 <<< 2) s)

/-! ### Loads and stores -/

/-- The address of layout M (R280). -/
def Core.mAddr (k : Core) (ab : BitVec 3) (off : BitVec 18) : Nat := (k.ra ab.toNat + sext24 off).toNat
/-- A load into a D register, zero-extended; distance 3. -/
def loadD (c : CoreId) (rg : BitVec 4) (a size align : Nat) (s : State) : Res :=
  s.load c a size align fun s bs => .go (s.result c (.d rg) (BitVec.ofNat 72 (leNat bs % 2 ^ 36)) 3) none

/-- LDB. -/
def execLdb (c : CoreId) (cc rg : BitVec 4) (ab : BitVec 3) (off : BitVec 18) (s : State) : Done :=
  .next (s.issue c (wordLong 0x14 cc (layM rg ab off)) fun s k => loadD c rg (k.mAddr ab off) 1 1 s)
/-- LDH. -/
def execLdh (c : CoreId) (cc rg : BitVec 4) (ab : BitVec 3) (off : BitVec 18) (s : State) : Done :=
  .next (s.issue c (wordLong 0x15 cc (layM rg ab off)) fun s k => loadD c rg (k.mAddr ab off) 2 2 s)
/-- LDW. -/
def execLdw (c : CoreId) (cc rg : BitVec 4) (ab : BitVec 3) (off : BitVec 18) (s : State) : Done :=
  .next (s.issue c (wordLong 0x16 cc (layM rg ab off)) fun s k => loadD c rg (k.mAddr ab off) 4 4 s)
/-- LDF. -/
def execLdf (c : CoreId) (cc rg : BitVec 4) (ab : BitVec 3) (off : BitVec 18) (s : State) : Done :=
  .next (s.issue c (wordLong 0x17 cc (layM rg ab off)) fun s k => loadD c rg (k.mAddr ab off) 8 8 s)
/-- LDY: two fulls, the low one at the lower address. -/
def execLdy (c : CoreId) (cc rg : BitVec 4) (ab : BitVec 3) (off : BitVec 18) (s : State) : Done :=
  .next (s.issue c (wordLong 0x18 cc (layM rg ab off)) fun s k =>
    s.loadLong c (k.mAddr ab off) fun s bs =>
      .go (s.result c (.y (rg.setWidth 2)) (long72 (BitVec.ofNat 36 (field bs 8 8)) (BitVec.ofNat 36 (field bs 0 8))) 3) none)
/-- LDA. -/
def execLda (c : CoreId) (cc rg : BitVec 4) (ab : BitVec 3) (off : BitVec 18) (s : State) : Done :=
  .next (s.issue c (wordLong 0x19 cc (layM rg ab off)) fun s k =>
    s.load c (k.mAddr ab off) 4 4 fun s bs => .go (s.result c (.a (rg.setWidth 3)) (BitVec.ofNat 72 (leNat bs % 2 ^ 24)) 3) none)
/-- STB. -/
def execStb (c : CoreId) (cc rg : BitVec 4) (ab : BitVec 3) (off : BitVec 18) (s : State) : Done :=
  .next (s.issue c (wordLong 0x1A cc (layM rg ab off)) fun s k =>
    s.store c (k.mAddr ab off) 1 (leBytes (k.rd rg.toNat).toNat 1))
/-- STH. -/
def execSth (c : CoreId) (cc rg : BitVec 4) (ab : BitVec 3) (off : BitVec 18) (s : State) : Done :=
  .next (s.issue c (wordLong 0x1B cc (layM rg ab off)) fun s k =>
    s.store c (k.mAddr ab off) 2 (leBytes (k.rd rg.toNat).toNat 2))
/-- STW. -/
def execStw (c : CoreId) (cc rg : BitVec 4) (ab : BitVec 3) (off : BitVec 18) (s : State) : Done :=
  .next (s.issue c (wordLong 0x1C cc (layM rg ab off)) fun s k =>
    s.store c (k.mAddr ab off) 4 (leBytes (k.rd rg.toNat).toNat 4))
/-- STF. -/
def execStf (c : CoreId) (cc rg : BitVec 4) (ab : BitVec 3) (off : BitVec 18) (s : State) : Done :=
  .next (s.issue c (wordLong 0x1D cc (layM rg ab off)) fun s k =>
    s.store c (k.mAddr ab off) 8 (leBytes (k.rd rg.toNat).toNat 8))
/-- STY. -/
def execSty (c : CoreId) (cc rg : BitVec 4) (ab : BitVec 3) (off : BitVec 18) (s : State) : Done :=
  .next (s.issue c (wordLong 0x1E cc (layM rg ab off)) fun s k =>
    let y := k.ry (rg.toNat % 4)
    s.store c (k.mAddr ab off) 8 (leBytes (lo36 y).toNat 8 ++ leBytes (hi36 y).toNat 8))
/-- STA. -/
def execSta (c : CoreId) (cc rg : BitVec 4) (ab : BitVec 3) (off : BitVec 18) (s : State) : Done :=
  .next (s.issue c (wordLong 0x1F cc (layM rg ab off)) fun s k =>
    s.store c (k.mAddr ab off) 4 (leBytes (k.ra (rg.toNat % 8)).toNat 4))

/-! ### Transfers (R285) -/

/-- The target of layout B. -/
def Core.target (k : Core) (disp : BitVec 21) : W24 := k.pc + (sext24 disp <<< 3)
/-- BR. -/
def execBr (c : CoreId) (cc : BitVec 4) (disp : BitVec 21) (s : State) : Done :=
  .next (s.issue c (wordLong 0x20 cc (layB 0 disp)) fun s k => k.transfer c (.go s (some (k.target disp))))
/-- BZ and BNZ: on a P core the register must hold 0 or 1 (R279). -/
def branchOn (c : CoreId) (rs : BitVec 4) (disp : BitVec 21) (zero : Bool) (s : State) (k : Core) : Res :=
  let v := k.rd rs.toNat
  k.transfer c (if isP c && decide (1 < v.toNat) then .fault 3 none
    else .go s (if decide (v = 0) == zero then some (k.target disp) else none))
/-- BZ. -/
def execBz (c : CoreId) (cc rs : BitVec 4) (disp : BitVec 21) (s : State) : Done :=
  .next (s.issue c (wordLong 0x21 cc (layB rs disp)) fun s k => branchOn c rs disp true s k)
/-- BNZ. -/
def execBnz (c : CoreId) (cc rs : BitVec 4) (disp : BitVec 21) (s : State) : Done :=
  .next (s.issue c (wordLong 0x22 cc (layB rs disp)) fun s k => branchOn c rs disp false s k)
/-- BAL: A7 takes the address past the shadow; it is readable one slot later (DESIGN CHOICE, log 53: R288's table has no
row for a link value). -/
def execBal (c : CoreId) (cc : BitVec 4) (disp : BitVec 21) (s : State) : Done :=
  .next (s.issue c (wordLong 0x23 cc (layB 0 disp)) fun s k =>
    k.transfer c (.go (s.result c (.a 7) ((k.pc + 24).setWidth 72) 1) (some (k.target disp))))
/-- JR and JAL. -/
def execJr (c : CoreId) (cc rd rs rt : BitVec 4) (fn : BitVec 13) (s : State) : Done :=
  .next (s.issue c (wordLong 0x24 cc (layR rd rs rt fn)) fun s k =>
    let t := k.ra (rs.toNat % 8)
    k.transfer c (if t.toNat % 8 ≠ 0 then .fault 4 (some t.toNat)
      else .go (if fn = 1 then s.result c (.a (rd.setWidth 3)) ((k.pc + 24).setWidth 72) 1 else s) (some t)))

end Sys2Proof.Machine
end

