-- ==== Sys2Proof/Machine/Kernel.lean ====
section
/-! DEFINITION. The Kernel engines (10): operand memory, starts, results, completion, abort. -/

namespace Sys2Proof.Machine

open Sys2Proof

/-! ### Owner and operand memory (R304 to R308) -/

/-- A write outside the writable regions of both modes is discarded (R306): OP, written after the operands, selects the
mode (R303, R309), so no mode's table can bar a write of the other's. -/
def operandWritable (w : Nat) : Bool := decide (w < 0x280 ∨ (0x280 ≤ w ∧ w < 0x3D0) ∨ (0x400 ≤ w ∧ w < 0x600))

/-- OPERAND_MEMORY_WRITE (R308). -/
def execOperandMemoryWrite (e : EngineId) (src : Agent) (word : BitVec 12) (v : W64) (s : State) : Done :=
  let k := s.en e.val
  if s.kernelAgent ≠ some src ∨ k.chain.isSome then .next (s.raise 0x0303 1 0 0 noData)
  else if k.state ≠ .idle ∨ k.waiting then .next (s.enU e.val fun k => { k with wrBusy := true })
  else if operandWritable word.toNat then .next (s.enU e.val fun k => { k with mem := Tab.put 0 k.mem word.toNat v })
  else .next s

/-! ### The operation word (R309, R310, R312) -/

/-- OP. -/
def opCode (w : W32) : Nat := bitsOf w.toNat 31 26
/-- LEN. -/
def opLen (w : W32) : Nat := bitsOf w.toNat 25 18
/-- KEY_SLOT. -/
def opSlot (w : W32) : Nat := bitsOf w.toNat 17 12
/-- KEY_FROM_SLOT. -/
def opFromSlot (w : W32) : Bool := bitOf w.toNat 11
/-- OUT_TO_SLOT. -/
def opToSlot (w : W32) : Bool := bitOf w.toNat 10
/-- OUT_SLOT. -/
def opOutSlot (w : W32) : Nat := bitsOf w.toNat 9 4

/-- The operations of R312. -/
inductive KOp
  | rsaPub | rsaPss | rsaCrt | modmul | modexp | ecdsaVerify (c : Nat) | ecdsaSign (c : Nat) | ecdh (c : Nat)
  | ecPubgen (c : Nat) | ed25519 | mldsa (k : Nat)
deriving DecidableEq, Repr
/-- The operation of an OP code; none outside the operation table. -/
def kop (op : Nat) : Option KOp :=
  if op = 1 then some .rsaPub else if op = 2 then some .rsaPss else if op = 3 then some .rsaCrt
  else if op = 4 then some .modmul else if op = 5 then some .modexp
  else if 0x10 ≤ op ∧ op ≤ 0x12 then some (.ecdsaVerify (op - 0x10))
  else if 0x14 ≤ op ∧ op ≤ 0x16 then some (.ecdsaSign (op - 0x14))
  else if 0x18 ≤ op ∧ op ≤ 0x1A then some (.ecdh (op - 0x18))
  else if 0x1C ≤ op ∧ op ≤ 0x1E then some (.ecPubgen (op - 0x1C))
  else if op = 0x20 then some .ed25519
  else if 0x30 ≤ op ∧ op ≤ 0x32 then some (.mldsa (op - 0x30))
  else none
/-- LEN lies in the values of the operation. -/
def lenOk (o : KOp) (n : Nat) : Bool :=
  match o with
  | .rsaPub | .rsaPss => decide (32 ≤ n ∧ n ≤ 128)
  | .rsaCrt => decide (32 ≤ n ∧ n ≤ 128 ∧ n % 2 = 0)
  | .modmul | .modexp | .ed25519 | .mldsa _ => decide (1 ≤ n ∧ n ≤ 128)
  | .ecdsaVerify _ | .ecdsaSign _ => decide (n = 32 ∨ n = 48 ∨ n = 64)
  | .ecdh _ | .ecPubgen _ => decide (n = 0)
/-- Operations whose row uses KEY_FROM_SLOT (R314). -/
def KOp.slotKey : KOp → Bool | .ecdsaSign _ => true | .ecdh _ => true | .ecPubgen _ => true | _ => false
/-- ECDH alone uses OUT_TO_SLOT (R314). -/
def KOp.slotOut : KOp → Bool | .ecdh _ => true | _ => false
/-- Leave tokens. -/
def kopTokens (o : KOp) (n : Nat) : Nat :=
  match o with
  | .rsaPub | .rsaPss | .rsaCrt | .modexp => if n ≤ 64 then 2 else 3
  | .mldsa _ => 3
  | _ => 2
/-- A start is refused for its word (R310). -/
def wordRefused (w : W32) : Bool :=
  match kop (opCode w) with
  | none => true
  | some o => !lenOk o (opLen w) || (opFromSlot w && !o.slotKey) || (opToSlot w && !o.slotOut) || decide (w.toNat % 16 ≠ 0)

/-! ### Key slots (R314, R318, R331, R336) -/

/-- An engine's read of a slot's key passes (R330, R331, R422). -/
def State.engineMayRead (s : State) (n : Nat) (w : W32) : Bool :=
  let k := s.ks n
  let a := k.attr.toNat
  s.slotServes n 0 && !(bitOf a 29 && bitOf a 28)
    && !(decide (0x18 ≤ opCode w ∧ opCode w ≤ 0x1A) && !bitOf a 26 && !opToSlot w)
    && !(decide (n = 3) && s.hand.stale)
/-- A ONCE key is consumed (R318, R329): USED, no longer VALID. -/
def KeySlot.consumed (k : KeySlot) : KeySlot :=
  { (k.stored 0 0).withAttr ((k.attr &&& 0x7FFFFFFF) ||| 0x10000000) with instn := incr64 k.instn }
/-- OUT_SLOT can be reserved: a firmware slot, neither locked nor in use (R315, R336). -/
def State.outSlotFree (s : State) (n : Nat) : Bool :=
  let k := s.ks n
  decide (8 ≤ n) && !k.reserved && !k.bad && !bitOf k.attr.toNat 31 && !bitOf k.attr.toNat 30
/-- The operation begins after its leave is granted: BUSY, the key read (R305, R314, R338). -/
def State.kernelBegin (s : State) (e : Nat) : State :=
  let k := s.en e
  let s := s.enU e fun k => { k with state := .busy, waiting := false }
  if k.chain.isSome ∨ !opFromSlot k.op then s
  else
    let n := opSlot k.op
    let s := s.keyCheck n
    if s.engineMayRead n k.op then
      let x := s.slotKey n
      let a := (s.ks n).attr
      let s := if bitOf a.toNat 29 then s.ksU n KeySlot.consumed else s.remask n
      s.enU e fun k => { k with key := some x, keyAttr := a }
    else s.enU e fun k => { k with keyFail := true }

/-- A start of an operation (R304, R305, R309, R310). -/
def State.kernelStart (s : State) (e : Nat) (src : Agent) (w : W32) : State :=
  let k := s.en e
  let foreign := decide (s.kernelAgent ≠ some src)
  let lost := foreign && s.boot.canopyOut && (decide (src = .canopyA) || decide (src = .canopyB))
  if foreign ∨ k.state ≠ .idle ∨ k.waiting ∨ (s.ch (chanKey .engine e)).state = .probing ∨ wordRefused w then
    let s := s.enU e fun k => { k with refused := true }
    if lost then s.roleAlarm else s
  else match kop (opCode w) with
    | none => s
    | some o =>
      let n := kopTokens o (opLen w)
      let free := s.outSlotFree (opOutSlot w)
      let s := if opToSlot w && free then s.ksU (opOutSlot w) fun x => { x with reserved := true } else s
      let s := s.enU e fun k => { k with
        owner := ownerCode src, op := w, key := none, keyAttr := 0, keyFail := opToSlot w && !free,
        outSlot := if opToSlot w && free then some (opOutSlot w) else none, lastOp := BitVec.ofNat 6 (opCode w), result := 0,
        by_ := ownerCode src, other := if k.by_ = ownerCode src then k.other else (k.result, k.lastOp) }
      match s.lvTake (.kernel e) n with
      | some t => t.kernelBegin e
      | none => (s.lvAsk (.kernel e) n).enU e fun k => { k with waiting := true }

/-- A start command whose word carries one of its operation's codes, or one outside the table. -/
def startCommand (f : KOp → Bool) (e : EngineId) (src : Agent) (w : W32) (s : State) : Done :=
  match kop (opCode w) with
  | some o => if f o ∧ src ≠ .verdict then .next (s.kernelStart e.val src w) else .next s
  | none => if src ≠ .verdict then .next (s.kernelStart e.val src w) else .next s

/-- RSA_PUB. -/
def execRsaPub (e : EngineId) (src : Agent) (w : W32) (s : State) : Done :=
  startCommand (fun o => match o with | .rsaPub => true | _ => false) e src w s
/-- RSA_PSS_VERIFY. -/
def execRsaPssVerify (e : EngineId) (src : Agent) (w : W32) (s : State) : Done :=
  startCommand (fun o => match o with | .rsaPss => true | _ => false) e src w s
/-- RSA_CRT. -/
def execRsaCrt (e : EngineId) (src : Agent) (w : W32) (s : State) : Done :=
  startCommand (fun o => match o with | .rsaCrt => true | _ => false) e src w s
/-- MODMUL. -/
def execModmul (e : EngineId) (src : Agent) (w : W32) (s : State) : Done :=
  startCommand (fun o => match o with | .modmul => true | _ => false) e src w s
/-- MODEXP. -/
def execModexp (e : EngineId) (src : Agent) (w : W32) (s : State) : Done :=
  startCommand (fun o => match o with | .modexp => true | _ => false) e src w s
/-- ECDSA_VERIFY. -/
def execEcdsaVerify (e : EngineId) (src : Agent) (w : W32) (s : State) : Done :=
  startCommand (fun o => match o with | .ecdsaVerify _ => true | _ => false) e src w s
/-- ECDSA_SIGN. -/
def execEcdsaSign (e : EngineId) (src : Agent) (w : W32) (s : State) : Done :=
  startCommand (fun o => match o with | .ecdsaSign _ => true | _ => false) e src w s
/-- ECDH. -/
def execEcdh (e : EngineId) (src : Agent) (w : W32) (s : State) : Done :=
  startCommand (fun o => match o with | .ecdh _ => true | _ => false) e src w s
/-- EC_PUBGEN. -/
def execEcPubgen (e : EngineId) (src : Agent) (w : W32) (s : State) : Done :=
  startCommand (fun o => match o with | .ecPubgen _ => true | _ => false) e src w s
/-- ED25519_VERIFY. -/
def execEd25519Verify (e : EngineId) (src : Agent) (w : W32) (s : State) : Done :=
  startCommand (fun o => match o with | .ed25519 => true | _ => false) e src w s
/-- MLDSA_VERIFY. -/
def execMldsaVerify (e : EngineId) (src : Agent) (w : W32) (s : State) : Done :=
  startCommand (fun o => match o with | .mldsa _ => true | _ => false) e src w s

/-! ### Checks and computation (R312 to R316) -/

/-- What an operation reads and yields: failing checks in the order of R315, the outcome of the computation, and the
values of OUT_A and OUT_B. -/
structure KRun where
  form    : Bool := false
  coding  : Bool := false
  zeroK   : Bool := false
  zeroOp  : Bool := false
  ge      : Bool := false
  curve   : Bool := false
  low     : Bool := false
  outcome : Nat := 0
  outA    : Nat := 0
  outB    : Nat := 0
deriving DecidableEq, Repr
/-- Words of a coordinate of curve c: P-256, P-384, P-521. -/
def curveWords (c : Nat) : Nat := if c = 0 then 4 else if c = 1 then 6 else 9
/-- An RSA modulus of n words: odd, top bit set. -/
def rsaForm (m n : Nat) : Bool := decide (m % 2 = 0 ∨ m / 2 ^ (64 * n - 1) = 0)
/-- The operation on operand memory m with LEN n, secret d read from a slot or from KEY, and TRNG input r. -/
def kernelRun (o : KOp) (m : Tab W64) (n : Nat) (slot : Option (BitVec 512)) (r : Nat) : KRun :=
  let md := memInt m 0x000 n
  let a := memInt m 0x080 n
  let b := memInt m 0x100 n
  match o with
  | .rsaPub => { form := rsaForm md n, zeroOp := decide (a = 0), ge := decide (md ≤ a), outA := powMod a 65537 md 17 }
  | .rsaPss =>
    let v := powMod a 65537 md 17
    { form := rsaForm md n, zeroOp := decide (a = 0), ge := decide (md ≤ a), outA := v,
      outcome := if pssOk n v (memBytes m 0x380 48) then 0 else 1 }
  | .rsaCrt =>
    let h := n / 2
    let p := memInt m 0x400 h
    let q := memInt m 0x440 h
    let dp := memInt m 0x480 h
    let dq := memInt m 0x4C0 h
    let qinv := memInt m 0x500 h
    let m1 := powMod a dp p (64 * h)
    let m2 := powMod a dq q (64 * h)
    let v := m2 + (m1 + p - m2 % p) * qinv % p * q
    { form := rsaForm md n || decide (p % 2 = 0 ∨ q % 2 = 0 ∨ p / 2 ^ (64 * (h - 1)) = 0 ∨ q / 2 ^ (64 * (h - 1)) = 0),
      zeroOp := decide (a = 0), ge := decide (md ≤ a), outA := v,
      outcome := if powMod v 65537 md 17 = a then 0 else 0xB }
  | .modmul =>
    { form := decide (md % 2 = 0 ∨ md / 2 ^ (64 * (n - 1)) = 0), ge := decide (md ≤ a ∨ md ≤ b), outA := a * b % md }
  | .modexp =>
    let x := memInt m 0x400 n
    { form := decide (md % 2 = 0 ∨ md / 2 ^ (64 * (n - 1)) = 0), zeroK := decide (x = 0), zeroOp := decide (a = 0),
      ge := decide (md ≤ a), outA := powMod a x md (64 * n) }
  | .ecdsaVerify c =>
    let k := curveWords c
    let x := memInt m 0x080 k
    let y := memInt m 0x100 k
    let rr := memInt m 0x180 k
    let ss := memInt m 0x200 k
    { zeroOp := decide (rr = 0 ∨ ss = 0),
      ge := decide (curveP c ≤ x ∨ curveP c ≤ y ∨ curveN c ≤ rr ∨ curveN c ≤ ss),
      curve := !onCurve c x y, low := decide (x = 0 ∧ y = 0),
      outcome := if ecdsaVerify c x y rr ss (memBytes m 0x380 n) then 0 else 1 }
  | .ecdsaSign c =>
    let d := (slot.map (·.toNat)).getD (memInt m 0x400 (curveWords c))
    let v := ecdsaSign c d (memBytes m 0x380 n) r
    { zeroK := decide (d = 0), ge := decide (curveN c ≤ d), outA := v.1, outB := v.2,
      outcome := if v.1 = 0 ∨ v.2 = 0 then 0xA else 0 }
  | .ecdh c =>
    let k := curveWords c
    let d := (slot.map (·.toNat)).getD (memInt m 0x400 k)
    let x := memInt m 0x080 k
    let y := memInt m 0x100 k
    { zeroK := decide (d = 0), ge := decide (curveN c ≤ d ∨ curveP c ≤ x ∨ curveP c ≤ y),
      curve := !onCurve c x y, low := decide (x = 0 ∧ y = 0), outA := (ecMul c d x y).1 }
  | .ecPubgen c =>
    let d := (slot.map (·.toNat)).getD (memInt m 0x400 (curveWords c))
    let v := ecPub c d
    { zeroK := decide (d = 0), ge := decide (curveN c ≤ d), outA := v.1, outB := v.2 }
  | .ed25519 =>
    let x := memBytes m 0x080 32
    let y := memBytes m 0x100 64
    { coding := edBadEncoding x (y.take 32), ge := decide (edL ≤ leNat (y.drop 32)),
      low := edLowOrder x, outcome := if edVerify x y (memBytes m 0x380 n) then 0 else 1 }
  | .mldsa k =>
    let pk := memBytes m 0x000 (if k = 0 then 1312 else if k = 1 then 1952 else 2592)
    let sg := memBytes m 0x160 (if k = 0 then 2420 else if k = 1 then 3309 else 4627)
    { coding := mldsaBadEncoding k sg,
      outcome := if mldsaVerify k pk sg (memBytes m 0x3C0 n) then 0 else 1 }
/-- RESULT: the first failing check, or the outcome (R315). -/
def KRun.code (x : KRun) (keyFail integrity : Bool) : Nat :=
  if x.form then 7 else if keyFail then 9 else if x.coding then 8 else if x.zeroK then 6 else if x.zeroOp then 2
  else if x.ge then 3 else if x.curve then 4 else if x.low then 5 else if integrity then 0xB else x.outcome

/-! ### Completion (R317 to R320) -/

/-- The memory an operation leaves: KEY and WORK clear, OUT_A and OUT_B written or cleared; in lattice mode these words
hold the signature. -/
def memAfter (o : KOp) (m : Tab W64) (ok : Bool) (x : KRun) : Tab W64 :=
  let m := Tab.clear m 0x3D0 0x1000
  match o with
  | .mldsa _ => m
  | _ =>
    let m := Tab.clear m 0x280 0x380
    if ok then memPutInt (memPutInt m 0x280 x.outA 128) 0x300 x.outB 128 else m
/-- The attributes of a slot that takes an ECDH result (R336). -/
def ecdhAttr (c : Nat) (src : Option W32) (lc : Nat) : W32 :=
  let klen := if c = 0 then 1 else if c = 1 then 2 else 3
  match src with
  | some a => attrWord false false (bitOf a.toNat 27) (bitOf a.toNat 26) 2 0x0A (bitsOf a.toNat 17 15) klen
  | none => attrWord false false false true 2 0x0A lc klen
/-- The leave of an engine returns and its operation is over (R305, R311). -/
def State.kernelEnd (s : State) (e result : Nat) : State :=
  let s := s.poolBack 0 e (s.holds 0 e)
  (s.enU e fun k => { k with
    state := .idle, done := true, result := BitVec.ofNat 4 result, key := none, keyFail := false, outSlot := none, task := none }).setLine e true

/-- A chain-mode part ends (R320, R321, R102): the verdict unit takes the result for `done`; after an integrity failure the
verification is due again and the engine takes no further one in this wake. -/
def State.chainEnd (s : State) (e : Nat) (j : ChainJob) (integrity : Bool) (done : Bool → State → State) : State :=
  if (hybridParts j.scheme).isSome && !j.second && !integrity then
    s.enU e fun k => { k with chain := some { j with second := true }, mem := chainMem j.scheme j.digest j.block true }
  else
    let s := s.poolBack 0 e (s.holds 0 e)
    let s := s.enU e fun k => { k with state := .idle, mem := [], chain := none }
    if integrity then
      let s : State := { s with wake := { s.wake with serving := s.wake.serving.filter fun x => decide (x ≠ e) } }
      let s := match j.use with
        | .port p => if (s.pk p).sig = SigState.running e then s.pkU p fun w => { w with sig := .none } else s
        | _ => s
      (s.chanError .engine e 9).verAgain j
    else
      let ok := sigVerifies j.scheme j.digest j.block
      match j.use with
      | .port p => if (s.pk p).sig = SigState.running e then s.pkU p fun w => { w with sig := if ok then .ok else .failed } else s
      | _ => if s.verLive { j with second := false } then done ok s else s

/-! ### Operations that firmware starts itself (R349, R439) -/

/-- The operation word of a task: EC_PUBGEN of a P-256 or P-384 key, ECDSA_SIGN with the Alias key (R310, R349, R439). -/
def KTask.word (t : KTask) (klen : Nat) : W32 :=
  match t with
  | .provPub _ n _ => BitVec.ofNat 32 ((0x1B + klen) * 2 ^ 26 + n * 2 ^ 12 + 2 ^ 11)
  | .provSign _ _ | .spdmSign _ _ _ _ => BitVec.ofNat 32 (0x15 * 2 ^ 26 + 48 * 2 ^ 18 + 3 * 2 ^ 12 + 2 ^ 11)
/-- The digest that a task signs. -/
def KTask.digest : KTask → List Byte
  | .provPub _ _ _ => [] | .provSign _ body => sha384 body | .spdmSign _ _ d _ => d
/-- LEAD writes the operands of its task and starts it on an engine (R304 to R310). -/
def State.taskStart (s : State) (e : Nat) (src : Agent) (t : KTask) : State :=
  let klen := match t with | .provPub _ n _ => bitsOf (s.ks n).attr.toNat 14 13 | _ => 0
  let s := s.enU e fun k => { k with mem := memPutInt k.mem 0x380 (leNat t.digest) 6 }
  (s.kernelStart e src (t.word klen)).enU e fun k => { k with task := some t }
/-- The oldest task that waits starts on the highest free engine: a wake leaves that one to LEAD (R83; DESIGN CHOICE, log
25). -/
def State.taskNext (s : State) : State :=
  match s.keys.tasks, s.leadAgent, (List.range 4).reverse.find? s.engineFree with
  | t :: r, some a, some e => ({ s with keys := { s.keys with tasks := r } } : State).taskStart e a t
  | _, _, _ => s
/-- LEAD has an operation for an engine. -/
def State.taskAsk (s : State) (t : KTask) : State := ({ s with keys := { s.keys with tasks := s.keys.tasks ++ [t] } } : State).taskNext
/-- An engine is free again: what waits for one starts. -/
def State.engineFreed (s : State) : State := s.verStart.taskNext

end Sys2Proof.Machine
end

