-- ==== Sys2Proof/Machine/Keys.lean ====
section
/-! DEFINITION. Owner authorisations (17 R466) and the functions of the key unit (11 R328 to R350). -/

namespace Sys2Proof.Machine

open Sys2Proof

/-! ### Owner authorisations (R465, R466) -/

/-- Every byte of the object buffer has been written (R465). -/
def ObjBuf.full (b : ObjBuf) : Bool := (List.range b.len).all fun i => Tab.get false b.written i
/-- Content of the object buffer. -/
def ObjBuf.data (b : ObjBuf) : List Byte := Tab.range 0 b.bytes 0 b.len
/-- ARG holds the value its FUNCTION states (R466). -/
def authArg (fn arg : Nat) : Bool :=
  match fn with
  | 1 => decide (arg = 0) | 2 => decide (arg = 3) | 3 => decide (arg = 4) | 4 => decide (arg = 5) | 6 => decide (arg = 0)
  | 5 => decide (arg < 4096 ∧ 0x20 ≤ arg % 256 ∧ arg % 256 ≤ 0x23 ∧ (arg / 256 = 1 ∨ arg / 256 = 2))
  | _ => false
/-- The key-block digest matches the signer; the root of SCRAPPED goes by LC_LATCHED (R340, R346, R466). -/
def State.authSigner (s : State) (fn signer : Nat) (b : List Byte) : Bool :=
  if signer < 4 then
    kdLock s.fuses.current signer && !kdRevoke s.fuses.current signer && decide (keyDigest b = kdDigest s.fuses.current signer)
  else decide (signer = 0xFE ∧ fn = 4)
    && (decide (s.lcLatched = 1 ∧ keyDigest b = padTo Config.vendorRoot 48)
      || decide (s.lcLatched = 4 ∧ keyDigest b = padTo Config.returnRoot 48))
/-- An owner authorisation for a function and argument passes but for its signature (R466). -/
def State.authOk (s : State) (a : List Byte) (fn arg : Nat) : Bool :=
  let n := field a 0x60 4
  let b := sub a 0x70 n
  decide (sub a 0 8 = ascii "SV96AUTH") && decide (field a 8 2 = 1) && decide (field a 0x0A 2 = 8 ∨ field a 0x0A 2 = 9)
    && zeros a 0x0E 2 && zeros a 0x18 8 && zeros a 0x64 12
    && decide ((byteAt a 0x0D).toNat = fn) && decide (field a 0x10 4 = arg) && authArg fn arg
    && decide (field a 0x14 4 = s.boot.epoch.toNat) && decide (sub a 0x20 16 = padTo s.boot.nonce 16)
    && decide (sub a 0x30 48 = sha384 (padTo s.keys.devid 96))
    && sbFormOk b n && keyBlockOk (field a 0x0A 2) b && s.authSigner fn (byteAt a 0x0C).toNat b
/-- The verification of an owner authorisation: over its first 0x70 bytes (R466). -/
def authJob (u : VerUse) (a : List Byte) : ChainJob :=
  { use := u, scheme := field a 0x0A 2, digest := sha384 (a.take 0x70), block := sub a 0x70 (field a 0x60 4) }
/-- The object buffer holds an authorisation for a function and argument; its signature has still to be verified. -/
def State.objAuth (s : State) (fn arg : Nat) : Bool :=
  let b := s.mspi.obj
  b.owner.isSome && decide (b.kind = 3) && b.full && s.authOk b.data fn arg

/-! ### Checks of the key unit (R332 to R337) -/

/-- A function's outcome: RESULT, and nothing else changes where it is refused. -/
def State.keyResult (s : State) (r : Nat) : State := { s with keys := { s.keys with result := BitVec.ofNat 16 r } }

/-- A Canopy core without LEAD (R28). -/
def State.noLead (s : State) (src : Agent) : Bool :=
  (decide (src = .canopyA) || decide (src = .canopyB)) && decide (s.leadAgent ≠ some src)
/-- The seed core, or the Canopy core with LEAD (R333). -/
def State.firmware (s : State) (src : Agent) : Bool :=
  (decide (src = .seed) && s.boot.seedOut && !s.boot.canopyOut) || decide (s.leadAgent = some src)
/-- The life-cycle state admits slot functions (R340, R383). -/
def State.slotsOpen (s : State) : Bool := decide (1 ≤ s.lcCurrent ∧ s.lcCurrent ≤ 4) && !s.keys.lcBad
/-- The slot cannot be used at all: integrity lost, or reserved for an engine (R336, R339). -/
def KeySlot.stop (k : KeySlot) : Nat := if k.bad || !k.sound then 0x3401 else if k.reserved then 0x2402 else 0
/-- A function on a slot ends with `r`, or as `f` unless it is cut short; `cut` says that a step burn blocks it. A core without LEAD
gets ROLE and raises the alarm (R28, R337). A slot that fails its checks is cleared and locked (R339). With K_SLOT cleared no slot
can be read or stored, and a function ends ABORTED until the redraw (R338, R350; DEDUCED, log 34); one that a ZEROIZE, a SEAL, a
warm restart or a step burn cuts short leaves its target empty, a warm restart with INSTANCE advanced (R350). -/
def State.roleOr (s : State) (src : KeyIssue) (n : Nat) (mayIssue : Bool) (r : Nat) (f : State) (cut : Bool := false) : State :=
  if s.noLead src.agent then (s.keyResult 0x1408).roleAlarm
  else if !mayIssue then s.keyResult 0x1408
  else if !s.slotsOpen then s.keyResult 0x1407
  else if !s.keys.kSlot then s.keyResult 0x4401
  else if r ≠ 0 then (s.keyCheck n).keyResult r
  else match src.ended with
    | .done => f.keyResult 0
    | .cleared => s.keyResult 0x4401
    | .restart => (s.ksU n fun k => { k with instn := incr64 k.instn }).keyResult 0x4401
    | .burn => if cut then s.keyResult 0x4401 else f.keyResult 0

/-- The first refusal of a list. -/
def firstOf (l : List Nat) : Nat := (l.find? fun r => decide (r ≠ 0)).getD 0
/-- A refusal code where a rule is broken. -/
def unlessOk (ok : Bool) (r : Nat) : Nat := if ok then 0 else r

/-- The attribute word of a placed key: the argument's fields, ORIGIN, BOUND_STATE (R328, R334). -/
def State.placedAttr (s : State) (arg : W32) (origin : Nat) (bind export_ : Bool) : W32 :=
  let a := arg.toNat
  attrWord (bitOf a 30) (bitOf a 29) bind export_ origin (bitsOf a 23 18) s.lcCurrent (bitsOf a 14 13)
/-- DEST bits 4 and 5 are no firmware's to set (R334). -/
def destOk (arg : W32) : Bool := !bitOf arg.toNat 22 && !bitOf arg.toNat 23
/-- Refusal of a placement into a firmware slot (R334, R336, R337, R339). -/
def State.placeRefusal (s : State) (n : Nat) (arg : W32) : Nat :=
  let k := s.ks n
  firstOf [k.stop, unlessOk (!bitOf k.attr.toNat 30) 0x1402, unlessOk (!bitOf k.attr.toNat 31) 0x1404,
    unlessOk (destOk arg) 0x1403]
/-- A CURVE argument goes with the KLEN that holds its scalar: P-256 256 bits, P-384 384, P-521 512 (log 33). -/
def curveFits (curve : BitVec 2) (arg : W32) : Bool :=
  decide (curve = 0) || decide (bitsOf arg.toNat 14 13 = curve.toNat)

/-- A function that places no key has no target to leave empty: a warm restart merely ends it (R350). -/
def keyPlain (i : KeyIssue) : KeyIssue := { i with ended := if i.ended = .restart then .cleared else i.ended }

/-! ### The functions (R333) -/

/-- KEYIN as one number, word 0 least significant. -/
def State.keyinNat (s : State) : Nat := leNat (bytesOf ((List.range 16).map fun i => s.keys.keyin.getD i 0))
/-- KEYIN clears. -/
def State.keyinDone (s : State) : State := { s with keys := { s.keys with keyin := [] } }

/-- A lane's MKA restarts: a change under way is abandoned, and a new SAK is drawn under the new CAK (R430, R432). -/
def State.mkaRestartLane (s : State) (l : Nat) : State :=
  (if (s.ln l).changing then (s.slotEmptied 7).lnU l fun k => { k with changing := false } else s).sakChange l
/-- A new CAK restarts MKA on both lanes, the lane that is changing first (R431, R432). -/
def State.mkaRestart (s : State) : State :=
  if (s.ln 1).changing then (s.mkaRestartLane 1).mkaRestartLane 0 else (s.mkaRestartLane 0).mkaRestartLane 1

/-- WRITE. -/
def execKeyUnitWrite (src : KeyIssue) (slot : KeySlotId) (attr : W32) (s : State) : Done :=
  let n := slot.val
  if n = 4 ∧ s.leadAgent = some src.agent then
    .next (s.roleOr src n true (firstOf [(s.ks 4).stop, unlessOk (destOk attr) 0x1403])
      ((s.place' 4 s.keyinNat 256 (s.macsecAttr attr 0)).keyinDone).mkaRestart)
  else
    .next (s.roleOr src n (s.firmware src.agent) (firstOf [unlessOk (decide (8 ≤ n)) 0x1401, s.placeRefusal n attr])
      ((s.place' n s.keyinNat (klenBits (bitsOf attr.toNat 14 13))
        (s.placedAttr attr 0 (bitOf attr.toNat 27) (bitOf attr.toNat 26))).keyinDone))

/-- TRNG output for a key: uniform bits, or a scalar of the curve (R333). -/
def trngKey (curve : BitVec 2) (bits r : Nat) : Nat :=
  if curve = 0 then r % 2 ^ bits
  else if curve = 3 then 1 + r % (2 ^ 512 - 1)
  else 1 + r % (curveN (curve.toNat - 1) - 1)
/-- GENERATE. -/
def execKeyUnitGenerate (src : KeyIssue) (slot : KeySlotId) (curve : BitVec 2) (attr : W32) (s : State) : Done :=
  let n := slot.val
  let v := s.drawn 0
  if src.agent = .link then
    .next (if 5 ≤ n ∧ n ≤ 7 then s.roleOr src n s.boot.linkOut (firstOf [(s.ks n).stop, unlessOk (destOk attr) 0x1403])
        ((s.used 1).place' n v 256 (s.macsecAttr attr 1))
      else s.keyResult 0x1401)
  else
    .next (s.roleOr src n (s.firmware src.agent)
      (firstOf [unlessOk (decide (8 ≤ n)) 0x1401, unlessOk (curveFits curve attr) 0x1406, s.placeRefusal n attr])
      ((s.used 1).place' n (trngKey curve (klenBits (bitsOf attr.toNat 14 13)) v) 512
        (s.placedAttr attr 1 (bitOf attr.toNat 27) (bitOf attr.toNat 26))))

/-- A slot is usable in the present life-cycle state (R328). -/
def State.bindOk (s : State) (a : W32) : Bool := !(bitOf a.toNat 27 && decide (bitsOf a.toNat 17 15 ≠ s.lcCurrent))
/-- The key a DERIVE starts from, or the code of its refusal (R331, R334, R337, R340). -/
def State.deriveParent (s : State) (parent : Nat) : Nat × List Byte :=
  if parent = 0x3F then
    match s.kdfRoot with
    | some k => (0, k)
    | none => (0x2401, [])
  else
    let k := s.ks parent
    let a := k.attr.toNat
    (firstOf [unlessOk (decide (8 ≤ parent)) 0x1401, k.stop, unlessOk (s.bindOk k.attr) 0x1407, unlessOk (bitOf a 31 && bitOf a 21) 0x1403], keyBytes (s.slotKey parent) (klenBits (bitsOf a 14 13)))
/-- DERIVE (R334, R345). -/
def execKeyUnitDerive (src : KeyIssue) (slot : KeySlotId) (parent : BitVec 6) (curve : BitVec 2) (attr : W32)
    (label context : List Byte) (s : State) : Done :=
  let n := slot.val
  let pk := s.deriveParent parent.toNat
  let root := decide (parent = 0x3F)
  let owner := root && decide (s.lcCurrent = 2 ∨ s.lcCurrent = 3)
  let rights := !(bitOf attr.toNat 26 && (root || !bitOf (s.ks parent.toNat).attr.toNat 26)) && (bitOf attr.toNat 27 || !owner)
  let bits := klenBits (if n = 4 then 1 else bitsOf attr.toNat 14 13)
  let out := if curve = 0 then kdf pk.2 label context bits else kdf pk.2 label context 512
  let key := if curve = 0 then leNat out else (kdfScalar (curve.toNat - 1) out).toNat
  let args := decide (1 ≤ label.length ∧ label.length ≤ 32 ∧ context.length ≤ 96) && (label.all fun b => decide (b.toNat < 128))
  if n = 4 ∧ s.leadAgent = some src.agent then
    .next (s.roleOr src n true (firstOf [(s.ks 4).stop, unlessOk (args && decide (curve = 0)) 0x1406, unlessOk (destOk attr) 0x1403, pk.1])
      (s.place' 4 key 512 (if owner then s.macsecAttr attr 2 ||| 0x08000000 else s.macsecAttr attr 2)).mkaRestart root)
  else
    .next (s.roleOr src n (s.firmware src.agent)
      (firstOf [unlessOk (decide (8 ≤ n)) 0x1401, unlessOk (args && curveFits curve attr) 0x1406, s.placeRefusal n attr, pk.1,
        unlessOk rights 0x1403])
      (s.place' n key 512 (s.placedAttr attr 2 (bitOf attr.toNat 27) (bitOf attr.toNat 26))) root)

/-- SETATTR takes away rights: DEST bits, EXPORT, KLEN as it is; ONCE, LC_BIND and LOCK only rise (R335). -/
def narrows (old new : W32) : Bool :=
  let o := old.toNat
  let a := new.toNat
  !bitOf o 30 && decide (bitsOf a 23 18 &&& bitsOf o 23 18 = bitsOf a 23 18) && (bitOf o 26 || !bitOf a 26)
    && (bitOf a 29 || !bitOf o 29) && (bitOf a 27 || !bitOf o 27) && decide (bitsOf a 14 13 = bitsOf o 14 13)
/-- The narrowed word. -/
def State.narrowed (s : State) (old new : W32) : W32 :=
  let o := old.toNat
  let bound := if bitOf new.toNat 27 && !bitOf o 27 then s.lcCurrent else bitsOf o 17 15
  BitVec.ofNat 32 (o / 2 ^ 31 * 2 ^ 31 + (new.toNat / 2 ^ 29 % 4) * 2 ^ 29 + (bitOf o 28).toNat * 2 ^ 28
    + bitsOf new.toNat 27 26 * 2 ^ 26 + bitsOf o 25 24 * 2 ^ 24 + bitsOf new.toNat 23 18 * 2 ^ 18 + bound * 2 ^ 15
    + bitsOf o 14 13 * 2 ^ 13)
/-- SETATTR. -/
def execKeyUnitSetattr (src : KeyIssue) (slot : KeySlotId) (attr : W32) (s : State) : Done :=
  let n := slot.val
  let k := s.ks n
  .next (s.roleOr (keyPlain src) n (s.firmware src.agent)
    (firstOf [unlessOk (decide (8 ≤ n)) 0x1401, k.stop, unlessOk (narrows k.attr attr) 0x1403])
    (s.ksU n fun k => k.withAttr (s.narrowed k.attr attr)))

/-- READ: KEYOUT takes the key. -/
def execKeyUnitRead (src : KeyIssue) (slot : KeySlotId) (s : State) : Done :=
  let n := slot.val
  let k := s.ks n
  .next (s.roleOr (keyPlain src) n (decide (s.leadAgent = some src.agent))
    (firstOf [unlessOk (decide (8 ≤ n)) 0x1401, k.stop, unlessOk (s.bindOk k.attr) 0x1407, unlessOk (bitOf k.attr.toNat 31 && bitOf k.attr.toNat 26) 0x1405])
    { s with keys := { s.keys with keyout := wordsOf (leBytes (s.slotKey n).toNat 64) } })

/-- CLEAR; a reserved slot that its own agent clears takes a key again (log 34). -/
def execKeyUnitClear (src : KeyIssue) (slot : KeySlotId) (s : State) : Done :=
  let n := slot.val
  let a := src.agent
  let own := (decide (n = 4) && decide (s.leadAgent = some a)) || (decide (5 ≤ n ∧ n ≤ 7) && decide (a = .link))
  let clear := s.ksU n fun k => if own then k.cleared.withAttr 0 else k.cleared
  .next (s.roleOr (keyPlain src) n (own || s.firmware a || decide (a = .link))
    (firstOf [unlessOk (own || (decide (8 ≤ n) && decide (a ≠ .link))) 0x1401, (s.ks n).stop]) clear)

/-- Bytes 0x00 to 0x5F of a provenance statement (R349). -/
def State.provenanceBody (s : State) (n : Nat) (nonce : List Byte) : List Byte :=
  let k := s.ks n
  let key := keyBytes (s.slotKey n) (klenBits (bitsOf k.attr.toNat 14 13))
  ascii "SV96PROV" ++ leBytes 1 2 ++ leBytes n 1 ++ leBytes s.lcCurrent 1 ++ leBytes k.attr.toNat 4 ++ leBytes k.instn.toNat 8
    ++ padTo s.boot.nonce 16 ++ leBytes s.boot.epoch.toNat 4 ++ leBytes 0 4 ++ padTo nonce 32
    ++ kmac256 key (ascii "SV96KEYID") [] 16
/-- PROVENANCE. -/
def execKeyUnitProvenance (src : KeyIssue) (slot : KeySlotId) (nonce : List Byte) (s : State) : Done :=
  let n := slot.val
  let k := s.ks n
  let a := k.attr.toNat
  .next (s.roleOr (keyPlain src) n (decide (s.leadAgent = some src.agent))
    (firstOf [unlessOk (decide (8 ≤ n)) 0x1406, k.stop, unlessOk (s.bindOk k.attr) 0x1407,
      unlessOk (bitOf a 31 && !bitOf a 26 && decide (bitsOf a 25 24 = 1 ∨ bitsOf a 25 24 = 2)) 0x1406])
    { s with keys := { s.keys with provOut := s.provenanceBody n nonce } })

/-- ROOT_GENERATE draws the root, where the state and, in DEPLOYED, its authorisation admit it (R341). -/
def State.rootGenerate (s : State) (src : KeyIssue) (authorised : Bool) : State :=
  let lc := s.lcCurrent
  let ok := !s.boot.orderAF && (decide (lc = 2) || (decide (lc = 3) && authorised))
  s.roleOr (keyPlain src) 0 (decide (s.leadAgent = some src.agent)) (unlessOk ok 0x1407)
    (({ s with keys := { s.keys with
        root := BitVec.ofNat 256 (s.drawn 0) ^^^ BitVec.ofNat 256 (s.drawn 1)
        rootMask := BitVec.ofNat 256 (s.drawn 1)
        rootState := 1 } } : State).used 2)
/-- The authorisation of a ROOT_GENERATE has been verified. -/
def State.rootVerified (s : State) (src : Agent) (ok : Bool) : State :=
  ({ s with keys := { s.keys with rootJob := none } } : State).rootGenerate { agent := src } ok
/-- ROOT_GENERATE (R341, R466): in PROVISIONED, in DEPLOYED with an owner authorisation in the object buffer, whose signature goes
to an engine first. -/
def execRootGenerateFunction (src : KeyIssue) (s : State) : Done :=
  .next (if s.lcCurrent = 3 ∧ s.objAuth 1 0 ∧ s.leadAgent = some src.agent ∧ src.ended = .done ∧ s.keys.rootJob = none then
      let j := authJob (.root src.agent) s.mspi.obj.data
      ({ s with keys := { s.keys with rootJob := some j } } : State).verify j fun ok s => s.rootVerified src.agent ok
    else s.rootGenerate src false)

/-- KEYOUT_EXPIRY. -/
def execKeyoutExpiry (s : State) : Done := .next { s with keys := { s.keys with keyout := [] } }

/-- SLOT_REMASK (R338, R339). -/
def execSlotRemask (slot : KeySlotId) (ok : Bool) (s : State) : Done :=
  .next (if (s.ks slot.val).bad then s
    else if ok then s.remask slot.val
    else (s.slotBad slot.val).raiseReg 0x0402 0 0 noData)

/-- KEY_REDRAW (R350). -/
def execKeyRedraw (s : State) : Done := .next (if s.keys.redraw then s.drawSlotKeys else s)

end Sys2Proof.Machine
end

