-- ==== Sys2Proof/Machine/Mail.lean ====
section
/-! DEFINITION. Words through the mailboxes: requests taken, responses written (17 R457 to R463). -/

namespace Sys2Proof.Machine

open Sys2Proof

/-- Firmware takes n request words: QUEUED → FREE → SHELF, REQ_LIMIT + n (R458). -/
def State.takeWords (s : State) (q n : Nat) : State :=
  (s.poolMove (16 + q) 1 0 n).mbU q fun b => { b with req := b.req.drop n, reqLimit := (b.reqLimit + n) % 65536 }

/-- A request: header and arguments, once every word stands in the FIFO (R462). -/
def Mbox.request (b : Mbox) : Option (Nat × List W32) :=
  match b.req with
  | [] => none
  | h :: t => if h.toNat % 256 ≤ t.length then some (h.toNat, t.take (h.toNat % 256)) else none

/-- The mailbox served next: MB0, then the others in turn after the one last served; one command at a time in each
(R463). -/
def State.nextBox (s : State) : Option Nat :=
  let free := fun q => decide ((s.mb q).tag = none) && decide ((s.mb q).owed = []) && (s.mb q).request.isSome && (s.mb q).ready
  if free 0 then some 0
  else ((List.range 7).map fun i => 1 + (s.mspi.lastServed + i) % 7).find? free

/-- COMMAND of a header. -/
def hdrCommand (h : Nat) : Nat := h / 2 ^ 24
/-- TAG of a header. -/
def hdrTag (h : Nat) : Byte := BitVec.ofNat 8 (h / 2 ^ 16)

end Sys2Proof.Machine
end

