-- ==== Sys2Proof/Machine/Burns.lean ====
section
/-! DEFINITION. The fuse controller: arming, burns, re-sense (12 R356 to R371). -/

namespace Sys2Proof.Machine

open Sys2Proof

/-! ### Checks at FIRE (R352, R357, R360 to R363, R365) -/

/-- The core that issues a function on a unit (R51, R352, R357). -/
def State.fuseIssuer (s : State) (fn : Nat) (u : OtpUnit) : Option Agent :=
  let second := match s.leadAgent with | some .canopyA => some Agent.canopyB | some .canopyB => some Agent.canopyA | _ => none
  if fn = 5 then (if s.boot.dev = .sealed then some .seed else s.leadAgent)
  else if u.group = 1 ∨ u.group = 7 ∨ (u.group = 0 ∧ s.lcLatched = 0) then some .seed
  else if u.code = 0x13 then second
  else s.leadAgent
/-- The life-cycle states in which a function may burn a unit, by LC_LATCHED (R340, R346, R352); the step to DEPLOYED refuses
burns of FR at once (R346). -/
def State.fuseStateOk (s : State) (fn : Nat) (u : OtpUnit) : Bool :=
  let n := s.lcLatched
  let within := fun a b => decide (a ≤ n ∧ n ≤ b)
  if n = 5 then false
  else if fn = 5 then true
  else if s.boot.dev = .sealed then false
  else match u.group with
  | 0 => fn == 3 || decide (n = 0)
  | 1 => decide (n = 0)
  | 2 => if fn = 4 then within 1 4 else within 1 3
  | 3 => within 1 4
  | 4 => s.boot.orderAF && within 1 2 && decide (s.lcCurrent ≤ 2)
  | 5 => within 1 4
  | 7 => within 0 1
  | _ => within 1 3
/-- The fields of a unit that BURN may set: content, COMPLETE, RETIRED of LR (R352, R363). -/
def OtpUnit.burnable (u : OtpUnit) (i : Nat) : Bool :=
  match u.group with
  | 0 => decide (8 ≤ i ∧ i < 32 ∧ (i = 8 ∨ 16 ≤ i))
  | 5 => decide (i < 24)
  | 3 => false
  | 4 => decide (i < 272)
  | 7 => decide (i < 368)
  | 6 | 8 => decide (i < 496)
  | _ => decide (i < 400)
/-- The bits of IMAGE that are set. -/
def Fuses.imageBits (f : Fuses) : List Nat := (List.range 512).filter fun i => bitOf (f.image.getD (i / 32) 0).toNat (i % 32)
/-- A unit is locked by CURRENT. -/
def State.unitLocked (s : State) (u : OtpUnit) : Bool := match u.lock with | some l => s.current (u.base + l) | none => false
/-- The read before a LOCK finds the unit sound and complete (R369). -/
def State.lockReady (s : State) (u : OtpUnit) : Bool :=
  let t : Tab Bool := s.fuses.otp.filterMap fun e => if e.2.value then some (e.1, true) else none
  ((List.range u.bits).all fun i =>
    let b := s.otpBit (u.base + i)
    !b.disagree && !b.isWeak && !b.isHalf) && crcAgrees t u
/-- KDn is programmed and not revoked by CURRENT. -/
def State.kdLive (s : State) (n : Nat) : Bool := kdLock s.fuses.current n && !kdRevoke s.fuses.current n
/-- A grant for a function and unit stands (R362). -/
def State.granted (s : State) (fn unit : Nat) : Bool := decide (s.fuses.grant = some (BitVec.ofNat 4 fn, BitVec.ofNat 8 unit))
/-- The conditions of an LC step to `target` (R346); what it authorises is posted as a grant (log 36). -/
def State.lcStepOk (s : State) (target : Nat) : Bool :=
  let n := s.lcCurrent
  match target with
  | 1 => decide (n = 0) && s.current 32 && s.current (0x200 + 400)
  | 2 => decide (n = 1) && ((List.range 4).any fun i => s.kdLive i)
      && (if s.boot.orderAF then s.current (0x80 + 272) else (List.range 320).all fun i => !s.current (0x80 + i))
  | 3 => decide (n = 2) && s.granted 3 3 && ((List.range 12).any fun i => kdLock s.fuses.current (4 + i)) && decide (s.rootState = 1)
  | 4 => decide (n = 2 ∨ n = 3) && s.granted 3 4
  | 5 => decide (1 ≤ n ∧ n ≤ 4) && s.granted 3 5
  | _ => false
/-- The bound of an ADVANCE (R357); none where it is refused. -/
def State.advanceBound (s : State) (unit : Nat) : Option Nat :=
  let sh := s.wake.shelf
  if unit = 0x10 then (if sh.decided && !sh.rejected && !sh.revoked && decide (sh.epoch = s.boot.epoch) then some sh.rollback.toNat else none)
  else if unit = 0x11 then s.boot.bundle.map fun b => b.version.toNat
  else if unit = 0x12 then s.wake.policy.map fun p => polEpoch p.bytes
  else if unit = 0x13 then (if s.log.carried then some (mcCount s.fuses.current 3 + 1) else none)
  else some 256
/-- The function's own conditions: 0, or the code of the refusal. -/
def State.fuseOwn (s : State) (fn : Nat) (u : OtpUnit) (arg : Nat) : Nat :=
  let kd := u.code - 0x20
  let needsGrant := decide (u.group = 2 ∧ kd < 4 ∧ s.lcLatched = 3)
  let revoked := decide (u.group = 2) && kdRevoke s.fuses.current kd
  match fn with
  | 1 => firstOf [unlessOk (decide (arg = 0) && s.fuses.imageBits.all u.burnable) 0x1501, unlessOk (!revoked) 0x1509,
      unlessOk (!s.unitLocked u) 0x1502, unlessOk (!needsGrant || s.granted 1 u.code) 0x1504]
  | 2 => firstOf [unlessOk (decide (arg = 0) && u.lock.isSome) 0x1501, unlessOk (!revoked) 0x1509,
      unlessOk (!needsGrant || s.granted 2 u.code) 0x1504, unlessOk (s.lockReady u) 0x1505]
  | 3 =>
    if u.group = 0 then unlessOk (s.lcStepOk arg) 0x1504
    else if u.group = 3 then
      unlessOk (decide (mcCount s.fuses.current (u.code - 0x10) < arg ∧ arg ≤ 256)
        && (match s.advanceBound u.code with | some b => decide (arg ≤ b) | none => false)) 0x1504
    else 0x1501
  | 4 => firstOf [unlessOk (decide (arg = 0 ∧ u.group = 2)) 0x1501,
      unlessOk (!decide (2 ≤ s.lcLatched ∧ s.lcLatched ≤ 3) || ((List.range 4).any fun i => decide (i ≠ kd) && s.kdLive i)) 0x1508]
  | _ =>
    let e := s.fuses.weakMap.getD arg 0
    firstOf [unlessOk (weakValid e) 0x1506, unlessOk (decide ((otpUnitAt (weakAddr e)).map (·.code) = some u.code)
      && u.named (weakAddr e - u.base)) 0x1501]
/-- A FIRE that passes its arming consumes the grant of its function and unit (R362); the checks in the order of R365, then
the request for leave. -/
def State.fuseFire (s : State) (src : Agent) (w : W32) : State :=
  let fn := fuseFn w
  let s : State := { s with fuses := { s.fuses with word := w, src := src, arm := none } }
  match otpUnit (fuseUnit w) with
  | none => s.burnEnds 0x1501
  | some u =>
    let own := s.fuseOwn fn u (fuseArg w)
    let used := s.granted fn (if fn = 3 then fuseArg w else u.code) && decide (u.group = 0 ∨ u.group = 2)
    let s : State := if used then { s with fuses := { s.fuses with grant := none } } else s
    if fn = 0 ∨ 5 < fn then s.burnEnds 0x1501
    else if s.fuseIssuer fn u ≠ some src then
      s.roleAlarm.burnEnds 0x150A
    else if !s.fuseStateOk fn u then s.burnEnds 0x1503
    else if own ≠ 0 then s.burnEnds own
    else if !s.fuses.tempOk then s.burnEnds 0x2502
    else if !s.mainGood then s.burnEnds 0x4501
    else
      let s : State := { s with fuses := { s.fuses with state := .burning, plan := s.fuses.targets } }
      match s.lvTake .fuse 2 with
      | some t => t
      | none =>
        let s := s.lvAsk .fuse 2
        { s with fuses := { s.fuses with waiting := true } }
/-- Shentiha's ARM and FIRE of one function for a mailbox command (R471). -/
def State.fuseDo (s : State) (src : Agent) (fn unit arg : Nat) : State :=
  s.fuseFire src (BitVec.ofNat 32 (0x5A000000 + fn * 2 ^ 20 + unit * 2 ^ 12 + arg))

/-! ### Arming (R364) -/

/-- The cores that reach the fuse controller. -/
def fuseCore (src : Agent) : Bool := match src with | .seed => true | .canopyA => true | .canopyB => true | _ => false
/-- FUSE_ARM. -/
def execFuseArm (src : Agent) (w : W32) (s : State) : Done :=
  if !fuseCore src then .next s
  else match s.fuses.state with
  | .idle =>
    if w.toNat / 2 ^ 24 = 0xA5 then .next { s with fuses := { s.fuses with state := .armed, arm := some (src, w, s.cyc) } }
    else .next s
  | .armed => .next s.disarm
  | _ => .next s
/-- FUSE_ARM_WINDOW_EXPIRY. -/
def execFuseArmWindowExpiry (s : State) : Done := .next (if s.fuses.state = .armed then s.disarm else s)

/-- A FIRE of function `fn`: same core, same bits, 1 µs to 10 ms of core cycles after the ARM. -/
def State.fireWord (s : State) (fn : Nat) (src : Agent) (w : W32) : State :=
  if !fuseCore src ∨ (fuseFn w ≠ fn ∧ 1 ≤ fuseFn w ∧ fuseFn w ≤ 6) then s
  else match s.fuses.state with
  | .burning => s
  | .sensing => s
  | .idle => s.disarm
  | .armed =>
    match s.fuses.arm with
    | none => s.disarm
    | some (a, v, t) =>
      let d := s.cyc.toNat - t.toNat
      if a = src ∧ w.toNat / 2 ^ 24 = 0x5A ∧ w.toNat % 2 ^ 24 = v.toNat % 2 ^ 24 ∧ 1200 ≤ d ∧ d ≤ 12000000 then s.fuseFire src w
      else s.disarm
/-- BURN. -/
def execFuseFireBurn (src : Agent) (w : W32) (s : State) : Done := .next (s.fireWord 1 src w)
/-- LOCK. -/
def execFuseFireLock (src : Agent) (w : W32) (s : State) : Done := .next (s.fireWord 2 src w)
/-- ADVANCE. -/
def execFuseFireAdvance (src : Agent) (w : W32) (s : State) : Done := .next (s.fireWord 3 src w)
/-- REVOKE. -/
def execFuseFireRevoke (src : Agent) (w : W32) (s : State) : Done := .next (s.fireWord 4 src w)
/-- REBURN. -/
def execFuseFireReburn (src : Agent) (w : W32) (s : State) : Done := .next (s.fireWord 5 src w)

/-- FUSE_LEAVE_TIMEOUT: the request is withdrawn. -/
def execFuseLeaveTimeout (s : State) : Done :=
  .next (if s.fuses.state = .burning ∧ s.fuses.waiting then (s.lvDrop .fuse).burnEnds 0x2501 else s)

/-! ### Burning (R365, R368) -/

/-- The pulse at which a copy verifies: as listed, else the first. -/
def pulseOf (l : List (BitVec 14 × Bool × Nat)) (a c : Nat) : Nat :=
  ((l.find? fun e => decide (e.1.toNat = a) && decide (e.2.1.toNat = c)).map (·.2.2)).getD 1
/-- A copy that does not verify after four pulses: what it reads afterwards is a free value, weak or as it was; it is
entered in the weak map (R351, R365, R367). -/
def State.copyFails (s : State) (a c : Nat) : State :=
  let v := ((s.otpBit a).copy c).pulsed (if s.drawn 0 % 2 = 1 then CopySt.weak else CopySt.none)
  (({ s with fuses := s.fuses.setCopy a c v } : State).used 1).burnFound a
/-- The copies of the targets in order, each up to four pulses; false where one fails. -/
def State.burnCopies (s : State) (l : List (BitVec 14 × Bool × Nat)) : List (Nat × Nat) → State × Bool
  | [] => (s, true)
  | (a, mask) :: rest =>
    let go := fun (r : State × Bool) (c : Nat) =>
      let now := (r.1.otpBit a).copy c
      if !r.2 ∨ !bitOf mask c then r
      else if now ≠ .sound ∧ 4 < pulseOf l a c then (r.1.copyFails a c, false)
      else ({ r.1 with fuses := r.1.fuses.copySound a c }, true)
    let r := go (go (s, true) 0) 1
    if r.2 then State.burnCopies r.1 l rest else r
/-- The RETIRE entry of a lane that still waits for its append takes the RESULT of the lane's LR burn, once that burn is over; until then
it says that the burn is queued (R413; log 64). -/
def State.lrResult (s : State) (result : Nat) : State :=
  { s with log := { s.log with waiting := s.log.waiting.map fun r =>
    if r.kind = 0x31 ∧ (byteAt r.body 1).toNat = 3 ∧ field r.body 12 4 = 0xFFFF ∧ s.lrBurned (byteAt r.body 2).toNat = true
    then { r with body := r.body.take 12 ++ leBytes result 4 ++ r.body.drop 16 } else r } }
/-- FUSE_DONE: the burn ends OK, or with MARGIN at the first copy that fails. -/
def execFuseDone (pulses : List (BitVec 14 × Bool × Nat)) (s : State) : Done :=
  if s.fuses.state ≠ .burning ∨ s.fuses.waiting then .next s
  else
    let old := s.lcCurrent
    let r := s.burnCopies pulses s.fuses.plan
    let s := (r.1.lcMoved old).lrResult (if r.2 then 0 else 0x3501)
    let s : State := { s with fuses := { s.fuses with lrQueue := s.fuses.lrQueue.filter fun l => !s.lrBurned l } }
    .next (s.burnEnds (if r.2 then 0 else 0x3501))

/-- LR_BURN_RETRY (R412): the Canopy core with LEAD issues the burn of the lanes that wait in LR. -/
def execLrBurnRetry (s : State) : Done :=
  match s.fuses.lrQueue, s.leadAgent with
  | l :: ls, some lead =>
    if s.fuses.state = .idle ∧ s.boot.canopyOut ∧ s.fuses.tempOk then
      let m := maskOf (l :: ls)
      let s : State := { s with fuses := { s.fuses with image := [BitVec.ofNat 32 m] } }
      .next (s.fuseDo lead 1 0x01 0)
    else .next s
  | _, _ => .next s

/-! ### Temperature and re-sense (R370, R371) -/

/-- A re-sense is due: now, or once the burn or the re-sense that runs has ended; those that wait run as one, which answers
RESENSE where one asked (R370, R371). -/
def State.resenseDue (s : State) (word : W32) : State :=
  match s.fuses.state with
  | .burning | .armed | .sensing => { s with fuses := { s.fuses with resense := some (s.fuses.resense.getD word ||| word) } }
  | _ => { s with fuses := { s.fuses with state := .sensing, word := word } }
/-- FUSE_RESENSE: any other write disarms (R364). -/
def execFuseResense (src : Agent) (s : State) : Done :=
  if !fuseCore src then .next s
  else .next ((if s.fuses.state = .armed then s.disarm else s).resenseDue 0x00600000)
/-- TEMPERATURE_THRESHOLD_CROSSING: a burn ends with TEMPERATURE when the die leaves the window; a re-sense starts. -/
def execTemperatureThresholdCrossing (inside : Bool) (_hot : Bool) (s : State) : Done :=
  let s : State := { s with fuses := { s.fuses with tempOk := inside, inside := inside } }
  let s := if s.fuses.state = .burning ∧ !inside then
      (if s.fuses.waiting then (s.lvDrop .fuse).burnEnds 0x2502 else (s.burnStop).burnEnds 0x2502)
    else s
  .next (if s.boot.sensed then s.resenseDue 0 else s)

/-- A copy's state after a re-sense finds it failing. -/
def CopySt.weaken (c : CopySt) : CopySt := if c = .none then .none else .weak
/-- The array as a finding leaves it. -/
def OtpBit.found (b : OtpBit) (value : Bool) : Resensed → OtpBit
  | .differs => if value then {} else { c0 := .weak, c1 := b.c1 }
  | .disagree => { c0 := .unstable, c1 := .unstable }
  | .weak m => { c0 := if m.getLsbD 0 then b.c0.weaken else b.c0, c1 := if m.getLsbD 1 then b.c1.weaken else b.c1 }
  | .half m => { c0 := if m.getLsbD 0 then .none else .sound, c1 := if m.getLsbD 1 then .none else .sound }
/-- One finding of a re-sense. -/
def State.finding (s : State) (a : Nat) (r : Resensed) : State :=
  let new := fun (half : Bool) => !(s.fuses.weakMap.any fun w => weakValid w && decide (weakAddr w = a ∧ bitOf w.toNat 30 = half))
  let s : State := { s with fuses := { s.fuses with otp := Tab.upd {} s.fuses.otp a fun b => b.found (s.current a) r } }
  match r with
  | .differs | .disagree => ({ s with fuses := { s.fuses with drift := true } } : State).fuseAlarm 1 a
  | .weak m =>
    if new false then
      (s.weakAdd (weakEntry false m.toNat true a)).fuseAlarm
        (if ((otpUnitAt a).map fun u => classK u.group).getD false then 1 else 0) a
    else s
  | .half m => if new true then (s.weakAdd (weakEntry true m.toNat true a)).fuseAlarm 0 a else s
/-- A re-sense that no command asked for ends; one that waited starts. -/
def State.resenseNext (s : State) : State :=
  let f := s.fuses
  { s with fuses := { f with state := if f.resense.isSome then .sensing else .idle, word := f.resense.getD f.word, resense := none } }
/-- RESENSE_DONE. -/
def execResenseDone (findings : List (BitVec 14 × Resensed)) (s : State) : Done :=
  if s.fuses.state ≠ .sensing then .next s
  else
    let asked := decide (fuseFn s.fuses.word = 6)
    let s := s.each findings fun s f => s.finding f.1.toNat f.2
    if asked then .next (s.fuseEnds 0)
    else .next s.resenseNext

end Sys2Proof.Machine
end

