-- ==== Sys2Proof/Machine/Link.lean ====
section
/-! DEFINITION. The lanes of the trust link, their MACsec keys, received frames, transfers (16 R426 to R435, R441 to R443,
R449, R450). -/

namespace Sys2Proof.Machine

open Sys2Proof

/-! ### Lane states (R427, R429) -/

/-- LOSS_OF_SIGNAL (R429, R427, R435): the lane goes DOWN; withdrawn rates return. -/
def execLossOfSignal (l : LinkId) (s : State) : Done :=
  let k := s.ln l.val
  if k.st = .retired ∨ k.los then .next s
  else .next ((s.laneLeave l.val .down).lnU l.val fun k => { k with los := true, advert := 0, fails := [] })

/-- SIGNAL_PRESENT (R427, R429): the lane retrains once it has its leave. -/
def execSignalPresent (l : LinkId) (s : State) : Done :=
  let k := s.ln l.val
  if k.st = .retired ∨ !k.los then .next s
  else .next ((s.lnU l.val fun k => { k with los := false }).laneTrain l.val)

/-- RATE codes a lane advertises: those of its medium that are not withdrawn, fastest first (R426, R427). -/
def State.offered (s : State) (l : Nat) : List Nat :=
  (if bitOf (byteAt s.cfg 1).toNat l then [2, 4, 6] else [1, 3, 5]).filter fun r => !bitOf (s.ln l).advert.toNat (r - 1)

/-- The rate that auto-negotiation chooses: the highest that the lane and its peer both advertise (R427). -/
def State.common (s : State) (l : Nat) (peer : BitVec 6) : Option Nat := (s.offered l).find? fun r => bitOf peer.toNat (r - 1)
/-- TRAINING_TIMEOUT (R427): the attempt fails; the second failure at the rate chosen withdraws that rate; the lane tries
again. -/
def execTrainingTimeout (t : TrainEnd) (s : State) : Done :=
  let l := t.lane.val
  if (s.ln l).st ≠ .training then .next s
  else
    let rate := s.common l t.peerRates
    let s := s.lvBack (.retrain l) 2
    let s := s.lnU l fun k => { k with st := .down, grantOk := false }
    let s := match rate with
      | some r => s.lnU l fun k =>
        if Tab.get 0 k.fails r = 0 then { k with fails := Tab.put 0 k.fails r 1 }
        else { k with fails := Tab.put 0 k.fails r 0, advert := k.advert ||| BitVec.ofNat 6 (2 ^ (r - 1)) }
      | none => s
    .next ((s.laneEvent).laneTrain l)

/-- BLOCK_LOCK (R427, R429): the highest common port type; the retrain ends and the lane is UP. -/
def execBlockLock (l : LinkId) (peerRates : BitVec 6) (s : State) : Done :=
  let k := s.ln l.val
  if k.st ≠ .training then .next s
  else match s.common l.val peerRates with
    | none => .next s
    | some r =>
      let s := s.lvBack (.retrain l.val) 2
      .next (s.lnU l.val fun k => { k with st := .up, rate := BitVec.ofNat 3 r, grantOk := false, fails := [] }).laneEvent

/-- BLOCK_LOCK_LOSS (R406): an error of the lane's channel while the peer's signal is present; frames go on the other
lane. -/
def execBlockLockLoss (l : LinkId) (s : State) : Done :=
  let k := s.ln l.val
  if (k.st ≠ .up ∧ k.st ≠ .secured) ∨ k.los then .next s
  else .next ((s.laneLeave l.val .up).chanError .link l.val 7)

/-! ### MACsec (R430 to R432) -/

/-- MKA_LIVE (R429, R430, R434, R435, R449, R450): the lane is SECURED with a new SAK; HELLO; autonomous mode ends;
transfers that no lane carries resume; ABORT frames that waited are sent. -/
def execMkaLive (l : LinkId) (s : State) : Done :=
  let n := l.val
  if (s.ln n).st ≠ .up ∨ !s.boot.linkOut ∨ !s.slotServes 4 2 ∨ (s.ks (5 + n)).stop ≠ 0 then .next s
  else
    let s := if bitOf (s.ks 4).attr.toNat 29 then s.ksU 4 KeySlot.consumed else s.remask 4
    let s := s.drawSak (5 + n)
    let s := s.lnU n fun k => { k with st := .secured, sak := BitVec.ofNat 2 (n + 1) }
    let s : State := { s with link := { s.link with auto := false } }
    let free := if (s.po (10 + n)).st = .ok then min 64 (s.po (10 + n)).free else 0
    let s := (s.poolGrant (10 + n) 0 free).lnU n fun k => { k with limit := free }
    let s := (s.tx n 1 0 0 0 []).laneEvent
    let lost := s.link.xfers.filter fun e => e.2.susp || !s.secured e.2.lane
    let s := s.each (lost.map (·.1)) fun s x => s.resumeXfer x n
    let s := s.each s.link.aborts fun s e => s.abortFrame n e.1 e.2
    .next { s with link := { s.link with aborts := [] } }

/-- SAK_CHANGE_DUE. -/
def execSakChangeDue (l : LinkId) (s : State) : Done := .next (s.sakChange l.val)
/-- SAK_CHANGE_DONE (R431): the new key goes into the lane's own slot, KS7 clears, a change that waited starts. -/
def execSakChangeDone (l : LinkId) (s : State) : Done :=
  let n := l.val
  if !(s.ln n).changing then .next s
  else
    let s := (s.placeKey (5 + n) (s.slotKey 7) (s.macsecAttr 0 1)).slotEmptied 7
    let s := s.lnU n fun k => { k with changing := false, sak := BitVec.ofNat 2 (n + 1) }
    .next (s.sakNext n)
/-- MKA_LIFE_EXPIRY (R430, R450): the lane is UP without the trust protocol. -/
def execMkaLifeExpiry (l : LinkId) (s : State) : Done :=
  if (s.ln l.val).st ≠ .secured then .next s else .next (s.laneLeave l.val .up)

/-! ### Frames received (R433 to R435) -/

/-- A frame type of the frame table. -/
def frameTypeOk (t : Nat) : Bool := decide (t = 1 ∨ t = 2 ∨ t = 0x10 ∨ (0x20 ≤ t ∧ t ≤ 0x23) ∨ t = 0x30)
/-- A header with a reserved value, or a LENGTH that does not match (R433). -/
def badHeader (h : TrustHeader) (payload : List Byte) : Bool :=
  decide (h.version ≠ 1) || !frameTypeOk h.type.toNat || decide (4 ≤ h.flags.toNat) || decide (h.rsvd ≠ 0) || decide (h.rsvd2 ≠ 0)
    || decide (h.length.toNat ≠ payload.length) || decide (1968 < payload.length)
/-- Frame n arrives: its buffer passes from PEER to QUEUED, frames missing before it are LOST, a malformed one gives its
credit back; then it is processed by `f` and its buffer returns (R434, R435, R404). -/
def State.rxFrame (s : State) (l : Nat) (h : TrustHeader) (malformed : Bool) (f : State → State) : State :=
  let k := s.ln l
  let q := 10 + l
  let n := h.sent.toNat
  let gap := (n + 65536 - (k.counted + 1) % 65536) % 65536
  if !s.secured l ∨ 32768 ≤ gap ∨ (s.po q).st ≠ .ok then s
  else if 32768 ≤ (k.limit + 65536 - n) % 65536 then s.laneCount l 4 1
  else
    let s := if gap = 0 then s else (s.poolReturn q 0 gap).laneCount l 3 gap
    let s := s.lnU l fun k => { k with counted := n }
    if malformed then ((s.poolReturn q 0 1).laneCount l 5 1).grantRx l
    else
      let s := ((s.poolMove q 0 1 1).laneCount l 0 1).lnU l fun k => { k with peerLim := h.limit.toNat }
      (((f (s.txDrain l)).poolReturn q 1 1)).grantRx l
/-- A frame of a type arrives. -/
def State.rxTyped (s : State) (type l : Nat) (h : TrustHeader) (payload : List Byte) (wrong : Bool) (f : State → State) : State :=
  if h.type.toNat ≠ type then s else s.rxFrame l h (badHeader h payload || wrong) f

/-- HELLO (R435): both counts restart. -/
def execHello (l : LinkId) (h : TrustHeader) (s : State) : Done :=
  let n := l.val
  if h.type.toNat ≠ 1 ∨ badHeader h [] ∨ !s.secured n then .next s
  else
    let s := s.lnU n fun k => { k with counted := 0, limit := s.holds (10 + n) 0, told := 0, peerLim := h.limit.toNat }
    .next ((s.txDrain n).grantRx n)
/-- CREDIT (R434): LIMIT alone. -/
def execCredit (l : LinkId) (h : TrustHeader) (s : State) : Done := .next (s.rxTyped 2 l.val h [] false fun s => s)
/-- CREDIT_TIMER (R434). -/
def execCreditTimer (l : LinkId) (s : State) : Done := .next (s.tx l.val 2 0 0 0 [])
/-- MACSEC_DROP (R428, R430, R433): a frame that fails validation or has another EtherType is dropped and counted; one with a tag, a
PAUSE or one above 2,048 bytes is dropped by the MAC, which no counter counts. -/
def execMacsecDrop (l : LinkId) (why : LinkDrop) (s : State) : Done :=
  let k := s.ln l.val
  let counts := match why with | .validation => true | .etherType e => decide (e.toNat ≠ s.etherType) | .tagged | .pause | .length _ => false
  if !counts ∨ !s.boot.linkOut ∨ (k.st ≠ .up ∧ k.st ≠ .secured) then .next s
  else .next (s.laneCount l.val 2 1).laneEvent

/-- A leaf frame's data bytes (R442). -/
def quarterLen (len i q : Nat) : Nat := min 1024 (leafLen len i - 1024 * q)
/-- A LEAF frame that does not fit the transfer it names. -/
def State.leafWrong (s : State) (h : TrustHeader) (payload : List Byte) : Bool :=
  let t := s.xf h.xfer.toNat
  let i := h.index.toNat / 4
  let q := h.index.toNat % 4
  let n := ceilDiv t.len 4096
  if !s.xferOpen h.xfer.toNat ∨ t.kind ≠ 3 then false
  else
    let path := if q = 0 then 48 * pathLen 15 i n else 0
    decide (n ≤ i) || decide (quarterLen t.len i q = 0) || (bitOf h.flags.toNat 1 != decide (q = 0))
      || decide (payload.length ≠ quarterLen t.len i q + path)
/-- An OBJECT frame of a length that its form excludes: 1,024 bytes, the last one at most (R433). -/
def objectWrong (h : TrustHeader) (payload : List Byte) : Bool :=
  if bitOf h.flags.toNat 0 then decide (1024 < payload.length) else decide (payload.length ≠ 1024)
/-- A payload length that the frame's type excludes. -/
def State.frameWrong (s : State) (h : TrustHeader) (payload : List Byte) : Bool :=
  let t := h.type.toNat
  if t = 1 ∨ t = 2 then decide (payload ≠ [])
  else if t = 0x20 then decide (payload.length ≠ 80)
  else if t = 0x21 then objectWrong h payload
  else if t = 0x22 then s.leafWrong h payload
  else if t = 0x23 then decide (payload.length ≠ 16)
  else if t = 0x30 then decide (payload.length ≠ 128)
  else false
/-- MALFORMED_FRAME (R433). -/
def execMalformedFrame (l : LinkId) (h : TrustHeader) (payload : List Byte) (s : State) : Done :=
  if badHeader h payload || s.frameWrong h payload then .next (s.rxFrame l.val h true fun s => s) else .next s

/-! ### Transfers (R441 to R443) -/

/-- OBJECT (R441): segments in order, the object at most 64 KiB long; otherwise ABORT with REASON 2. -/
def execObjectFrame (l : LinkId) (h : TrustHeader) (payload : List Byte) (s : State) : Done :=
  let x := h.xfer.toNat
  .next (s.rxTyped 0x21 l.val h payload (objectWrong h payload) fun s =>
    let t := s.xf x
    if !s.xferOpen x ∨ t.kind = 3 ∨ t.last ∨ t.susp then s
    else if h.index.toNat ≠ t.next ∨ 65536 < t.bytes.length + payload.length then s.xferFail x 2
    else
      let at_ := t.bytes.length
      let s := s.xfU x fun t => { t with bytes := t.bytes ++ payload, next := t.next + 1, last := bitOf h.flags.toNat 0 }
      if t.kind = 1 ∧ (s.fl t.port).flow = 3 then
        (s.stageRange t.port ((polRegion s.pol t.port 0).1 + at_) payload.length).getD (s.stageShort x)
      else s)
/-- OBJECT_TIMEOUT (R441): 2 s after the OPEN the object is not whole. -/
def execObjectTimeout (xfer : W32) (s : State) : Done :=
  let t := s.xf xfer.toNat
  if !s.xferOpen xfer.toNat ∨ t.kind = 3 ∨ t.last ∨ t.susp then .next s else .next (s.xferFail xfer.toNat 2)
/-- ABORT from the store (R443): the transfer and its flow fail with its REASON. -/
def execAbortFrame (l : LinkId) (h : TrustHeader) (payload : List Byte) (s : State) : Done :=
  let x := h.xfer.toNat
  .next (s.rxTyped 0x23 l.val h payload (decide (payload.length ≠ 16)) fun s =>
    if s.xferOpen x then s.xferDrop x (field payload 0 2) else s)

/-- The quarters of a leaf that hold bytes. -/
def quarters (len i : Nat) : List Nat := (List.range 4).filter fun q => decide (0 < quarterLen len i q)
/-- LEAF (R442, R443): a quarter of a requested leaf goes into the transfer's STAGING groups. -/
def execLeafFrame (l : LinkId) (h : TrustHeader) (payload : List Byte) (s : State) : Done :=
  let x := h.xfer.toNat
  let i := h.index.toNat / 4
  let q := h.index.toNat % 4
  .next (s.rxTyped 0x22 l.val h payload (s.leafWrong h payload) fun s =>
    let t := s.xf x
    match t.open_.find? fun o => decide (o.1 = i) with
    | none => s
    | some o =>
      if !s.xferOpen x ∨ t.kind ≠ 3 ∨ t.susp ∨ o.2.1.contains q then s
      else
        let n := quarterLen t.len i q
        let s := s.stagePut t.port (t.base + 4096 * i + 1024 * q) (payload.take n)
        let got := o.2.1 ++ [q]
        let o' := (i, got, if q = 0 then payload.drop n else o.2.2)
        let s := s.xfU x fun t => { t with open_ := t.open_.map fun e => if e.1 = i then o' else e }
        if (quarters t.len i).all got.contains then s.svcAsk (.leaf x i) else s)
/-- The hash of a leaf (R122). -/
def leafHash (i : Nat) (bs : List Byte) : List Byte := sha384 (0 :: leBytes i 4 ++ bs)
/-- A leaf's hash folded with its path, bottom level first (R122, R442). -/
def foldPath : Nat → Nat → Nat → List Byte → List Byte → List Byte
  | 0, _, _, h, _ => h
  | f + 1, i, n, h, path =>
    if n ≤ 1 then h
    else if i + 1 = n ∧ n % 2 = 1 then foldPath f (i / 2) ((n + 1) / 2) h path
    else
      let sib := path.take 48
      foldPath f (i / 2) ((n + 1) / 2) (if i % 2 = 0 then sha384 (1 :: h ++ sib) else sha384 (1 :: sib ++ h)) (path.drop 48)
/-- LEAF_VERIFY (R229, R443): the service lane has hashed leaf i, the oldest of its jobs, and folded its path. -/
def execLeafVerify (xfer : W32) (i : Nat) (s : State) : Done :=
  let x := xfer.toNat
  let t := s.xf x
  match t.open_.find? fun o => decide (o.1 = i) with
  | none => .next s
  | some o =>
    if !s.xferOpen x ∨ t.susp ∨ !((quarters t.len i).all o.2.1.contains) ∨ s.svcNext ≠ some (.leaf x i) then .next s
    else
      let s := s.svcDone (.leaf x i)
      let bs := s.stageGet t.port (t.base + 4096 * i) (leafLen t.len i)
      if foldPath 15 i (ceilDiv t.len 4096) (leafHash i bs) o.2.2 = t.root then
        .next ((s.xfU x fun t => { t with open_ := t.open_.filter fun e => decide (e.1 ≠ i), ok := t.ok ++ [i] }).pullMore x)
      else .next (s.leafFailed x i)
/-- LEAF_TIMEOUT (R443): 100 ms after its request the leaf is not verified. -/
def execLeafTimeout (xfer : W32) (i : Nat) (s : State) : Done :=
  let x := xfer.toNat
  let t := s.xf x
  if !s.xferOpen x ∨ t.susp ∨ !(t.open_.any fun o => decide (o.1 = i)) then .next s else .next (s.leafFailed x i)

/-! ### Autonomous mode and notices (R449, R450) -/

/-- AUTONOMOUS_ENTRY (R450): both lanes in LOS or RETIRED for 1 s. -/
def execAutonomousEntry (s : State) : Done :=
  let gone := fun l => (s.ln l).los || decide ((s.ln l).st = .retired)
  if gone 0 && gone 1 then
    .next { s with link := { s.link with auto := true, xfers := s.link.xfers.map fun e => (e.1, { e.2 with susp := true }) } }
  else .next s
/-- TRANSFER_SUSPEND_EXPIRY (R450): REASON 5, its ABORT sent once a lane returns. -/
def execTransferSuspendExpiry (xfer : W32) (s : State) : Done :=
  if s.xferOpen xfer.toNat && (s.xf xfer.toNat).susp then .next (s.xferFail xfer.toNat 5) else .next s
/-- NOTICE (R449): the queued NOTICE of the lowest port goes to the recovery agent, with the record as it is then; it stays queued
while the peer's LIMIT forbids a frame (R434). -/
def execNotice (s : State) : Done :=
  match s.laneUp, s.link.notices with
  | some l, p :: r =>
    .next (if (s.ln l).wait = [] && (s.ln l).mayTx then
      ({ s with link := { s.link with notices := r } }).tx l 0x30 0 0 0 (padTo (s.pv p).meas 128)
    else s)
  | _, _ => .next s

end Sys2Proof.Machine
end

