-- ==== Sys2Proof/Machine/Flows.lean ====
section
/-! DEFINITION. Recovery flows (16 R444 to R448, 08 R262). Steps of a flow: 0 manifest, 1 header, 2 erase, 4 leaves,
6 header programming, 8 manifest programming, 10 rewake, 11 verdict; steps 3, 5, 7 and 9 wait for the flash. -/

namespace Sys2Proof.Machine

open Sys2Proof

/-- Region of a slot in a port's read plan: start and bytes. -/
def State.slotRegion (s : State) (p : Nat) (x : Slot) : Nat × Nat :=
  let r := polRegion s.pol p (match x with | .a => 1 | .b => 2)
  (r.1, 65536 * r.2)
/-- The entry of a slot in a port manifest. -/
def manEntry (m : List Byte) (x : Slot) : Entry := entryAt m (match x with | .a => 0x30 | .b => 0xF0)
/-- A pulled port manifest passes the tests of R445 for slot x, but for its signature. -/
def State.pulledOk (s : State) (p : Nat) (x : Slot) (m : List Byte) : Bool :=
  let e := manEntry m x
  let b := cSigBlock m
  manifestFormOk m s.pol p && keyBlockOk (cScheme m) b && signerMatch s.fuses.current (polSigners s.pol p) m
    && !kdRevoke s.fuses.current (cSigner m) && bitOf (polSchemes s.pol p) (cScheme m - 1)
    && e.valid && decide (polFloor s.pol p ≤ e.version) && !(e.root.all (· = 0))
/-- The digest that the verdict unit computed for a slot in the last wake (R445, R447). -/
def State.wakeDigest (s : State) (p : Nat) (x : Slot) : List Byte := match x with | .a => (s.pv p).digA | .b => (s.pv p).digB
/-- The slot entry that a flow works with: of its manifest, or in SHELF mode of the shelf manifest that it began with. -/
def State.flowEntry (s : State) (p : Nat) : Entry :=
  let f := s.fl p
  if polShelf s.pol p then entryAt f.man (shelfRec p + match f.slot with | .a => 0x10 | .b => 0xD0)
  else manEntry f.man f.slot

/-- The flow's transfer of the slot image starts (R442). -/
def State.startImage (s : State) (p : Nat) (e : Entry) (want : List Nat) : State :=
  let f := s.fl p
  s.xferStart p { kind := 3, ref := f.ref, want := want, len := e.length, root := e.root, base := (s.slotRegion p f.slot).1 }
/-- The flow holds its RECOVERY token, or asks for it; at most 4 are held and asked for (R394, R446). -/
def State.recoveryToken (s : State) (p : Nat) : State :=
  if (s.fl p).token ∨ s.leave.queue.any (fun r => decide (r.use = .recovery p))
      ∨ 4 ≤ s.holds 0 9 + (s.leave.queue.filter fun r => decide (r.use.holder = 9)).length then s
  else match s.lvTake (.recovery p) 1 with
    | some s => s.flU p fun f => { f with token := true }
    | none => s.lvAsk (.recovery p) 1
/-- The port's flash may take a MASTER frame of the flow (R130, R131, R406, R444, R500). -/
def State.masterOk (s : State) (p : Nat) : Bool :=
  s.heldNow p && (s.ph p).pg && !(s.pk p).part && decide ((s.ch (chanKey .flash p)).state = .inService) && !s.chanRetired .port p
    && s.bankUp p
/-- Flash address of the manifest that a flow writes. -/
def State.manBase (s : State) (p : Nat) : Nat := if p < 96 then (polRegion s.pol p 0).1 else 0x02000000
/-- What a step of a flow does to the flash (R446): 64 KiB blocks erased, then a leaf, the header, the manifest programmed. -/
def State.flashWork (s : State) (p step : Nat) : List FlashOp :=
  let f := s.fl p
  let t := s.xf f.xfer
  let r := s.slotRegion p f.slot
  let n := ceilDiv (s.flowEntry p).length 65536
  match step with
  | 3 => (List.range n).map (fun i => .erase (r.1 + 65536 * i)) ++ (if 65536 * n < r.2 then [.erase (r.1 + r.2 - 65536)] else [])
  | 5 =>
    let a := t.base + 4096 * f.leaves
    [.program a (s.stageGet p a (leafLen t.len f.leaves))]
  | 7 => [.program (r.1 + r.2 - 64) f.hdr]
  | 9 => [.erase (s.manBase p), .program (s.manBase p) f.man]
  | _ => []
/-- What the readback of a step reads: address and expected bytes; none after an erase. -/
def readbackOf (l : List FlashOp) : Option (Nat × List Byte) :=
  l.findSome? fun o => match o with | .program a bs => some (a, bs) | .erase _ => none
/-- An erase or program of a flow starts: step and STATE; on a port the continuous-read exit comes first, a token for the old
image is void, and the readback uses the wake read command (R123, R157, R446). -/
def State.flashStart (s : State) (p step : Nat) (st : FlowSt) : State :=
  let work := s.flashWork p step
  let s := if p < 96 then
      let s := ((s.phU p fun h => { h with mode := .master, token := none, handback := false }).contExit p).pvU p fun v => { v with rewritten := true }
      match readbackOf work with
      | some (a, bs) => s.sendMaster p [{ s.burstFrame p a with read := bs.length }]
      | none => s
    else s
  (s.peU p fun e => { e with flash := work }).flU p fun f => { f with st := st, stepNo := step }
/-- A flow's step that needs the token and the flash (R446). -/
def State.flashStep (s : State) (p step : Nat) (st : FlowSt) : State :=
  if !(s.fl p).token then s.recoveryToken p
  else if (p < 96 ∧ !s.masterOk p) ∨ (96 ≤ p ∧ !s.homeUp) then s
  else s.flashStart p step st
/-- The rewake at the end of a flow and its end (R101, R446). -/
def State.flowRewake (s : State) (p : Nat) : State :=
  let f := s.fl p
  if f.stepNo = 10 then
    (if s.wakeReady ∧ !s.leave.queue.any (fun r => decide (r.use = .wake)) ∧ s.heldNow p then
      (s.flU p fun f => { f with st := .rewaking, stepNo := 11 }).wakeAsk true [p] else s)
  else if s.wake.stage = .idle ∧ !s.leave.queue.any (fun r => decide (r.use = .wake)) then s.flowEnd p .done f.reason.toNat
  else s
/-- STAGING groups of leaf i return once the leaf is in the flash. -/
def State.leafReturn (s : State) (p a n : Nat) : State :=
  s.each (List.range (ceilDiv n 2048)) fun s j =>
    let g := Tab.get 0 s.gran.srvDir (stagKey p (a + 2048 * j))
    if g = 0 then s else s.returnGroup 4 g

/-- The pulled manifest of a flow has been verified (R445): REASON 4 where its signature fails, else the flow goes on with it. -/
def State.flowVerified (s : State) (p : Nat) (ok : Bool) : State :=
  let f := s.fl p
  let t := s.xf f.xfer
  let s := s.flU p fun f => { f with check := none }
  if !ok then s.xferFail f.xfer 4
  else if f.flow = 2 ∨ f.flow = 5 then (s.xferClose f.xfer).flU p fun f => { f with man := t.bytes, stepNo := 8 }
  else
    let s := (s.xferClose f.xfer).flU p fun f => { f with man := t.bytes, stepNo := 1 }
    let s := if f.flow = 3 then s.stagePut p (polRegion s.pol p 0).1 t.bytes else s
    s.xferStart p { kind := 2, ref := f.ref }
/-- The pulled manifest of a flow is verified in chain mode (R445, R447). -/
def State.flowCheck (s : State) (p : Nat) : State :=
  let j := jobOf (.flow p) (s.xf (s.fl p).xfer).bytes
  (s.flU p fun f => { f with check := some j }).verify j fun ok s => s.flowVerified p ok

/-- One step of a flow on a port; flow 2 has no image. -/
def State.flowStep (s : State) (p : Nat) : State :=
  let f := s.fl p
  let t := s.xf f.xfer
  let s0 := s
  match f.stepNo with
  | 0 =>
    if !t.last ∨ f.check.isSome then s
    else if !s.pulledOk p f.slot t.bytes ∨ (f.flow = 2 ∧ (manEntry t.bytes f.slot).digest ≠ s.wakeDigest p f.slot) then s.xferFail f.xfer 4
    else s.flowCheck p
  | 1 =>
    let e := s.flowEntry p
    if !t.last then s
    else if !headerAgrees t.bytes e (polAlg s.pol p) p then s.xferFail f.xfer 4
    else
      let r := s.slotRegion p f.slot
      let n := ceilDiv e.length 4096
      let s := (s.xferClose f.xfer).flU p fun f => { f with hdr := t.bytes.take 64, total := n, stepNo := if f.flow = 3 then 4 else 2 }
      if f.flow = 3 then
        match (s.stageRange p r.1 e.length).bind fun s => s.stageRange p (r.1 + r.2 - 64) 64 with
        | some s => (s.stagePut p (r.1 + r.2 - 64) (t.bytes.take 64)).startImage p e (List.range n)
        | none => s0.stageShort f.xfer
      else s.startImage p e (List.range n)
  | 2 => s.flashStep p 3 .erasing
  | 4 => if t.susp ∨ !t.ok.contains f.leaves then s.pullMore f.xfer else s.flashStep p 5 .programming
  | 6 => s.flashStep p 7 .programming
  | 8 => s.flashStep p 9 .programming
  | _ => if 10 ≤ f.stepNo then s.flowRewake p else s

/-- A flow of a kind is under way on a port, in SERVICE. -/
def State.flowDue (s : State) (p flow : Nat) : Bool :=
  decide (s.boot.dev = .service) && (s.fl p).active && decide ((s.fl p).flow = flow)
/-- REPROGRAM (R446). -/
def execFlowReprogram (p : PortId) (s : State) : Done := .next (if s.flowDue p.val 1 then s.flowStep p.val else s)
/-- MANIFEST_ONLY (R445). -/
def execFlowManifestOnly (p : PortId) (s : State) : Done := .next (if s.flowDue p.val 2 then s.flowStep p.val else s)

/-- A STAGING page becomes a SERVE page. -/
def servedWord (w : W32) : W32 := if pageUse w = 4 then BitVec.ofNat 32 (w.toNat - 2 ^ 29) else w
/-- A serve set is staged: the groups pass from STAGING to SERVE (R262). -/
def State.setStaged (s : State) (p : Nat) (x : Slot) : State :=
  let s := s.returnGroups 3 p none
  let gs := s.groupsOf 4 p none
  let s := s.poolMove 9 3 2 (8 * gs.length)
  let s := s.each gs fun s g => s.each (List.range 8) fun s i =>
    { s with gran := { s.gran with map := Tab.upd pageFree s.gran.map (8 * g + i) servedWord } }
  let lo := stagKey p 0
  let mine := s.gran.srvDir.filter fun e => decide (lo ≤ e.1 ∧ e.1 < lo + 2 ^ 17)
  let s : State := { s with gran := { s.gran with
    srvDir := mine.foldl (fun d e => Tab.put 0 d (e.1 - 2 ^ 25) e.2) (Tab.clear s.gran.srvDir lo (lo + 2 ^ 17)) } }
  let len := (s.flowEntry p).length
  let man := if polShelf s.pol p then 0 else (s.fl p).man.length
  (s.pgU p fun g => { g with setState := .staged, setSlot := x, setLen := len, setMan := man }).setLine 8 true
/-- SERVE_SET (R262, R448). -/
def execFlowServeSet (p : PortId) (s : State) : Done :=
  let f := s.fl p.val
  let t := s.xf f.xfer
  if !s.flowDue p.val 3 then .next s
  else if f.stepNo = 4 then
    .next (if t.ok.length < f.total ∨ !s.xferOpen f.xfer then s.pullMore f.xfer
      else ((s.xferClose f.xfer).setStaged p.val f.slot).flU p.val fun f => { f with leaves := f.total, stepNo := 10 })
  else .next (s.flowStep p.val)

/-- The flash address of the first byte that a PIN or SERVE group stands for, in the chosen slot (R259, R448). -/
def State.groupSource (s : State) (g : Nat) (x : Slot) : Option Nat :=
  let w := s.page (8 * g)
  let p := pagePort w
  let a := 2048 * pageIndex w
  if s.groupUse g = 2 then
    ((s.pins p).find? fun c => decide (c.2.1 ≤ a ∧ a < c.2.1 + c.2.2.1)).map fun c =>
      (match x with | .a => c.2.2.2.1 | .b => c.2.2.2.2) + (a - c.2.1)
  else if s.groupUse g = 3 then some a else none
/-- RESTAGE (R448, R269): the verified bytes go into a new group, the directory switches, the BAD group retires. -/
def State.restage (s : State) (p : Nat) : State :=
  let f := s.fl p
  let g := f.page / 8
  let w := s.page f.page
  let use := s.groupUse g
  match s.groupSource g f.slot with
  | none => s.flowFail p 1
  | some a =>
    let bs := s.stageGet p a 2048
    match s.takeGroup use (pageEntry use p (pageSlot w) false 0 (pageIndex w)) with
    | none => s
    | some (n, s) =>
      let keys := (s.gran.srvDir.filter fun e => decide (e.2 = g)).map (·.1)
      let s := (s.granPut (2048 * n) bs).returnGroup use g
      let s : State := { s with gran := { s.gran with srvDir := keys.foldl (fun d k => Tab.put 0 d k n) s.gran.srvDir } }
      ((s.xferClose f.xfer).flowEnd p .done f.reason.toNat).setLine 8 true
/-- RESTAGE. -/
def execFlowRestage (p : PortId) (s : State) : Done :=
  let f := s.fl p.val
  let t := s.xf f.xfer
  if !s.flowDue p.val 4 then .next s
  else .next (if t.ok.length < f.total ∨ !s.xferOpen f.xfer then s.pullMore f.xfer
    else (s.flU p.val fun f => { f with leaves := f.total }).restage p.val)

/-- A shelf manifest passes R84 against MC0 LATCHED with a signer that is not revoked, but for its signature (R447). -/
def State.shelfPulledOk (s : State) (m : List Byte) : Bool :=
  let b := cSigBlock m
  shelfFormOk m s.pol && decide (mcCount s.fuses.latched 0 ≤ field m 0x20 4) && keyBlockOk (cScheme m) b
    && signerMatch s.fuses.latched 0xFFF0 m && !kdRevoke s.fuses.latched (cSigner m)
/-- SHELF_MANIFEST (R447). -/
def execFlowShelfManifest (s : State) : Done :=
  let f := s.fl 127
  let t := s.xf f.xfer
  if !s.flowDue 127 5 then .next s
  else .next (match f.stepNo with
    | 0 =>
      if !t.last ∨ f.check.isSome then s
      else if s.shelfPulledOk t.bytes then s.flowCheck 127
      else s.xferFail f.xfer 4
    | 8 => s.flashStep 127 9 .programming
    | _ => s)

/-- FLASH_PROGRAM_DONE (R446, R473, R406): the step that ran is over and `back` is what its readback read; one that differs is
an error of the channel, and the step is repeated as its probe allows; a cancelled flow ends with its step. -/
def execFlashProgramDone (p : Option PortId) (back : List Byte) (s : State) : Done :=
  let i := (p.map (·.val)).getD 127
  let f := s.fl i
  let ok := (decide (i < 96) || s.homeUp) && match readbackOf (s.pe i).flash with | some (_, bs) => decide (back = bs) | none => true
  if !f.active ∨ f.stepNo % 2 = 0 ∨ f.stepNo < 3 ∨ 10 ≤ f.stepNo then .next s
  else if !ok then
    let s := match p with | some p => s.chanError .flash p.val 4 | none => s.chanError .home 0 4
    .next (if f.cancel then s.flowFail i 1 else s.flU i fun f => { f with stepNo := f.stepNo - 1 })
  else if f.cancel then
    .next ((if f.stepNo = 5 then s.flU i fun f => { f with leaves := f.leaves + 1 } else s).flowFail i 1)
  else match f.stepNo with
    | 5 =>
      let t := s.xf f.xfer
      let s := s.leafReturn i (t.base + 4096 * f.leaves) (leafLen t.len f.leaves)
      let s := s.flU i fun f => { f with leaves := f.leaves + 1, stepNo := if f.total ≤ f.leaves + 1 then 6 else 4 }
      .next (if f.total ≤ f.leaves + 1 then s.xferClose f.xfer else s.pullMore f.xfer)
    | 9 =>
      if i = 127 then
        let s := (s.corePut 0x02000000 f.man).flowEnd 127 .done f.reason.toNat
        .next { s with wake := { s.wake with shelf := { s.wake.shelf with stale := true } } }
      else
        let s := (s.lvBack (.recovery i) 1).phU i fun h => if h.mode = .master then { h with mode := .isolated } else h
        .next (s.flU i fun f => { f with token := false, stepNo := 10 })
    | n => .next (s.flU i fun f => { f with stepNo := n + 1 })

end Sys2Proof.Machine
end

