-- ==== Sys2Proof/Machine/Leave.lean ====
section
/-! DEFINITION. The leave arbiter and the census unit (14 R392 to R405). -/

namespace Sys2Proof.Machine

open Sys2Proof

/-! ### LEAVE_GRANT (R395) -/

/-- The request that the arbiter grants next: the first of class 0, else the first of class 1, when its condition holds; a fifth
RECOVERY token waits until one of four has returned (R394). -/
def State.nextLeave (s : State) : Option LvReq :=
  match s.leave.queue.find? fun r => r.use.urgent with
  | some r => if s.canGrant 0 r.n then some r else none
  | none => match s.leave.queue with
    | [] => none
    | r :: _ => if s.roomFor1 r.n && (decide (r.use.holder ≠ 9) || decide (s.holds 0 9 < 4)) then some r else none
/-- What a requester does with its grant of n tokens (R57, R67, R305, R365, R394, R429, R446). -/
def State.leaveUsed (s : State) (u : LvUse) (n : Nat) : State :=
  match u with
  | .kernel e => s.kernelBegin e
  | .chain e => s.enU e fun k => { k with state := .busy, waiting := false }
  | .wake => s.wakeGranted
  | .fuse => { s with fuses := { s.fuses with waiting := false } }
  | .retrain l => (s.lnU l fun k => { k with
      st := .training, grantOk := true, retrains := BitVec.ofNat 8 (satAdd 8 k.retrains.toNat 1) }).laneEvent
  | .recovery p => s.flU p fun f => { f with token := true }
  | .canopyA => s.canopyGranted 1
  | .canopyB => s.canopyGranted 2
  | .linkCore => s.linkGranted
  | .bundle => s.seedGranted n
  | .runtime => s
/-- LEAVE_GRANT. -/
def execLeaveGrant (s : State) : Done :=
  match s.nextLeave with
  | none => .next s
  | some r =>
    let s : State := { s with leave := { s.leave with queue := dropFirst (fun x => decide (x = r)) s.leave.queue } }
    .next ((s.lvGrant r.use r.n).leaveUsed r.use r.n)

/-! ### RECONCILIATION_DONE (R400 to R402) -/

/-- A RECONCILE body (R402). -/
def reconcileBody (q cause holder returned before after total : Nat) (frozen : Bool) : List Byte :=
  leBytes q 1 ++ leBytes cause 1 ++ leBytes holder 1 ++ leBytes 0 1 ++ leBytes returned 4 ++ leBytes before 4 ++ leBytes after 4
    ++ leBytes total 4 ++ leBytes frozen.toNat 1 ++ leBytes 0 11
/-- What a holder gives back in a reconciliation, by its own count. -/
def Pool.returned (p : Pool) (h : Nat) : Nat :=
  let mine := p.ret.filter fun r => decide (r.holder = h)
  let n := Tab.get 0 p.holding h
  if mine.any fun r => r.units.isNone then n else min n (mine.map fun r => r.units.getD 0).sum
/-- The counts of a pool after its reconciliation: the holders' own counts, without what returns. -/
def Pool.reconciled (p : Pool) : Pool :=
  let holding := p.holding.filterMap fun e => if e.2 ≤ p.returned e.1 then none else some (e.1, e.2 - p.returned e.1)
  let sum := (holding.map (·.2)).sum
  let q := { p with holding := holding, held := holding, recount := false, ret := [], late := [], claims := [] }
  if sum ≤ p.total then { q with free := p.total - sum, st := .ok } else { q with st := .frozen }
/-- The RECONCILE entries of pool q: one per holder that returned units, with the cause that named it first, and one for a
recount (R400, R402). -/
def Pool.entries (p : Pool) (q : Nat) : List (List Byte) :=
  let r := p.reconciled
  let body := fun cause h n => reconcileBody q cause h n p.free r.free p.total (decide (r.st = .frozen))
  ((p.ret.map (·.holder)).eraseDups.filter fun h => decide (0 < p.returned h)).map (fun h =>
      body (((p.ret.find? fun x => decide (x.holder = h)).map (·.cause)).getD 0) h (p.returned h))
    ++ (if p.recount then [body 2 0xFF 0] else [])
/-- A mailbox whose pool stays frozen is emptied; one word outside the census answers POOL_FROZEN (R401, R476). -/
def State.boxFrozen (s : State) (q : Nat) : State :=
  let tag := (s.mb q).tag.getD 0xFF
  let s := s.each [16 + q, 24 + q] fun s k =>
    if (s.po k).st = .ok then (s.poolBack k 0 (s.holds k 0)).poolBack k 1 (s.holds k 1) else s
  (s.boxDrop q).mbU q fun b => { b with frozen := some (rspHeader 0x5801 tag 0) }
/-- What a pool that stays frozen does (R401). -/
def State.poolFrozen (s : State) (q : Nat) : State :=
  if q = 0 ∨ q = 8 ∨ q = 9 then s.raiseReg 0x0140 0 0 (0x200 + q)
  else if 1 ≤ q ∧ q ≤ 6 then s.standFault (q - 1)
  else if 16 ≤ q then s.boxFrozen ((q - 16) % 8)
  else s
/-- A mailbox that firmware serves in the current state; in SERVICE the core with LEAD does (R27, R457). -/
def State.served (s : State) (q : Nat) : Bool :=
  match s.boot.dev with
  | .service => s.boot.canopyOut && s.leadAgent.isSome
  | .sealed | .fwless | .headless | .production => decide (q = 0)
  | _ => false
/-- RECONCILIATION_DONE. -/
def execReconciliationDone (q : BitVec 8) (s : State) : Done :=
  let n := q.toNat
  let p := s.po n
  if p.st ≠ .reconciling then .next s
  else
    let s := (s.poU n fun p => p.reconciled).each (p.entries n) fun s b => s.logRec 0x30 b
    let s := (s.each p.late fun s e => s.poolBack n e.1 e.2).censusAlarm n
    let s := s.each p.claims fun s e => s.poolClaim n e.1 e.2
    let s := if p.reconciled.st = .frozen then s.poolFrozen n else if n = 0 ∨ n = 8 then s.runtimeDraw else s
    let b := (n - 16) % 8
    .next (if 16 ≤ n ∧ s.served b ∧ !(s.mb b).ready ∧ !(s.mb b).paused ∧ (s.mb b).frozen = none then s.boxReady b else s)

/-- POOL_TOTAL_CHANGE (R398): no port of the stand holds inrush leave. -/
def execPoolTotalChange (k : StandId) (s : State) : Done :=
  let q := 1 + k.val
  let p := s.po q
  match p.newTot with
  | some n => if p.sumHeld = 0 ∧ p.st = .ok then .next (s.poU q fun p => { p with total := n, free := n, newTot := none }) else .next s
  | none => .next s

end Sys2Proof.Machine
end

