-- ==== Sys2Proof/Machine/Handover.lean ====
section
/-! DEFINITION. The live handover between bundle slots (15 R418, R420 to R423, 08 R264). -/

namespace Sys2Proof.Machine

open Sys2Proof

/-- Canopy core with LEAD, core with SECOND, as core numbers. -/
def State.leadCore (s : State) : Nat := match s.boot.lead with | .b => 2 | _ => 1
def State.secondCore (s : State) : Nat := 3 - s.leadCore

/-- The verdict unit's check of a new bundle's header, but for its signature (R420, R53, R129). -/
def State.newBundleOk (s : State) (x : Slot) : Bool :=
  let h := s.bundleHeader x
  s.headForm h && decide (mcCount s.fuses.latched 1 ≤ bundleVersion h)
/-- Leave use of a Canopy core. -/
def canopyUse (c : Nat) : LvUse := if c = 2 then .canopyB else .canopyA
/-- A Canopy core is loaded with the resident image of a verified bundle and starts with its leave token, when it is
granted; an image whose digest is not PART 0 leaves it in reset with its memory zeroed (R31, R56, R394). -/
def State.canopyLoad (s : State) (c : Nat) (b : Bundle) : State :=
  let s := s.coresOff [(c, c)]
  match s.bundleImage b 0 with
  | none => s
  | some r =>
    let s := s.memPut c 0 r
    match s.lvTake (canopyUse c) 1 with
    | some s => s.startCore c b.canopy
    | none => (s.lvAsk (canopyUse c) 1).coU c fun k => { k with pc := vectorPc b.canopy }
/-- The handover ends with a status code. -/
def State.handoverEnd (s : State) (result : Nat) : State :=
  { s with hand := { s.hand with state := .idle, result := BitVec.ofNat 16 result } }

/-- The service lane has hashed the resident image of s': Y is loaded from s' and released with SECOND, or reloaded from s (R420,
R422). -/
def State.handoverLoad (s : State) : State :=
  let y := s.secondCore
  if (s.bundleImage s.hand.new 0).isSome then
    let s := s.canopyLoad y s.hand.new
    { s with hand := { s.hand with state := .waitingReady, stale := true } }
  else (s.canopyLoad y s.hand.old).handoverEnd 0x3E01
/-- SERVICE_LANE_JOB (R229, R418, R420): the oldest job is the link firmware of LEAD or the image of a handover, and its hash is
done; a leaf's job ends as LEAF_VERIFY (log 40). -/
def execServiceLaneJob (s : State) : Host.Outcome State Fault Refusal :=
  match s.svcNext with
  | some .reload => .next (if s.serviceLane.isSome then s.svcDone .reload else s)
  | some .image => .next (s.svcDone .image).handoverLoad
  | _ => .next s

/-- HANDOVER_PREPARE of mailbox q answers while it is still the command in progress there. -/
def State.handoverAnswer (s : State) (q status : Nat) : State :=
  if (s.mb q).call.map (·.code) = some 0x68 then s.respond q ((s.mb q).tag.getD 0) status [] else s
/-- The signature of the new bundle's header has been verified (R420, R229): Y is reset and zeroed, the service lane hashes its
image; on a failure nothing changes. -/
def State.handoverChecked (s : State) (q : Nat) (ok : Bool) : State :=
  if !ok then ({ s with hand := { s.hand with state := .idle } } : State).handoverAnswer q 0x3E01
  else
    let y := s.secondCore
    let s : State := { s.coresOff [(y, y)] with hand := { s.hand with state := .loading } }
    (if s.serviceLane.isSome then s.svcAsk .image else s.handoverLoad).handoverAnswer q 2
/-- HANDOVER_PREPARE begins: the header of s' goes to an engine (R420, R425). -/
def State.handoverCheck (s : State) (q : Nat) (x : Slot) : State :=
  let h := s.bundleHeader x
  let s := s.mbU q fun b => { b with call := some { code := 0x68 } }
  let s : State := { s with hand := { s.hand with state := .checking, slot := x, old := s.boot.running, new := bundleFrom x h } }
  s.verify (jobOf (.handover q) h) fun ok s => s.handoverChecked q ok

/-- X has completed its mailbox commands: the role register flips in one cycle, an arming ends, fetches are held until the tag
pass, the mailboxes that waited are ready (R364, R420, R421, R478). -/
def State.handoverFlip (s : State) : State :=
  if s.hand.state ≠ .switching ∨ ((List.range 8).any fun q => (s.mb q).tag.isSome) then s
  else
    let s := if s.fuses.state = .armed then s.disarm else s
    let s := s.each (List.range 8) fun s q => if (s.mb q).paused then s.mbU q fun b => { b with ready := true, paused := false } else s
    ({ s with
      boot := { s.boot with lead := (match s.boot.lead with | .b => .a | _ => .b), running := s.hand.new }
      hand := { s.hand with state := .reloading, running := s.hand.slot }
      gran := { s.gran with tagging := true, sets := [] } } : State).setLine 14 true
/-- HANDOVER_READY (R420, R478): Y is READY and X stops taking mailbox commands, so that their frames answer not ready; the roles
flip once no command is in progress, in a later cycle, or here when it is repeated. -/
def execHandoverReady (s : State) : Done :=
  match s.hand.state with
  | .waitingReady =>
    let s := s.each (List.range 8) fun s q => if (s.mb q).ready then s.mbU q fun b => { b with ready := false, paused := true } else s
    .next { s with hand := { s.hand with state := .switching } }
  | .switching => .next s.handoverFlip
  | _ => .next s
/-- HANDOVER_READY_TIMEOUT: Y is reloaded from s. -/
def execHandoverReadyTimeout (s : State) : Done :=
  if s.hand.state ≠ .waitingReady then .next s
  else .next (((s.lvDrop (canopyUse s.secondCore)).canopyLoad s.secondCore s.hand.old).handoverEnd 0x5001)
/-- HANDOVER_RELOAD: X is loaded from s' and released with SECOND; its image's hash waits for the earlier jobs of the service lane
(R229). -/
def execHandoverReload (s : State) : Done :=
  if s.hand.state ≠ .reloading ∨ !s.svcFree then .next s
  else
    let s := s.canopyLoad s.secondCore s.hand.new
    .next { s with hand := { s.hand with state := .tagging } }
/-- TAG_PASS: the groups of slot s return, the region of s' is tagged; the link core restarts where its firmware differs. -/
def execTagPass (s : State) : Done :=
  if s.hand.state ≠ .tagging then .next s
  else
    let b := s.hand.new
    let s := (s.tagRegion b.slot (b.lens.getD 2 0)).handoverEnd 0
    let s : State := { s with gran := { s.gran with tagging := false } }
    .next (if s.hand.old.digs.getD 1 [] = b.digs.getD 1 [] then s else s.linkRestart false)

end Sys2Proof.Machine
end

