-- ==== Sys2Proof/Machine/Monitors.lean ====
section
/-! DEFINITION. Monitors of the main and of the backup domain, the coincidence window, the end of level alarms
(13 R372 to R387). -/

namespace Sys2Proof.Machine

open Sys2Proof

/-! ### Main-domain monitors (R379) -/

/-- SUPPLY_GLITCH. -/
def execSupplyGlitch (x : GlitchSupply) (s : State) : Done :=
  if s.boot.dev = .off then .next s
  else .next (s.raiseReg (match x with | .aon => 0x0102 | _ => 0x0101) 0 0 noData)
/-- The supply of a bank. -/
def bankOf : BankSupply → Supply | .io k => .io k | .ioH => .ioH | .sd => .sd | .sda => .sda
/-- BANK_SUPPLY_EXCURSION (R36, R376): the bank leaves its limits, or does so again while its alarm is ACTIVE. -/
def execBankSupplyExcursion (x : BankSupply) (s : State) : Done :=
  if s.boot.dev = .off then .next s
  else .next (match bankAlarm (bankOf x) with
    | some (i, code, tkind, target) =>
      if s.boot.bankOut.getLsbD i then s.raiseReg code tkind target noData else s.bankFails (bankOf x)
    | none => s)
/-- DIE_TEMPERATURE_ALARM. -/
def execDieTemperatureAlarm (t : TempAlarm) (s : State) : Done :=
  if s.boot.dev = .off then .next s
  else .next (s.raiseReg (match t with | .above140 => 0x0120 | .below45 => 0x0121 | .atLeast130 => 0x0122) 0 0 noData)
/-- THREAD_WATCHDOG_EXPIRY: a released thread whose port's queue holds a word (R379, R406). -/
def execThreadWatchdogExpiry (k : SheafId) (t : Fin 8) (s : State) : Done :=
  let p := 8 * k.val + t.val
  if (s.sh k.val).released && decide ((s.pd p).events ≠ []) then
    .next (((s.raiseReg 0x0130 1 p noData).threadStops (.sq k t)).chanError .sequencer k.val 6)
  else .next s

/-- COINCIDENCE_WINDOW_CLOSE (R375). -/
def execCoincidenceWindowClose (s : State) : Done := .next { s with alarms := { s.alarms with window := none } }

/-- Alarms that are acknowledged and whose level condition has read normal are no longer ACTIVE (R376). -/
def Alarms.settle (a : Alarms) : Alarms :=
  { a with active := a.active.filter fun x => !(x.acked && (!levelSource x.code || x.normal)) }
/-- The banks whose condition an alarm reports, as in Boot.bankOut. -/
def Alarm.banks (a : Alarm) : BitVec 15 :=
  if a.code = 0x0103 then BitVec.ofNat 15 (2 ^ a.target) else if a.code = 0x0104 then 0x1000 else if a.code = 0x0105 then 0x6000 else 0
/-- ALARM_NORMAL_TIMER (R376, R387): the condition has read normal for 10 ms, a bank is back inside its limits. -/
def execAlarmNormalTimer (seq : W32) (s : State) : Done :=
  match s.alarms.active.find? fun x => decide (x.seq = seq.toNat) && levelSource x.code with
  | none => .next s
  | some x =>
    let act := s.alarms.active.map fun y => if y.seq = x.seq then { y with normal := true } else y
    .next { s with
      alarms := ({ s.alarms with active := act } : Alarms).settle
      boot := { s.boot with bankOut := s.boot.bankOut &&& ~~~(x.banks) }
      backup := { s.backup with persist := s.backup.persist.filter fun e => decide (e.1 ≠ x.code) } }

/-! ### Backup-domain monitors (R379 to R381, R387) -/

/-- The backup domain is supplied (R42). -/
def State.backupUp (s : State) : Bool := s.boot.sup.aon || s.boot.sup.vbat
/-- On the cell alone a ZEROIZE clears the root and the last-good digests and leaves a flag for the next start; a SEAL
sets SEAL_LATCH (R380, R381). -/
def State.cellClear (s : State) (rank : Nat) : State :=
  { s with
    keys := { s.keys with root := 0, rootMask := 0, rootState := 0 }
    backup := { s.backup with lastGood := [], zeroFlag := true, sealLatch := s.backup.sealLatch || decide (rank = 6) } }
/-- The condition of a backup source is abnormal; `normal` is the backup clock from which it reads normal again. -/
def State.levelBad (s : State) (code : Nat) (normal : Option Nat) : State :=
  { s with backup := { s.backup with persist := s.backup.persist.filter (fun e => decide (e.1 ≠ code)) ++ [(code, normal)] } }
/-- A backup source trips: its entry, its response, the main arbiter where main power is present (R380, R386, R387). A source
that is disarmed, or whose condition has not read normal since its last trip, only notes the condition. -/
def State.backupTrip (s : State) (code data : Nat) (normal : Option Nat) : State :=
  let quiet := s.backup.disarmed.contains code || s.backup.persist.any fun e => decide (e.1 = code)
  let s := s.levelBad code normal
  if quiet then s
  else
    let rank := s.rankOf code
    let word := s.dataOf data
    let s := s.dataUsed data
    let s : State := { s with backup := { s.backup with
      disarmed := if 5 ≤ rank then s.backup.disarmed ++ [code] else s.backup.disarmed } }
    if s.boot.dev = .off then
      let s := s.backupLog code rank 0 word
      if 5 ≤ rank then s.cellClear rank else s
    else if 5 ≤ rank then s.raise code rank 0 0 word
    else (s.backupLog code rank 0 word).raise code rank 0 0 word
/-- A condition that reads abnormal or normal at a tick; normal for 10 ms (11 ticks) it may trip anew (R387). -/
def State.tickLevel (s : State) (code data : Nat) (bad : Bool) : State :=
  let now := s.backup.clock.toNat
  if bad then s.backupTrip code data none
  else { s with backup := { s.backup with
    persist := s.backup.persist.map fun e => if e.1 = code ∧ e.2 = none then (code, some now) else e } }
/-- BACKUP_TICK: the backup clock counts; mesh pairs and temperature are compared. -/
def execBackupTick (mesh : BitVec 4) (tempBad : Bool) (s : State) : Done :=
  if !s.backupUp then .next s
  else
    let s : State := { s with backup := { s.backup with clock := s.backup.clock + 1 } }
    let s := s.each (List.range 4) fun s n => s.tickLevel (0x0501 + n) n (mesh.getLsbD n)
    let s := s.tickLevel 0x050B noData tempBad
    let now := s.backup.clock.toNat
    .next { s with backup := { s.backup with
      persist := s.backup.persist.filter fun e => !(match e.2 with | some t => decide (t + 11 ≤ now) | none => false) } }
/-- CASE_SWITCH_CHANGE: a level held for 32 ms trips; the level it came from is the normal one (R379, R387). -/
def execCaseSwitchChange (n : Fin 2) (level : Bool) (s : State) : Done :=
  let code := 0x0508 + n.val
  let now := s.backup.clock.toNat
  if !s.backupUp ∨ s.backup.switches.getLsbD n.val = level then .next s
  else
    let s : State := { s with backup := { s.backup with switches := s.backup.switches ^^^ BitVec.ofNat 2 (2 ^ n.val) } }
    if s.backup.persist.any fun e => decide (e.1 = code) then
      .next { s with backup := { s.backup with
        persist := s.backup.persist.map fun e => if e.1 = code then (code, if e.2 = none then some now else none) else e } }
    else .next (s.backupTrip code n.val none)
/-- VBAT_GLITCH. -/
def execVbatGlitch (s : State) : Done :=
  if s.backupUp then .next (s.backupTrip 0x050A noData (some s.backup.clock.toNat)) else .next s
/-- CLOCK32_LOSS: where main power is present ALARM_NORMAL_TIMER ends the condition; on the cell no command tells that edges have
returned, and the model counts the 10 ms of R387 from the last loss (log 61, DESIGN CHOICE). -/
def execClock32Loss (s : State) : Done :=
  if s.backupUp then .next (s.backupTrip 0x050C noData (if s.boot.dev = .off then some s.backup.clock.toNat else none)) else .next s

end Sys2Proof.Machine
end

