-- ==== Sys2Proof/Machine/LogUnit.lean ====
section
/-! DEFINITION. The evidence log (13 R387 to R391): appends, segment change, scan, drain of the backup log. -/

namespace Sys2Proof.Machine

open Sys2Proof

/-- The log region (R388). -/
def logBase : Nat := 0x03000000
/-- Units of 16 bytes in a segment. -/
def segUnits : Nat := 131072
/-- The first bytes of a segment. -/
def segBase (k : Nat) : Nat := logBase + 0x200000 * k
/-- The first 16 bytes of a segment read 0xFF (R390). -/
def State.segErased (s : State) (k : Nat) : Bool := (s.homeGet (segBase k) 16).all fun b => decide (b = 0xFF)

/-- Bytes 0x00 to 0x1F of a header (R388). -/
def logHead (kind len seq bclk cyc : Nat) : List Byte :=
  leBytes 0x4C45 2 ++ leBytes kind 2 ++ leBytes len 4 ++ leBytes seq 8 ++ leBytes bclk 6 ++ leBytes 0 2 ++ leBytes cyc 8
/-- CHAIN of an entry. -/
def chainOf (prev head body : List Byte) : List Byte := sha384 (padTo prev 48 ++ head ++ body)
/-- Standing RETIRE bodies with one more entry (R414). -/
def standing (l : List (List Byte)) (b : List Byte) : List (List Byte) :=
  let rest := l.filter fun x => decide (retireOf x ≠ retireOf b)
  if bitOf (byteAt b 0).toNat 1 then rest else rest ++ [b]
/-- The KINDs of R388; every other one is reserved. -/
def logKinds : List Nat := [1, 2, 3, 0x10, 0x11, 0x12, 0x20, 0x21, 0x22, 0x23, 0x24, 0x25, 0x30, 0x31, 0x40]
/-- One entry is programmed at APPEND_PTR and read back equal; a reserved KIND is refused. -/
def State.logPut (s : State) (kind : Nat) (body : List Byte) : State :=
  if !logKinds.contains kind then s else
  let g := s.log
  let body := padTo body (roundUp body.length 16)
  let head := logHead kind body.length g.seq s.backup.clock.toNat s.cyc.toNat
  let chain := chainOf g.chain head body
  let s := s.homePut (logBase + 16 * g.ptr) (head ++ chain ++ body)
  { s with log := { g with
    ptr := g.ptr + 5 + body.length / 16, seq := g.seq + 1, chain := chain, entries := g.entries + 1,
    retires := if kind = 0x31 then standing g.retires body else g.retires } }

/-! ### Segments (R390) -/

/-- MC3 CURRENT. -/
def State.mc3 (s : State) : Nat := mcCount s.fuses.current 3
/-- Bytes left in the open segment. -/
def State.logFree (s : State) : Nat := 16 * ((s.log.openSeg + 1) * segUnits - s.log.ptr)
/-- A CARRY opens segment k: PREV_HEAD, EPOCH, FLAGS. -/
def State.logCarry (s : State) (k : Nat) (prev : List Byte) (epoch flags : Nat) : State :=
  let s : State := { s with log := { s.log with
    openSeg := k, ptr := k * segUnits, epoch := epoch, first := s.log.seq, entries := 0, closed := false } }
  s.logPut 1 (padTo prev 48 ++ leBytes epoch 4 ++ leBytes k 4 ++ leBytes flags 4 ++ leBytes 0 4)
/-- The segment change: SEAL, CARRY, copies of the standing retirements, SEALED_CARRIED. -/
def State.segChange (s : State) : State :=
  let g := s.log
  let s := if g.closed then s else s.logPut 2 (leBytes g.openSeg 4 ++ leBytes g.entries 4 ++ leBytes g.first 8)
  let sat := decide (256 ≤ s.mc3)
  let s := s.logCarry ((g.openSeg + 1) % 8) s.log.chain (if sat then 256 else s.mc3 + 1) (2 * sat.toNat)
  let s := s.each g.retires fun s b => s.logPut 0x31 (BitVec.ofNat 8 ((byteAt b 0).toNat ||| 1) :: b.drop 1)
  { s with log := { s.log with carried := true } }
/-- The log can take an entry: with less than 64 KiB left it changes segment first, onto an erased one. -/
def State.logRoom (s : State) : Option State :=
  if s.log.state ≠ .running then none
  else if !s.log.closed ∧ 65536 ≤ s.logFree then some s
  else if s.segErased ((s.log.openSeg + 1) % 8) then some s.segChange
  else none
/-- The segment that may be erased (R390). -/
def State.erasable (s : State) : Option Nat :=
  if s.log.carried ∧ s.mc3 = s.log.epoch then some ((s.log.openSeg + 1) % 8) else none

/-- SECOND serves the log: Canopy cores run, no handover (R378, R420). -/
def State.secondServes (s : State) : Bool := decide (s.boot.dev = .service) && s.boot.canopyOut && decide (s.hand.state = .idle)

/-- SEGMENT_ERASE: SECOND erases the 32 blocks; SEALED_CARRIED clears. -/
def execSegmentErase (s : State) : Done :=
  match s.erasable with
  | some k =>
    if s.secondServes && decide (s.log.state = .running) then
      let s := s.homeErase (segBase k) 0x200000
      .next { s with log := { s.log with carried := false } }
    else .next s
  | none => .next s

/-! ### Appends (R378, R388) -/

/-- The merged counts have moved since the last MERGED entry. -/
def Alarms.mergedDue (a : Alarms) : Bool := decide (a.noteMerged ≠ a.lastNote) || decide (a.lostMerged ≠ a.lastLost)
/-- The next record: the alarm queue, then the other records, then MERGED; the state without it. -/
def State.nextRecord (s : State) : Option (LogRec × State) :=
  match s.alarms.queue, s.log.waiting with
  | r :: t, _ =>
    let s : State := { s with alarms := { s.alarms with queue := t } }
    some (r, if t = [] then s.setLine 6 false else s)
  | [], r :: t => some (r, { s with log := { s.log with waiting := t } })
  | [], [] =>
    if s.alarms.mergedDue then
      some ({ kind := 0x11, body := leBytes s.alarms.noteMerged.toNat 2 ++ leBytes s.alarms.lostMerged.toNat 2 ++ leBytes 0 12 },
        { s with alarms := { s.alarms with lastNote := s.alarms.noteMerged, lastLost := s.alarms.lostMerged } })
    else none
/-- LOG_APPEND: one record moves into the log; a program that does not read back equal leaves it where it is. CHAIN is hashed on
the service lane, behind the requests that came before (R229, R388); a bank that is down programs nothing (R500). -/
def execLogAppend (ok : Bool) (s : State) : Done :=
  if !s.secondServes ∨ !ok ∨ !s.homeUp ∨ !s.svcFree then .next s
  else match s.logRoom with
  | none => .next s
  | some s =>
    match s.nextRecord with
    | none => .next s
    | some (r, s) => .next (s.logPut r.kind r.body)

/-- The oldest backup-log entry is cleared; one of ZEROIZE or SEAL arms its source again (R387). -/
def State.backupClear (s : State) (w : W128) (t : List W128) : State :=
  { s with backup := { s.backup with
    log := t, disarmed := s.backup.disarmed.filter fun c => decide (entryRank w < 5) || decide (c ≠ bitsOf w.toNat 79 64) } }
/-- BACKUP_LOG_DRAIN (R387): one entry, oldest first, then OVERFLOW; the source is armed again. An entry that fails its parity
is void and goes without an append, with the alarm of its parity (R384). -/
def execBackupLogDrain (s : State) : Done :=
  if !s.secondServes ∨ !s.homeUp ∨ !s.svcFree then .next s
  else match s.backup.log with
  | w :: t =>
    if s.flaws.contains (.backupLog w) then .next ((s.mend fun x => decide (x = .backupLog w)).backupClear w t).parityAlarm
    else
      (match s.logRoom with
      | none => .next s
      | some s => .next ((s.logPut 0x12 (leBytes w.toNat 16)).backupClear w t))
  | [] =>
    if s.backup.overflow = 0 then .next s
    else match s.logRoom with
    | none => .next s
    | some s =>
      let s := s.logPut 0x12 (leBytes (backupEntry s.backup.overTime.toNat 0 0 s.backup.overflow.toNat 0).toNat 16)
      .next { s with backup := { s.backup with overflow := 0, overTime := 0 } }

/-! ### Scan (R391) -/

/-- The entry at a home-flash address: kind, stored CHAIN, bytes 0x00 to 0x1F, body. -/
def State.logEntry (s : State) (a : Nat) : Option (Nat × List Byte × List Byte × List Byte) :=
  let h := s.homeGet a 80
  let n := field h 4 4
  if field h 0 2 = 0x4C45 ∧ n % 16 = 0 ∧ 16 ≤ n ∧ n ≤ 4016 then some (field h 2 2, sub h 0x20 48, h.take 0x20, s.homeGet (a + 80) n)
  else none
/-- What a scan of one segment finds: the end of the last entry whose CHAIN holds, that CHAIN, SEQ of the next entry, the
number of entries, whether one is a SEAL, the standing retirements. -/
structure Scan where
  stop    : Nat
  chain   : List Byte
  seq     : Nat
  entries : Nat := 0
  sealed  : Bool := false
  retires : List (List Byte) := []
deriving DecidableEq, Repr
/-- The entry at address a follows what a scan has taken: its CHAIN holds and it ends inside the segment. -/
def State.scanEntry (s : State) (limit : Nat) (x : Scan) (a : Nat) : Option (Nat × List Byte × Scan) :=
  match s.logEntry a with
  | none => none
  | some (kind, stored, head, body) =>
    if chainOf x.chain head body = stored ∧ a + 80 + body.length ≤ limit then
      some (kind, body, {
        stop := a + 80 + body.length, chain := stored, seq := field head 8 8 + 1, entries := x.entries + 1,
        sealed := x.sealed || decide (kind = 2), retires := if kind = 0x31 then standing x.retires body else x.retires })
    else none
/-- Bytes that hold no chained entry were skipped by an earlier scan if a page after them, with no blank page between, starts with
the TORN entry that records the range from there to that page; the scan goes on behind that entry. -/
def State.scanTorn (s : State) (limit : Nat) (x : Scan) (page : Nat) : Nat → Option Scan
  | 0 => none
  | fuel + 1 =>
    if limit ≤ page then none
    else if (s.homeGet page 256).all (fun b => decide (b = 0xFF)) then none
    else match s.scanEntry limit x page with
    | some (kind, body, y) =>
      if kind = 3 ∧ field body 0 4 = x.stop ∧ field body 4 4 = page then some y else s.scanTorn limit x (page + 256) fuel
    | none => s.scanTorn limit x (page + 256) fuel
/-- Entries are checked in order while their CHAIN holds; ranges that a TORN entry records are passed. -/
def State.scanFrom (s : State) (limit : Nat) (x : Scan) : Nat → Scan
  | 0 => x
  | fuel + 1 =>
    match s.scanEntry limit x x.stop with
    | some (_, _, y) => s.scanFrom limit y fuel
    | none =>
      match s.scanTorn limit x (roundUp x.stop 256) 8192 with
      | some y => s.scanFrom limit y fuel
      | none => x
/-- The CARRY of a segment: EPOCH and SEQ; none where its first entry is no valid one. -/
def State.segCarry (s : State) (k : Nat) : Option (Nat × Nat × List Byte) :=
  match s.logEntry (segBase k) with
  | some (1, stored, head, body) =>
    if body.length = 64 ∧ chainOf (body.take 48) head body = stored then some (field body 48 4, field head 8 8, body.take 48) else none
  | _ => none
/-- The open segment: the highest CARRY EPOCH, the later SEQ among equal ones. -/
def State.openSegment (s : State) : Option (Nat × Nat × Nat × List Byte) :=
  (List.range 8).foldl (fun best k =>
    match s.segCarry k, best with
    | none, b => b
    | some (e, q, p), none => some (k, e, q, p)
    | some (e, q, p), some (k', e', q', p') => if e' < e ∨ (e' = e ∧ q' < q) then some (k, e, q, p) else some (k', e', q', p')) none
/-- The first 256-byte page from address a on, below `limit`, that reads wholly 0xFF. -/
def State.blankPage (s : State) (a limit : Nat) : Nat → Nat
  | 0 => limit
  | fuel + 1 =>
    if limit ≤ a then limit
    else if (s.homeGet a 256).all (fun b => decide (b = 0xFF)) then a
    else s.blankPage (a + 256) limit fuel
/-- The log unit takes a segment up at the head of a scan. -/
def State.logTake (s : State) (k epoch first : Nat) (x : Scan) (stop : Nat) : State :=
  { s with log := { s.log with
    state := .running, openSeg := k, ptr := (stop - logBase) / 16, seq := x.seq, chain := x.chain, epoch := epoch, first := first,
    entries := x.entries, closed := x.sealed, retires := x.retires, carried := !s.segErased ((k + 1) % 8) } }
/-- LOG_SCAN. -/
def execLogScan (s : State) : Done :=
  if s.boot.dev ≠ .service ∨ s.log.state ≠ .scanning then .next s
  else match s.openSegment with
  | none =>
    let s : State := { s with log := { s.log with state := .stopped } }
    .next (s.raiseReg 0x0405 0 0 2)
  | some (k, epoch, first, prev) =>
    if epoch < mcCount s.fuses.latched 3 then
      let s : State := { s with log := { s.log with state := .stopped } }
      .next (s.raiseReg 0x0405 0 0 1)
    else
      let limit := segBase (k + 1)
      let x := s.scanFrom limit { stop := segBase k, chain := prev, seq := first } 21846
      let page := roundUp x.stop 256
      let clean := ((s.homeGet x.stop (page - x.stop)).all fun b => decide (b = 0xFF))
        && (decide (limit ≤ page) || (s.homeGet page 256).all fun b => decide (b = 0xFF))
      if clean then .next (s.logTake k epoch first x x.stop)
      else
        let stop := s.blankPage page limit 8192
        let s := s.logTake k epoch first x stop
        let s := if stop < limit then s.logPut 3 (leBytes x.stop 4 ++ leBytes stop 4 ++ leBytes 0 8) else s
        .next (s.raiseReg 0x0405 0 0 noData)

end Sys2Proof.Machine
end

