-- ==== Sys2Proof/Machine/Words.lean ====
section
/-! DEFINITION. The status words of the device and the register window (18 R479 to R488; the words' maps stand in 06, 08,
11, 12, 13, 14, 15, 16, 17). -/

namespace Sys2Proof.Machine

open Sys2Proof

/-- Code of the main-domain state (R457). -/
def DevState.code : DevState → Nat
  | .off => 0 | .start => 1 | .sealed => 2 | .fwless => 3 | .service => 4 | .ride => 5 | .headless => 6 | .production => 7
/-- A status bit at a place. -/
def at_ (b : Bool) (i : Nat) : Nat := b.toNat * 2 ^ i
/-- Interface level of the device firmware (R457). -/
def State.level (s : State) : Nat := if s.boot.dev = .service then 3 else 0

/-- The MSPI status word (R457). -/
def State.mspiStatusWord (s : State) : W32 :=
  let bell := maskOf ((List.range 8).filter fun q => decide ((s.mb q).rsp ≠ []) || (s.mb q).frozen.isSome)
  BitVec.ofNat 32 (s.boot.dev.code * 2 ^ 28 + at_ s.mspi.crcOn 27 + s.topRank * 2 ^ 24 + at_ s.alarmLow 23
    + s.mspi.lastMb.toNat * 2 ^ 20 + s.mspi.lastResult.toNat * 2 ^ 16 + bell * 2 ^ 8)
/-- RSP_WORDS of a mailbox (R457, R476). -/
def Mbox.rspWords (b : Mbox) : Nat := if b.frozen.isSome then 1 else b.rsp.length
/-- A mailbox word (R457). -/
def State.mailboxWord (s : State) (q : Nat) : W32 :=
  let b := s.mb q
  BitVec.ofNat 32 (b.reqLimit * 2 ^ 16 + b.resets * 2 ^ 14 + at_ b.ready 13 + b.rspWords)
/-- The identity words (R457, R483): the 8 identity bytes of a 0x9F frame. -/
def State.identBytes (s : State) : List Byte :=
  leBytes 0x57 1 ++ leBytes 0x96 1 ++ leBytes 0x0B 1 ++ leBytes s.boot.orderAF.toNat 1 ++ leBytes s.level 1
    ++ leBytes s.boot.dev.code 1 ++ leBytes 2 1 ++ leBytes 0 1
/-- The port filter status word (R209). -/
def State.filterWord (s : State) (p : Nat) : W32 :=
  let w := s.pw p
  let e := s.pe p
  BitVec.ofNat 32 (at_ w.gen 31 + at_ w.flipPend 30 + at_ w.deferred 29 + at_ w.coarseOnly 28 + at_ e.cont 27 + at_ e.addr4 26
    + at_ w.wel 25 + at_ w.busy 24 + w.lastCmd.toNat * 2 ^ 16 + w.build)
/-- SET_STATE code (R268). -/
def SetState.code : SetState → Nat | .none => 0 | .staging => 1 | .staged => 2 | .verified => 3 | .void => 4
/-- The port serve status word (R268). -/
def State.serveWordOf (s : State) (p : Nat) : W32 :=
  let g := s.pg p
  BitVec.ofNat 32 (at_ (decide ((s.ph p).mode = .dark)) 31 + g.setState.code * 2 ^ 28 + at_ g.flashRetired 27 + at_ g.tagsVoid 26
    + at_ g.underrun 25 + at_ g.notReadySeen 24 + g.mismatchLeaf.toNat)
/-- State code of a channel (R411). -/
def ChState.code : ChState → Nat | .inService => 0 | .probing => 1 | .retired => 2 | .kept => 3
/-- The channel status word (R411). -/
def State.channelWord (s : State) (key : Nat) : W32 :=
  let c := s.ch key
  BitVec.ofNat 32 (c.state.code * 2 ^ 30 + c.bucket % 32 * 2 ^ 25 + c.try_ % 4 * 2 ^ 23 + c.cause.toNat * 2 ^ 8 + c.transients.toNat)
/-- Mode code of a port (R485, R130). -/
def PortMode.code : PortMode → Nat | .isolated => 0 | .master => 1 | .pass => 2 | .dark => 3
/-- The port hold word (R485). -/
def State.holdWord (s : State) (p : Nat) : W32 :=
  let h := s.ph p
  BitVec.ofNat 32 (at_ h.hold 31 + at_ (h.hold != h.holdN) 30 + at_ h.pg 29 + h.mode.code * 2 ^ 27 + p % 6 * 2 ^ 24 + p / 6 * 2 ^ 20
    + p / 8 * 2 ^ 16 + at_ h.settle.isSome 15 + s.holds (1 + p % 6) (p / 6) % 32 * 2 ^ 10)
/-- The owner-root status word (R343). -/
def State.rootWord (s : State) : W32 :=
  BitVec.ofNat 32 (s.rootState * 2 ^ 30 + at_ s.boot.orderAF 29 + s.lcCurrent * 2 ^ 26 + s.lcLatched * 2 ^ 23 + at_ s.keys.idLock 22)
/-- The alarm summary word (R378). -/
def State.alarmWord (s : State) : W32 :=
  BitVec.ofNat 32 (s.topRank * 2 ^ 29 + at_ s.alarmLow 28 + at_ s.backup.sealLatch 27 + at_ (decide (s.log.state = .stopped)) 26
    + min 32 s.alarms.queue.length * 2 ^ 20 + min 0xFFFF s.alarms.active.length)
/-- Rebuild state code (R210). -/
def RebuildState.code : RebuildState → Nat | .idle => 0 | .rebuilding => 1 | .flipping => 2 | .blocked => 3
/-- The generation control word (R210). -/
def State.generationWord (s : State) : W32 :=
  let r := s.rules
  BitVec.ofNat 32 (r.state.code * 2 ^ 30 + at_ r.staging 29 + r.done % 16 * 2 ^ 16 + r.stBuild.toNat)
/-- Handover state code (R423). -/
def HoState.code : HoState → Nat
  | .idle => 0 | .checking => 1 | .loading => 2 | .waitingReady => 3 | .switching => 4 | .reloading => 5 | .tagging => 6
/-- The handover status word (R423). -/
def State.handoverWord (s : State) : W32 :=
  let h := s.hand
  BitVec.ofNat 32 (h.state.code * 2 ^ 29 + at_ h.stale 28 + at_ (decide (h.running = .b)) 27 + at_ h.stumbledA 26 + at_ h.stumbledB 25
    + at_ (decide (h.linkSlot ≠ h.running)) 24 + min 3 s.backup.restarts.length * 2 ^ 22 + h.result.toNat)
/-- Log state code (R391). -/
def LogState.code : LogState → Nat | .scanning => 0 | .running => 1 | .stopped => 2 | .erasing => 3
/-- The log status word (R391). -/
def State.logWord (s : State) : W32 :=
  let g := s.log
  BitVec.ofNat 32 (g.state.code * 2 ^ 30 + at_ g.carried 29 + g.openSeg % 8 * 2 ^ 26 + s.erasable.getD 0 * 2 ^ 23
    + at_ s.erasable.isSome 22 + g.ptr % 2 ^ 20)
/-- A KD summary word (R362). -/
def kdWord (t : Tab Bool) : W32 :=
  BitVec.ofNat 32 (maskOf ((List.range 16).filter (kdLock t)) * 2 ^ 16 + maskOf ((List.range 16).filter (kdRevoke t)))
/-- Lane state code (R436). -/
def LaneSt.code : LaneSt → Nat | .down => 0 | .training => 1 | .up => 2 | .secured => 3 | .retired => 4
/-- The link status word (R436). -/
def State.linkWord (s : State) (l : Nat) : W32 :=
  let k := s.ln l
  let w := if k.st = .secured then min 63 (windowOf k.peerLim k.sent) else 0
  BitVec.ofNat 32 (k.st.code * 2 ^ 29 + k.rate.toNat * 2 ^ 26 + at_ k.los 25 + at_ s.link.auto 24 + k.sak.toNat * 2 ^ 22 + w * 2 ^ 16
    + k.retrains.toNat * 2 ^ 8)
/-- The counters of a lane, in table order (R435). -/
def State.laneCounters (s : State) (l : Nat) : List W32 := (List.range 6).map fun i => BitVec.ofNat 32 (Tab.get 0 (s.ln l).ctrs i)

/-! ### Census words (R403, R486) -/

/-- Number of holders of a pool; 0 for a reserved code. -/
def poolHolders (q : Nat) : Nat :=
  if q = 0 then 10 else if 1 ≤ q ∧ q ≤ 6 then 16 else if q = 8 then 4 else if q = 9 then 7
  else if q = 10 ∨ q = 11 ∨ (16 ≤ q ∧ q < 32) then 2 else 0
/-- Pool state code. -/
def PoolSt.code : PoolSt → Nat | .ok => 0 | .frozen => 1 | .reconciling => 2
/-- HOLDERS of the TOTAL word, 4 bits wide; what stands there for the 16 holders of an inrush pool is a free value (R403; log 70). -/
def holdersField (q : Nat) : Nat := if poolHolders q < 16 then poolHolders q else Config.irHolders.toNat
/-- Word i of a pool's census block. -/
def State.censusWord (s : State) (q i : Nat) : W32 :=
  let p := s.po q
  if i = 0 then BitVec.ofNat 32 (p.st.code * 2 ^ 30 + holdersField q * 2 ^ 26 + p.total % 2 ^ 18)
  else if i = 1 then BitVec.ofNat 32 (p.free % 2 ^ 18)
  else BitVec.ofNat 32 ((i - 2) * 2 ^ 24 + s.holds q (i - 2) % 2 ^ 18)

/-! ### The register window (R479 to R487) -/

/-- The counters of a port at positions n to n + 6 of R484's order. -/
def State.portCounter (s : State) (p n : Nat) : W32 := BitVec.ofNat 32 (Tab.get 0 s.ctr (32 * p + n))
/-- A word of a port block (R484); none where it is unmapped. -/
def State.portWord (s : State) (p off : Nat) : Option W32 :=
  match off with
  | 0x00 => some (BitVec.ofNat 32 s.cyc.toNat)
  | 0x04 => some (s.verdictWord p) | 0x08 => some (s.filterWord p) | 0x0C => some (s.serveWordOf p)
  | 0x10 => some (s.channelWord (chanKey .port p)) | 0x14 => some (s.channelWord (chanKey .flash p)) | 0x18 => some (s.holdWord p)
  | _ =>
    if 0x20 ≤ off ∧ off ≤ 0x38 then some (s.portCounter p ((off - 0x20) / 4))
    else if 0x40 ≤ off ∧ off ≤ 0x58 then some (s.portCounter p (7 + (off - 0x40) / 4))
    else if 0x60 ≤ off ∧ off ≤ 0x78 then some (s.portCounter p (14 + (off - 0x60) / 4))
    else none
/-- A word of the device block (R483); none where it is unmapped. -/
def State.deviceWord (s : State) (a : Nat) : Option W32 :=
  let word := fun (bs : List Byte) (i : Nat) => BitVec.ofNat 32 (field bs (4 * i) 4)
  match a with
  | 0x00 => some (word s.identBytes 0) | 0x04 => some (word s.identBytes 1)
  | 0x08 => some (s.boot.bundle.getD {}).version | 0x0C => some s.boot.epoch
  | 0x20 => some s.rootWord | 0x24 => some (word s.rootId 0) | 0x28 => some (word s.rootId 1)
  | 0x30 => some (BitVec.ofNat 32 s.cyc.toNat) | 0x34 => some (BitVec.ofNat 32 (s.cyc.toNat / 2 ^ 32))
  | 0x38 => some (BitVec.ofNat 32 s.backup.clock.toNat) | 0x3C => some (BitVec.ofNat 32 (s.backup.clock.toNat / 2 ^ 32))
  | 0x40 => some s.mspiStatusWord | 0x78 => some (BitVec.ofNat 32 s.mspi.merged.toNat)
  | 0x7C => some (BitVec.ofNat 32 (s.mspi.unmapped.toNat * 2 ^ 16 + s.mspi.roWrites.toNat)) | 0x80 => some s.alarmWord
  | 0x84 => some (BitVec.ofNat 32 (s.alarms.noteMerged.toNat * 2 ^ 16 + s.alarms.lostMerged.toNat))
  | 0x88 => some (BitVec.ofNat 32 s.alarms.seq) | 0x8C => some (BitVec.ofNat 32 s.boot.restartMerged.toNat)
  | 0x90 => some s.generationWord | 0x94 => some s.handoverWord | 0x98 => some s.logWord | 0x9C => some s.fuseStatus
  | 0xA0 => some (s.counterWord 8) | 0xC4 => some (kdWord s.fuses.latched) | 0xC8 => some (kdWord s.fuses.current)
  | 0xD0 => some (s.linkWord 0) | 0xD4 => some (s.linkWord 1) | 0x120 => some s.mspi.scratch
  | _ =>
    if 0x10 ≤ a ∧ a ≤ 0x1C then some (word (padTo s.boot.nonce 16) ((a - 0x10) / 4))
    else if 0x44 ≤ a ∧ a ≤ 0x60 then some (s.mailboxWord ((a - 0x44) / 4))
    else if 0x64 ≤ a ∧ a ≤ 0x74 then some (BitVec.ofNat 32 (Tab.get 0 s.mspi.ctrs ((a - 0x64) / 4)))
    else if 0xA4 ≤ a ∧ a ≤ 0xC0 then some (s.counterWord ((a - 0xA4) / 4))
    else if 0xE0 ≤ a ∧ a ≤ 0xF4 then (s.laneCounters 0)[(a - 0xE0) / 4]?
    else if 0x100 ≤ a ∧ a ≤ 0x114 then (s.laneCounters 1)[(a - 0x100) / 4]?
    else none
/-- The live word at a window address, a multiple of 4; none where it is unmapped. -/
def State.windowLive (s : State) (a : Nat) : Option W32 :=
  if a < 0x200 then s.deviceWord a
  else if 0x10000 ≤ a ∧ a < 0x10000 + 0x100 * 96 then s.portWord ((a - 0x10000) / 256) (a % 256)
  else if 0x20000 ≤ a ∧ a < 0x20000 + 0x80 * 32 then
    let q := (a - 0x20000) / 128
    let i := a % 128 / 4
    if poolHolders q = 0 ∨ poolHolders q + 2 ≤ i then none else some (s.censusWord q i)
  else if 0x30200 ≤ a ∧ a < 0x30000 + 0x200 * 9 then
    let c := (a - 0x30000) / 512
    let i := a % 512 / 4
    match kindOf c with
    | some k => if i < chanSize k then some (s.channelWord (128 * c + i)) else none
    | none => none
  else none
/-- The upper words of the RS register whose lowest word stands at a window address (R482 to R486). -/
def rsUpper (a : Nat) : List Nat :=
  if a = 0x24 ∨ a = 0x30 ∨ a = 0x38 then [a + 4]
  else if 0x10000 ≤ a ∧ a < 0x10000 + 0x100 * 96 ∧ a % 256 = 0 then (List.range 30).map fun i => a + 4 + 4 * i
  else if 0x20000 ≤ a ∧ a < 0x20000 + 0x80 * 32 ∧ a % 128 = 0 then
    (List.range (if poolHolders ((a - 0x20000) / 128) = 0 then 0 else poolHolders ((a - 0x20000) / 128) + 1)).map fun i => a + 4 + 4 * i
  else []
/-- The lowest word of the RS register that holds an upper word. -/
def rsLowest (a : Nat) : Option Nat :=
  if a = 0x28 ∨ a = 0x34 ∨ a = 0x3C then some (a - 4)
  else if 0x10000 ≤ a ∧ a < 0x10000 + 0x100 * 96 ∧ a % 256 ≠ 0 then some (a - a % 256)
  else if 0x20000 ≤ a ∧ a < 0x20000 + 0x80 * 32 ∧ a % 128 ≠ 0 then some (a - a % 128)
  else none
/-- What a window read of an address returns: an upper RS word its latched copy, before the first latch its reset value
(R482), every other word its live value. -/
def State.windowRead (s : State) (a : Nat) : Option W32 :=
  match rsLowest a, s.windowLive a with
  | some _, some v => some ((Tab.get none s.mspi.latch a).getD (
      if a = 0x3C then v else (({ State.reset with
        leave := { s.leave with pools := s.leave.pools.map fun e => (e.1, { total := e.2.total, free := e.2.total }) }
        hold := s.hold.map fun e => (e.1, { pg := e.2.pg, holdN := false }) } : State).windowLive a).getD 0))
  | _, v => v
/-- A read of the lowest word of an RS register latches its upper words (R482). -/
def State.rsLatch (s : State) (a : Nat) : State :=
  s.each (rsUpper a) fun s u =>
    { s with mspi := { s.mspi with latch := Tab.put none s.mspi.latch u (s.windowLive u) } }
/-- One word of a 0x3B frame: its value, and what the read does (R479, R482). -/
def State.windowTake (s : State) (a : Nat) : State × W32 :=
  match s.windowRead a with
  | some v => (s.rsLatch a, v)
  | none => ({ s with mspi := { s.mspi with unmapped := BitVec.ofNat 16 (satAdd 16 s.mspi.unmapped.toNat 1) } }, 0)
/-- One word of a 0x32 frame (R479, R481, R484): SCRATCH, the W1C bits of a serve status word, else read only. -/
def State.windowPut (s : State) (a : Nat) (v : W32) : State :=
  match s.windowLive a with
  | none => { s with mspi := { s.mspi with unmapped := BitVec.ofNat 16 (satAdd 16 s.mspi.unmapped.toNat 1) } }
  | some _ =>
    if a = 0x120 then { s with mspi := { s.mspi with scratch := v } }
    else if 0x10000 ≤ a ∧ a < 0x10000 + 0x100 * 96 ∧ a % 256 = 0x0C then
      s.pgU ((a - 0x10000) / 256) fun g => { g with
        underrun := g.underrun && !bitOf v.toNat 25, notReadySeen := g.notReadySeen && !bitOf v.toNat 24 }
    else { s with mspi := { s.mspi with roWrites := BitVec.ofNat 16 (satAdd 16 s.mspi.roWrites.toNat 1) } }

end Sys2Proof.Machine
end

