-- ==== Sys2Proof/Machine/Mspi.lean ====
section
/-! DEFINITION. MSPI frames, the abort unit, the register window's frames and device-register writes (17 R451 to R461, R475
to R477, 18 R479 to R482). -/

namespace Sys2Proof.Machine

open Sys2Proof

/-! ### Frames (R451 to R456) -/

/-- A frame counter rises: CRC_FAIL 0, OVERRUN 1, FORMAT 2, NOT_READY 3, IGNORED 4; at its maximum it stops and one NOTE
alarm 0x0208 reports it (R10, R456; log 54). -/
def State.mspiCount (s : State) (i : Nat) : State :=
  let old := Tab.get 0 s.mspi.ctrs i
  ({ s with mspi := { s.mspi with ctrs := Tab.put 0 s.mspi.ctrs i (satAdd 16 old 1) } }).maxNote 16 old (satAdd 16 old 1) 0 0
/-- The MSPI balls are dead: in OFF, and while bank VDDIO_H is not good (R500, R505). -/
def State.mspiDead (s : State) : Bool := decide (s.boot.dev = .off) || !s.homeUp
/-- LAST_RESULT (R457). -/
def State.lastResult (s : State) (r : Nat) : State := { s with mspi := { s.mspi with lastResult := BitVec.ofNat 4 r } }
/-- A host frame that acts in no way: its counter and LAST_RESULT. -/
def State.mspiBad (s : State) (ctr result : Nat) : State := (s.mspiCount ctr).lastResult result
/-- MSPI_SO stays high impedance: the frame returns nothing (R451). -/
def State.mspiSilent (s : State) : State := { s with mspi := { s.mspi with out := [], outBytes := [] } }
/-- An ignored frame (R451). -/
def State.mspiIgnored (s : State) : State := (s.mspiBad 4 5).mspiSilent
/-- Bytes of a word in wire order (R451). -/
def wireWord (w : W32) : List Byte := beBytes w.toNat 4
/-- The CRC word of a frame with an address (R453). -/
def frameCrc (cmd : Nat) (addr : W24) (ws : List W32) : W32 :=
  crc32 (leBytes cmd 1 ++ beBytes addr.toNat 3 ++ ws.flatMap wireWord)
/-- How a host-to-device frame ends: its words, or CRC 0, FORMAT 1 (R453, R455). -/
def State.hostFrame (s : State) (cmd : Nat) (m : MspiIn) : Except Nat (List W32) :=
  if !m.aligned then .error 1
  else if s.mspi.crcOn then
    match m.words.getLast? with
    | none => .error 1
    | some c => if c = frameCrc cmd m.addr m.words.dropLast then .ok m.words.dropLast else .error 0
  else .ok m.words
/-- What a host frame does that ends in an error of `hostFrame`. -/
def State.hostError (s : State) (e : Nat) : State := if e = 0 then s.mspiBad 0 3 else s.mspiBad 2 4
/-- A device-to-host frame ends: the words the host clocked, with the CRC word, then all ones (R455). -/
def State.returns (s : State) (ws : List W32) (crc : W32) (clocked : Nat) : State :=
  let all := if s.mspi.crcOn then ws ++ [crc] else ws
  { s with mspi := { s.mspi with out := (all ++ List.replicate (clocked - all.length) 0xFFFFFFFF).take clocked, outBytes := [] } }

/-- MSPI_IGNORED_FRAME (R451): a command byte outside the table, or one the state does not answer. -/
def execMspiIgnoredFrame (cmd : Byte) (s : State) : Done :=
  let d := s.boot.dev
  let answered := decide (cmd = 0x02 ∨ cmd = 0x0B ∨ cmd = 0x05 ∨ cmd = 0x9F)
    || (decide (cmd = 0xAB) && decide (d = .service ∨ d = .ride ∨ d = .headless))
    || (decide (cmd = 0x3B ∨ cmd = 0x32) && decide (d = .service))
  .next (if s.mspiDead || answered then s else s.mspiIgnored)
/-- WRITE_WORDS (R451, R455, R457, R458, R461). -/
def execMspiWriteWords (m : MspiIn) (s : State) : Done :=
  let a := m.addr.toNat
  let q := bitsOf a 22 20
  if s.mspiDead then .next s
  else
    let s : State := { s with mspi := { s.mspi with lastMb := BitVec.ofNat 3 q } }
    if a ≠ q * 2 ^ 20 then .next (s.mspiBad 2 4)
    else match s.hostFrame 0x02 m with
    | .error e => .next (s.hostError e)
    | .ok ws =>
      if !(s.mb q).ready then .next (s.mspiBad 3 1)
      else if s.holds (16 + q) 0 < ws.length then .next (s.mspiBad 1 2)
      else
        let s := (s.poolMove (16 + q) 0 1 ws.length).mbU q fun b => { b with req := b.req ++ ws }
        .next ((if (s.mb q).request.isSome then s.setLine 5 true else s).lastResult 0)

/-- ACK of a 0x0B frame (R460): what the last frame delivered in full goes; SET_MSPI's change comes into force once its
response is acknowledged (R454). -/
def State.mspiAck (s : State) (q : Nat) : State :=
  let b := s.mb q
  let n := b.delivered
  if b.frozen.isSome then (if 0 < n then s.mbU q fun b => { b with frozen := none, delivered := 0, offered := 0 } else s)
  else
    let s := (s.poolMove (24 + q) 1 0 n).mbU q fun b => { b with rsp := b.rsp.drop n, offered := b.offered - n, delivered := 0 }
    let s : State := { s with mspi := { s.mspi with
      crcs := s.mspi.crcs.map fun c => if c.mb = q then { c with left := c.left - n } else c } }
    s.boxFlush q
/-- CRC_ON takes the values whose response the frame that ends has acknowledged, in their order (R454). -/
def State.crcSettle (s : State) : State :=
  let due := s.mspi.crcs.filter fun c => decide (c.left = 0)
  { s with mspi := { s.mspi with
    crcOn := (due.getLast?.map (·.on)).getD s.mspi.crcOn, crcs := s.mspi.crcs.filter fun c => decide (c.left ≠ 0) } }
/-- A frame whose address breaks its form leaves MSPI_SO high impedance (R451). -/
def State.mspiHigh (s : State) : State := (s.mspiCount 2).mspiSilent
/-- The words a 0x0B frame offers: queued response words, or the word of a frozen pool (R457, R476). -/
def Mbox.offer (b : Mbox) (max : Nat) : List W32 := (match b.frozen with | some w => [w] | none => b.rsp).take max
/-- The read header for n words (R457). -/
def Mbox.readHeader (b : Mbox) (n : Nat) : W32 :=
  BitVec.ofNat 32 (at_ b.ready 31 + at_ (decide (0 < b.offered) && decide (0 < n)) 30 + n)
/-- n words have been offered; `full` says that the frame delivered them in full (R460). -/
def Mbox.deliver (b : Mbox) (n : Nat) (begun full : Bool) : Mbox :=
  { b with offered := if begun then max b.offered n else b.offered, delivered := if full then n else 0 }
/-- The data phase of a 0x0B frame; `ended` says that it ends with the rise of MSPI_CS_N. -/
def State.mspiDeliver (s : State) (addr : W24) (q max clocked : Nat) (ended : Bool) : State :=
  let ws := (s.mb q).offer max
  let all := (s.mb q).readHeader ws.length :: ws
  let full := ended && decide (all.length + s.mspi.crcOn.toNat ≤ clocked)
  let s := s.mbU q fun b => b.deliver ws.length (decide (0 < clocked)) full
  (s.returns all (frameCrc 0x0B addr all) clocked).crcSettle
/-- The address of a 0x0B frame has its form. -/
def readForm (a : Nat) : Bool := decide (a = bitsOf a 22 20 * 2 ^ 20 + at_ (bitOf a 19) 19 + bitsOf a 15 8 * 2 ^ 8)
/-- A 0x0B frame from the edge on which its address completes: a mailbox that is not ready returns an empty header and then all ones, and
its ACK acts in no way (R457, R460). -/
def State.mspiRead (s : State) (addr : W24) (clocked : Nat) (ended : Bool) : State :=
  let a := addr.toNat
  let q := bitsOf a 22 20
  let n := bitsOf a 15 8
  if !(s.mb q).ready && (s.mb q).frozen.isNone then
    { s with mspi := { s.mspi with out := ((0 : W32) :: List.replicate (clocked - 1) 0xFFFFFFFF).take clocked, outBytes := [] } }
  else (if bitOf a 19 then s.mspiAck q else s).mspiDeliver addr q (if n = 0 then 256 else n) clocked ended
/-- READ_WORDS (R451, R457, R460). -/
def execMspiReadWords (addr : W24) (clocked : Nat) (s : State) : Done :=
  if s.mspiDead then .next s
  else if !readForm addr.toNat then .next s.mspiHigh
  else .next (s.mspiRead addr clocked true)

/-- STATUS (R451, R457). -/
def execMspiStatus (clocked : Nat) (s : State) : Done :=
  if s.mspiDead then .next s
  else
    let ws := s.mspiStatusWord :: (List.range 8).map s.mailboxWord
    .next (s.returns ws (crc32 (leBytes 0x05 1 ++ ws.flatMap wireWord)) clocked)
/-- IDENTITY_READ (R451, R457): 8 bytes, then 0xFF. -/
def execMspiIdentityRead (clocked : Nat) (s : State) : Done :=
  if s.mspiDead then .next s
  else .next { s with mspi := { s.mspi with
    out := [], outBytes := (s.identBytes ++ List.replicate (clocked - 8) 0xFF).take clocked } }

/-! ### The register window (R455, R479 to R482) -/

/-- Words of a 0x3B frame from an address on: once it has run from a mapped word (`seen`) into an unmapped one it returns zeros
(`zero`); each unmapped word counts (R479). -/
def State.windowWords (s : State) (a : Nat) (seen zero : Bool) : Nat → State × List W32
  | 0 => (s, [])
  | n + 1 =>
    let hit := (s.windowRead a).isSome
    let r := if zero && hit then (s, 0) else s.windowTake a
    let t := r.1.windowWords (a + 4) (seen || hit) (zero || (seen && !hit)) n
    (t.1, r.2 :: t.2)
/-- The data phase of a 0x3B frame; with CRC_ON 1 it returns one word (R455). -/
def State.windowFrame (s : State) (addr : W24) (clocked : Nat) : State :=
  let r := s.windowWords addr.toNat false false (if s.mspi.crcOn then min 1 clocked else clocked)
  r.1.returns r.2 (frameCrc 0x3B addr r.2) clocked
/-- REGISTER_WINDOW_READ. -/
def execRegisterWindowRead (addr : W24) (clocked : Nat) (s : State) : Done :=
  let a := addr.toNat
  if s.mspiDead then .next s
  else if s.boot.dev ≠ .service then .next s.mspiIgnored
  else if a % 4 ≠ 0 then .next s.mspiHigh
  else .next (s.windowFrame addr clocked)
/-- REGISTER_WINDOW_WRITE. -/
def execRegisterWindowWrite (m : MspiIn) (s : State) : Done :=
  let a := m.addr.toNat
  if s.mspiDead then .next s
  else if s.boot.dev ≠ .service then .next s.mspiIgnored
  else if a % 4 ≠ 0 then .next (s.mspiBad 2 4)
  else match s.hostFrame 0x32 m with
  | .error e => .next (s.hostError e)
  | .ok ws => .next ((s.each ((List.range ws.length).zip ws) fun s e => s.windowPut (a + 4 * e.1) e.2).lastResult 0)
/-- RS_LATCH_READ: the lowest word of an RS register latches its upper words. -/
def execRsLatchRead (addr : W24) (s : State) : Done :=
  if s.mspiDead = false ∧ s.boot.dev = .service ∧ rsUpper addr.toNat ≠ [] then
    let r := s.windowTake addr.toNat
    .next (r.1.returns [r.2] (frameCrc 0x3B addr [r.2]) (1 + s.mspi.crcOn.toNat))
  else .next s

/-- What a frame does up to its stall: the mailbox a 0x02 frame names, the ACK and the words of a 0x0B frame, which delivers nothing in
full, the words of a 0x3B frame (R457, R460, R479). -/
def State.mspiCut (s : State) (cmd : Byte) (addr : W24) (clocked : Nat) : State :=
  if cmd = 0x02 then { s with mspi := { s.mspi with lastMb := BitVec.ofNat 3 (bitsOf addr.toNat 22 20) } }
  else if cmd = 0x0B then (if readForm addr.toNat then s.mspiRead addr clocked false else s.mspiSilent)
  else if cmd = 0x3B ∧ s.boot.dev = .service then (if addr.toNat % 4 = 0 then s.windowFrame addr clocked else s.mspiSilent)
  else s
/-- MSPI_STALL (R456): the frame ends uncommitted; OFF sets no limit. -/
def execMspiStall (x : StallIn) (s : State) : Done :=
  if s.mspiDead = true ∨ bitsOf (byteAt s.cfg 0).toNat 3 1 = 0 then .next s
  else
    let s := match x.addr with | some a => s.mspiCut x.cmd a x.clocked | none => s
    .next (if x.cmd = 0x02 ∨ x.cmd = 0x32 ∨ x.cmd = 0xAB then s.mspiBad 2 4 else s.mspiCount 2)

/-! ### Aborts (R475 to R477) -/

/-- The function is named by an abort whose earlier one still runs. -/
def State.abortMerge (s : State) : State :=
  { s with mspi := { s.mspi with merged := BitVec.ofNat 8 (satAdd 8 s.mspi.merged.toNat 1) } }
/-- PKE abort: an engine that the seed core or LEAD owns (R321, R325). -/
def State.abortPke (s : State) (e : Nat) : State :=
  let k := s.en e
  if k.chain.isSome then s else if k.state = .aborting then s.abortMerge else s.abortEngine e
/-- Lane abort: the job in progress fails, on the service lane too (R229); which port's it is, or none, is a matter of the moment (log 10, 37). -/
def State.abortLane (s : State) (l : Nat) : State :=
  if s.wake.stage ≠ .idle ∧ s.wake.lanes.contains l then
    let ps := s.lanePorts l
    let k := s.drawn 0 % (ps.length + 1)
    let s := s.used 1
    match ps[k]? with
    | some p => s.pkU p fun w => { w with incomplete := true }
    | none => s
  else if s.serviceLane = some l then s.svcFails
  else match (List.range 4).find? fun g => decide (s.gleanLane g = some l) with
    | none => s
    | some g =>
      let ps := allPorts.filter fun p => decide (p % 4 = g) && decide ((s.pg p).glean ≠ [])
      let k := s.drawn 0 % (ps.length + 1)
      let s := s.used 1
      match ps[k]? with
      | some p => (s.pgU p fun q => { q with glean := q.glean.drop 1 }).bump p .unobserved 1
      | none => s
/-- Port abort: the frame in progress is killed; a MASTER sequence ends with the port held. -/
def State.abortPort (s : State) (p : Nat) (f : Option FrameIn) : State :=
  let s := match f with | some f => if s.inGlade p then s.frame p f .abort else s | none => s
  let reading := (s.pk p).part && decide (s.wake.stage = .entry ∨ s.wake.stage = .round ∨ s.wake.stage = .window)
  let s := if reading then s.pkU p fun w => { w with aborted := true } else s
  let s := if (s.ph p).mode = .master ∨ (s.ph p).handback then s.phU p fun h => { h with
      mode := if h.mode = .master then .isolated else h.mode, handback := false } else s
  s.flowFail p 1
/-- Thread abort: the thread restarts at its vector; its pending lookups and decisions go. -/
def State.abortThread (s : State) (t : Nat) : State :=
  let k := t / 8
  if !(s.sh k).released ∨ (s.co (8 + t)).run = .stopped then s
  else
    let s := s.restartThread (8 + t) (BitVec.ofNat 24 (field (s.sh k).threads (4 * (t % 8)) 3))
    s.pdU t fun d => { d with lookups := [], decs := [] }
/-- Link abort: the lane goes DOWN and retrains; its transfers are suspended where no lane is left to carry them (R450, R475). -/
def State.abortLinkLane (s : State) (l : Nat) : State :=
  if (s.ln l).st = .retired then s
  else
    let s := s.laneLeave l .down
    let s := if s.laneUp.isSome then s
      else s.each ((s.link.xfers.filter fun e => decide (e.2.lane = l)).map (·.1)) fun s x => s.xfU x fun t => { t with susp := true }
    s.laneTrain l
/-- TAG of the command in progress, which is over when its whole response is written; 0xFF for none (R463, R476). -/
def Mbox.tagNow (b : Mbox) : Byte := (b.tag.orElse fun _ => b.owed.head?.map fun r => BitVec.ofNat 8 ((r.headD 0).toNat / 2 ^ 8)).getD 0xFF
/-- Mailbox abort (R476, R478). -/
def State.abortBox (s : State) (q : Nat) : State :=
  if !s.served q ∨ (s.po (16 + q)).st ≠ .ok ∨ (s.po (24 + q)).st ≠ .ok then s
  else
    let b := s.mb q
    let waits := decide (s.fuses.client.map (·.mb) = some q) && s.fuses.waiting
    let s := s.boxEmpty q
    let s := if waits then s.fuseStop 0x4501 else s
    let s := s.boxReady q
    (s.poolMove (24 + q) 0 1 1).mbU q fun k => { k with rsp := [rspHeader 0x4001 b.tagNow 0], aborted := true }
/-- INDEX is in range for a FUNCTION (R475). -/
def abortIndexOk (fn i : Nat) : Bool :=
  match fn with
  | 1 => decide (i < 4) | 2 => decide (i < 24) | 3 => decide (i < 96) | 4 => decide (i < 96) | 5 => decide (i < 3)
  | 6 => decide (i < 8) | _ => false
/-- The abort of one target. -/
def State.abortOne (s : State) (f : Option FrameIn) : Nat × Nat → State
  | (1, i) => s.abortPke i | (2, i) => s.abortLane i | (3, i) => s.abortPort i f | (4, i) => s.abortThread i
  | (5, i) => s.abortLinkLane i | (6, i) => s.abortBox i
  | _ => s
/-- The abort unit carries out one function; a target whose last abort still runs merges (R477). An engine's state tells that itself. -/
def State.abortDo (s : State) (fn i : Nat) (f : Option FrameIn) (again : Bool) : State :=
  let targets := if fn = 5 ∧ i = 2 then [(5, 0), (5, 1)] else [(fn, i)]
  let old := s.mspi.abortOf
  let s := s.each targets fun s t => if again && fn != 1 && old.contains t then s.abortMerge else s.abortOne f t
  { s with mspi := { s.mspi with abortOf := targets } }
/-- A 0xAB frame (R451, R455, R475). -/
def State.abortFrameIn (s : State) (m : MspiIn) (f : Option FrameIn) : State :=
  let a := m.addr.toNat
  let fn := bitsOf a 23 20
  let i := bitsOf a 19 12
  let d := s.boot.dev
  if d ≠ .service ∧ d ≠ .ride ∧ d ≠ .headless then s.mspiIgnored
  else if a % 4096 ≠ 0 then s.mspiBad 2 4
  else match s.hostFrame 0xAB m with
  | .error e => s.hostError e
  | .ok ws => if ws ≠ [] ∨ !abortIndexOk fn i then s.mspiBad 2 4 else (s.abortDo fn i f m.again).lastResult 0
/-- A 0xAB frame of one function; the others are other commands. -/
def abortCommand (mine : Nat → Bool) (m : MspiIn) (f : Option FrameIn) (s : State) : Done :=
  if s.mspiDead ∨ !mine (bitsOf m.addr.toNat 23 20) then .next s else .next (s.abortFrameIn m f)
/-- ABORT_PKE; a frame that names no function of the table counts here too. -/
def execAbortPke (m : MspiIn) (s : State) : Done := abortCommand (fun n => decide (n = 0 ∨ n = 1 ∨ 7 ≤ n)) m none s
/-- ABORT_LANE. -/
def execAbortLane (m : MspiIn) (s : State) : Done := abortCommand (fun n => decide (n = 2)) m none s
/-- ABORT_PORT. -/
def execAbortPort (m : MspiIn) (f : Option FrameIn) (s : State) : Done := abortCommand (fun n => decide (n = 3)) m f s
/-- ABORT_THREAD. -/
def execAbortThread (m : MspiIn) (s : State) : Done := abortCommand (fun n => decide (n = 4)) m none s
/-- ABORT_LINK. -/
def execAbortLink (m : MspiIn) (s : State) : Done := abortCommand (fun n => decide (n = 5)) m none s
/-- ABORT_MAILBOX. -/
def execAbortMailbox (m : MspiIn) (s : State) : Done := abortCommand (fun n => decide (n = 6)) m none s

/-! ### Time limits of the mailboxes (R463, R465) -/

/-- REQUEST_TIMEOUT: a header whose argument words have not all arrived is discarded with status LENGTH. -/
def execRequestTimeout (mb : MailboxId) (s : State) : Done :=
  let q := mb.val
  let b := s.mb q
  match b.req with
  | [] => .next s
  | h :: _ =>
    if b.request.isSome ∨ b.tag.isSome ∨ !b.ready then .next s
    else .next (((s.takeWords q b.req.length).mbU q fun b => { b with aborted := false }).respond q (hdrTag h.toNat) 0x1002 [])
/-- OBJECT_BUFFER_TIMEOUT: the buffer closes 10 s after its last write. -/
def execObjectBufferTimeout (s : State) : Done := .next { s with mspi := { s.mspi with obj := {} } }
/-- HOME_PORT_FRAME_COMPLETE (R298). -/
def execHomePortFrameComplete (s : State) : Done := .next (s.setLine 13 true)

/-! ### Device registers (R481, R298, R311, R366) -/

/-- An assert of line 12 on the cores a message goes to. -/
def State.messageLine (s : State) (cores : List Nat) : State :=
  s.each cores fun s c => s.coU c fun k => { k with lines := k.lines ||| 0x1000 }
/-- REGISTER_WRITE: a core writes a device register (R28, R61, R98, R311, R333, R363, R364, R366, R418). -/
def execRegisterWrite (src : Agent) (r : DevReg) (v : W32) (s : State) : Done :=
  let n := v.toNat
  match r with
  | .engineStatus e =>
    if !fuseCore src then .next s
    else
      let s := s.enU e.val fun k => { k with
        done := k.done && !bitOf n 27, wrBusy := k.wrBusy && !bitOf n 26, refused := k.refused && !bitOf n 25 }
      .next (if bitOf n 27 then s.setLine e.val false else s)
  | .fuseStatus =>
    if !fuseCore src then .next s
    else
      let s := if s.fuses.state = .armed then s.disarm else s
      let s : State := { s with fuses := { s.fuses with done := s.fuses.done && !bitOf n 29, drift := s.fuses.drift && !bitOf n 28 } }
      .next (if bitOf n 29 then s.setLine 9 false else s)
  | .image i =>
    if !fuseCore src then .next s
    else
      let s := if s.fuses.state = .armed then s.disarm else s
      .next { s with fuses := { s.fuses with image := setAt ((List.range 16).map fun j => s.fuses.image.getD j 0) i.val v } }
  | .keyin i =>
    if s.noLead src then .next s.roleAlarm
    else if s.firmware src then
      .next { s with keys := { s.keys with keyin := setAt ((List.range 16).map fun j => s.keys.keyin.getD j 0) i.val v } }
    else .next s
  | .standOpen k =>
    if s.noLead src then .next s.roleAlarm
    else if s.leadAgent = some src ∧ s.boot.dev = .service then
      .next (if (s.st k.val).gate then s.stU k.val fun t => { t with opened := true, status := 0 } else s.standRefuses k.val)
    else .next s
  | .watchdog => .next s
  | .roleClaim =>
    if src = .canopyA ∧ s.boot.leadShadowBad ∧ s.boot.canopyOut then
      let s := if s.fuses.state = .armed then s.disarm else s
      .next { s with boot := { s.boot with lead := .a, leadShadowBad := false } }
    else .next s
  | .response q =>
    if s.noLead src then .next s.roleAlarm
    else if s.firmware src ∧ (s.mb q.val).ready ∧ !(s.mb q.val).aborted ∧ 1 ≤ s.rspRoom q.val then
      .next ((s.poolMove (24 + q.val) 0 1 1).mbU q.val fun b => { b with rsp := b.rsp ++ [v] })
    else .next s
  | .message =>
    match src with
    | .link => .next (s.messageLine [1, 2])
    | .canopyA | .canopyB => .next (s.messageLine [3])
    | _ => .next s

end Sys2Proof.Machine
end

