-- ==== Sys2Proof/Machine/Commands.lean ====
section
/-! DEFINITION. How firmware executes a mailbox request (17 R457 to R468), and the general commands, the object commands
and those of policy, wake and release. Checks stand in the order of log 38. -/

namespace Sys2Proof.Machine

open Sys2Proof

/-! ### Requests (R462 to R468) -/

/-- The response to the command in progress of a mailbox. -/
def State.answer (s : State) (q status : Nat) (ws : List W32) : State := s.respond q ((s.mb q).tag.getD 0) status ws
/-- A complete request waits in some mailbox. -/
def State.requestWaits (s : State) : Bool := (List.range 8).any fun q => (s.mb q).request.isSome
/-- Firmware takes a request of n argument words: its words, the command in progress, line 5 (R458, R461, R463). -/
def State.takeRequest (s : State) (q h n : Nat) : State :=
  let s := (s.takeWords q (1 + n)).mbU q fun b => { b with tag := some (hdrTag h), aborted := false, parity := false }
  let s : State := { s with mspi := { s.mspi with lastServed := if q = 0 then s.mspi.lastServed else q } }
  if s.requestWaits then s else s.setLine 5 false
/-- The request that firmware serves next, when it is mailbox q's and its code satisfies `p`. -/
def State.request (s : State) (q : Nat) (p : Nat → Bool) : Option (Nat × List W32) :=
  match (s.mb q).request with
  | some (h, ws) => if s.nextBox = some q ∧ s.served q ∧ p (hdrCommand h) then some (h, ws) else none
  | none => none
/-- What the header alone decides: state, RSVD, MB0, LENGTH (R463, R464, R467); 0 where the command is executed. -/
def headerStatus (q h n : Nat) (stateOk mb0 : Bool) (len : Nat → Bool) : Nat :=
  if !stateOk then 0x1001
  else if h / 2 ^ 8 % 2 ^ 8 ≠ 0 then 0x1003
  else if q = 0 ∧ !mb0 then 0x1005
  else if !len n then 0x1002
  else 0
/-- A request with a word that failed its FIFO parity is discarded with WORD_PARITY and a SIGNAL alarm (R384, R467; log
50). -/
def State.parityBad (s : State) (q h n : Nat) : State := ((s.takeRequest q h n).answer q 0x3001 []).parityAlarm
/-- A command of one code is executed: its request is taken, then `run` acts on mailbox and arguments and answers. -/
def State.command (s : State) (mb : MailboxId) (code : Nat) (states : List DevState) (mb0 : Bool) (len : Nat → Bool)
    (run : Nat → List W32 → State → State) : Done :=
  let q := mb.val
  match s.request q (fun c => decide (c = code)) with
  | none => .next s
  | some (h, ws) =>
    let t := s.takeRequest q h ws.length
    let st := headerStatus q h ws.length (states.contains s.boot.dev) mb0 len
    .next (if (s.mb q).parity then s.parityBad q h ws.length else if st = 0 then run q ws t else t.answer q st [])
/-- A command of Shentiha (R468). -/
def State.shentiha (s : State) (mb : MailboxId) (code : Nat) (mb0 : Bool) (len : Nat → Bool)
    (run : Nat → List W32 → State → State) : Done := s.command mb code [.service] mb0 len run
/-- A request of exactly n argument words. -/
def words (n : Nat) : Nat → Bool := fun k => decide (k = n)
/-- A request of a to b argument words. -/
def wordsIn (a b : Nat) : Nat → Bool := fun k => decide (a ≤ k ∧ k ≤ b)
/-- Argument word Wi, i from 1. -/
def arg (ws : List W32) (i : Nat) : Nat := (ws.getD (i - 1) 0).toNat
/-- The confirm word in Wi matches W1 (R468). -/
def confirmed (ws : List W32) (i : Nat) : Bool := decide (ws.getD (i - 1) 0 = ~~~ (ws.getD 0 0))
/-- The ports of a mask in W1 to W3 (R468). -/
def maskPorts (ws : List W32) : List Nat := allPorts.filter fun p => bitOf (arg ws (1 + p / 32)) (p % 32)
/-- The words of a port mask (R468). -/
def portMask (l : List Nat) : List W32 := wordsOf (leBytes (maskOf l) 12)
/-- The body of the record of a home-flash mismatch: an OWNER entry with the address, the length and the status (R469, R388; log 60). -/
def homeMismatch (a n : Nat) : List Byte := leBytes a 4 ++ leBytes n 4 ++ leBytes 0x5001 2 ++ leBytes 0 6
/-- An INTERNAL answer after a home-flash readback that differs, which is logged: the bytes programmed are free values, the error is
one of the home port (R469, R406). -/
def State.homeFailed (s : State) (q a n : Nat) : State :=
  let bs := (List.range n).map fun i => BitVec.ofNat 8 (s.drawn i)
  ((((s.corePut a bs).used n).chanError .home 0 4).logRec 0x40 (homeMismatch a n)).answer q 0x5001 []
/-- The words of W(i) on are programmed into the home flash at a and read back (R469, R473); with its bank down nothing reads back
(R500). -/
def State.homeProgram (s : State) (q a i : Nat) (ws : List W32) (ok : Bool) : State :=
  let bs := bytesOf (ws.drop (i - 1))
  if ok && s.homeUp then
    let t := s.corePut a bs
    (t.homeSends ((t.pe 127).master ++ [t.homeRead a bs.length])).answer q 0 []
  else s.homeFailed q a bs.length

/-! ### General commands and the object buffer (R465, R468) -/

/-- GET_INFO. -/
def execCmdGetInfo (mb : MailboxId) (s : State) : Done :=
  s.shentiha mb 0x01 true (words 0) fun q _ s =>
    let lead := if s.boot.lead = .b then 2 else 1
    s.answer q 0 ([BitVec.ofNat 32 (s.boot.dev.code * 2 ^ 28 + lead * 2 ^ 24 + at_ (decide (s.hand.running = .b)) 16 + 3),
      s.boot.running.version, s.boot.epoch] ++ wordsOf (padTo s.boot.nonce 16))
/-- SET_MSPI: CRC_ON changes once the frame that acknowledges this response has ended (R454). -/
def execCmdSetMspi (mb : MailboxId) (s : State) : Done :=
  s.shentiha mb 0x02 true (words 1) fun q ws s =>
    if 2 ≤ arg ws 1 then s.answer q 0x1003 []
    else
      let s := s.answer q 0 []
      let b := s.mb q
      { s with mspi := { s.mspi with
        crcs := s.mspi.crcs ++ [{ mb := q, left := b.rsp.length + (b.owed.map (·.length)).sum, on := decide (arg ws 1 = 1) }] } }
/-- WARM_RESTART: no response. -/
def execCmdWarmRestart (mb : MailboxId) (s : State) : Done :=
  s.shentiha mb 0x03 true (words 1) fun q ws s => if arg ws 1 = 0x57535254 then s.warmRestart false else s.answer q 0x1003 []
/-- ABORT: the abort unit's function, then the response (R475). -/
def execCmdAbort (mb : MailboxId) (x : AbortIn) (s : State) : Done :=
  s.shentiha mb 0x04 true (words 1) fun q ws s =>
    let w := arg ws 1
    let fn := bitsOf w 23 20
    let i := bitsOf w 19 12
    if 2 ^ 24 ≤ w ∨ w % 4096 ≠ 0 ∨ !abortIndexOk fn i ∨ (fn = 6 ∧ i = q) then s.answer q 0x1003 []
    else (s.abortDo fn i (if fn = 3 then x.frame else none) x.again).answer q 0 []
/-- OBJECT_OPEN. -/
def execCmdObjectOpen (mb : MailboxId) (s : State) : Done :=
  s.shentiha mb 0x05 true (words 2) fun q ws s =>
    let kind := arg ws 1
    let len := arg ws 2
    if kind = 0 ∨ 3 < kind ∨ len < 16 ∨ 65536 < len then s.answer q 0x1003 []
    else if q = 0 ∧ kind ≠ 2 then s.answer q 0x1005 []
    else if s.mspi.obj.owner.isSome ∧ s.mspi.obj.owner ≠ some q then s.answer q 0x2001 []
    else ({ s with mspi := { s.mspi with obj := { owner := some q, kind := kind, len := len } } } : State).answer q 0 []
/-- OBJECT_WRITE: bytes beyond the object's length are unnamed and zero. -/
def execCmdObjectWrite (mb : MailboxId) (s : State) : Done :=
  s.shentiha mb 0x06 true (wordsIn 2 254) fun q ws s =>
    let o := s.mspi.obj
    let off := arg ws 1
    let bs := bytesOf (ws.drop 1)
    let n := min bs.length (o.len - off)
    if o.owner ≠ some q then s.answer q 0x1006 []
    else if off % 4 ≠ 0 ∨ o.len ≤ off ∨ o.len + 3 < off + bs.length ∨ !zeros bs n (bs.length - n) then s.answer q 0x1003 []
    else ({ s with mspi := { s.mspi with obj := { o with
      bytes := Tab.putList 0 o.bytes off (bs.take n), written := Tab.putList false o.written off (List.replicate n true) } } }
      : State).answer q 0 []
/-- OBJECT_CLOSE. -/
def execCmdObjectClose (mb : MailboxId) (s : State) : Done :=
  s.shentiha mb 0x07 true (words 0) fun q _ s =>
    if s.mspi.obj.owner = some q then ({ s with mspi := { s.mspi with obj := {} } } : State).answer q 0 [] else s.answer q 0x1006 []
/-- The object that a command of mailbox q consumes: none where it answers OBJECT (R465). -/
def ObjBuf.object (b : ObjBuf) (q kind : Nat) : Option (List Byte) :=
  if b.owner = some q ∧ b.kind = kind ∧ b.full then some b.data else none
/-- A consuming command closes its mailbox's buffer (R465). -/
def State.closeObject (s : State) (q : Nat) : State :=
  if s.mspi.obj.owner = some q then { s with mspi := { s.mspi with obj := {} } } else s
/-- A command consumes an object: OBJECT, or `f` acts on its bytes. -/
def State.consume (s : State) (q kind : Nat) (f : List Byte → State → State) : State :=
  match s.mspi.obj.object q kind with
  | some c => f c (s.closeObject q)
  | none => (s.closeObject q).answer q 0x1006 []
/-- A command's signature goes to an engine: the command keeps its code, arguments and object until `done` ends it (R319, R394). -/
def State.callVerify (s : State) (q code : Nat) (ws : List W32) (obj : List Byte) (job : VerUse → ChainJob) (done : Bool → State → State) :
    State :=
  let j := job (.command q)
  (s.mbU q fun b => { b with call := some { code := code, args := ws, obj := obj, sig := some j } }).verify j done
/-- The object of the command in progress. -/
def State.callObj (s : State) (q : Nat) : List Byte := ((s.mb q).call.map (·.obj)).getD []
/-- The arguments of the command in progress. -/
def State.callArgs (s : State) (q : Nat) : List W32 := ((s.mb q).call.map (·.args)).getD []
/-- The verification of the command in progress is over. -/
def State.callTaken (s : State) (q : Nat) : State := s.mbU q fun b => { b with call := none }
/-- The container at the start of an object. -/
def objContainer (c : List Byte) : List Byte := c.take (0x20 + cBody c + cSigLen c)

/-! ### Policy, wake and release (R67 to R104, R468, R469) -/

/-- A new policy or handover is refused: a wake runs, the rebuild engine builds or flips (R68, R208, R420). -/
def State.verdictBusy (s : State) : Bool :=
  decide (s.wake.stage ≠ .idle) || decide (s.rules.state = .rebuilding ∨ s.rules.state = .flipping)
/-- The policy of a POLICY_SUBMIT has been verified: accepted, it is written to the home flash and the rebuild is due (R205, R469). -/
def State.policySubmitted (s : State) (q : Nat) (ok : Bool) : State :=
  let c := s.callObj q
  if !ok then s.answer q 0x1101 []
  else if s.verdictBusy then s.answer q 0x2101 []
  else
    let s := ((s.takePolicy c).coreErase 0x02010000 0x10000).corePut 0x02010000 c
    ({ s with rules := { s.rules with restart := true } } : State).answer q 0 [BitVec.ofNat 32 (polEpoch c)]
/-- POLICY_SUBMIT (R125, R394). -/
def execCmdPolicySubmit (mb : MailboxId) (s : State) : Done :=
  s.shentiha mb 0x10 false (words 0) fun q _ s =>
    s.consume q 1 fun o s =>
      let c := objContainer o
      if s.verdictBusy then s.answer q 0x2101 []
      else if !s.policyOk c then s.answer q 0x1101 []
      else s.callVerify q 0x10 [] c (fun u => jobOf u c) fun ok s => s.policySubmitted q ok
/-- A wake or rewake runs, or waits for its leave. -/
def State.wakeRunning (s : State) : Bool := decide (s.wake.stage ≠ .idle) || s.leave.queue.any fun r => decide (r.use = .wake)
/-- WAKE_START (R67). -/
def execCmdWakeStart (mb : MailboxId) (s : State) : Done :=
  s.shentiha mb 0x11 false (words 0) fun q _ s =>
    if s.wakeRunning then s.answer q 0x2201 []
    else if !s.wakeReady ∨ s.wakeLanes = [] then s.answer q 0x1004 []
    else (s.wakeAsk false allPorts).answer q 2 []
/-- REWAKE (R101). -/
def execCmdRewake (mb : MailboxId) (s : State) : Done :=
  s.shentiha mb 0x12 false (words 3) fun q ws s =>
    let l := maskPorts ws
    if l.any fun p => s.inGlade p then s.answer q 0x1201 []
    else if s.wakeRunning then s.answer q 0x2201 []
    else if !s.wakeReady ∨ s.wakeLanes = [] then s.answer q 0x1004 []
    else (s.wakeAsk true l).answer q 2 []
/-- Form of a dispensation record (R17, R107, R124). -/
def dispensationForm (c : List Byte) : Bool :=
  frameOk c 4 0x60 true && decide (c.length = 0x20 + 0x60 + cSigLen c) && decide ((byteAt c 0x20).toNat < 96) && zeros c 0x21 3
    && zeros c 0x28 8 && sbFormOk (cSigBlock c) (cSigLen c) && keyBlockOk (cScheme c) (cSigBlock c)
/-- The slot that a dispensation record chooses whose signature verifies: 1 A, 2 B; none where it is refused: also for a port that
cannot serve, or whose flash a recovery flow has written since (R90, R123, R130). -/
def State.dispensation (s : State) (c : List Byte) : Option Nat :=
  let p := (byteAt c 0x20).toNat
  let v := s.pv p
  let d := sub c 0x40 64
  if dispensationForm c && signerMatch s.fuses.latched (polSigners s.pol p) c && !kdRevoke s.fuses.latched (cSigner c)
      && s.portServes p && decide (v.verdict.toNat = vConflict ∧ v.reason = 14 ∧ v.chosen = 0)
      && decide (field c 0x24 4 = s.boot.epoch.toNat) && decide (sub c 0x30 16 = padTo s.boot.nonce 16) then
    (if v.validA && decide (d = v.digA) then some 1 else if v.validB && decide (d = v.digB) then some 2 else none)
  else none
/-- A dispensation record has chosen a slot: CHOSEN, the other slot's pins, handback, the measurement record, the log (R90,
R93, R259, R388). -/
def State.dispense (s : State) (p x : Nat) (c : List Byte) : State :=
  let s := (s.pvU p fun v => { v with chosen := BitVec.ofNat 2 x }).keepSlot p x
  let s := s.voidPinsOf p x
  let s := (s.phU p fun h => { h with handback := true }).writeRecord p
  s.logRec 0x22 (cDigest c)
/-- The record of a DISPENSATION has been verified; the port's verdict is looked at again. -/
def State.dispensed (s : State) (q : Nat) (ok : Bool) : State :=
  let c := s.callObj q
  match if ok then s.dispensation c else none with
  | some x => (s.dispense (byteAt c 0x20).toNat x c).answer q 0 []
  | none => s.answer q 0x1102 []
/-- DISPENSATION (R90, R394). -/
def execCmdDispensation (mb : MailboxId) (s : State) : Done :=
  s.shentiha mb 0x13 true (words 0) fun q _ s =>
    s.consume q 2 fun o s =>
      let c := objContainer o
      if (s.dispensation c).isNone then s.answer q 0x1102 []
      else s.callVerify q 0x13 [] c (fun u => jobOf u c) fun ok s => s.dispensed q ok
/-- GET_VERDICTS. -/
def execCmdGetVerdicts (mb : MailboxId) (s : State) : Done :=
  s.shentiha mb 0x14 true (words 2) fun q ws s =>
    let a := arg ws 1
    let n := arg ws 2
    if n = 0 ∨ 96 < n ∨ 96 < a + n then s.answer q 0x1003 []
    else s.answer q 0 ((List.range n).map fun i => s.verdictWord (a + i))
/-- GET_MEASUREMENT. -/
def execCmdGetMeasurement (mb : MailboxId) (s : State) : Done :=
  s.shentiha mb 0x15 false (words 1) fun q ws s =>
    if 96 ≤ arg ws 1 then s.answer q 0x1003 [] else s.answer q 0 (wordsOf (padTo (s.pv (arg ws 1)).meas 113))
/-- The signer of a bundle at the next cold start, with the slots of the mask revoked (R53, R103). -/
def State.signerNext (s : State) (mask : Nat) (h : List Byte) : Bool :=
  let b := cSigBlock h
  let lc := s.lcCurrent
  if lc = 1 then decide (cSigner h = 0xFE) && decide (keyDigest b = padTo Config.vendorRoot 48)
  else if lc = 2 ∨ lc = 3 then decide (cSigner h < 4) && s.kdLive (cSigner h) && !bitOf mask (cSigner h)
    && decide (keyDigest b = kdDigest s.fuses.current (cSigner h))
  else if lc = 4 then decide (cSigner h = 0xFE) && decide (keyDigest b = padTo Config.returnRoot 48)
  else false
/-- A bundle slot verifies in full at the next cold start, MC1 CURRENT being the floor (R103). -/
def State.bundleNext (s : State) (mask : Nat) (x : Slot) : Bool :=
  let h := s.bundleHeader x
  let b := cSigBlock h
  bundleFormOk h && keyBlockOk (cScheme h) b && s.signerNext mask h && decide (mcCount s.fuses.current 1 ≤ bundleVersion h)
    && decide (s.partDigests x h = (List.range 3).map (partDigest h)) && sigVerifies (cScheme h) (cDigest h) b
/-- DEVICE of the pre-check: no slot would be valid; two that conflict are none (R52, R103). -/
def State.deviceStranded (s : State) (mask : Nat) : Bool :=
  let a := s.bundleNext mask .a
  let b := s.bundleNext mask .b
  (a && b && headsConflict (s.bundleHeader .a) (s.bundleHeader .b)) || (!a && !b)
/-- The pre-check's answer: STRAND, UNKNOWN, SHELF, POLICY, DEVICE (R103). -/
def State.precheck (s : State) (mask : Nat) : List W32 :=
  let strand := allPorts.filter fun p =>
    let v := s.pv p
    decide (v.verdict.toNat = vGood ∨ v.verdict.toNat = vConflict) && decide (v.chosen ≠ 0) && bitOf mask v.signer.toNat
  let unknown := allPorts.filter fun p =>
    let n := (s.pv p).verdict.toNat
    decide (n = vPending ∨ n = vBad ∨ n = vAbsent)
  let shelf := s.wake.shelf.decided && decide (s.wake.shelf.signer ≠ 0) && bitOf mask s.wake.shelf.signer.toNat
  let policy := match s.wake.policy with | some p => bitOf mask p.signer.toNat | none => false
  portMask strand ++ portMask unknown ++ [BitVec.ofNat 32 (at_ shelf 0 + at_ policy 1 + at_ (s.deviceStranded mask) 2)]
/-- REVOCATION_PRECHECK (R103, R104). -/
def execCmdRevocationPrecheck (mb : MailboxId) (s : State) : Done :=
  s.shentiha mb 0x16 false (words 1) fun q ws s =>
    if 65536 ≤ arg ws 1 then s.answer q 0x1003 []
    else
      let r := s.precheck (arg ws 1)
      ({ s with wake := { s.wake with prechecks := s.wake.prechecks ++ [BitVec.ofNat 16 (arg ws 1)] } } : State).answer q 0 r
/-- A hold latch may clear: no alarm that set it is ACTIVE (R96). -/
def State.mayClear (s : State) (p : Nat) : Bool :=
  (s.ph p).latch && !((s.ph p).latchBy.any fun n => s.alarms.active.any fun a => decide (a.seq = n))
/-- CLEAR_HOLD (R96). A stand whose gate is closed refuses it for its ports: STAND_CLOSED where that leaves nothing done
(R38; log 31). -/
def execCmdClearHold (mb : MailboxId) (s : State) : Done :=
  s.shentiha mb 0x17 true (words 3) fun q ws s =>
    let l := maskPorts ws
    let shut := fun (p : Nat) => !(s.st (standOf p)).gate
    let done := l.filter fun p => s.mayClear p && !shut p
    let kept := l.any fun p => (s.ph p).latch && (!s.mayClear p || shut p)
    let s := s.each (((l.filter shut).map standOf).eraseDups) State.standRefuses
    let s := s.each done fun s p => s.phU p fun h => { h with latch := false, latchBy := [] }
    if done = [] ∧ l.any shut then s.answer q standClosed.toNat [] else s.answer q kept.toNat (portMask done)
/-- PORT_STATUS (R468, R484). -/
def execCmdPortStatus (mb : MailboxId) (s : State) : Done :=
  s.shentiha mb 0x18 true (words 1) fun q ws s =>
    let p := arg ws 1
    if 96 ≤ p then s.answer q 0x1003 []
    else s.answer q 0 ([s.verdictWord p, s.filterWord p, s.serveWordOf p, s.channelWord (chanKey .port p),
      s.channelWord (chanKey .flash p)] ++ (List.range 21).map fun i => s.portCounter p i)
/-- HOME_ERASE (R468, R469). -/
def execCmdHomeErase (mb : MailboxId) (s : State) : Done :=
  s.shentiha mb 0x19 false (words 2) fun q ws s =>
    let a := arg ws 1
    if a % 65536 ≠ 0 ∨ a < 0x02020000 ∨ 0x02E00000 < a then s.answer q 0x1003 []
    else if !confirmed ws 2 then s.answer q 0x1008 []
    else (s.coreErase a 65536).answer q 0 []
/-- HOME_WRITE (R468, R469). -/
def execCmdHomeWrite (mb : MailboxId) (ok : Bool) (s : State) : Done :=
  s.shentiha mb 0x1A false (wordsIn 2 254) fun q ws s =>
    let a := arg ws 1
    if a % 4 ≠ 0 ∨ a < 0x02020000 ∨ 0x02E10000 < a + 4 * (ws.length - 1) then s.answer q 0x1003 []
    else s.homeProgram q a 2 ws ok

end Sys2Proof.Machine
end

