-- ==== Sys2Proof/Machine/CommandsLog.lean ====
section
/-! DEFINITION. The commands of alarms, evidence log, keys and identity (17 R470; 11 R328 to R349; 13 R372, R376, R391). -/

namespace Sys2Proof.Machine

open Sys2Proof

/-! ### Alarms (R376, R378, R470) -/

/-- The four words of an ACTIVE alarm. -/
def alarmWords (a : Alarm) : List W32 :=
  [BitVec.ofNat 32 a.seq, BitVec.ofNat 32 (a.code % 2 ^ 16 * 2 ^ 16 + a.rank % 8 * 2 ^ 12 + a.tkind % 4 * 2 ^ 8 + a.target % 256),
    a.coinc, a.data]
/-- ALARM_LIST. -/
def execCmdAlarmList (mb : MailboxId) (s : State) : Done :=
  s.shentiha mb 0x20 true (words 1) fun q ws s =>
    s.answer q 0 (((s.alarms.active.filter fun a => decide (arg ws 1 ≤ a.seq)).take 16).flatMap alarmWords)
/-- ALARM_ACK: alarms that this ends are no longer ACTIVE (R376). -/
def execCmdAlarmAck (mb : MailboxId) (s : State) : Done :=
  s.shentiha mb 0x21 true (wordsIn 1 255) fun q ws s =>
    let n := arg ws 1
    let seqs := (ws.drop 1).map (·.toNat)
    if n = 0 ∨ 64 < n then s.answer q 0x1003 []
    else if ws.length ≠ 1 + n then s.answer q 0x1002 []
    else
      let new := s.alarms.active.filter fun a => !a.acked && seqs.contains a.seq
      let act := s.alarms.active.map fun a => if seqs.contains a.seq then { a with acked := true } else a
      ({ s with alarms := ({ s.alarms with active := act } : Alarms).settle } : State).answer q 0 [BitVec.ofNat 32 new.length]
/-- The rank that a write of a rank register stores; none where it is refused (R372, R373). -/
def rankStored (code rank : Nat) : Option Nat :=
  if romRank code = none ∨ rank = 7 then none
  else if backupSource code ∧ rank ≠ 0 ∧ rank ≠ 5 ∧ rank ≠ 6 then none
  else some (max rank (floorRank code))
/-- ALARM_RANK. -/
def execCmdAlarmRank (mb : MailboxId) (s : State) : Done :=
  s.shentiha mb 0x22 false (words 1) fun q ws s =>
    let code := arg ws 1 % 65536
    if 2 ^ 19 ≤ arg ws 1 then s.answer q 0x1003 []
    else match rankStored code (arg ws 1 / 65536) with
    | none => s.answer q 0x1003 []
    | some r =>
      let s : State := if backupSource code
        then { s with backup := { s.backup with brank := Tab.put 0 s.backup.brank code (r + 1) } }
        else { s with alarms := { s.alarms with ranks := Tab.put 0 s.alarms.ranks code (r + 1) } }
      s.answer q 0 [BitVec.ofNat 32 r]

/-! ### Evidence log (R388 to R391, R470) -/

/-- LOG_STATUS. -/
def execCmdLogStatus (mb : MailboxId) (s : State) : Done :=
  s.shentiha mb 0x28 false (words 0) fun q _ s =>
    s.answer q 0 ([s.logWord] ++ wordsOf (leBytes (s.log.seq - 1) 8) ++ wordsOf (padTo s.log.chain 48) ++ [s.counterWord 3])
/-- LOG_READ. -/
def execCmdLogRead (mb : MailboxId) (s : State) : Done :=
  s.shentiha mb 0x29 false (words 2) fun q ws s =>
    let a := arg ws 1
    let n := arg ws 2
    if a % 16 ≠ 0 ∨ n = 0 ∨ 252 < n ∨ 2 ^ 24 < a + 4 * n then s.answer q 0x1003 []
    else s.answer q 0 (wordsOf (s.homeGet (logBase + a) (4 * n)))
/-- LOG_OWNER: the entry is appended before the answer. -/
def execCmdLogOwner (mb : MailboxId) (s : State) : Done :=
  s.shentiha mb 0x2A false (wordsIn 1 255) fun q ws s =>
    let n := arg ws 1
    if n < 16 ∨ 256 < n ∨ n % 16 ≠ 0 then s.answer q 0x1003 []
    else if ws.length ≠ 1 + n / 4 then s.answer q 0x1002 []
    else match (if s.secondServes then s.logRoom else none) with
    | none => s.answer q 0x2801 []
    | some s => (s.logPut 0x40 (bytesOf (ws.drop 1))).answer q 0 (wordsOf (leBytes s.log.seq 8))
/-- The log is started afresh: the region is erased, a CARRY with RESTART and a zero PREV_HEAD opens segment 0 (R391). -/
def State.logRestart (s : State) : State :=
  let s := s.homeErase logBase 0x1000000
  let s : State := { s with log := { s.log with state := .running, carried := false, seq := 0, chain := [], retires := [] } }
  s.logCarry 0 [] s.mc3 1
/-- The authorisation of a LOG_RESTART has been verified. -/
def State.logRestarted (s : State) (q : Nat) (ok : Bool) : State :=
  if !ok then s.answer q 0x1007 []
  else if s.log.state ≠ .stopped then s.answer q 0x1004 []
  else s.logRestart.answer q 0 []
/-- LOG_RESTART. -/
def execCmdLogRestart (mb : MailboxId) (s : State) : Done :=
  s.shentiha mb 0x2B false (words 0) fun q _ s =>
    s.consume q 3 fun o s =>
      if s.log.state ≠ .stopped then s.answer q 0x1004 []
      else if !s.authOk o 6 0 then s.answer q 0x1007 []
      else s.callVerify q 0x2B [] o (fun u => authJob u o) fun ok s => s.logRestarted q ok

/-! ### Keys (R328 to R349, R470) -/

/-- The key-unit function of a command has ended: its RESULT is the status, its words follow when it is OK (R467). -/
def State.keyAnswer (s : State) (q : Nat) (ws : List W32) : State :=
  s.answer q s.keys.result.toNat (if s.keys.result = 0 then ws else [])
/-- The agent that Shentiha's key functions come from. -/
def State.keyAgent (s : State) : Agent := s.leadAgent.getD .canopyA
/-- A key function that Shentiha issues for a command. -/
def State.keyIssue (s : State) : KeyIssue := { agent := s.keyAgent }
/-- An ATTR word names only its fields (R468). -/
def attrArgOk (w : W32) : Bool := decide (w &&& ~~~ 0x6CFC6000 = 0)
/-- A slot of a command argument. -/
def slotArg (n : Nat) : KeySlotId := Fin.ofNat 64 n
/-- KEYIN takes key words. -/
def State.keyinSet (s : State) (ws : List W32) : State :=
  { s with keys := { s.keys with keyin := (List.range 16).map fun i => ws.getD i 0 } }

/-- KEY_WRITE. -/
def execCmdKeyWrite (mb : MailboxId) (s : State) : Done :=
  s.shentiha mb 0x30 false (words 18) fun q ws s =>
    if 64 ≤ arg ws 1 ∨ !attrArgOk (ws.getD 1 0) then s.answer q 0x1003 []
    else
      let s := s.keyinSet (ws.drop 2)
      (after (execKeyUnitWrite s.keyIssue (slotArg (arg ws 1)) (ws.getD 1 0) s) s).keyAnswer q []
/-- KEY_GENERATE. -/
def execCmdKeyGenerate (mb : MailboxId) (s : State) : Done :=
  s.shentiha mb 0x31 false (words 2) fun q ws s =>
    let w := arg ws 1
    if 1024 ≤ w ∨ bitsOf w 7 6 ≠ 0 ∨ !attrArgOk (ws.getD 1 0) then s.answer q 0x1003 []
    else (after (execKeyUnitGenerate s.keyIssue (slotArg w) (BitVec.ofNat 2 (bitsOf w 9 8)) (ws.getD 1 0) s) s).keyAnswer q []
/-- KEY_DERIVE: label and context bytes beyond their counts are unnamed and zero. -/
def execCmdKeyDerive (mb : MailboxId) (s : State) : Done :=
  s.shentiha mb 0x32 false (words 35) fun q ws s =>
    let w := arg ws 1
    let n := arg ws 3
    let l := n % 256
    let c := n / 256
    let label := bytesOf ((ws.drop 3).take 8)
    let context := bytesOf ((ws.drop 11).take 24)
    if 2 ^ 18 ≤ w ∨ bitsOf w 7 6 ≠ 0 ∨ bitsOf w 15 14 ≠ 0 ∨ 65536 ≤ n ∨ !attrArgOk (ws.getD 1 0) ∨ !zeros label l 32 ∨ !zeros context c 96
    then s.answer q 0x1003 []
    else
      let label := if l ≤ 32 then label.take l else List.replicate l 0
      let context := if c ≤ 96 then context.take c else List.replicate c 0
      (after (execKeyUnitDerive s.keyIssue (slotArg w) (BitVec.ofNat 6 (bitsOf w 13 8)) (BitVec.ofNat 2 (bitsOf w 17 16)) (ws.getD 1 0)
        label context s) s).keyAnswer q []
/-- KEY_SETATTR. -/
def execCmdKeySetattr (mb : MailboxId) (s : State) : Done :=
  s.shentiha mb 0x33 false (words 2) fun q ws s =>
    if 64 ≤ arg ws 1 ∨ !attrArgOk (ws.getD 1 0) then s.answer q 0x1003 []
    else (after (execKeyUnitSetattr s.keyIssue (slotArg (arg ws 1)) (ws.getD 1 0) s) s).keyAnswer q []
/-- KEY_READ: firmware's read of KEYOUT word 15 clears KEYOUT (R333). -/
def execCmdKeyRead (mb : MailboxId) (s : State) : Done :=
  s.shentiha mb 0x34 false (words 1) fun q ws s =>
    if 64 ≤ arg ws 1 then s.answer q 0x1003 []
    else
      let s := after (execKeyUnitRead s.keyIssue (slotArg (arg ws 1)) s) s
      let k := s.keys.keyout
      let s : State := if s.keys.result = 0 then { s with keys := { s.keys with keyout := [] } } else s
      s.keyAnswer q k
/-- KEY_CLEAR. -/
def execCmdKeyClear (mb : MailboxId) (s : State) : Done :=
  s.shentiha mb 0x35 false (words 1) fun q ws s =>
    if 64 ≤ arg ws 1 then s.answer q 0x1003 []
    else (after (execKeyUnitClear s.keyIssue (slotArg (arg ws 1)) s) s).keyAnswer q []
/-- KEY_INFO. -/
def execCmdKeyInfo (mb : MailboxId) (s : State) : Done :=
  s.shentiha mb 0x36 false (words 1) fun q ws s =>
    if 64 ≤ arg ws 1 then s.answer q 0x1003 []
    else
      let k := s.ks (arg ws 1)
      s.answer q 0 (k.attr :: wordsOf (leBytes k.instn.toNat 8))
/-- The answer of a KEY_PROVENANCE whose body is `body`, while that command is still in progress (R476). -/
def State.provAnswer (s : State) (q : Nat) (body : List Byte) (status : Nat) (ws : List W32) : State :=
  if (s.mb q).call.map (fun c => (c.code, c.obj)) = some (0x37, body.take 0x60) then s.answer q status ws else s
/-- PUBKEY is known: the statement goes to an engine for its signature under KS3 (R349). -/
def State.provSign (s : State) (q : Nat) (body pub : List Byte) : State :=
  s.taskAsk (.provSign q (padTo (padTo body 0x60 ++ padTo pub 96) 256))
/-- KEY_PROVENANCE (R349, R422): the key unit's body, EC_PUBGEN of a P-256 or P-384 key, the signature under KS3; STATE while KS3
cannot be read, INTERNAL without an engine. -/
def execCmdKeyProvenance (mb : MailboxId) (s : State) : Done :=
  s.shentiha mb 0x37 false (words 9) fun q ws s =>
    let n := arg ws 1
    if 64 ≤ n then s.answer q 0x1003 []
    else
      let s := after (execKeyUnitProvenance s.keyIssue (slotArg n) (bytesOf (ws.drop 1)) s) s
      if s.keys.result ≠ 0 then s.keyAnswer q []
      else if !s.engineMayRead 3 0 then s.answer q 0x1004 []
      else if !s.engineLeft then s.answer q 0x5001 []
      else
        let body := padTo s.keys.provOut 0x60
        let s := s.mbU q fun b => { b with call := some { code := 0x37, obj := body } }
        let klen := bitsOf (s.ks n).attr.toNat 14 13
        if klen = 1 ∨ klen = 2 then s.taskAsk (.provPub q n body) else s.provSign q body []
/-- ROOT_GENERATE of Shentiha has run, with its authorisation where it needs one (R341). -/
def State.rootGenerated (s : State) (q : Nat) (ok : Bool) : State :=
  if !ok then s.answer q 0x1007 []
  else
    let s := s.rootGenerate s.keyIssue true
    s.keyAnswer q (wordsOf s.rootId)
/-- ROOT_GENERATE: in DEPLOYED it consumes its authorisation (R341, R466). -/
def execCmdRootGenerate (mb : MailboxId) (s : State) : Done :=
  s.shentiha mb 0x38 false (words 0) fun q _ s =>
    if s.lcCurrent = 3 then
      s.consume q 3 fun o s =>
        if !s.authOk o 1 0 then s.answer q 0x1007 []
        else s.callVerify q 0x38 [] o (fun u => authJob u o) fun ok s => s.rootGenerated q ok
    else s.rootGenerated q true
/-- IDENTITY. -/
def execCmdIdentity (mb : MailboxId) (s : State) : Done :=
  s.shentiha mb 0x39 false (wordsIn 1 2) fun q ws s =>
    let off := arg ws 2
    let cert := wordsOf s.keys.cert
    match arg ws 1 with
    | 0 => if off ≠ 0 then s.answer q 0x1003 [] else s.answer q 0 (wordsOf (padTo s.keys.devid 96))
    | 1 => if cert.length < off then s.answer q 0x1003 [] else s.answer q 0 ((cert.drop off).take 252)
    | 2 => if off ≠ 0 then s.answer q 0x1003 [] else s.answer q 0 (s.rootWord :: wordsOf s.rootId)
    | _ => s.answer q 0x1003 []

end Sys2Proof.Machine
end

