-- ==== Sys2Proof/Machine/CommandsFuse.lean ====
section
/-! DEFINITION. The commands of fuses, counters and life cycle (17 R470 to R472, 12 R356 to R371, 11 R346). -/

namespace Sys2Proof.Machine

open Sys2Proof

/-- The controller's answer of a function goes to this command (R471). -/
def State.fuseFor (s : State) (q code : Nat) : State :=
  { s with fuses := { s.fuses with client := some { mb := q, tag := (s.mb q).tag.getD 0, cmd := BitVec.ofNat 8 code } } }
/-- One function of the controller for a command; BUSY unless the controller is IDLE (R471). -/
def State.fuseCmd (s : State) (q code : Nat) (src : Agent) (fn unit a : Nat) : State :=
  if s.fuses.state ≠ .idle then s.answer q 0x2001 [] else (s.fuseFor q code).fuseDo src fn unit a
/-- The verdict unit posts a grant (R362). -/
def State.grantFuse (s : State) (fn unit : Nat) : State :=
  { s with fuses := { s.fuses with grant := some (BitVec.ofNat 4 fn, BitVec.ofNat 8 unit) } }
/-- BURN and LOCK on KD0 to KD3 in DEPLOYED need an authorisation (R362). -/
def State.kdNeedsAuth (s : State) (unit : Nat) : Bool := decide (s.lcLatched = 3 ∧ 0x20 ≤ unit ∧ unit ≤ 0x23)

/-- The function of FUSE_BURN, FUSE_LOCK or LC_ADVANCE, with its IMAGE; BUSY unless the controller is IDLE (R363, R471, R472). -/
def State.fuseRun (s : State) (q code : Nat) (ws : List W32) : State :=
  let u := arg ws 1
  if code = 0x40 then
    let s : State := if s.fuses.state = .idle then { s with fuses := { s.fuses with image := (ws.drop 1).take 16 } } else s
    s.fuseCmd q 0x40 s.keyAgent 1 u 0
  else if code = 0x41 then s.fuseCmd q 0x41 s.keyAgent 2 u 0
  else s.fuseCmd q 0x47 s.keyAgent 3 0 u
/-- The authorisation of a fuse command has been verified: the verdict unit posts the grant, and the function runs (R362, R466). -/
def State.fuseVerified (s : State) (q : Nat) (ok : Bool) : State :=
  let code := ((s.mb q).call.map (·.code)).getD 0
  let ws := s.callArgs q
  let s := s.callTaken q
  if !ok then s.answer q 0x1007 []
  else if s.fuses.state ≠ .idle then s.answer q 0x2001 []
  else (s.grantFuse (if code = 0x40 then 1 else if code = 0x41 then 2 else 3) (arg ws 1)).fuseRun q code ws
/-- A function that an owner authorisation opens: the object, then BUSY, the authorisation, whose signature goes to an engine (R394,
R466, R471). -/
def State.fuseAuthorised (s : State) (q fn a code : Nat) (ws : List W32) : State :=
  s.consume q 3 fun o s =>
    if s.fuses.state ≠ .idle then s.answer q 0x2001 []
    else if !s.authOk o fn a then s.answer q 0x1007 []
    else s.callVerify q code ws o (fun u => authJob u o) fun ok s => s.fuseVerified q ok

/-- FUSE_BURN: IMAGE is laid over the unit (R363, R472); TRIM is never issued (R471). -/
def execCmdFuseBurn (mb : MailboxId) (s : State) : Done :=
  s.shentiha mb 0x40 false (words 18) fun q ws s =>
    let u := arg ws 1
    if 256 ≤ u then s.answer q 0x1003 []
    else if !confirmed ws 18 then s.answer q 0x1008 []
    else if u = 0x31 then s.answer q 0x1004 []
    else if s.kdNeedsAuth u then s.fuseAuthorised q 5 (u + 256) 0x40 ws else s.fuseRun q 0x40 ws
/-- FUSE_LOCK. -/
def execCmdFuseLock (mb : MailboxId) (s : State) : Done :=
  s.shentiha mb 0x41 false (words 2) fun q ws s =>
    let u := arg ws 1
    if 256 ≤ u then s.answer q 0x1003 []
    else if !confirmed ws 2 then s.answer q 0x1008 []
    else if s.kdNeedsAuth u then s.fuseAuthorised q 5 (u + 512) 0x41 ws else s.fuseRun q 0x41 ws
/-- FUSE_ADVANCE: MC3 by SECOND (R357). -/
def execCmdFuseAdvance (mb : MailboxId) (s : State) : Done :=
  s.shentiha mb 0x42 false (words 2) fun q ws s =>
    let w := arg ws 1
    let u := w % 256
    if 2 ^ 17 ≤ w then s.answer q 0x1003 []
    else if !confirmed ws 2 then s.answer q 0x1008 []
    else s.fuseCmd q 0x42 (if u = 0x13 then s.secondAgent.getD s.keyAgent else s.keyAgent) 3 u (w / 256)
/-- FUSE_REVOKE: only after a pre-check of the current epoch whose mask holds the slot (R104, R471). -/
def execCmdFuseRevoke (mb : MailboxId) (s : State) : Done :=
  s.shentiha mb 0x43 false (words 2) fun q ws s =>
    let u := arg ws 1
    if u < 0x20 ∨ 0x2F < u then s.answer q 0x1003 []
    else if !confirmed ws 2 then s.answer q 0x1008 []
    else if !(s.wake.prechecks.any fun m => bitOf m.toNat (u - 0x20)) then s.answer q 0x1009 []
    else s.fuseCmd q 0x43 s.keyAgent 4 u 0
/-- Unit that holds the bit of a weak-map entry; 0 where it lies in none. -/
def State.weakUnit (s : State) (i : Nat) : Nat := ((otpUnitAt (weakAddr (s.fuses.weakMap.getD i 0))).map (·.code)).getD 0
/-- FUSE_REBURN. -/
def execCmdFuseReburn (mb : MailboxId) (s : State) : Done :=
  s.shentiha mb 0x44 false (words 2) fun q ws s =>
    let i := arg ws 1
    if 128 ≤ i then s.answer q 0x1003 []
    else if !confirmed ws 2 then s.answer q 0x1008 []
    else s.fuseCmd q 0x44 s.keyAgent 5 (s.weakUnit i) i
/-- FUSE_RESENSE: the answer comes when the re-sense ends (R370). -/
def execCmdFuseResense (mb : MailboxId) (s : State) : Done :=
  s.shentiha mb 0x45 false (words 0) fun q _ s =>
    if s.fuses.state ≠ .idle then s.answer q 0x2001 [] else (s.fuseFor q 0x45).resenseDue 0x00600000
/-- FUSE_READ. -/
def execCmdFuseRead (mb : MailboxId) (s : State) : Done :=
  s.shentiha mb 0x46 false (wordsIn 1 2) fun q ws s =>
    let i := arg ws 2
    match arg ws 1 with
    | 0 => if i ≠ 0 then s.answer q 0x1003 [] else s.answer q 0 (s.counterWord 8 :: (List.range 8).map fun n => s.counterWord n)
    | 1 => if i ≠ 0 then s.answer q 0x1003 [] else s.answer q 0 [kdWord s.fuses.latched, kdWord s.fuses.current]
    | 2 => if 128 ≤ i then s.answer q 0x1003 [] else s.answer q 0 ((s.fuses.weakMap.drop i).take 128)
    | 3 => if 16 ≤ i then s.answer q 0x1003 [] else s.answer q 0 (wordsOf (padTo (kdDigest s.fuses.latched i) 48))
    | _ => s.answer q 0x1003 []
/-- LC_ADVANCE: the steps that R346 authorises consume an authorisation, posted as a grant (log 36). -/
def execCmdLcAdvance (mb : MailboxId) (s : State) : Done :=
  s.shentiha mb 0x47 false (words 2) fun q ws s =>
    let t := arg ws 1
    if t < 2 ∨ 5 < t then s.answer q 0x1003 []
    else if !confirmed ws 2 then s.answer q 0x1008 []
    else if 3 ≤ t then s.fuseAuthorised q (t - 1) t 0x47 ws else s.fuseRun q 0x47 ws

end Sys2Proof.Machine
end

