-- ==== Sys2Proof/Machine/CommandsCore.lean ====
section
/-! DEFINITION. The commands of continuity and bundles, the seed ROM services and the codes outside the command set (17
R473, R474; 15 R416, R420, R421; 02 R51, R55, R66). -/

namespace Sys2Proof.Machine

open Sys2Proof

/-! ### Continuity and bundles -/

/-- HANDOVER_PREPARE (R420). -/
def execCmdHandoverPrepare (mb : MailboxId) (s : State) : Done :=
  s.shentiha mb 0x68 false (words 1) fun q ws s =>
    let x : Slot := if arg ws 1 = 1 then .b else .a
    if 2 ≤ arg ws 1 then s.answer q 0x1003 []
    else if s.verdictBusy ∨ s.hand.state ≠ .idle then s.answer q 0x2901 []
    else if x = s.hand.running then s.answer q 0x1004 []
    else if !s.newBundleOk x then s.answer q 0x3E01 []
    else s.handoverCheck q x
/-- HANDOVER_STATUS (R423). -/
def execCmdHandoverStatus (mb : MailboxId) (s : State) : Done :=
  s.shentiha mb 0x69 true (words 0) fun q _ s => s.answer q 0 [s.handoverWord]
/-- The channel that W1 names. -/
def channelArg (ws : List W32) : Option (ChannelKind × Nat) :=
  let w := arg ws 1
  if 65536 ≤ w then none
  else match kindOf (w / 256) with
    | some k => if w % 256 < chanSize k then some (k, w % 256) else none
    | none => none
/-- A reinstated channel returns (R416): its bucket restarts, then each kind as the rule says. -/
def State.reinstated (s : State) (k : ChannelKind) (i : Nat) : State :=
  let back := fun (s : State) => s.chU (chanKey k i) fun c => { c with state := .inService, bucket := 0, try_ := 0 }
  match k with
  | .engine => (back s).enU i fun e => { e with state := .idle }
  | .link => (back s).lnU i fun l => { l with st := .down }
  | .port => ((back s).holdPort i).phU i fun h => { h with token := none }
  | .flash => (((back s).holdPort i).phU i fun h => { h with token := none, handback := false }).pgU i fun g => { g with flashRetired := false }
  | .sequencer =>
    if (sheafPorts i).all fun p => s.heldNow p then
      let t := (back s).shU i fun h => { h with refused := false }
      after (execScheduleContainerLoad (Fin.ofNat 12 i) t) t
    else s.chU (chanKey k i) fun c => { c with bucket := 0 }
  | _ => back s
/-- REINSTATE: three probes in succession must pass; the RETIRE entry carries REINSTATE (R413, R416, R425). -/
def execCmdReinstate (mb : MailboxId) (probes : BitVec 3) (s : State) : Done :=
  s.shentiha mb 0x6A false (words 1) fun q ws s =>
    match channelArg ws with
    | none => s.answer q 0x1003 []
    | some (k, i) =>
      let st := (s.ch (chanKey k i)).state
      if k = .lane ∨ k = .home then s.answer q 0x1003 []
      else if st = .probing then s.answer q 0x2901 []
      else if st ≠ .retired ∨ probes ≠ 7 then s.answer q 0x1004 []
      else
        let body := s.retireBody 2 k i 0 0
        let s := (s.reinstated k i).logRec 0x31 body
        s.answer q 0 [s.channelWord (chanKey k i)]
/-- CHANNEL_STATUS (R411). -/
def execCmdChannelStatus (mb : MailboxId) (s : State) : Done :=
  s.shentiha mb 0x6B false (words 1) fun q ws s =>
    match channelArg ws with
    | none => s.answer q 0x1003 []
    | some (k, i) => s.answer q 0 [s.channelWord (chanKey k i)]
/-- An erase of a bundle slot; `guard_` refuses a slot with a status. -/
def State.slotErase (s : State) (q : Nat) (ws : List W32) (guard_ : Slot → Nat) : State :=
  let x : Slot := if arg ws 1 = 1 then .b else .a
  if 2 ≤ arg ws 1 then s.answer q 0x1003 []
  else if !confirmed ws 2 then s.answer q 0x1008 []
  else if guard_ x ≠ 0 then s.answer q (guard_ x) []
  else (s.coreErase (slotBase x) 0x01000000).answer q 0 []
/-- A write into a bundle slot. -/
def State.slotWrite (s : State) (q : Nat) (ws : List W32) (ok : Bool) (guard_ : Slot → Nat) : State :=
  let x : Slot := if arg ws 1 = 1 then .b else .a
  let off := arg ws 2
  if 2 ≤ arg ws 1 ∨ off % 4 ≠ 0 ∨ 0x01000000 < off + 4 * (ws.length - 2) then s.answer q 0x1003 []
  else if guard_ x ≠ 0 then s.answer q (guard_ x) []
  else s.homeProgram q (slotBase x + off) 3 ws ok
/-- The running slot is refused with STATE (R421). -/
def State.runningGuard (s : State) (x : Slot) : Nat := if x = s.hand.running then 0x1004 else 0
/-- BUNDLE_ERASE. -/
def execCmdBundleErase (mb : MailboxId) (s : State) : Done :=
  s.shentiha mb 0x70 false (words 2) fun q ws s => s.slotErase q ws s.runningGuard
/-- BUNDLE_WRITE. -/
def execCmdBundleWrite (mb : MailboxId) (ok : Bool) (s : State) : Done :=
  s.shentiha mb 0x71 false (wordsIn 3 255) fun q ws s => s.slotWrite q ws ok s.runningGuard

/-! ### Seed ROM services -/

/-- REPAIR_LIST (R51). -/
def execCmdRepairList (mb : MailboxId) (s : State) : Done :=
  s.command mb 0xE0 [.sealed] true (words 1) fun q ws s =>
    if 128 ≤ arg ws 1 then s.answer q 0x1003 []
    else if s.lcLatched = 5 then s.answer q 0x1004 []
    else s.answer q 0 ([BitVec.ofNat 32 (maskOf ((List.range 5).filter fun g => s.boot.failing.any fun e => decide (e.1 = g))),
      BitVec.ofNat 32 s.fuses.weakCount] ++ (s.fuses.weakMap.drop (arg ws 1)).take 128)
/-- REPAIR_REBURN (R51). -/
def execCmdRepairReburn (mb : MailboxId) (s : State) : Done :=
  s.command mb 0xE1 [.sealed] true (words 2) fun q ws s =>
    if 128 ≤ arg ws 1 then s.answer q 0x1003 []
    else if !confirmed ws 2 then s.answer q 0x1008 []
    else if s.lcLatched = 5 then s.answer q 0x1004 []
    else s.fuseCmd q 0xE1 .seed 5 (s.weakUnit (arg ws 1)) (arg ws 1)
/-- A slot counts as passing under R55; without an engine no bundle verifies (R415). -/
def State.slotPasses (s : State) (x : Slot) : Bool :=
  s.bundleOk x && decide (s.boot.probes ≠ 0) && decide (mcCount s.fuses.latched 1 ≤ bundleVersion (s.bundleHeader x)) && !s.bundleConflict
/-- A passing slot is refused with SLOT_VALID (R55). -/
def State.loadGuard (s : State) (x : Slot) : Nat := if s.slotPasses x then 0x1E01 else 0
/-- LOAD_ERASE. -/
def execCmdLoadErase (mb : MailboxId) (s : State) : Done :=
  s.command mb 0xE8 [.fwless, .headless] true (words 2) fun q ws s => s.slotErase q ws s.loadGuard
/-- LOAD_WRITE. -/
def execCmdLoadWrite (mb : MailboxId) (ok : Bool) (s : State) : Done :=
  s.command mb 0xE9 [.fwless, .headless] true (wordsIn 3 255) fun q ws s => s.slotWrite q ws ok s.loadGuard
/-- The device leaves FWLESS: the bundle is loaded and GOOD, as at the end of START; HEADLESS goes to RIDE, at the start
of the bundle stages (R55, R66, R474). -/
def State.loadGood (s : State) (x : Slot) : State :=
  let s := s.each (List.range 8) fun s q => s.boxEmpty q
  if s.boot.dev = .headless then
    { s with boot := { s.boot with dev := .ride, entryDone := true, step := .headers, cand := none, failedA := false, failedB := false } }
  else
    let h := s.bundleHeader x
    let s := ((s.loadImages x h).tagRegion x (partLen h 2)).deriveDeviceId true
    let s := s.deriveAlias (cDigest h)
    { s with boot := { s.boot with step := .good, cand := some x, head := h, digs := s.partDigests x h, bundle := some (bundleFrom x h) } }
/-- LOAD_COMMIT: no response when GOOD. Its pass draws a lane, a token and its engines' leave, which return with its end
(R54, R394). -/
def execCmdLoadCommit (mb : MailboxId) (s : State) : Done :=
  s.command mb 0xEA [.fwless, .headless] true (words 1) fun q ws s =>
    let x : Slot := if arg ws 1 = 1 then .b else .a
    if 2 ≤ arg ws 1 then s.answer q 0x1003 []
    else match s.seedDraw (s.bundleHeader x) with
      | none => s.answer q 0x3E01 []
      | some t =>
        let t := t.seedReturn (s.bundleHeader x)
        if s.slotPasses x then t.loadGood x else t.answer q 0x3E01 []

/-! ### Codes outside the command set (R468, R474) -/

/-- The bytes of a request. -/
def requestBytes (h : Nat) (ws : List W32) : List Byte := bytesOf (BitVec.ofNat 32 h :: ws)
/-- The bits of a field: those of `n` that are set, from address a on. -/
def fieldBits (a n bits : Nat) : List Nat := ((List.range bits).filter fun i => bitOf n i).map (a + ·)
/-- The bits that BLANK to FACTORY programs: UDS with its completeness word and LOCK, the order code with its own, LC step 0
(R346, R347, R352, R353). -/
def factoryBits (uds : List Byte) (af : Bool) : List Nat :=
  fieldBits 0x200 (leNat uds) 384 ++ fieldBits (0x200 + 384) (crc16 uds) 16 ++ [0x200 + 400]
    ++ fieldBits 8 af.toNat 8 ++ fieldBits 16 (crc16 [BitVec.ofNat 8 af.toNat]) 16 ++ [32, 0]
/-- BLANK to FACTORY (R346, R347): the UDS is drawn and burned with the order code; every copy verifies at its first pulse (log 9). -/
def State.factory (s : State) (af : Bool) : State :=
  let old := s.lcCurrent
  let f := (factoryBits (leBytes (s.drawn 0) 48) af).foldl (fun (f : Fuses) a => f.burnBit a 3) s.fuses
  (({ s with fuses := f } : State).used 1).lcMoved old
/-- VENDOR_PRODUCTION_SERVICE: in BLANK and FACTORY, under the vendor test root; what a signed request asks for is not in the
spec: its answer is a free value, and so is whether it takes a BLANK device to FACTORY (log 9). -/
def execCmdVendorProductionService (mb : MailboxId) (s : State) : Done :=
  let q := mb.val
  match s.request q (fun c => decide (0xF0 ≤ c)) with
  | none => .next s
  | some (h, ws) =>
    let t := s.takeRequest q h ws.length
    .next (if (s.mb q).parity then s.parityBad q h ws.length
      else if 1 < s.lcLatched then t.answer q 0x1001 []
      else if h / 2 ^ 8 % 2 ^ 8 ≠ 0 then t.answer q 0x1003 []
      else match Config.production (hdrCommand h) (requestBytes h ws) with
        | some r =>
          let t := match r.factory with
            | some af => if t.lcLatched = 0 ∧ t.lcCurrent = 0 then t.factory af else t
            | none => t
          t.answer q 0 ((wordsOf r.answer).take 255)
        | none => t.answer q 0x1007 [])
/-- The command codes of R468 and R473. -/
def commandCodes : List Nat :=
  [0x01, 0x02, 0x03, 0x04, 0x05, 0x06, 0x07, 0x10, 0x11, 0x12, 0x13, 0x14, 0x15, 0x16, 0x17, 0x18, 0x19, 0x1A, 0x20, 0x21, 0x22,
   0x28, 0x29, 0x2A, 0x2B, 0x30, 0x31, 0x32, 0x33, 0x34, 0x35, 0x36, 0x37, 0x38, 0x39]
  ++ [0x40, 0x41, 0x42, 0x43, 0x44, 0x45, 0x46, 0x47, 0x50, 0x58, 0x59, 0x5A, 0x60, 0x61, 0x62, 0x68, 0x69, 0x6A, 0x6B, 0x70, 0x71,
   0xE0, 0xE1, 0xE8, 0xE9, 0xEA]
/-- UNKNOWN_COMMAND_CODE (R468). -/
def execUnknownCommandCode (mb : MailboxId) (s : State) : Done :=
  let q := mb.val
  match s.request q (fun c => decide (c < 0xF0) && !commandCodes.contains c) with
  | none => .next s
  | some (h, ws) =>
    .next (if (s.mb q).parity then s.parityBad q h ws.length else (s.takeRequest q h ws.length).answer q 0x1001 [])

end Sys2Proof.Machine
end

