-- ==== Sys2Proof/Machine/CommandsLink.lean ====
section
/-! DEFINITION. The commands of the Granary, of recovery and of the trust link (17 R472, R473; 16 R432, R444 to R448). -/

namespace Sys2Proof.Machine

open Sys2Proof

/-- PAGE_MAP (R243). -/
def execCmdPageMap (mb : MailboxId) (s : State) : Done :=
  s.shentiha mb 0x50 false (words 2) fun q ws s =>
    let a := arg ws 1
    let n := arg ws 2
    if n = 0 ∨ 252 < n ∨ 131072 < a + n then s.answer q 0x1003 []
    else s.answer q 0 ((List.range n).map fun i => s.page (a + i))

/-! ### Recovery (R444 to R448, R473) -/

/-- The arguments of a RECOVER. -/
structure RecoverArg where
  flow : Nat
  port : Nat
  slot : Nat
  page : Nat
  ref  : List Byte
/-- The arguments in W1 to W18. -/
def recoverArg (ws : List W32) : RecoverArg :=
  let w := arg ws 1
  { flow := w % 16, port := bitsOf w 14 8, slot := bitsOf w 17 16, page := arg ws 2, ref := bytesOf (ws.drop 2) }
/-- The fields are in range: a port for the flows of a port, a slot for those that name one, a page for RESTAGE. -/
def recoverArgOk (ws : List W32) : Bool :=
  let a := recoverArg ws
  decide (ws.getD 0 0 &&& ~~~ 0x00037F0F = 0 ∧ 1 ≤ a.flow ∧ a.flow ≤ 5 ∧ a.slot ≤ 2)
    && (decide (a.flow = 5) || decide (a.port < 96)) && (decide (4 ≤ a.flow) || decide (1 ≤ a.slot))
    && (if a.flow = 4 then decide (a.page < 131072) else decide (a.page = 0))
/-- The slot of an argument: 2 is B. -/
def slotOf (n : Nat) : Slot := if n = 2 then .b else .a
/-- The port may be recovered through its flash (R444, R447). -/
def State.mayReprogram (s : State) (a : RecoverArg) : Bool :=
  let v := s.pv a.port
  let good := s.lastGood a.port
  let same := decide (digest48 (s.wakeDigest a.port (slotOf a.slot)) = good ∧ good ≠ [])
  let otherOk := if a.slot = 1 then v.validB else v.validA
  s.heldNow a.port && (s.ph a.port).pg && !(s.pg a.port).flashRetired && !s.chanRetired .flash a.port
    && s.wake.policy.isSome && polUsed s.pol a.port && !polShelf s.pol a.port && (decide (a.flow = 2) || !same || otherOk)
/-- In SHELF mode the slot's entry stands in a shelf manifest that is decided, neither rejected nor of a revoked signer, and it
has a tree (R84, R123). -/
def State.shelfServes (s : State) (a : RecoverArg) : Bool :=
  let h := s.wake.shelf
  let e := entryAt h.bytes (shelfRec a.port + if a.slot = 2 then 0xD0 else 0x10)
  h.decided && !h.rejected && !h.revoked && !h.stale && shelfPresent h.bytes a.port && e.valid && !(e.root.all (· = 0))
/-- The port may take a serve set for the slot that its serve-set context names (R261, R262, R444). -/
def State.mayServe (s : State) (a : RecoverArg) : Bool :=
  s.heldNow a.port && (s.pg a.port).flashRetired && s.wake.policy.isSome && polUsed s.pol a.port
    && (match s.serveCtx a.port with | some i => decide ((byteAt (s.context a.port i) 1).toNat = a.slot) | none => false)
    && (!polShelf s.pol a.port || s.shelfServes a)
/-- Slot that the port's verdict chose. -/
def State.chosenSlot (s : State) (p : Nat) : Slot := slotOf (s.pv p).chosen.toNat
/-- Length and tree root of the chosen slot's image. -/
def State.chosenImage (s : State) (p : Nat) : Nat × List Byte :=
  let v := s.pv p
  if v.chosen = 2 then (v.lenB, v.rootB) else (v.lenA, v.rootA)
/-- The leaves that cover a PIN or SERVE group that has a BAD page; none where the flow cannot restage it (R249, R448). -/
def State.restageLeaves (s : State) (a : RecoverArg) : Option (List Nat) :=
  let g := a.page / 8
  let x := s.chosenSlot a.port
  let img := s.chosenImage a.port
  let base := (s.slotRegion a.port x).1
  let bad := (List.range 8).any fun i => decide (pageUse (s.page (8 * g + i)) = 7)
  if a.page % 8 ≠ 0 ∨ !(decide (s.groupUse g = 2) || decide (s.groupUse g = 3)) ∨ pagePort (s.page a.page) ≠ a.port ∨ !bad
      ∨ (s.pv a.port).chosen = 0 ∨ img.2.all (· = 0) then none
  else match s.groupSource g x with
    | none => none
    | some src =>
      if src < base ∨ base + img.1 ≤ src then none
      else
        let first := (src - base) / 4096
        let last := (min (src - base + 2048) img.1 - 1) / 4096
        some ((List.range (last + 1 - first)).map (· + first))
/-- A flow is recorded as PULLING. -/
def State.flowBegin (s : State) (key : Nat) (a : RecoverArg) (slot : Slot) (step total : Nat) : State :=
  s.flU key fun f => { reason := f.reason, st := .pulling, flow := a.flow, slot := slot, page := a.page, ref := a.ref, stepNo := step, total := total }
/-- STARTED with the XFER of the first transfer. -/
def State.flowStarted (s : State) (q key : Nat) : State := s.answer q 2 [BitVec.ofNat 32 (s.fl key).xfer]
/-- The staging of a serve set begins: a STAGING group for the manifest, whose others are drawn as it arrives, or in SHELF
mode the groups for image and header (R262). -/
def State.serveStage (s : State) (a : RecoverArg) : Option State :=
  let p := a.port
  if polShelf s.pol p then
    let x := slotOf a.slot
    let r := s.slotRegion p x
    (s.stageRange p r.1 (s.flowEntry p).length).bind fun s => s.stageRange p (r.1 + r.2 - 64) 64
  else s.stageRange p (polRegion s.pol p 0).1 1
/-- The lane that would carry a transfer refuses traffic, its RX pool being frozen (R401). The rule names no bearer of the status 0x5801
for a lane; the model answers it to RECOVER (log 69, DESIGN CHOICE). -/
def State.rxRefuses (s : State) : Bool := match s.laneUp with | some l => decide ((s.po (10 + l)).st = .frozen) | none => false
/-- RECOVER: the flow's conditions, its record, its first transfer (R441, R444, R447, R448). -/
def State.recover (s : State) (q : Nat) (a : RecoverArg) : State :=
  let p := a.port
  let key := if a.flow = 5 then 127 else p
  let x := slotOf a.slot
  if (s.fl key).active then s.answer q 0x1004 []
  else if s.rxRefuses then s.answer q 0x5801 []
  else match a.flow with
  | 3 =>
    if !s.mayServe a then s.answer q 0x1701 []
    else
      let shelf := polShelf s.pol p
      let s1 := s.flowBegin p a x shelf.toNat 0
      let s1 := if shelf then s1.flU p fun f => { f with man := s.wake.shelf.bytes } else s1
      match s1.serveStage a with
      | none => s.answer q 0x2601 []
      | some s =>
        let s := s.pgU p fun g => { g with setState := .staging }
        (s.xferStart p { kind := if shelf then 2 else 1, ref := a.ref }).flowStarted q p
  | 4 =>
    match s.restageLeaves a with
    | none => s.answer q 0x1701 []
    | some want =>
      let img := s.chosenImage p
      let s := s.flowBegin p a (s.chosenSlot p) 4 want.length
      (s.xferStart p { kind := 3, ref := a.ref, want := want, len := img.1, root := img.2,
                       base := (s.slotRegion p (s.chosenSlot p)).1 }).flowStarted q p
  | 5 => ((s.flowBegin 127 a .a 0 0).xferStart 127 { kind := 4, ref := a.ref }).flowStarted q 127
  | _ =>
    let s := s.lastGoodCheck p
    if !s.mayReprogram a then s.answer q 0x1701 []
    else ((s.flowBegin p a x 0 0).xferStart p { kind := 1, ref := a.ref }).flowStarted q p
/-- RECOVER. -/
def execCmdRecover (mb : MailboxId) (s : State) : Done :=
  s.shentiha mb 0x58 false (words 18) fun q ws s => if recoverArgOk ws then s.recover q (recoverArg ws) else s.answer q 0x1003 []
/-- A flow's key: a port, or 0x7F for SHELF_MANIFEST. -/
def flowKeyOk (n : Nat) : Bool := decide (n < 96 ∨ n = 127)
/-- STATE of a flow (R472). -/
def FlowSt.code : FlowSt → Nat
  | .idle => 0 | .pulling => 1 | .erasing => 2 | .programming => 3 | .rewaking => 4 | .done => 5 | .failed => 6
/-- STATE of a flow whose transfer may be suspended (R450). -/
def State.flowCode (s : State) (key : Nat) : Nat :=
  let f := s.fl key
  if f.active && s.xferOpen f.xfer && (s.xf f.xfer).susp then 7 else f.st.code
/-- Leaves verified so far (R472). -/
def State.leavesVerified (s : State) (key : Nat) : Nat :=
  let f := s.fl key
  if s.xferOpen f.xfer && decide ((s.xf f.xfer).kind = 3 ∧ (s.xf f.xfer).port = key) then (s.xf f.xfer).ok.length else f.leaves
/-- RECOVER_STATUS. -/
def execCmdRecoverStatus (mb : MailboxId) (s : State) : Done :=
  s.shentiha mb 0x59 false (words 1) fun q ws s =>
    let k := arg ws 1
    if !flowKeyOk k then s.answer q 0x1003 []
    else
      let f := s.fl k
      s.answer q 0 [BitVec.ofNat 32 (f.reason.toNat * 2 ^ 16 + f.flow * 16 + s.flowCode k), BitVec.ofNat 32 (s.leavesVerified k),
        BitVec.ofNat 32 f.total]
/-- RECOVER_CANCEL: a step on the flash ends first (R473). -/
def execCmdRecoverCancel (mb : MailboxId) (s : State) : Done :=
  s.shentiha mb 0x5A true (words 1) fun q ws s =>
    let k := arg ws 1
    if !flowKeyOk k then s.answer q 0x1003 []
    else
      let f := s.fl k
      let s := if f.active ∧ f.stepNo % 2 = 1 ∧ f.stepNo < 10 ∧ (f.st = .erasing ∨ f.st = .programming)
        then s.flU k fun f => { f with cancel := true } else s.flowFail k 1
      s.answer q 0 []

/-! ### Trust link (R430, R432, R436, R449) -/

/-- LINK_PEER. -/
def execCmdLinkPeer (mb : MailboxId) (s : State) : Done :=
  s.shentiha mb 0x60 false (words 3) fun q ws s =>
    let w := arg ws 1
    let role := bitsOf w 9 8
    if ws.getD 0 0 &&& ~~~ 0x00000301 ≠ 0 ∨ role = 0 ∨ role = 3 ∨ 65536 ≤ arg ws 3 then s.answer q 0x1003 []
    else ({ s with link := { s.link with peers := Tab.put [] s.link.peers (2 * role + w % 2) ((bytesOf (ws.drop 1)).take 6) } } : State).answer
      q 0 []
/-- LINK_CAK: KS4 by WRITE, or by DERIVE with the CKN as context; MKA restarts on both lanes (R432). -/
def execCmdLinkCak (mb : MailboxId) (s : State) : Done :=
  s.shentiha mb 0x61 false (fun n => decide (n = 9 ∨ n = 17)) fun q ws s =>
    let w := arg ws 1
    let n := bitsOf w 15 8
    let ckn := bytesOf ((ws.drop 1).take 8)
    if ws.length ≠ (if w % 2 = 0 then 17 else 9) then s.answer q 0x1002 []
    else if ws.getD 0 0 &&& ~~~ 0x0000FF01 ≠ 0 ∨ n = 0 ∨ 32 < n ∨ !zeros ckn n 32 then s.answer q 0x1003 []
    else
      let s :=
        if w % 2 = 0 then
          let s := s.keyinSet (ws.drop 9)
          after (execKeyUnitWrite s.keyIssue 4 0 s) s
        else after (execKeyUnitDerive s.keyIssue 4 0x3F 0 0 (ascii "SV96-CAK") (ckn.take n) s) s
      if s.keys.result ≠ 0 then s.keyAnswer q []
      else
        ({ s with link := { s.link with ckn := ckn.take n } } : State).answer q 0 []
/-- LINK_STATUS. -/
def execCmdLinkStatus (mb : MailboxId) (s : State) : Done :=
  s.shentiha mb 0x62 false (words 0) fun q _ s => s.answer q 0 ([s.linkWord 0, s.linkWord 1] ++ s.laneCounters 0 ++ s.laneCounters 1)

end Sys2Proof.Machine
end

