-- ==== Sys2Proof/Machine/Spdm.lean ====
section
/-! DEFINITION. The SPDM responder (16 R437 to R440). Message forms and transcripts are those of DSP0274 (log 9). -/

namespace Sys2Proof.Machine

open Sys2Proof

/-- SPDM request codes of DSP0274 (PRESUMED, log 9). -/
def spdmCodes : List Nat := [0x81, 0x82, 0x83, 0x84, 0xE0, 0xE1, 0xE3]
/-- RequestResponseCode of a message: its second byte. -/
def spdmCode (m : List Byte) : Nat := (byteAt m 1).toNat

/-- A response is known: it goes out after those before it. -/
def State.spdmReply (s : State) (l x : Nat) (m : List Byte) : State :=
  ({ s with link := { s.link with spdmOut := s.link.spdmOut ++ [{ lane := l, xfer := x, msg := some m }] } } : State).spdmFlush
/-- A signed response is complete. -/
def State.spdmDone (s : State) (l x : Nat) (m : List Byte) : State :=
  let mine := fun (r : SpdmOut) => decide (r.lane = l ∧ r.xfer = x) && r.msg.isNone
  match s.link.spdmOut.findIdx? mine with
  | some i => ({ s with link := { s.link with spdmOut := setAt s.link.spdmOut i { lane := l, xfer := x, msg := some m } } } : State).spdmFlush
  | none => s

/-! ### Message forms of DSP0274 (PRESUMED, log 9) -/

/-- A message header of SPDM 1.2. -/
def spdmHead (code p1 p2 : Nat) : List Byte := leBytes 0x12 1 ++ leBytes code 1 ++ leBytes p1 1 ++ leBytes p2 1
/-- ERROR: 1 InvalidRequest, 3 Busy, 5 Unspecified, 7 UnsupportedRequest with the request's code. -/
def spdmError (code data : Nat) : List Byte := spdmHead 0x7F code data
/-- VERSION: 1.2 alone (R437). -/
def spdmVersion : List Byte := [0x10, 0x04, 0, 0, 0, 1] ++ leBytes 0x1200 2
/-- CAPABILITIES: CERT_CAP, CHAL_CAP, MEAS_CAP with signature, MEAS_FRESH_CAP; messages of 65,536 bytes (R437). -/
def spdmCapabilities : List Byte :=
  spdmHead 0x61 0 0 ++ [0, Config.spdmTiming, 0, 0] ++ leBytes 0x36 4 ++ leBytes 65536 4 ++ leBytes 65536 4
/-- ALGORITHMS: of what the request offers, DMTF measurements as a raw bit stream, ECDSA P-384, SHA-384 (R437). -/
def spdmAlgorithms (m : List Byte) : List Byte :=
  let spec := (byteAt m 6).toNat % 2
  spdmHead 0x63 0 0 ++ leBytes 36 2 ++ leBytes spec 1 ++ [0] ++ leBytes spec 4 ++ leBytes (field m 8 4 &&& 0x80) 4
    ++ leBytes (field m 12 4 &&& 2) 4 ++ leBytes 0 12 ++ [0, 0, 0, 0]
/-- DIGESTS of slot 0. -/
def spdmDigests (chain : List Byte) : List Byte := spdmHead 0x01 0 1 ++ sha384 chain
/-- CERTIFICATE: the portion asked for and what remains; an offset beyond the chain is an invalid request. -/
def spdmCertificate (chain : List Byte) (offset len : Nat) : List Byte :=
  if chain.length ≤ offset then spdmError 1 0
  else
    let part := sub chain offset len
    spdmHead 0x02 0 0 ++ leBytes part.length 2 ++ leBytes (chain.length - offset - part.length) 2 ++ part
/-- The bytes that a responder signs: the prefix and context of SPDM 1.2 and the transcript's digest. -/
def spdmSignedBytes (context : String) (transcript : List Byte) : List Byte :=
  let c := ascii context
  (List.replicate 4 (ascii "dmtf-spdm-v1.2.*")).flatten ++ List.replicate (36 - c.length) 0 ++ c ++ sha384 transcript

/-- A segment joins its request. -/
def SpdmIn.add (r : SpdmIn) (i : Nat) (payload : List Byte) (last : Bool) : SpdmIn :=
  { r with segs := Tab.put [] r.segs i payload, last := if last then some i else r.last }
/-- The bytes of a request whose segments have all arrived. -/
def SpdmIn.whole (r : SpdmIn) : Option (List Byte) :=
  match r.last with
  | some n =>
    let l := (List.range (n + 1)).map fun i => Tab.get [] r.segs i
    if l.all fun b => decide (b ≠ []) then some l.flatten else none
  | none => none
/-- A segment of an SPDM message arrives: INDEX i holds message bytes 1,968 i onward, so all but the last have 1,968 bytes; a
request of the command's codes is answered by `f` once it is whole (R438). -/
def State.spdmSegment (s : State) (l : Nat) (h : TrustHeader) (payload : List Byte) (mine : Nat → Bool)
    (f : State → List Byte → State) : State :=
  let last := bitOf h.flags.toNat 0
  let r := (((s.ln l).spdmIn.find? fun r => decide (r.xfer = h.xfer)).getD { xfer := h.xfer }).add h.index.toNat payload last
  let first := Tab.get [] r.segs 0
  if first ≠ [] ∧ !mine (spdmCode first) then s
  else s.rxTyped 0x10 l h payload (payload = [] || (!last && decide (payload.length ≠ 1968))) fun s =>
    let others := (s.ln l).spdmIn.filter fun q => decide (q.xfer ≠ h.xfer)
    match r.whole with
    | some m => f (s.lnU l fun k => { k with spdmIn := others }) m
    | none => s.lnU l fun k => { k with
        spdmIn := if k.spdmIn.any fun q => decide (q.xfer = h.xfer) then k.spdmIn.map fun q => if q.xfer = h.xfer then r else q
          else k.spdmIn ++ [r] }
/-- A request with its answer extends a transcript, by `note`. -/
def State.spdmAnswer (s : State) (l : Nat) (h : TrustHeader) (payload : List Byte) (code : Nat) (reply : State → List Byte → List Byte)
    (note : LaneLink → List Byte → LaneLink) : State :=
  s.spdmSegment l h payload (fun c => decide (c = code)) fun s m =>
    let r := reply s m
    (s.lnU l fun k => note k (m ++ r)).spdmReply l h.xfer.toNat r

/-- Length of the DER certificate at the head of `bs`, with its header; 0 where none stands there. -/
def derLength (bs : List Byte) : Nat :=
  if byteAt bs 0 ≠ 0x30 then 0
  else
    let n := (byteAt bs 1).toNat
    if n < 128 then 2 + n
    else if 128 < n ∧ n ≤ 132 then 2 + (n - 128) + beNat (sub bs 2 (n - 128))
    else 0
/-- Length of the certificates that stand one after another from the head of `bs`. -/
def derRun : Nat → List Byte → Nat
  | 0, _ => 0
  | fuel + 1, bs =>
    let n := derLength bs
    if n = 0 ∨ bs.length < n then 0 else n + derRun fuel (bs.drop n)
/-- The chain buffer of slot 0: Length, RootHash, the certificates of the home-flash area, the Alias certificate (R439). -/
def State.certChain (s : State) : List Byte :=
  let area := s.homeGet 0x02E00000 65536
  let certs := area.take (derRun 64 area)
  leBytes (52 + certs.length + s.keys.cert.length) 2 ++ [0, 0] ++ sha384 (certs.take (derLength certs)) ++ certs ++ s.keys.cert

/-- The device measurement record (R440). -/
def State.deviceRecord (s : State) : List Byte :=
  let b := s.boot.bundle.getD {}
  let flags := s.hand.stale.toNat + 2 * (decide (s.log.state = .stopped)).toNat + 4 * (decide (s.boot.dev = .headless)).toNat
  padTo b.digest 48 ++ leBytes b.version.toNat 4 ++ leBytes s.lcLatched 1 ++ leBytes s.boot.orderAF.toNat 1
    ++ leBytes s.rootState 1 ++ leBytes flags 1 ++ padTo ((s.wake.policy.map (·.digest)).getD []) 48
    ++ leBytes (polEpoch s.pol) 4 ++ leBytes s.boot.epoch.toNat 4
    ++ ((List.range 8).flatMap fun n => leBytes (mcCount s.fuses.latched n) 2)
/-- A measurement block: raw bit stream of mutable firmware (R440). -/
def measBlock (i : Nat) (v : List Byte) : List Byte :=
  leBytes i 1 ++ leBytes 1 1 ++ leBytes (v.length + 3) 2 ++ leBytes 0x81 1 ++ leBytes v.length 2 ++ v
/-- The measurement blocks of an index: one of 1 to 97, all of them for 0xFF. -/
def State.measBlocks (s : State) (i : Nat) : List Byte :=
  let one := fun j => if j = 97 then measBlock 97 s.deviceRecord else measBlock j (padTo (s.pv (j - 1)).meas 113)
  if i = 0xFF then ((List.range 97).flatMap fun j => one (j + 1)) else if 1 ≤ i ∧ i ≤ 97 then one i else []
/-- A signed response waits in its turn for ECDSA_SIGN under KS3 on an engine that Shentiha draws leave for; ERROR where KS3 holds no
key for it or no engine is left (R330, R417, R439; log 9). -/
def State.spdmSigned (s : State) (l x : Nat) (context : String) (transcript msg : List Byte) : State :=
  if !s.engineMayRead 3 0 || !s.engineLeft then s.spdmReply l x (spdmError 5 0)
  else
    let s : State := { s with link := { s.link with spdmOut := s.link.spdmOut ++ [{ lane := l, xfer := x, msg := none }] } }
    s.taskAsk (.spdmSign l x (sha384 (spdmSignedBytes context transcript)) msg)

/-- CHALLENGE_AUTH without its signature: the chain's digest, the nonce, the summary asked for. -/
def State.spdmChallengeAuth (s : State) (m nonce : List Byte) : List Byte :=
  let blocks := match (byteAt m 3).toNat with
    | 0 => none
    | 0xFF => some (s.measBlocks 0xFF)
    | _ => some (Config.spdmTcbBlocks.flatMap s.measBlocks)
  spdmHead 0x03 0 1 ++ sha384 s.certChain ++ padTo nonce 32 ++ (match blocks with | none => [] | some b => sha384 b) ++ [0, 0]
/-- MEASUREMENTS without its signature: for index 0 the number of blocks alone. -/
def State.spdmMeasurements (s : State) (index : Nat) (nonce : List Byte) : List Byte :=
  let record := s.measBlocks index
  let n := if index = 0 then 0 else if index = 0xFF then 97 else 1
  spdmHead 0x60 (if index = 0 then 97 else 0) 0 ++ leBytes n 1 ++ leBytes record.length 3 ++ record ++ padTo nonce 32 ++ [0, 0]

/-! ### Requests (R437 to R440) -/

/-- GET_VERSION: the transcripts begin anew. -/
def execSpdmGetVersion (l : LinkId) (h : TrustHeader) (payload : List Byte) (s : State) : Done :=
  .next (s.spdmAnswer l.val h payload 0x84 (fun _ _ => spdmVersion) fun k x => { k with spdmVca := x, spdmCert := [], spdmMeas := [] })
/-- GET_CAPABILITIES. -/
def execSpdmGetCapabilities (l : LinkId) (h : TrustHeader) (payload : List Byte) (s : State) : Done :=
  .next (s.spdmAnswer l.val h payload 0xE1 (fun _ _ => spdmCapabilities) fun k x => { k with spdmVca := k.spdmVca ++ x, spdmMeas := [] })
/-- NEGOTIATE_ALGORITHMS. -/
def execSpdmNegotiateAlgorithms (l : LinkId) (h : TrustHeader) (payload : List Byte) (s : State) : Done :=
  .next (s.spdmAnswer l.val h payload 0xE3 (fun _ m => spdmAlgorithms m) fun k x => { k with spdmVca := k.spdmVca ++ x, spdmMeas := [] })
/-- GET_DIGESTS. -/
def execSpdmGetDigests (l : LinkId) (h : TrustHeader) (payload : List Byte) (s : State) : Done :=
  .next (s.spdmAnswer l.val h payload 0x81 (fun s _ => spdmDigests s.certChain) fun k x => { k with spdmCert := k.spdmCert ++ x, spdmMeas := [] })
/-- A request names certificate slot 0, the only one (R437): the low four bits of its slot byte. -/
def slotZero (b : Byte) : Bool := decide (b.toNat % 16 = 0)
/-- GET_CERTIFICATE. -/
def execSpdmGetCertificate (l : LinkId) (h : TrustHeader) (payload : List Byte) (offset len : Nat) (s : State) : Done :=
  .next (s.spdmAnswer l.val h payload 0x82
    (fun s m => if slotZero (byteAt m 2) then spdmCertificate s.certChain offset len else spdmError 7 0x82) fun k x =>
    { k with spdmCert := k.spdmCert ++ x, spdmMeas := [] })
/-- CHALLENGE (R439): ERROR Busy while ALIAS_STALE is 1; signed over version, certificate and challenge exchange. -/
def execSpdmChallenge (l : LinkId) (h : TrustHeader) (payload : List Byte) (nonce : List Byte) (s : State) : Done :=
  .next (s.spdmSegment l.val h payload (fun c => decide (c = 0x83)) fun s m =>
    if !slotZero (byteAt m 2) then s.spdmReply l.val h.xfer.toNat (spdmError 7 0x83)
    else if s.hand.stale then s.spdmReply l.val h.xfer.toNat (spdmError 3 0)
    else
      let k := s.ln l.val
      let r := s.spdmChallengeAuth m nonce
      let s := s.lnU l.val fun k => { k with spdmCert := [], spdmMeas := [] }
      s.spdmSigned l.val h.xfer.toNat "responder-challenge_auth signing" (k.spdmVca ++ k.spdmCert ++ m ++ r) r)
/-- GET_MEASUREMENTS (R439, R440). -/
def execSpdmGetMeasurements (l : LinkId) (h : TrustHeader) (payload : List Byte) (index : Byte) (signed : Bool) (nonce : List Byte)
    (s : State) : Done :=
  .next (s.spdmSegment l.val h payload (fun c => decide (c = 0xE0)) fun s m =>
    if 98 ≤ index.toNat ∧ index ≠ 0xFF then s.spdmReply l.val h.xfer.toNat (spdmError 1 0)
    else if signed && !slotZero (byteAt m 36) then s.spdmReply l.val h.xfer.toNat (spdmError 7 0xE0)
    else if signed && s.hand.stale then s.spdmReply l.val h.xfer.toNat (spdmError 3 0)
    else
      let k := s.ln l.val
      let r := s.spdmMeasurements index.toNat nonce
      let s := s.lnU l.val fun k => { k with spdmMeas := if signed then [] else k.spdmMeas ++ m ++ r }
      if signed then s.spdmSigned l.val h.xfer.toNat "responder-measurements signing" (k.spdmVca ++ k.spdmMeas ++ m ++ r) r
      else s.spdmReply l.val h.xfer.toNat r)
/-- SPDM_UNSUPPORTED_REQUEST (R437). -/
def execSpdmUnsupportedRequest (l : LinkId) (h : TrustHeader) (payload : List Byte) (s : State) : Done :=
  .next (s.spdmSegment l.val h payload (fun c => !spdmCodes.contains c) fun s m =>
    s.spdmReply l.val h.xfer.toNat (spdmError 7 (spdmCode m)))
/-- SPDM_SEGMENT_TIMEOUT (R438): the oldest request whose segments have not all arrived is discarded. -/
def execSpdmSegmentTimeout (l : LinkId) (s : State) : Done :=
  .next (s.lnU l.val fun k => { k with spdmIn := k.spdmIn.drop 1 })

end Sys2Proof.Machine
end

