-- ==== Sys2Proof/Machine/KernelEnd.lean ====
section
/-! DEFINITION. How the operations of the Kernel engines end, and what waits for them (10 R317 to R327; 03 R81, R83; 11 R349; 16
R439). -/

namespace Sys2Proof.Machine

open Sys2Proof

/-- The verification of a mailbox command is over. -/
def State.callDone (s : State) (q : Nat) (ok : Bool) : State :=
  match ((s.mb q).call.map (·.code)).getD 0 with
  | 0x10 => s.policySubmitted q ok
  | 0x13 => s.dispensed q ok
  | 0x2B => s.logRestarted q ok
  | 0x38 => s.rootGenerated q ok
  | 0x40 | 0x41 | 0x47 => s.fuseVerified q ok
  | _ => s
/-- The verdict unit has the result of a verification outside a wake (R81, R319). -/
def State.verDone (s : State) (j : ChainJob) (ok : Bool) : State :=
  match j.use with
  | .port _ => s
  | .shelf => s.shelfVerified ok
  | .policy => s.policyVerified { j with second := false } ok
  | .command q => s.callDone q ok
  | .flow p => s.flowVerified p ok
  | .handover q => s.handoverChecked q ok
  | .root src => s.rootVerified src ok

/-- LEAD has the RESULT of an operation that it started for a task, with OUT_A and OUT_B where it is OK (R349, R439). -/
def State.taskDone (s : State) (t : KTask) (code : Nat) (x : KRun) : State :=
  let sig := beBytes x.outA 48 ++ beBytes x.outB 48
  match t with
  | .provPub q n body =>
    let w := if bitsOf (s.ks n).attr.toNat 14 13 = 1 then 32 else 48
    if code = 0xC then s.provAnswer q body 0x4001 []
    else s.provSign q body (if code = 0 then beBytes x.outA w ++ beBytes x.outB w else [])
  | .provSign q body =>
    if code = 0 then s.provAnswer q body 0 (wordsOf (body ++ sig))
    else s.provAnswer q body (if code = 9 then 0x1004 else if code = 0xC then 0x4001 else 0x5001) []
  | .spdmSign l x _ response => s.spdmDone l x (if code = 0 then response ++ sig else spdmError 5 0)
/-- No engine is left: every verification that waits fails, and so does every operation of LEAD (R417; DESIGN CHOICE, log 25). -/
def State.enginesOut (s : State) : State :=
  if s.engineLeft then s
  else
    let jobs := s.wake.verify.filter s.verLive
    let tasks := s.keys.tasks
    let s : State := { s with wake := { s.wake with verify := [] }, keys := { s.keys with tasks := [] } }
    let s := s.each jobs fun s j => if s.verLive j then s.verDone j false else s
    s.each tasks fun s t => s.taskDone t 0xB {}

/-- KERNEL_OPERATION_DONE (R305, R315 to R320, R327, R336): the engine's time has passed; `integrity` says that a check of its data
has failed, which counts also while an abort runs. -/
def execKernelOperationDone (e : EngineId) (integrity : Bool) (s : State) : Done :=
  let k := s.en e.val
  if k.state = .aborting ∧ integrity then .next (s.chanError .engine e.val 9)
  else if k.state ≠ .busy then .next s
  else match k.chain with
  | some j => .next (s.chainEnd e.val j integrity fun ok s => s.verDone j ok).engineFreed
  | none =>
    match kop (opCode k.op) with
    | none => .next s
    | some o =>
      let x := kernelRun o k.mem (opLen k.op) k.key (s.drawn 0)
      let taken := (k.outSlot.map fun n => (s.ks n).bad).getD false
      let code := x.code (k.keyFail || taken) integrity
      let s := s.used 1
      let s := match o, k.outSlot with
        | .ecdh c, some n => if code = 0 then
            s.placeKey n (BitVec.ofNat 512 x.outA) (ecdhAttr c (k.key.map fun _ => k.keyAttr) s.lcCurrent) else s
        | _, _ => s
      let shown := if opToSlot k.op then { x with outA := 0 } else x
      let s := (s.outRelease e.val).enU e.val fun k => { k with mem := memAfter o k.mem (decide (code = 0)) shown }
      let s := s.kernelEnd e.val code
      let s := if code = 0xB then s.chanError .engine e.val 9 else if integrity then s.chanError .engine e.val 1 else s
      .next (match k.task with | some t => s.taskDone t code x | none => s).engineFreed

/-- In a warm restart DONE and RESULT clear once an abort has ended (R327). -/
def State.rideClear (s : State) (i : Nat) : State :=
  if s.boot.dev = DevState.ride then
    (s.enU i fun k => { k with done := false, result := 0, other := (0, k.other.2), owner := 0, task := none }).setLine i false
  else s

/-- KERNEL_ABORT_DONE (R325, R327): every word zero, ABORTED, leave returned; DONE unless in chain mode; a chain-mode verification
is due again; in a warm restart DONE and RESULT clear; an engine that a retirement aborts ends RETIRED. -/
def execKernelAbortDone (e : EngineId) (s : State) : Done :=
  let k := s.en e.val
  let i := e.val
  if k.state ≠ .aborting then .next s
  else
    let s := (s.outRelease i).enU i fun k => { k with mem := [], chain := none, waiting := false }
    let s := match k.chain with
      | some j =>
        let s := if k.gone then s.engineGone i
          else (s.poolBack 0 i (s.holds 0 i)).enU i fun k => { k with state := .idle, key := none }
        match j.use with
        | .port p => if (s.pk p).sig = SigState.running i then s.pkU p fun w => { w with sig := .none } else s
        | _ => if s.verLive { j with second := false } then s.verAgain j else s
      | none =>
        let s := if k.gone then (s.engineGone i).enU i fun k => { k with done := true, result := 0xC, task := none } else s.kernelEnd i 0xC
        let s := if k.gone then s.setLine i true else s
        match k.task with | some t => if s.boot.dev = DevState.ride then s else s.taskDone t 0xC {} | none => s
    .next (s.rideClear i).engineFreed

end Sys2Proof.Machine
end

