-- ==== Sys2Proof/Machine/Short.lean ====
section
/-! DEFINITION. The short ops and paired words of the Fekiroth-36 (09 R283, R284). -/

namespace Sys2Proof.Machine

open Sys2Proof

/-- The register a short op writes. -/
def shortDest (x : Nat) : Option Dest :=
  let op := bitsOf x 15 11
  let d := bitsOf x 10 7
  if op = 0x00 ∨ op = 0x12 ∨ op = 0x14 ∨ op = 0x1C then none
  else if op = 0x0F then some .fl
  else if op = 0x15 ∨ op = 0x16 then some (.a (BitVec.ofNat 3 d))
  else if op = 0x1A then some (.y (BitVec.ofNat 2 (bitsOf x 1 0)))
  else some (.d (BitVec.ofNat 4 d))

/-- The value of a short op that reads registers only; `k` holds them as they stand when the word issues. -/
def shortValue (k : Core) (x : Nat) : W72 :=
  let op := bitsOf x 15 11
  let a := k.rd (bitsOf x 10 7)
  let b := k.rd (bitsOf x 6 3)
  let kf := bitsOf x 2 0
  let imm : BitVec 7 := BitVec.ofNat 7 x
  let v : W36 := match op with
    | 0x01 => a + b
    | 0x02 => a - b
    | 0x03 => a &&& b
    | 0x04 => a ||| b
    | 0x05 => a ^^^ b
    | 0x06 => b
    | 0x07 => a + sext36 imm
    | 0x08 => sext36 imm
    | 0x09 => if bitOf x 6 then shr36 a (bitsOf x 5 0) else shl36 a (bitsOf x 5 0)
    | 0x0A => sar36 a (bitsOf x 5 0)
    | 0x0B => extract36 b (4 * kf) 4
    | 0x0C => bit36 (decide (a = b))
    | 0x0D => bit36 (decide (a.toNat < b.toNat))
    | 0x0E => bit36 (decide (a.toInt < b.toInt))
    | 0x0F => (subFlags a b).setWidth 36
    | 0x15 => (k.ra (bitsOf x 10 7 % 8) + sext24 imm).setWidth 36
    | 0x16 => b.setWidth 36
    | 0x17 => (k.ra (bitsOf x 6 3 % 8)).setWidth 36
    | 0x18 => rank36 b (count6 a)
    | 0x19 => rank36 b 36
    | 0x1B => let y := k.ry (bitsOf x 6 3 % 4); if bitOf x 0 then hi36 y else lo36 y
    | _ => 0
  if op = 0x1A then
    let y := k.ry (bitsOf x 1 0)
    y + prod72 (bitOf x 2) a b
  else v.setWidth 72

/-- One op of a paired word: `drop` discards its register write (R284). -/
def shortOp (c : CoreId) (k : Core) (x : Nat) (drop : Bool) (s : State) : Res :=
  let op := bitsOf x 15 11
  let a := k.rd (bitsOf x 10 7)
  let b := k.rd (bitsOf x 6 3)
  let base := k.ra (bitsOf x 2 0)
  let dest : BitVec 4 := BitVec.ofNat 4 (bitsOf x 10 7)
  let load : Nat → Nat → Res := fun addr size => s.load c addr size size fun s bs =>
    .go (if drop then s else s.result c (.d dest) (BitVec.ofNat 72 (leNat bs % 2 ^ 36)) 3) none
  match op with
  | 0x10 => load (base + BitVec.ofNat 24 (4 * (b.toNat % 2 ^ 22))).toNat 4
  | 0x11 => load (base + BitVec.ofNat 24 (8 * (b.toNat % 2 ^ 21))).toNat 8
  | 0x12 => s.store c (base + BitVec.ofNat 24 (4 * (b.toNat % 2 ^ 22))).toNat 4 (leBytes a.toNat 4)
  | 0x13 => load (base + BitVec.ofNat 24 (4 * bitsOf x 6 3)).toNat 4
  | 0x14 => s.store c (base + BitVec.ofNat 24 (4 * bitsOf x 6 3)).toNat 4 (leBytes a.toNat 4)
  | 0x1C => .go (s.pdU (coreNo c - 8) fun d => { d with decs := d.decs ++ [a] }) none
  | _ => match shortDest x with
    | some t => .go (if drop then s else s.result c t (shortValue k x) (if op = 0x1A then 2 else 1)) none
    | none => .go s none

/-- A paired word: both ops read what stands when the word issues; slot 0 loses a register that both write (R284). A word that
waits for a fetch has not issued: its other op has no effect yet (R289). -/
def pairOps (c : CoreId) (s0 s1 : BitVec 16) (s : State) (k : Core) : Res :=
  let drop := match shortDest s0.toNat, shortDest s1.toNat with
    | some x, some y => decide (x = y)
    | _, _ => false
  match shortOp c k s0.toNat drop s with
  | .go t _ => match shortOp c k s1.toNat false t with
    | .wait _ => shortOp c k s1.toNat false s
    | r => r
  | r => r

/-- Core c issues the paired word of an op and of the 16 bits in its other slot. -/
def State.issuePair (s : State) (c : CoreId) (cc : BitVec 3) (slot1 : Bool) (op other : BitVec 16) : State :=
  let s0 := if slot1 then other else op
  let s1 := if slot1 then op else other
  s.issue c (wordPair cc s0 s1) fun s k => pairOps c s0 s1 s k

/-- Short SNOP. -/
def execSnop (c : CoreId) (cc : BitVec 3) (slot1 : Bool) (d x : BitVec 4) (k : BitVec 3) (other : BitVec 16) (s : State) : Done :=
  .next (s.issuePair c cc slot1 (layRR 0x0 d x k) other)
/-- Short ADD. -/
def execSAdd (c : CoreId) (cc : BitVec 3) (slot1 : Bool) (d x : BitVec 4) (k : BitVec 3) (other : BitVec 16) (s : State) : Done :=
  .next (s.issuePair c cc slot1 (layRR 0x1 d x k) other)
/-- Short SUB. -/
def execSSub (c : CoreId) (cc : BitVec 3) (slot1 : Bool) (d x : BitVec 4) (k : BitVec 3) (other : BitVec 16) (s : State) : Done :=
  .next (s.issuePair c cc slot1 (layRR 0x2 d x k) other)
/-- Short AND. -/
def execSAnd (c : CoreId) (cc : BitVec 3) (slot1 : Bool) (d x : BitVec 4) (k : BitVec 3) (other : BitVec 16) (s : State) : Done :=
  .next (s.issuePair c cc slot1 (layRR 0x3 d x k) other)
/-- Short OR. -/
def execSOr (c : CoreId) (cc : BitVec 3) (slot1 : Bool) (d x : BitVec 4) (k : BitVec 3) (other : BitVec 16) (s : State) : Done :=
  .next (s.issuePair c cc slot1 (layRR 0x4 d x k) other)
/-- Short XOR. -/
def execSXor (c : CoreId) (cc : BitVec 3) (slot1 : Bool) (d x : BitVec 4) (k : BitVec 3) (other : BitVec 16) (s : State) : Done :=
  .next (s.issuePair c cc slot1 (layRR 0x5 d x k) other)
/-- Short MOV. -/
def execSMov (c : CoreId) (cc : BitVec 3) (slot1 : Bool) (d x : BitVec 4) (k : BitVec 3) (other : BitVec 16) (s : State) : Done :=
  .next (s.issuePair c cc slot1 (layRR 0x6 d x k) other)
/-- Short XF. -/
def execSXf (c : CoreId) (cc : BitVec 3) (slot1 : Bool) (d x : BitVec 4) (k : BitVec 3) (other : BitVec 16) (s : State) : Done :=
  .next (s.issuePair c cc slot1 (layRR 0xb d x k) other)
/-- Short SEQ. -/
def execSSeq (c : CoreId) (cc : BitVec 3) (slot1 : Bool) (d x : BitVec 4) (k : BitVec 3) (other : BitVec 16) (s : State) : Done :=
  .next (s.issuePair c cc slot1 (layRR 0xc d x k) other)
/-- Short SLTU. -/
def execSSltu (c : CoreId) (cc : BitVec 3) (slot1 : Bool) (d x : BitVec 4) (k : BitVec 3) (other : BitVec 16) (s : State) : Done :=
  .next (s.issuePair c cc slot1 (layRR 0xd d x k) other)
/-- Short SLT. -/
def execSSlt (c : CoreId) (cc : BitVec 3) (slot1 : Bool) (d x : BitVec 4) (k : BitVec 3) (other : BitVec 16) (s : State) : Done :=
  .next (s.issuePair c cc slot1 (layRR 0xe d x k) other)
/-- Short CMP. -/
def execSCmp (c : CoreId) (cc : BitVec 3) (slot1 : Bool) (d x : BitVec 4) (k : BitVec 3) (other : BitVec 16) (s : State) : Done :=
  .next (s.issuePair c cc slot1 (layRR 0xf d x k) other)
/-- Short LWX. -/
def execSLwx (c : CoreId) (cc : BitVec 3) (slot1 : Bool) (d x : BitVec 4) (k : BitVec 3) (other : BitVec 16) (s : State) : Done :=
  .next (s.issuePair c cc slot1 (layRR 0x10 d x k) other)
/-- Short LFX. -/
def execSLfx (c : CoreId) (cc : BitVec 3) (slot1 : Bool) (d x : BitVec 4) (k : BitVec 3) (other : BitVec 16) (s : State) : Done :=
  .next (s.issuePair c cc slot1 (layRR 0x11 d x k) other)
/-- Short SWX. -/
def execSSwx (c : CoreId) (cc : BitVec 3) (slot1 : Bool) (d x : BitVec 4) (k : BitVec 3) (other : BitVec 16) (s : State) : Done :=
  .next (s.issuePair c cc slot1 (layRR 0x12 d x k) other)
/-- Short LWO. -/
def execSLwo (c : CoreId) (cc : BitVec 3) (slot1 : Bool) (d x : BitVec 4) (k : BitVec 3) (other : BitVec 16) (s : State) : Done :=
  .next (s.issuePair c cc slot1 (layRR 0x13 d x k) other)
/-- Short SWO. -/
def execSSwo (c : CoreId) (cc : BitVec 3) (slot1 : Bool) (d x : BitVec 4) (k : BitVec 3) (other : BitVec 16) (s : State) : Done :=
  .next (s.issuePair c cc slot1 (layRR 0x14 d x k) other)
/-- Short MVA. -/
def execSMva (c : CoreId) (cc : BitVec 3) (slot1 : Bool) (d x : BitVec 4) (k : BitVec 3) (other : BitVec 16) (s : State) : Done :=
  .next (s.issuePair c cc slot1 (layRR 0x16 d x k) other)
/-- Short MVD. -/
def execSMvd (c : CoreId) (cc : BitVec 3) (slot1 : Bool) (d x : BitVec 4) (k : BitVec 3) (other : BitVec 16) (s : State) : Done :=
  .next (s.issuePair c cc slot1 (layRR 0x17 d x k) other)
/-- Short RANK. -/
def execSRank (c : CoreId) (cc : BitVec 3) (slot1 : Bool) (d x : BitVec 4) (k : BitVec 3) (other : BitVec 16) (s : State) : Done :=
  .next (s.issuePair c cc slot1 (layRR 0x18 d x k) other)
/-- Short POPC. -/
def execSPopc (c : CoreId) (cc : BitVec 3) (slot1 : Bool) (d x : BitVec 4) (k : BitVec 3) (other : BitVec 16) (s : State) : Done :=
  .next (s.issuePair c cc slot1 (layRR 0x19 d x k) other)
/-- Short MAC. -/
def execSMac (c : CoreId) (cc : BitVec 3) (slot1 : Bool) (d x : BitVec 4) (k : BitVec 3) (other : BitVec 16) (s : State) : Done :=
  .next (s.issuePair c cc slot1 (layRR 0x1a d x k) other)
/-- Short MVY. -/
def execSMvy (c : CoreId) (cc : BitVec 3) (slot1 : Bool) (d x : BitVec 4) (k : BitVec 3) (other : BitVec 16) (s : State) : Done :=
  .next (s.issuePair c cc slot1 (layRR 0x1b d x k) other)
/-- Short DCS. -/
def execSDcs (c : CoreId) (cc : BitVec 3) (slot1 : Bool) (d x : BitVec 4) (k : BitVec 3) (other : BitVec 16) (s : State) : Done :=
  .next (s.issuePair c cc slot1 (layRR 0x1c d x k) other)
/-- Short ADDI. -/
def execSAddi (c : CoreId) (cc : BitVec 3) (slot1 : Bool) (d : BitVec 4) (imm : BitVec 7) (other : BitVec 16) (s : State) : Done :=
  .next (s.issuePair c cc slot1 (layRI 0x7 d imm) other)
/-- Short MOVI. -/
def execSMovi (c : CoreId) (cc : BitVec 3) (slot1 : Bool) (d : BitVec 4) (imm : BitVec 7) (other : BitVec 16) (s : State) : Done :=
  .next (s.issuePair c cc slot1 (layRI 0x8 d imm) other)
/-- Short SHI. -/
def execSShi (c : CoreId) (cc : BitVec 3) (slot1 : Bool) (d : BitVec 4) (imm : BitVec 7) (other : BitVec 16) (s : State) : Done :=
  .next (s.issuePair c cc slot1 (layRI 0x9 d imm) other)
/-- Short SARI. -/
def execSSari (c : CoreId) (cc : BitVec 3) (slot1 : Bool) (d : BitVec 4) (imm : BitVec 7) (other : BitVec 16) (s : State) : Done :=
  .next (s.issuePair c cc slot1 (layRI 0xa d imm) other)
/-- Short ADDA. -/
def execSAdda (c : CoreId) (cc : BitVec 3) (slot1 : Bool) (d : BitVec 4) (imm : BitVec 7) (other : BitVec 16) (s : State) : Done :=
  .next (s.issuePair c cc slot1 (layRI 0x15 d imm) other)

end Sys2Proof.Machine
end

