-- ==== Sys2Proof/Machine/System.lean ====
section
/-! DEFINITION. Port ops, SYS operations, interrupts and illegal words of the Fekiroth-36 (09 R286 to R302). -/

namespace Sys2Proof.Machine

open Sys2Proof

/-- The port of a thread. -/
def threadPort : CoreId → Nat | .sq k t => 8 * k.val + t.val | _ => 96

/-! ### Port ops (R292 to R295) -/

/-- A crossing that waited takes the room in the queue (R163). -/
def PDec.refill (d : PDec) : PDec :=
  if d.events.length < 4 then
    match d.cross with
    | x :: t => { d with events := d.events ++ [x], cross := t }
    | [] => d
  else d

/-- The oldest event leaves the queue into D15 in the thread's own slot. -/
def State.takeEvent (s : State) (c : CoreId) : State :=
  let p := threadPort c
  match (s.pd p).events with
  | [] => s
  | w :: rest =>
    (s.pdU p fun d => ({ d with events := rest } : PDec).refill).coU (coreNo c) fun k => k.write (.d 15) (w.setWidth 72)

/-- WEV: with an empty queue the thread waits. -/
def execWev (c : CoreId) (cc : BitVec 4) (s : State) : Done :=
  .next (s.issue c (wordLong 0x28 cc 0) fun s _ =>
    if (s.pd (threadPort c)).events = [] then .go (s.coU (coreNo c) fun k => { k with run := .waitEvent }) none
    else .go (s.takeEvent c) none)

/-- WEV_RESUME: so many slots of a thread that waits have passed, in which results land on time (R290); where its queue
holds a word it resumes (R224, R292). -/
def execWevResume (k : SheafId) (t : Fin 8) (slots : Nat) (s : State) : Done :=
  let c := CoreId.sq k t
  if (s.co (coreNo c)).run ≠ .waitEvent then .next s
  else
    let u := s.slotsPass c ((s.co (coreNo c)).slot + slots)
    .next (if (s.pd (threadPort c)).events = [] then u
      else (u.coU (coreNo c) fun x => { x with run := .running }).takeEvent c)

/-- LKP: the request waits for its lookup slot (R220). -/
def execLkp (c : CoreId) (cc rd rs rt : BitVec 4) (fn : BitVec 13) (s : State) : Done :=
  .next (s.issue c (wordLong 0x29 cc (layR rd rs rt fn)) fun s k =>
    .go (s.pdU (threadPort c) fun d => { d with lookups := d.lookups ++ [{
      rd := rd, index := (k.rd rs.toNat).setWidth 17, dt := k.rd rt.toNat, direct := fn.getLsbD 0 }] }) none)

/-- DCS: the word enters the decision path. -/
def State.decisionIn (s : State) (c : CoreId) (w : W36) : State :=
  s.pdU (threadPort c) fun d => { d with decs := d.decs ++ [w] }
/-- DCS. -/
def execDcs (c : CoreId) (cc rs : BitVec 4) (s : State) : Done :=
  .next (s.issue c (wordLong 0x2A cc (layR 0 rs 0 0)) fun s k => .go (s.decisionIn c (k.rd rs.toNat)) none)

/-- One word of an answer-cache slot is written at a place (R295). -/
def CacheSlot.put (x : CacheSlot) (v place : Nat) : CacheSlot :=
  let word := bitsOf place 6 2
  { valid := decide (word = 0),
    context := if word = 0 then BitVec.ofNat 7 (bitsOf place 15 9) else x.context,
    bytes := (padTo x.bytes 128).take (4 * word) ++ leBytes v 4 ++ (padTo x.bytes 128).drop (4 * word + 4) }
/-- ACW. -/
def execAcw (c : CoreId) (cc rs rt : BitVec 4) (s : State) : Done :=
  .next (s.issue c (wordLong 0x2B cc (layR 0 rs rt 0)) fun s k =>
    let place := (k.rd rt.toNat).toNat
    if place / 2 ^ 16 ≠ 0 ∨ place % 4 ≠ 0 ∨ bitsOf place 15 9 = 0 then .go s none
    else .go (s.pdU (threadPort c) fun d => { d with
      cache := Tab.upd {} d.cache (bitsOf place 8 7) fun x => x.put ((k.rd rs.toNat).toNat) place }) none)

/-! ### Special registers (R286, R287) -/

/-- CORE of a core. -/
def coreWord : CoreId → W36
  | .seed => 0 | .canopyA => 0x1000 | .canopyB => 0x2000 | .link => 0x4000 | .watch => 0x5000
  | .sq k t => BitVec.ofNat 36 (0x3000 + k.val * 2 ^ 8 + t.val)
/-- The lines routed to a core; line 11 is its own TCMP. -/
def routedLines (c : CoreId) : BitVec 16 :=
  BitVec.ofNat 16 (((List.range 16).filter fun n => decide (n = 11) || (lineCores n).contains (coreNo c)).map (2 ^ ·)).sum
/-- The content of a special register. -/
def State.special (s : State) (c : CoreId) (k : Core) (arg : Nat) : W36 :=
  match arg with
  | 0x00 => k.fl.setWidth 36
  | 0x01 => coreWord c
  | 0x02 => s.cyc.setWidth 36
  | 0x03 => k.cych.setWidth 36
  | 0x04 => k.epc.setWidth 36
  | 0x05 => k.cause.setWidth 36
  | 0x06 => k.eaddr.setWidth 36
  | 0x07 => k.evec.setWidth 36
  | 0x08 => k.status.setWidth 36
  | 0x09 => k.iena.setWidth 36
  | 0x0A => k.lines.setWidth 36
  | 0x0B => k.tcmp
  | 0x0C => k.ebt.setWidth 36
  | _ => 0
/-- MFS: a read of CYCL latches CYCH. -/
def execMfs (c : CoreId) (cc rd : BitVec 4) (arg : BitVec 8) (s : State) : Done :=
  .next (s.issue c (wordLong 0x30 cc (layS rd 0 1 arg)) fun s k =>
    if k.badRegs.contains arg.toNat then .fault 7 none else
    let t := if arg = 0x02 then s.coU (coreNo c) fun k => { k.mendRegs [0x03] with cych := BitVec.ofNat 28 (s.cyc.toNat / 2 ^ 36) } else s
    toD c rd (s.special c k arg.toNat) t)
/-- A special register is written; a write to an RO or RS register is ignored. A handler address is a multiple of 8. -/
def Core.setSpecial (k : Core) (c : CoreId) (cyc : W64) (arg : Nat) (v : W36) : Core :=
  match arg with
  | 0x04 => { k with epc := v.setWidth 24 &&& 0xFFFFF8 }
  | 0x07 => { k with evec := v.setWidth 24 &&& 0xFFFFF8 }
  | 0x08 => { k with status := v.setWidth 3 }
  | 0x09 => { k with iena := v.setWidth 16 &&& routedLines c }
  | 0x0B => { k with
      tcmp := v, lines := if v.toNat = cyc.toNat % 2 ^ 36 then k.lines ||| 0x0800 else k.lines &&& 0xF7FF }
  | 0x0C => { k with ebt := v.setWidth 24 }
  | _ => k
/-- MTS. -/
def execMts (c : CoreId) (cc rs : BitVec 4) (arg : BitVec 8) (s : State) : Done :=
  .next (s.issue c (wordLong 0x30 cc (layS 0 rs 2 arg)) fun s k =>
    let v := k.rd rs.toNat
    if arg = 0 then .go (s.result c .fl (v.setWidth 72 &&& 15) 1) none
    else .go (s.coU (coreNo c) fun k =>
      (if [0x04, 0x07, 0x08, 0x09, 0x0B, 0x0C].contains arg.toNat then k.mendRegs [arg.toNat] else k).setSpecial c s.cyc arg.toNat v) none)

/-! ### The other SYS operations -/

/-- FENCE: every earlier store reaches memory before the next word issues. -/
def execFence (c : CoreId) (cc : BitVec 4) (s : State) : Done :=
  .next (s.issue c (wordLong 0x30 cc (layS 0 0 3 0)) fun s k =>
    .go ((s.coU (coreNo c) fun k => { k with stores := [] }).each k.stores fun s x => s.storeOut c x) none)
/-- TRAP: EPC past the TRAP, SHADOW counted from there (R297). -/
def execTrap (c : CoreId) (cc : BitVec 4) (arg : BitVec 8) (s : State) : Done :=
  .next (s.issue c (wordLong 0x30 cc (layS 0 0 4 arg)) fun _ _ => .trap arg.toNat)
/-- ERET: two empty slots, then the shadow words left and EBT after them (R299). -/
def execEret (c : CoreId) (cc : BitVec 4) (s : State) : Done :=
  .next (s.issue c (wordLong 0x30 cc (layS 0 0 5 0)) fun s k =>
    k.transfer c (if k.badRegs.any fun n => decide (n = 0x04 ∨ n = 0x05 ∨ n = 0x08 ∨ (n = 0x0C ∧ 256 ≤ k.cause.toNat)) then .fault 7 none else .go (s.coU (coreNo c) fun k =>
      let n := k.cause.toNat / 256
      { k with
        pc := k.epc - 8, slot := k.slot + 2, status := BitVec.ofNat 3 (k.status.toNat % 4 / 2 * 3),
        xfer := if n = 0 then [] else [(k.slot + 3 + n, k.ebt &&& 0xFFFFF8)] }) none))
/-- HALT. -/
def execHalt (c : CoreId) (cc : BitVec 4) (s : State) : Done :=
  .next (s.issue c (wordLong 0x30 cc (layS 0 0 6 0)) fun s _ =>
    .go (s.coU (coreNo c) fun k => { k with run := .halted }) none)
/-- An enabled line of a core is asserted. -/
def Core.lineUp (k : Core) : Bool := decide (k.lines &&& k.iena ≠ 0)
/-- WFI: the next word is held until an enabled line is asserted; on the watch core until a wake. -/
def execWfi (c : CoreId) (cc : BitVec 4) (s : State) : Done :=
  .next (s.issue c (wordLong 0x30 cc (layS 0 0 7 0)) fun s k =>
    .go (if k.lineUp && !isWatch c then s else s.coU (coreNo c) fun k => { k with run := .waitIrq }) none)
/-- WFI_WAKE (R286, R301). -/
def execWfiWake (c : CoreId) (s : State) : Done :=
  let k := s.co (coreNo c)
  if k.run = .waitIrq ∧ (isWatch c ∨ k.lineUp) then .next (s.coU (coreNo c) fun k => { k with run := .running })
  else .next s

/-- The lowest enabled line that is asserted. -/
def Core.lowestLine (k : Core) : Option Nat := (List.range 16).find? fun n => (k.lines &&& k.iena).getLsbD n
/-- A line that its source raises as an event: the interrupt services it (log 15). -/
def eventLine (n : Nat) : Bool := decide (n = 4 ∨ n = 7 ∨ n = 8 ∨ n = 10 ∨ 12 ≤ n)
/-- INTERRUPT_TAKEN (R297, R298). EADDR is a free value. A STATUS, IENA or EVEC whose check fails is an integrity fault (R276). -/
def execInterruptTaken (c : CoreId) (s : State) : Done :=
  let i := coreNo c
  let k := s.co i
  if isE c ∧ (k.run = .running ∨ k.run = .waitIrq) ∧ k.xfer = [] ∧ k.badRegs.any (fun n => decide (7 ≤ n ∧ n ≤ 9)) = true then
    .next ((s.coU i fun k => { k with run := .running }).faultWord c 7 none k.pc k.slot)
  else if isE c ∧ (k.run = .running ∨ k.run = .waitIrq) ∧ k.status.getLsbD 0 ∧ k.xfer = [] then
    match k.lowestLine with
    | none => .next s
    | some n =>
      let v := s.drawn 0 % 2 ^ 24
      .next ((s.used 1).coU i fun k =>
        let k := k.except k.slot (0x20 + n) v k.pc 0
        { k with
          run := .running, lines := if eventLine n then k.lines &&& ~~~ (BitVec.ofNat 16 (2 ^ n)) else k.lines })
  else .next s

/-- ILLEGAL_INSTRUCTION: bits 63:36 not zero, or a word that is not legal on the core (R271, R272, R277); a word that cannot
be read is an integrity fault (R384). -/
def execIllegalInstruction (c : CoreId) (dw : W64) (s : State) : Done :=
  let i := coreNo c
  let w := dw.setWidth 36
  if (s.co i).run = .running ∧ !s.xipWaits c ∧ fetchOk c (s.co i).pc.toNat ∧ (dw.toNat / 2 ^ 36 ≠ 0 ∨ !wordLegal c w) then
    let s := s.slotTo c (s.co i).slot
    let k := s.co i
    .next (if k.badRegs.contains pcReg then s.faultWord c 7 none k.pc k.slot
      else if s.readBad c k.pc.toNat 8 then s.faultWord c 7 (if isSq c then some k.pc.toNat else none) k.pc k.slot
      else s.faultWord c 1 none k.pc k.slot)
  else .next s

end Sys2Proof.Machine
end

