-- ==== Sys2Proof/Machine/Xip.lean ====
section
/-! DEFINITION. Execute in place: misses and fetches of the prefetch unit (08 R264 to R266). -/

namespace Sys2Proof.Machine

open Sys2Proof

/-- XIP_MISS: a Canopy core fetches from a line that the buffer does not hold. -/
def execXipMiss (b : Bool) (addr : W24) (s : State) : Done :=
  if s.boot.canopyOut && decide (0x400000 ≤ addr.toNat) && (s.xipLine addr.toNat).isNone then
    .next (s.xipStart b addr.toNat)
  else .next s

/-- A line of the region passes its check: its bytes. Its tag stands in the CANOPY group of its granule; a BAD page fails
its lines, and so does a key that does not serve the check (R249, R251, R264, R265, R330). -/
def State.xipChecked (s : State) (line : Nat) : Option (List Byte) :=
  let home := s.xipHome (0x400000 + 256 * line)
  let data := s.homeGet home 256
  let g := Tab.get 0 s.gran.tagDir (tagKey 0xFF home)
  if s.tagsReady ∧ s.granReady ∧ g ≠ 0 ∧ pageUse (s.page (8 * g + home / 8192 % 8)) ≠ 7 ∧ leBytes (s.gleanTag 0xFF home data).toNat 8 = s.storedTag g home
  then some data else none

/-- A line enters its set as the most recent of four (R265). -/
def State.xipFill (s : State) (line : Nat) (data : List Byte) : State :=
  let set := Tab.get [] s.gran.sets (line % 64)
  { s with gran := { s.gran with
    sets := Tab.put [] s.gran.sets (line % 64)
      (({ line := line, data := data } :: set.filter fun x => decide (x.line ≠ line)).take 4) } }

/-- The fetch under way ends and the next one held starts. -/
def State.xipNext (s : State) : State :=
  match s.gran.held with
  | [] => { s with gran := { s.gran with fetch := none } }
  | f :: t => { s with gran := { s.gran with fetch := some f, held := t } }

/-- The next line of a miss: it lies in the region, and the buffer does not hold it (R265). -/
def State.xipAhead (s : State) (line : Nat) : Bool :=
  decide (256 * (line + 1) < s.boot.running.lens.getD 2 0) && (s.xipLine (0x400000 + 256 * (line + 1))).isNone

/-- XIP_FETCH_DONE: the line passes, and the next one is fetched; or it is fetched again; a second failure is a home-port
channel error and, where a core waits, its FETCH fault (R265, R266). Home-port data that fails its Gnoby check is discarded
with the line (R382, R406). During the tag pass of a handover fetches are held (R420). -/
def execXipFetchDone (ok : Bool) (s : State) : Done :=
  match s.gran.fetch with
  | none => .next s
  | some f =>
    if s.gran.tagging then .next s
    else
      let line := (f.addr.toNat - 0x400000) / 256
      let s := if ok then s else (s.chanError .home 0 1).gnoby 0 0
      if s.gran.fetch.isNone then .next s else
      let s : State := { s with homeCont := true }
      match (if ok then s.xipChecked line else none) with
      | some data =>
        let s := s.xipFill line data
        if f.ahead then .next s.xipNext
        else
          let s := s.xipTouch f.addr.toNat
          .next (if s.xipAhead line then
            { s with gran := { s.gran with fetch := some { core := f.core, addr := BitVec.ofNat 24 (0x400000 + 256 * (line + 1)), ahead := true } } }
          else s.xipNext)
      | none =>
        if f.tries = 0 then .next { s with gran := { s.gran with fetch := some { f with tries := 1 } } }
        else
          let c := if f.core then CoreId.canopyB else CoreId.canopyA
          let s := (s.chanError .home 0 0x0A).xipNext
          let k := s.co (coreNo c)
          if !f.ahead ∧ k.run = .running then .next (s.faultWord c 6 none k.pc k.slot) else .next s

end Sys2Proof.Machine
end

