-- ==== Sys2Proof/Machine/Dispatch.lean ====
section
/-! DEFINITION. The meaning of every command: one arm per constructor of Instr. -/

namespace Sys2Proof.Machine

open Sys2Proof

/-- The effect of a command on everything but the queue. -/
def exec (i : Instr) (s : State) : Host.Outcome State Fault Refusal :=
  match i with
  | .supplyGood x => Sys2Proof.Machine.execSupplyGood x s
  | .supplyNotGood x => Sys2Proof.Machine.execSupplyNotGood x s
  | .fuseSenseDone => Sys2Proof.Machine.execFuseSenseDone s
  | .seedCoreRelease probes => Sys2Proof.Machine.execSeedCoreRelease probes s
  | .refclkLoss => Sys2Proof.Machine.execRefclkLoss s
  | .refclkHoldoverExpiry => Sys2Proof.Machine.execRefclkHoldoverExpiry s
  | .pllLockLoss flashSide => Sys2Proof.Machine.execPllLockLoss flashSide s
  | .refclkReturn => Sys2Proof.Machine.execRefclkReturn s
  | .bundleHeadersRead => Sys2Proof.Machine.execBundleHeadersRead s
  | .bundleCandidateRead => Sys2Proof.Machine.execBundleCandidateRead s
  | .bundleSignatureVerified => Sys2Proof.Machine.execBundleSignatureVerified s
  | .canopyRelease => Sys2Proof.Machine.execCanopyRelease s
  | .canopyLeaveReturn => Sys2Proof.Machine.execCanopyLeaveReturn s
  | .linkCoreRelease => Sys2Proof.Machine.execLinkCoreRelease s
  | .scheduleContainerLoad k => Sys2Proof.Machine.execScheduleContainerLoad k s
  | .canopyWatchdogExpiry => Sys2Proof.Machine.execCanopyWatchdogExpiry s
  | .warmRestartEntryDone comparators => Sys2Proof.Machine.execWarmRestartEntryDone comparators s
  | .runtimeLaneScheduleReload => Sys2Proof.Machine.execRuntimeLaneScheduleReload s
  | .wakeAutoStart => Sys2Proof.Machine.execWakeAutoStart s
  | .wakeEntryEnd ids replies badLanes => Sys2Proof.Machine.execWakeEntryEnd ids replies badLanes s
  | .wakeRound bursts failed => Sys2Proof.Machine.execWakeRound bursts failed s
  | .wakeLaneJob p chunk tags lane check => Sys2Proof.Machine.execWakeLaneJob p chunk tags lane check s
  | .wakeFrameBoundary => Sys2Proof.Machine.execWakeFrameBoundary s
  | .shelfManifestDecide => Sys2Proof.Machine.execShelfManifestDecide s
  | .chainVerifyStart p => Sys2Proof.Machine.execChainVerifyStart p s
  | .hashSignatureVerify p => Sys2Proof.Machine.execHashSignatureVerify p s
  | .drainEnd => Sys2Proof.Machine.execDrainEnd s
  | .verdictStage => Sys2Proof.Machine.execVerdictStage s
  | .handback p replies => Sys2Proof.Machine.execHandback p replies s
  | .standStaggerExpiry => Sys2Proof.Machine.execStandStaggerExpiry s
  | .portRelease k meets => Sys2Proof.Machine.execPortRelease k meets s
  | .settleExpiry p => Sys2Proof.Machine.execSettleExpiry p s
  | .pgFall p => Sys2Proof.Machine.execPgFall p s
  | .pgRise p => Sys2Proof.Machine.execPgRise p s
  | .shadowMismatch r => Sys2Proof.Machine.execShadowMismatch r s
  | .hostFrame p f => Sys2Proof.Machine.execHostFrame p f s
  | .busyTimerExpiry p => Sys2Proof.Machine.execBusyTimerExpiry p s
  | .stallTimeout p f => Sys2Proof.Machine.execStallTimeout p f s
  | .profileBreach p f => Sys2Proof.Machine.execProfileBreach p f s
  | .contExitFrame p => Sys2Proof.Machine.execContExitFrame p s
  | .ruleLookupResult p => Sys2Proof.Machine.execRuleLookupResult p s
  | .rebuildStart => Sys2Proof.Machine.execRebuildStart s
  | .rebuildContainer => Sys2Proof.Machine.execRebuildContainer s
  | .generationFlip p => Sys2Proof.Machine.execGenerationFlip p s
  | .deferredPortUpdate p => Sys2Proof.Machine.execDeferredPortUpdate p s
  | .gleanHalfLeaf p check => Sys2Proof.Machine.execGleanHalfLeaf p check s
  | .serviceLaneJob => Sys2Proof.Machine.execServiceLaneJob s
  | .selfTestSlot u ok => Sys2Proof.Machine.execSelfTestSlot u ok s
  | .laneTestRequest l ok => Sys2Proof.Machine.execLaneTestRequest l ok s
  | .deferredLaneTest l ok => Sys2Proof.Machine.execDeferredLaneTest l ok s
  | .scrubRead r => Sys2Proof.Machine.execScrubRead r s
  | .relocationStart => Sys2Proof.Machine.execRelocationStart s
  | .relocationWaitExpiry => Sys2Proof.Machine.execRelocationWaitExpiry s
  | .relocationDone => Sys2Proof.Machine.execRelocationDone s
  | .serveSlotRead p addr => Sys2Proof.Machine.execServeSlotRead p addr s
  | .xipMiss b addr => Sys2Proof.Machine.execXipMiss b addr s
  | .xipFetchDone ok => Sys2Proof.Machine.execXipFetchDone ok s
  | .tagPass => Sys2Proof.Machine.execTagPass s
  | .nop c cc => Sys2Proof.Machine.execNop c cc s
  | .alu c cc rd rs rt fn => Sys2Proof.Machine.execAlu c cc rd rs rt fn s
  | .addi c cc rd rs imm => Sys2Proof.Machine.execAddi c cc rd rs imm s
  | .andi c cc rd rs imm => Sys2Proof.Machine.execAndi c cc rd rs imm s
  | .ori c cc rd rs imm => Sys2Proof.Machine.execOri c cc rd rs imm s
  | .xori c cc rd rs imm => Sys2Proof.Machine.execXori c cc rd rs imm s
  | .shfi c cc rd rs imm => Sys2Proof.Machine.execShfi c cc rd rs imm s
  | .movl c cc rd imm => Sys2Proof.Machine.execMovl c cc rd imm s
  | .movh c cc rd imm => Sys2Proof.Machine.execMovh c cc rd imm s
  | .cmp c cc rs rt => Sys2Proof.Machine.execCmp c cc rs rt s
  | .cmpi c cc rs imm => Sys2Proof.Machine.execCmpi c cc rs imm s
  | .tst c cc rs rt => Sys2Proof.Machine.execTst c cc rs rt s
  | .mul c cc rd rs rt fn => Sys2Proof.Machine.execMul c cc rd rs rt fn s
  | .macy c cc rd rs rt fn => Sys2Proof.Machine.execMacy c cc rd rs rt fn s
  | .mvy c cc rd rs rt fn => Sys2Proof.Machine.execMvy c cc rd rs rt fn s
  | .exti c cc rd rs imm => Sys2Proof.Machine.execExti c cc rd rs imm s
  | .adda c cc rd rs imm => Sys2Proof.Machine.execAdda c cc rd rs imm s
  | .mva c cc rd rs rt fn => Sys2Proof.Machine.execMva c cc rd rs rt fn s
  | .mova c cc ad imm => Sys2Proof.Machine.execMova c cc ad imm s
  | .ldb c cc rg ab off => Sys2Proof.Machine.execLdb c cc rg ab off s
  | .ldh c cc rg ab off => Sys2Proof.Machine.execLdh c cc rg ab off s
  | .ldw c cc rg ab off => Sys2Proof.Machine.execLdw c cc rg ab off s
  | .ldf c cc rg ab off => Sys2Proof.Machine.execLdf c cc rg ab off s
  | .ldy c cc rg ab off => Sys2Proof.Machine.execLdy c cc rg ab off s
  | .lda c cc rg ab off => Sys2Proof.Machine.execLda c cc rg ab off s
  | .stb c cc rg ab off => Sys2Proof.Machine.execStb c cc rg ab off s
  | .sth c cc rg ab off => Sys2Proof.Machine.execSth c cc rg ab off s
  | .stw c cc rg ab off => Sys2Proof.Machine.execStw c cc rg ab off s
  | .stf c cc rg ab off => Sys2Proof.Machine.execStf c cc rg ab off s
  | .sty c cc rg ab off => Sys2Proof.Machine.execSty c cc rg ab off s
  | .sta c cc rg ab off => Sys2Proof.Machine.execSta c cc rg ab off s
  | .br c cc disp => Sys2Proof.Machine.execBr c cc disp s
  | .bz c cc rs disp => Sys2Proof.Machine.execBz c cc rs disp s
  | .bnz c cc rs disp => Sys2Proof.Machine.execBnz c cc rs disp s
  | .bal c cc disp => Sys2Proof.Machine.execBal c cc disp s
  | .jr c cc rd rs rt fn => Sys2Proof.Machine.execJr c cc rd rs rt fn s
  | .wev c cc => Sys2Proof.Machine.execWev c cc s
  | .wevResume k t slots => Sys2Proof.Machine.execWevResume k t slots s
  | .lkp c cc rd rs rt fn => Sys2Proof.Machine.execLkp c cc rd rs rt fn s
  | .dcs c cc rs => Sys2Proof.Machine.execDcs c cc rs s
  | .acw c cc rs rt => Sys2Proof.Machine.execAcw c cc rs rt s
  | .mfs c cc rd arg => Sys2Proof.Machine.execMfs c cc rd arg s
  | .mts c cc rs arg => Sys2Proof.Machine.execMts c cc rs arg s
  | .fence c cc => Sys2Proof.Machine.execFence c cc s
  | .trap c cc arg => Sys2Proof.Machine.execTrap c cc arg s
  | .eret c cc => Sys2Proof.Machine.execEret c cc s
  | .halt c cc => Sys2Proof.Machine.execHalt c cc s
  | .wfi c cc => Sys2Proof.Machine.execWfi c cc s
  | .wfiWake c => Sys2Proof.Machine.execWfiWake c s
  | .snop c cc slot1 d x k other => Sys2Proof.Machine.execSnop c cc slot1 d x k other s
  | .sAdd c cc slot1 d x k other => Sys2Proof.Machine.execSAdd c cc slot1 d x k other s
  | .sSub c cc slot1 d x k other => Sys2Proof.Machine.execSSub c cc slot1 d x k other s
  | .sAnd c cc slot1 d x k other => Sys2Proof.Machine.execSAnd c cc slot1 d x k other s
  | .sOr c cc slot1 d x k other => Sys2Proof.Machine.execSOr c cc slot1 d x k other s
  | .sXor c cc slot1 d x k other => Sys2Proof.Machine.execSXor c cc slot1 d x k other s
  | .sMov c cc slot1 d x k other => Sys2Proof.Machine.execSMov c cc slot1 d x k other s
  | .sAddi c cc slot1 d imm other => Sys2Proof.Machine.execSAddi c cc slot1 d imm other s
  | .sMovi c cc slot1 d imm other => Sys2Proof.Machine.execSMovi c cc slot1 d imm other s
  | .sShi c cc slot1 d imm other => Sys2Proof.Machine.execSShi c cc slot1 d imm other s
  | .sSari c cc slot1 d imm other => Sys2Proof.Machine.execSSari c cc slot1 d imm other s
  | .sXf c cc slot1 d x k other => Sys2Proof.Machine.execSXf c cc slot1 d x k other s
  | .sSeq c cc slot1 d x k other => Sys2Proof.Machine.execSSeq c cc slot1 d x k other s
  | .sSltu c cc slot1 d x k other => Sys2Proof.Machine.execSSltu c cc slot1 d x k other s
  | .sSlt c cc slot1 d x k other => Sys2Proof.Machine.execSSlt c cc slot1 d x k other s
  | .sCmp c cc slot1 d x k other => Sys2Proof.Machine.execSCmp c cc slot1 d x k other s
  | .sLwx c cc slot1 d x k other => Sys2Proof.Machine.execSLwx c cc slot1 d x k other s
  | .sLfx c cc slot1 d x k other => Sys2Proof.Machine.execSLfx c cc slot1 d x k other s
  | .sSwx c cc slot1 d x k other => Sys2Proof.Machine.execSSwx c cc slot1 d x k other s
  | .sLwo c cc slot1 d x k other => Sys2Proof.Machine.execSLwo c cc slot1 d x k other s
  | .sSwo c cc slot1 d x k other => Sys2Proof.Machine.execSSwo c cc slot1 d x k other s
  | .sAdda c cc slot1 d imm other => Sys2Proof.Machine.execSAdda c cc slot1 d imm other s
  | .sMva c cc slot1 d x k other => Sys2Proof.Machine.execSMva c cc slot1 d x k other s
  | .sMvd c cc slot1 d x k other => Sys2Proof.Machine.execSMvd c cc slot1 d x k other s
  | .sRank c cc slot1 d x k other => Sys2Proof.Machine.execSRank c cc slot1 d x k other s
  | .sPopc c cc slot1 d x k other => Sys2Proof.Machine.execSPopc c cc slot1 d x k other s
  | .sMac c cc slot1 d x k other => Sys2Proof.Machine.execSMac c cc slot1 d x k other s
  | .sMvy c cc slot1 d x k other => Sys2Proof.Machine.execSMvy c cc slot1 d x k other s
  | .sDcs c cc slot1 d x k other => Sys2Proof.Machine.execSDcs c cc slot1 d x k other s
  | .interruptTaken c => Sys2Proof.Machine.execInterruptTaken c s
  | .linkCoreReloaded => Sys2Proof.Machine.execLinkCoreReloaded s
  | .rsaPub e src w => Sys2Proof.Machine.execRsaPub e src w s
  | .rsaPssVerify e src w => Sys2Proof.Machine.execRsaPssVerify e src w s
  | .rsaCrt e src w => Sys2Proof.Machine.execRsaCrt e src w s
  | .modmul e src w => Sys2Proof.Machine.execModmul e src w s
  | .modexp e src w => Sys2Proof.Machine.execModexp e src w s
  | .ecdsaVerify e src w => Sys2Proof.Machine.execEcdsaVerify e src w s
  | .ecdsaSign e src w => Sys2Proof.Machine.execEcdsaSign e src w s
  | .ecdh e src w => Sys2Proof.Machine.execEcdh e src w s
  | .ecPubgen e src w => Sys2Proof.Machine.execEcPubgen e src w s
  | .ed25519Verify e src w => Sys2Proof.Machine.execEd25519Verify e src w s
  | .mldsaVerify e src w => Sys2Proof.Machine.execMldsaVerify e src w s
  | .operandMemoryWrite e src word v => Sys2Proof.Machine.execOperandMemoryWrite e src word v s
  | .kernelOperationDone e integrity => Sys2Proof.Machine.execKernelOperationDone e integrity s
  | .kernelAbortDone e => Sys2Proof.Machine.execKernelAbortDone e s
  | .keyUnitWrite src slot attr => Sys2Proof.Machine.execKeyUnitWrite src slot attr s
  | .keyUnitGenerate src slot curve attr => Sys2Proof.Machine.execKeyUnitGenerate src slot curve attr s
  | .keyUnitDerive src slot parent curve attr label context => Sys2Proof.Machine.execKeyUnitDerive src slot parent curve attr label context s
  | .keyUnitSetattr src slot attr => Sys2Proof.Machine.execKeyUnitSetattr src slot attr s
  | .keyUnitRead src slot => Sys2Proof.Machine.execKeyUnitRead src slot s
  | .keyUnitClear src slot => Sys2Proof.Machine.execKeyUnitClear src slot s
  | .keyUnitProvenance src slot nonce => Sys2Proof.Machine.execKeyUnitProvenance src slot nonce s
  | .rootGenerateFunction src => Sys2Proof.Machine.execRootGenerateFunction src s
  | .keyoutExpiry => Sys2Proof.Machine.execKeyoutExpiry s
  | .slotRemask slot ok => Sys2Proof.Machine.execSlotRemask slot ok s
  | .fuseArm src w => Sys2Proof.Machine.execFuseArm src w s
  | .fuseArmWindowExpiry => Sys2Proof.Machine.execFuseArmWindowExpiry s
  | .fuseFireBurn src w => Sys2Proof.Machine.execFuseFireBurn src w s
  | .fuseFireLock src w => Sys2Proof.Machine.execFuseFireLock src w s
  | .fuseFireAdvance src w => Sys2Proof.Machine.execFuseFireAdvance src w s
  | .fuseFireRevoke src w => Sys2Proof.Machine.execFuseFireRevoke src w s
  | .fuseFireReburn src w => Sys2Proof.Machine.execFuseFireReburn src w s
  | .fuseResense src => Sys2Proof.Machine.execFuseResense src s
  | .fuseLeaveTimeout => Sys2Proof.Machine.execFuseLeaveTimeout s
  | .fuseDone pulses => Sys2Proof.Machine.execFuseDone pulses s
  | .temperatureThresholdCrossing inside hot => Sys2Proof.Machine.execTemperatureThresholdCrossing inside hot s
  | .resenseDone findings => Sys2Proof.Machine.execResenseDone findings s
  | .supplyGlitch x => Sys2Proof.Machine.execSupplyGlitch x s
  | .bankSupplyExcursion x => Sys2Proof.Machine.execBankSupplyExcursion x s
  | .dieTemperatureAlarm t => Sys2Proof.Machine.execDieTemperatureAlarm t s
  | .threadWatchdogExpiry k t => Sys2Proof.Machine.execThreadWatchdogExpiry k t s
  | .keyRedraw => Sys2Proof.Machine.execKeyRedraw s
  | .coincidenceWindowClose => Sys2Proof.Machine.execCoincidenceWindowClose s
  | .alarmNormalTimer seq => Sys2Proof.Machine.execAlarmNormalTimer seq s
  | .backupTick mesh tempBad => Sys2Proof.Machine.execBackupTick mesh tempBad s
  | .caseSwitchChange n level => Sys2Proof.Machine.execCaseSwitchChange n level s
  | .vbatGlitch => Sys2Proof.Machine.execVbatGlitch s
  | .clock32Loss => Sys2Proof.Machine.execClock32Loss s
  | .logAppend ok => Sys2Proof.Machine.execLogAppend ok s
  | .segmentErase => Sys2Proof.Machine.execSegmentErase s
  | .logScan => Sys2Proof.Machine.execLogScan s
  | .backupLogDrain => Sys2Proof.Machine.execBackupLogDrain s
  | .leaveGrant => Sys2Proof.Machine.execLeaveGrant s
  | .reconciliationDone q => Sys2Proof.Machine.execReconciliationDone q s
  | .poolTotalChange k => Sys2Proof.Machine.execPoolTotalChange k s
  | .probe ch n pass => Sys2Proof.Machine.execProbe ch n pass s
  | .bucketDecay ch n => Sys2Proof.Machine.execBucketDecay ch n s
  | .lrBurnRetry => Sys2Proof.Machine.execLrBurnRetry s
  | .retirementReapply => Sys2Proof.Machine.execRetirementReapply s
  | .handoverReady => Sys2Proof.Machine.execHandoverReady s
  | .handoverReadyTimeout => Sys2Proof.Machine.execHandoverReadyTimeout s
  | .handoverReload => Sys2Proof.Machine.execHandoverReload s
  | .lossOfSignal l => Sys2Proof.Machine.execLossOfSignal l s
  | .signalPresent l => Sys2Proof.Machine.execSignalPresent l s
  | .trainingTimeout l => Sys2Proof.Machine.execTrainingTimeout l s
  | .blockLock l peerRates => Sys2Proof.Machine.execBlockLock l peerRates s
  | .blockLockLoss l => Sys2Proof.Machine.execBlockLockLoss l s
  | .mkaLive l => Sys2Proof.Machine.execMkaLive l s
  | .sakChangeDue l => Sys2Proof.Machine.execSakChangeDue l s
  | .sakChangeDone l => Sys2Proof.Machine.execSakChangeDone l s
  | .hello l h => Sys2Proof.Machine.execHello l h s
  | .credit l h => Sys2Proof.Machine.execCredit l h s
  | .creditTimer l => Sys2Proof.Machine.execCreditTimer l s
  | .objectFrame l h payload => Sys2Proof.Machine.execObjectFrame l h payload s
  | .leafFrame l h payload => Sys2Proof.Machine.execLeafFrame l h payload s
  | .abortFrame l h payload => Sys2Proof.Machine.execAbortFrame l h payload s
  | .notice => Sys2Proof.Machine.execNotice s
  | .spdmGetVersion l h payload => Sys2Proof.Machine.execSpdmGetVersion l h payload s
  | .spdmGetCapabilities l h payload => Sys2Proof.Machine.execSpdmGetCapabilities l h payload s
  | .spdmNegotiateAlgorithms l h payload => Sys2Proof.Machine.execSpdmNegotiateAlgorithms l h payload s
  | .spdmGetDigests l h payload => Sys2Proof.Machine.execSpdmGetDigests l h payload s
  | .spdmGetCertificate l h payload offset len => Sys2Proof.Machine.execSpdmGetCertificate l h payload offset len s
  | .spdmChallenge l h payload nonce => Sys2Proof.Machine.execSpdmChallenge l h payload nonce s
  | .spdmGetMeasurements l h payload index signed nonce => Sys2Proof.Machine.execSpdmGetMeasurements l h payload index signed nonce s
  | .spdmSegmentTimeout l => Sys2Proof.Machine.execSpdmSegmentTimeout l s
  | .objectTimeout xfer => Sys2Proof.Machine.execObjectTimeout xfer s
  | .leafVerify xfer n => Sys2Proof.Machine.execLeafVerify xfer n s
  | .leafTimeout xfer n => Sys2Proof.Machine.execLeafTimeout xfer n s
  | .autonomousEntry => Sys2Proof.Machine.execAutonomousEntry s
  | .transferSuspendExpiry xfer => Sys2Proof.Machine.execTransferSuspendExpiry xfer s
  | .flowReprogram p => Sys2Proof.Machine.execFlowReprogram p s
  | .flowManifestOnly p => Sys2Proof.Machine.execFlowManifestOnly p s
  | .flowServeSet p => Sys2Proof.Machine.execFlowServeSet p s
  | .flowRestage p => Sys2Proof.Machine.execFlowRestage p s
  | .flowShelfManifest => Sys2Proof.Machine.execFlowShelfManifest s
  | .flashProgramDone p back => Sys2Proof.Machine.execFlashProgramDone p back s
  | .mspiWriteWords m => Sys2Proof.Machine.execMspiWriteWords m s
  | .mspiReadWords addr clocked => Sys2Proof.Machine.execMspiReadWords addr clocked s
  | .mspiStatus clocked => Sys2Proof.Machine.execMspiStatus clocked s
  | .mspiIdentityRead clocked => Sys2Proof.Machine.execMspiIdentityRead clocked s
  | .registerWindowRead addr clocked => Sys2Proof.Machine.execRegisterWindowRead addr clocked s
  | .registerWindowWrite m => Sys2Proof.Machine.execRegisterWindowWrite m s
  | .rsLatchRead addr => Sys2Proof.Machine.execRsLatchRead addr s
  | .registerWrite src r v => Sys2Proof.Machine.execRegisterWrite src r v s
  | .mspiStall x => Sys2Proof.Machine.execMspiStall x s
  | .abortPke m => Sys2Proof.Machine.execAbortPke m s
  | .abortLane m => Sys2Proof.Machine.execAbortLane m s
  | .abortPort m f => Sys2Proof.Machine.execAbortPort m f s
  | .abortThread m => Sys2Proof.Machine.execAbortThread m s
  | .abortLink m => Sys2Proof.Machine.execAbortLink m s
  | .abortMailbox m => Sys2Proof.Machine.execAbortMailbox m s
  | .requestTimeout mb => Sys2Proof.Machine.execRequestTimeout mb s
  | .objectBufferTimeout => Sys2Proof.Machine.execObjectBufferTimeout s
  | .cmdGetInfo mb => Sys2Proof.Machine.execCmdGetInfo mb s
  | .cmdSetMspi mb => Sys2Proof.Machine.execCmdSetMspi mb s
  | .cmdWarmRestart mb => Sys2Proof.Machine.execCmdWarmRestart mb s
  | .cmdAbort mb x => Sys2Proof.Machine.execCmdAbort mb x s
  | .cmdObjectOpen mb => Sys2Proof.Machine.execCmdObjectOpen mb s
  | .cmdObjectWrite mb => Sys2Proof.Machine.execCmdObjectWrite mb s
  | .cmdObjectClose mb => Sys2Proof.Machine.execCmdObjectClose mb s
  | .cmdPolicySubmit mb => Sys2Proof.Machine.execCmdPolicySubmit mb s
  | .cmdWakeStart mb => Sys2Proof.Machine.execCmdWakeStart mb s
  | .cmdRewake mb => Sys2Proof.Machine.execCmdRewake mb s
  | .cmdDispensation mb => Sys2Proof.Machine.execCmdDispensation mb s
  | .cmdGetVerdicts mb => Sys2Proof.Machine.execCmdGetVerdicts mb s
  | .cmdGetMeasurement mb => Sys2Proof.Machine.execCmdGetMeasurement mb s
  | .cmdRevocationPrecheck mb => Sys2Proof.Machine.execCmdRevocationPrecheck mb s
  | .cmdClearHold mb => Sys2Proof.Machine.execCmdClearHold mb s
  | .cmdPortStatus mb => Sys2Proof.Machine.execCmdPortStatus mb s
  | .cmdHomeErase mb => Sys2Proof.Machine.execCmdHomeErase mb s
  | .cmdHomeWrite mb ok => Sys2Proof.Machine.execCmdHomeWrite mb ok s
  | .cmdAlarmList mb => Sys2Proof.Machine.execCmdAlarmList mb s
  | .cmdAlarmAck mb => Sys2Proof.Machine.execCmdAlarmAck mb s
  | .cmdAlarmRank mb => Sys2Proof.Machine.execCmdAlarmRank mb s
  | .cmdLogStatus mb => Sys2Proof.Machine.execCmdLogStatus mb s
  | .cmdLogRead mb => Sys2Proof.Machine.execCmdLogRead mb s
  | .cmdLogOwner mb => Sys2Proof.Machine.execCmdLogOwner mb s
  | .cmdLogRestart mb => Sys2Proof.Machine.execCmdLogRestart mb s
  | .cmdKeyWrite mb => Sys2Proof.Machine.execCmdKeyWrite mb s
  | .cmdKeyGenerate mb => Sys2Proof.Machine.execCmdKeyGenerate mb s
  | .cmdKeyDerive mb => Sys2Proof.Machine.execCmdKeyDerive mb s
  | .cmdKeySetattr mb => Sys2Proof.Machine.execCmdKeySetattr mb s
  | .cmdKeyRead mb => Sys2Proof.Machine.execCmdKeyRead mb s
  | .cmdKeyClear mb => Sys2Proof.Machine.execCmdKeyClear mb s
  | .cmdKeyInfo mb => Sys2Proof.Machine.execCmdKeyInfo mb s
  | .cmdKeyProvenance mb => Sys2Proof.Machine.execCmdKeyProvenance mb s
  | .cmdRootGenerate mb => Sys2Proof.Machine.execCmdRootGenerate mb s
  | .cmdIdentity mb => Sys2Proof.Machine.execCmdIdentity mb s
  | .cmdFuseBurn mb => Sys2Proof.Machine.execCmdFuseBurn mb s
  | .cmdFuseLock mb => Sys2Proof.Machine.execCmdFuseLock mb s
  | .cmdFuseAdvance mb => Sys2Proof.Machine.execCmdFuseAdvance mb s
  | .cmdFuseRevoke mb => Sys2Proof.Machine.execCmdFuseRevoke mb s
  | .cmdFuseReburn mb => Sys2Proof.Machine.execCmdFuseReburn mb s
  | .cmdFuseResense mb => Sys2Proof.Machine.execCmdFuseResense mb s
  | .cmdFuseRead mb => Sys2Proof.Machine.execCmdFuseRead mb s
  | .cmdLcAdvance mb => Sys2Proof.Machine.execCmdLcAdvance mb s
  | .cmdPageMap mb => Sys2Proof.Machine.execCmdPageMap mb s
  | .cmdRecover mb => Sys2Proof.Machine.execCmdRecover mb s
  | .cmdRecoverStatus mb => Sys2Proof.Machine.execCmdRecoverStatus mb s
  | .cmdRecoverCancel mb => Sys2Proof.Machine.execCmdRecoverCancel mb s
  | .cmdLinkPeer mb => Sys2Proof.Machine.execCmdLinkPeer mb s
  | .cmdLinkCak mb => Sys2Proof.Machine.execCmdLinkCak mb s
  | .cmdLinkStatus mb => Sys2Proof.Machine.execCmdLinkStatus mb s
  | .cmdHandoverPrepare mb => Sys2Proof.Machine.execCmdHandoverPrepare mb s
  | .cmdHandoverStatus mb => Sys2Proof.Machine.execCmdHandoverStatus mb s
  | .cmdReinstate mb probes => Sys2Proof.Machine.execCmdReinstate mb probes s
  | .cmdChannelStatus mb => Sys2Proof.Machine.execCmdChannelStatus mb s
  | .cmdBundleErase mb => Sys2Proof.Machine.execCmdBundleErase mb s
  | .cmdBundleWrite mb ok => Sys2Proof.Machine.execCmdBundleWrite mb ok s
  | .cmdRepairList mb => Sys2Proof.Machine.execCmdRepairList mb s
  | .cmdRepairReburn mb => Sys2Proof.Machine.execCmdRepairReburn mb s
  | .cmdLoadErase mb => Sys2Proof.Machine.execCmdLoadErase mb s
  | .cmdLoadWrite mb ok => Sys2Proof.Machine.execCmdLoadWrite mb ok s
  | .cmdLoadCommit mb => Sys2Proof.Machine.execCmdLoadCommit mb s
  | .cmdVendorProductionService mb => Sys2Proof.Machine.execCmdVendorProductionService mb s
  | .signatureWindowEnd => Sys2Proof.Machine.execSignatureWindowEnd s
  | .mkaLifeExpiry l => Sys2Proof.Machine.execMkaLifeExpiry l s
  | .macsecDrop l h => Sys2Proof.Machine.execMacsecDrop l h s
  | .malformedFrame l h payload => Sys2Proof.Machine.execMalformedFrame l h payload s
  | .spdmUnsupportedRequest l h payload => Sys2Proof.Machine.execSpdmUnsupportedRequest l h payload s
  | .mspiIgnoredFrame cmd => Sys2Proof.Machine.execMspiIgnoredFrame cmd s
  | .unknownCommandCode mb => Sys2Proof.Machine.execUnknownCommandCode mb s
  | .illegalInstruction c dw => Sys2Proof.Machine.execIllegalInstruction c dw s
  | .homePortFrameComplete => Sys2Proof.Machine.execHomePortFrameComplete s
  | .backupDomainSupplied => Sys2Proof.Machine.execBackupDomainSupplied s

end Sys2Proof.Machine
end

