-- ==== Sys2Proof/Machine/Tick.lean ====
section
/-! DEFINITION. One core cycle with nothing commanded. -/

namespace Sys2Proof.Machine

/-- CYC counts while the core PLL is locked; a core whose TCMP it meets gets line 11 (R217, R287, R298). The census unit checks its
pools (R399), a handover flips its roles once no command is in progress (R420), what waits for an engine fails when none is left
(R417). -/
def tick (s : State) : State :=
  if s.boot.coreLock then
    let s := s.censusCheck.handoverFlip.enginesOut
    let s : State := { s with cyc := s.cyc + 1 }
    s.each [0, 1, 2, 3] fun s c =>
      if (s.co c).tcmp.toNat = s.cyc.toNat % 2 ^ 36 then s.coU c fun k => { k with lines := k.lines ||| 0x0800 } else s
  else s

end Sys2Proof.Machine
end

