-- ==== Sys2Proof/Machine/Pins.lean ====
section
/-! DEFINITION. The balls between frames, as functions of the state (19 R500, R501, R504, R505, R507; 02 R44; 13 R377; 16
R429; 17 R461). -/

namespace Sys2Proof.Machine

open Sys2Proof

/-- What a ball does: high impedance, held by a weak pull-up, driven low or high, connected to VDD_AON or VSS; FCLK and H_FCLK
driven at the idle level of their mode; a link output unpowered, in electrical idle or sending; a test output under the
vendor production service; a mesh output that carries its pattern. -/
inductive Ball
  | hiZ | pullUp | low | high | vddAon | vss | clockIdle | unpowered | elecIdle | sending | service | pattern
deriving DecidableEq, Repr
/-- HEARTBEAT: high impedance, still low, or a pattern of a frequency in Hz with a high time in percent. -/
inductive Beat | hiZ | low | pattern (hz high : Nat)
deriving DecidableEq, Repr

/-- Pn_HOLD_N, on VDD_AON (R25, R26, R41, R498, R505). -/
def State.holdPin (s : State) (p : Nat) : Ball :=
  if !s.boot.sup.aon then .hiZ
  else if s.boot.dev.late then (if s.heldNow p then .low else .hiZ)
  else .low
/-- HOLD_REFk (R501). -/
def State.holdRef (s : State) : Ball := if s.boot.sup.aon then .vddAon else if s.boot.sup.vbat then .vss else .hiZ
/-- HEARTBEAT (R44, R504). -/
def State.heartbeat (s : State) : Beat :=
  if !s.boot.sup.aon then .hiZ
  else match s.boot.dev with
  | .off | .start => .low
  | .sealed => .pattern 250 25
  | .production => .pattern 250 50
  | .fwless | .headless => .pattern 250 75
  | .service | .ride => .pattern 1000 50
/-- ALARM_N (R377, R505). -/
def State.alarmPin (s : State) : Ball := if s.boot.sup.aon && s.alarmLow then .low else .hiZ
/-- MSPI_INT_N, on VDDIO_H (R461, R500, R505). -/
def State.intPin (s : State) : Ball :=
  if s.boot.sup.aon && s.homeUp && decide (s.boot.dev ≠ .off)
      && (List.range 8).any (fun q => decide ((s.mb q).rsp ≠ []) || (s.mb q).frozen.isSome)
  then .low else .hiZ
/-- MSPI_SO between frames (R451, R505). -/
def State.mspiOut (_ : State) : Ball := .hiZ

/-- The port's flash side is driven: in MASTER or PASS, in the states of the last column, on a good bank (R131, R500, R505). -/
def State.flashDriven (s : State) (p : Nat) : Bool :=
  s.boot.sup.aon && s.bankUp p && s.boot.dev.late && decide ((s.ph p).mode = .master ∨ (s.ph p).mode = .pass)
/-- Pn_FCS_N between frames: driven high, or held by its weak pull-up while the bank is good (R130, R500, R505). -/
def State.fcsPin (s : State) (p : Nat) : Ball :=
  if s.flashDriven p then .high
  else if s.boot.sup.aon && s.bankUp p then .pullUp
  else .hiZ
/-- Pn_FCLK between frames (R500, R505). -/
def State.fclkPin (s : State) (p : Nat) : Ball := if s.flashDriven p then .clockIdle else .hiZ
/-- Pn_HIO[3:0] and Pn_FIO[3:0] between frames (R133, R139, R505). -/
def State.ioPins (_ : State) (_ : Nat) : Ball := .hiZ

/-- H_FCS_N between frames (R500, R505). -/
def State.homeSelect (s : State) : Ball :=
  if !s.boot.sup.aon || !s.homeUp then .hiZ else if s.boot.dev = .off then .pullUp else .high
/-- H_FCLK between frames: in SEALED and PRODUCTION low, else the home port is master (R500, R505). -/
def State.homeClock (s : State) : Ball :=
  if !s.boot.sup.aon || !s.homeUp || decide (s.boot.dev = .off) then .hiZ
  else if s.boot.dev = .sealed ∨ s.boot.dev = .production then .low
  else .clockIdle
/-- H_FIO[3:0] between frames (R505). -/
def State.homeData (_ : State) : Ball := .hiZ

/-- LKl_TX (R62, R429, R505). -/
def State.linkTx (s : State) (l : Nat) : Ball :=
  if !(s.boot.sup.aon && s.boot.sup.sd && s.boot.sup.sda) then .unpowered
  else if !s.boot.dev.late then .elecIdle
  else match (s.ln l).st with
  | .down | .retired => .elecIdle
  | .training | .up | .secured => .sending

/-- TDO: the test access port answers only after the sense, in BLANK and FACTORY (R505, R507). -/
def State.tdoPin (s : State) : Ball :=
  if s.boot.sup.aon && decide (s.boot.dev ≠ .off) && s.boot.sensed && decide (s.lcLatched ≤ 1) then .service else .hiZ
/-- MESH_D0 to MESH_D3 while the backup domain is supplied (R505, R506). -/
def State.meshPin (s : State) : Ball := if s.backupUp then .pattern else .hiZ

end Sys2Proof.Machine
end

