-- ==== Sys2Proof/WellFormed.lean ====
section
/-! DEFINITION. Which command terms the block can be given: the limits that an operand's type does not state. A term that
is not well formed names no event of the spec; exec is total on it all the same. -/

namespace Sys2Proof

/-- Number of channels of a kind (R406). -/
def ChannelKind.count : ChannelKind → Nat
  | .port => 96 | .flash => 96 | .lane => 24 | .engine => 4 | .link => 2 | .sequencer => 12 | .stand => 6 | .home => 1

/-- No port stands twice in a list. -/
def portsOnce {α : Type} : List (PortId × α) → Bool
  | [] => true
  | (p, _) :: t => !(t.any fun e => decide (e.1 = p)) && portsOnce t

/-- A host frame's decisions arrive in the order of their edges (R294). -/
def arrivalsOk : List (Nat × Arrival) → Bool
  | [] => true
  | [_] => true
  | a :: b :: t => decide (a.1 ≤ b.1) && arrivalsOk (b :: t)

/-- A pool code of R392. -/
def poolCodeOk (q : BitVec 8) : Bool :=
  let n := q.toNat
  decide (n ≤ 6 ∨ (8 ≤ n ∧ n ≤ 11) ∨ (16 ≤ n ∧ n < 32))

/-- The command is well formed. -/
def Instr.wf : Instr → Bool
  | .wakeEntryEnd ids _ _ => portsOnce ids
  | .wakeRound bursts _ => portsOnce bursts && bursts.all fun e => decide (e.2.length ≤ 65536)
  | .hostFrame _ f => arrivalsOk f.arrivals
  | .stallTimeout _ f => arrivalsOk f.arrivals
  | .profileBreach _ f => arrivalsOk f.arrivals
  | .probe ch i _ => decide (i < ch.count)
  | .bucketDecay ch i => decide (i < ch.count)
  | .reconciliationDone q => poolCodeOk q
  | .keyUnitProvenance _ _ nonce => decide (nonce.length = 32)
  | .fuseDone pulses => pulses.all fun e => decide (1 ≤ e.2.2)
  | .spdmGetCertificate _ _ _ offset len => decide (offset < 65536 ∧ len < 65536)
  | .spdmChallenge _ _ _ nonce => decide (nonce.length = 32)
  | .spdmGetMeasurements _ _ _ _ signed nonce => decide (nonce.length = if signed then 32 else 0)
  | .leafVerify _ i => decide (i < 2 ^ 32)
  | .leafTimeout _ i => decide (i < 2 ^ 32)
  | _ => true

end Sys2Proof
end

