-- ==== Sys2Proof/Safety.lean ====
section
/-! DEFINITION. The terms in which statements about the SV96 are made: completion of a command, the canonical form of its
memories, the issue of a Fekiroth-36 word, requests and responses of the mailboxes. -/

namespace Sys2Proof.Machine

open Sys2Proof

/-! ### Completion -/

/-- Command `i` completes from `s`: exec answers a next state, and `P` holds of it. -/
def Completes (i : Instr) (s : State) (P : State → Prop) : Prop := ∃ t, exec i s = .next t ∧ P t

/-! ### Memories -/

/-- The memories stand in canonical form: keys strictly rising, nothing listed that reads as an unlisted key does. -/
def State.memWf (s : State) : Bool :=
  Tab.wf 0xFF s.home && Tab.wf 0 s.gran.data && Tab.wf [] s.mems && s.mems.all fun e => Tab.wf 0 e.2

/-- Every byte of the home flash outside [a, a + n) reads in `t` as in `s`. -/
def HomeSameBut (s t : State) (a n : Nat) : Prop := ∀ b, ¬ (a ≤ b ∧ b < a + n) → t.homeByte b = s.homeByte b

/-! ### Pools (R393) -/

/-- A pool is conserved: free units and the units its holders hold add up to TOTAL. -/
def Pool.conserved (q : Pool) : Bool := decide (q.free + q.sumHeld = q.total) && Tab.wf 0 q.held

/-- HELD of a holder in the census (R393). -/
def State.heldOf (s : State) (q h : Nat) : Nat := Tab.get 0 (s.po q).held h
/-- The pool grants and returns at once: state OK, nothing that a reconciliation takes in or holds back, no refused return that
waits for its alarm (R396, R399, R400). -/
def Pool.quiet (p : Pool) : Bool := decide (p.st = .ok) && p.ret.isEmpty && p.late.isEmpty && !p.fault
/-- The leave of an arbiter's next class 1 request of n tokens is granted at once (R395). -/
def State.leaveFor1 (s : State) (n : Nat) : Prop := s.leave.queue = [] ∧ s.roomFor1 n = true

/-! ### Verifications in chain mode (R319 to R321, R394) -/

/-- The verdict unit verifies this signature: it waits for an engine or runs on one. -/
def State.Verifying (s : State) (j : ChainJob) : Prop := j ∈ s.wake.verify ∨ ∃ e, e < 4 ∧ (s.en e).chain = some j
/-- A signature of this scheme is given to a Kernel engine: it is not hash-based, and an engine is left (R322, R417). -/
def State.onEngine (s : State) (scheme : Nat) : Bool := !hashScheme scheme && s.engineLeft
/-- How the decision of a signature that no engine verifies comes out: a hash-based one on a lane, any other fails (R322, R417). -/
def ChainJob.atOnce (j : ChainJob) : Bool := hashScheme j.scheme && sigVerifies j.scheme j.digest j.block

/-- An operation that LEAD starts for a command or an SPDM request waits for an engine or has been given to one (R349, R439). -/
def State.Tasked (s : State) (j : KTask) : Prop := j ∈ s.keys.tasks ∨ ∃ e, e < 4 ∧ (s.en e).task = some j

/-! ### Words of the Fekiroth-36 (R272 to R289) -/

/-- The state in which core c's next word issues: results and stores that are due have landed. -/
def State.atIssue (s : State) (c : CoreId) : State := s.slotTo c (s.co (coreNo c)).slot
/-- The core as its next word finds it. -/
def State.coreAt (s : State) (c : CoreId) : Core := (s.atIssue c).co (coreNo c)
/-- Word w issues on core c: the core runs, nothing it waits for is under way, the address may be fetched, the word is legal,
a P core's word is unconditional, the condition holds, and what the word reads carries a good check (R271, R272, R276, R277,
R279). -/
def State.Ready (s : State) (c : CoreId) (w : W36) : Prop :=
  (s.co (coreNo c)).run = .running ∧ s.xipWaits c = false ∧ (s.coreAt c).badRegs.contains pcReg = false
    ∧ fetchOk c (s.coreAt c).pc.toNat = true ∧ wordLegal c w = true
    ∧ (isP c = true → wordCond w = 0) ∧ condHolds (wordCond w) (s.coreAt c).fl = true
    ∧ (s.atIssue c).readBad c (s.coreAt c).pc.toNat 8 = false ∧ (s.coreAt c).readsBad w = false
    ∧ (wordCond w ≠ 0 → .fl ∉ (s.coreAt c).flaws)

/-- Word w meets every condition of Ready but one: a register it reads fails its check (R276). -/
def State.ReadsFlawed (s : State) (c : CoreId) (w : W36) : Prop :=
  (s.co (coreNo c)).run = .running ∧ s.xipWaits c = false ∧ (s.coreAt c).badRegs.contains pcReg = false
    ∧ fetchOk c (s.coreAt c).pc.toNat = true ∧ wordLegal c w = true
    ∧ (isP c = true → wordCond w = 0) ∧ condHolds (wordCond w) (s.coreAt c).fl = true
    ∧ (s.atIssue c).readBad c (s.coreAt c).pc.toNat 8 = false ∧ .fl ∉ (s.coreAt c).flaws ∧ (s.coreAt c).readsBad w = true

/-- Everything but the cores is the same. -/
def SameButCores (s t : State) : Prop := { t with cores := s.cores } = s

/-- A word has issued on core c from `u` and left its core as `k`; no other core has changed. -/
def State.Left (u t : State) (c : CoreId) (k : Core) : Prop :=
  SameButCores u t ∧ t.co (coreNo c) = k ∧ ∀ j, j ≠ coreNo c → t.co j = u.co j

/-- The word issued, its one result in flight: it lands in `d` at distance `dist` with value `v` (R289). -/
def State.Issued (s : State) (c : CoreId) (d : Dest) (v : W72) (dist : Nat) (t : State) : Prop :=
  (s.atIssue c).Left t c (((s.coreAt c).lands d v (distOn c dist)).advance none)

/-- What a load of n bytes at address a finds in `u` on core c, and the state after it (R265, R300): local memory, ROM, a
slice of the thread's port, a device register (which one stands there is a free value), a line of the prefetch buffer. -/
inductive Loads (u : State) (c : CoreId) (a n : Nat) : State → List Byte → Prop
  | mem (m : Nat) (h : u.place c a = .mem m) (hb : u.readBad c a n = false) : Loads u c a n u (Tab.range 0 (Tab.get [] u.mems m) a n)
  | rom (r : Nat) (h : u.place c a = .rom r) : Loads u c a n u ((List.range n).map fun i => Config.rom r (a + i))
  | slice (l : List Byte) (off : Nat) (h : u.place c a = .bytes l off) (hb : u.readBad c a n = false) :
      Loads u c a n u ((List.range n).map fun i => byteAt l (a - off + i))
  | device (h : u.place c a = .device) (h4 : n = 4) : Loads u c a n (u.deviceRead c a).2 (leBytes (u.deviceRead c a).1.toNat 4)
  | xip (l : List Byte) (h : u.place c a = .xip) (hl : u.xipLine a = some l) :
      Loads u c a n (u.xipTouch a) ((List.range n).map fun i => byteAt l (a % 256 + i))

/-- The word loaded from `v`, the state its load left, and its result is in flight at distance 3. -/
def State.LoadIssued (v : State) (c : CoreId) (d : Dest) (x : W72) (t : State) : Prop :=
  v.Left t c (((v.co (coreNo c)).lands d x (distOn c 3)).advance none)

/-- The store issued: its bytes wait to become visible at distance 2, and no memory has changed yet (R288). -/
def State.StoreIssued (s : State) (c : CoreId) (a : Nat) (bs : List Byte) (t : State) : Prop :=
  (s.atIssue c).Left t c (({ s.coreAt c with
    stores := (s.coreAt c).stores ++ [{ slot := (s.coreAt c).slot + distOn c 2, addr := a, bytes := bs }] } : Core).advance none)

/-- The transfer issued: its target issues after two shadow words (R285). -/
def State.Transfers (s : State) (c : CoreId) (target : W24) (t : State) : Prop :=
  (s.atIssue c).Left t c ((s.coreAt c).advance (some target))

/-- A short op neither faults nor waits in the state the word finds. -/
def State.ShortGoes (s : State) (c : CoreId) (x : BitVec 16) : Prop :=
  ∃ u, shortOp c (s.coreAt c) x.toNat false (s.atIssue c) = .go u none
/-- The two slots of a paired word: the op in one, the rest in the other. -/
def pairWord (cc : BitVec 3) (slot1 : Bool) (op other : BitVec 16) : W36 :=
  wordPair cc (if slot1 then other else op) (if slot1 then op else other)
/-- The result of a short op is in flight: the word has issued, and `v` lands in `d` at distance `dist` unless slot 1
overwrites what slot 0 would write (R284). -/
def State.ShortIssued (s : State) (c : CoreId) (slot1 : Bool) (other : BitVec 16) (d : Dest) (v : W72) (dist : Nat)
    (t : State) : Prop :=
  (t.co (coreNo c)).slot = (s.coreAt c).slot + 1 ∧
    (slot1 = true ∨ shortDest other.toNat ≠ some d →
      ({ slot := (s.coreAt c).slot + distOn c dist, dest := d, val := v } : Landing) ∈ (t.co (coreNo c)).land)

/-! ### Mailboxes (R457 to R463) -/

/-- Firmware serves next, from mailbox q, a request with this COMMAND, TAG and argument words, its RSVD byte zero and its
words' parity good (R384, R462, R463). -/
def State.Serves (s : State) (q code : Nat) (tag : Byte) (ws : List W32) : Prop :=
  ∃ h, s.request q (fun c => decide (c = code)) = some (h, ws) ∧ hdrTag h = tag ∧ h / 2 ^ 8 % 2 ^ 8 = 0
    ∧ (s.mb q).parity = false
/-- Every word that mailbox q has to deliver: those written and those that wait for credits (R463). -/
def State.outgoing (s : State) (q : Nat) : List W32 := (s.mb q).rsp ++ (s.mb q).owed.flatten
/-- The request has been answered: after what mailbox q had to deliver come a header with STATUS and the result words
(R462). -/
def Answered (s t : State) (q : Nat) (tag : Byte) (status : Nat) (ws : List W32) : Prop :=
  t.outgoing q = s.outgoing q ++ rspHeader status tag ws.length :: ws
/-- The command is in progress: its response comes later. -/
def InProgress (t : State) (q : Nat) (tag : Byte) : Prop := (t.mb q).tag = some tag

/-- Firmware executes next, in SERVICE, the request of this mailbox with this COMMAND, TAG and argument words (R463, R468). -/
def State.Runs (s : State) (mb : MailboxId) (code : Nat) (tag : Byte) (ws : List W32) : Prop :=
  s.boot.dev = .service ∧ s.Serves mb.val code tag ws
/-- The response to the request of mailbox q has this STATUS and these result words, and nothing but the mailboxes' words,
their credits and the cores' interrupt lines has changed. -/
def Told (s t : State) (q : Nat) (tag : Byte) (status : Nat) (ws : List W32) : Prop :=
  Answered s t q tag status ws
    ∧ { t with mspi := { t.mspi with boxes := s.mspi.boxes, lastServed := s.mspi.lastServed }, leave := s.leave, cores := s.cores } = s

/-- The command in progress of mailbox q waits for the verification `j` of its object (R319, R394, R466). -/
def State.CallWaits (t : State) (q : Nat) (tag : Byte) (code : Nat) (ws : List W32) (o : List Byte) (j : ChainJob) : Prop :=
  InProgress t q tag ∧ (t.mb q).call = some { code := code, args := ws, obj := o, sig := some j } ∧ t.Verifying j
/-- An engine runs the last part of the verification that the command in progress of mailbox q waits for, and no operation of
LEAD waits for an engine. -/
def State.CallEnds (s : State) (e : EngineId) (q : Nat) (tag : Byte) (code : Nat) (ws : List W32) (o : List Byte) (j : ChainJob) :
    Prop :=
  (s.en e.val).state = .busy ∧ (s.en e.val).chain = some j ∧ ((hybridParts j.scheme).isNone = true ∨ j.second = true)
    ∧ j.use = .command q ∧ (s.mb q).call = some { code := code, args := ws, obj := o, sig := some { j with second := false } }
    ∧ (s.mb q).tag = some tag ∧ (s.mb q).aborted = false ∧ s.keys.tasks = []

/-! ### Alarms (R374, R376) -/

/-- A new ACTIVE alarm of a source, at the rank of its rank register. -/
def Alarmed (s t : State) (code tkind target : Nat) : Prop :=
  ∃ a ∈ t.alarms.active, s.alarms.seq < a.seq ∧ a.code = code ∧ a.rank = s.rankOf code ∧ a.tkind = tkind ∧ a.target = target
/-- A backup source that is armed and whose condition does not persist may trip (R387). -/
def State.armedFor (s : State) (code : Nat) : Prop :=
  s.backupUp = true ∧ s.backup.disarmed.contains code = false ∧ s.backup.persist.any (fun e => decide (e.1 = code)) = false

/-! ### Frames of the trust link (R433 to R435) -/

/-- The next frame of the peer on lane l arrives inside its window. -/
def State.RxNext (s : State) (l : Nat) (h : TrustHeader) : Prop :=
  s.secured l = true ∧ (s.po (10 + l)).st = .ok ∧ h.sent.toNat = ((s.ln l).counted + 1) % 65536
    ∧ ((s.ln l).limit + 65536 - h.sent.toNat) % 65536 < 32768
/-- What a frame to the peer says: type, flags, XFER, INDEX, payload. -/
abbrev FrameSays := Nat × Nat × W32 × Nat × List Byte
/-- What the device has sent or has ready to send on lane l. -/
def State.handed (s : State) (l : Nat) : List FrameSays :=
  ((s.linkOut ++ (s.ln l).wait).filter fun f => decide (f.lane = l)).map fun f => (f.type, f.flags, f.xfer, f.index, f.payload)
/-- The frames `fs` follow on lane l, and at most a CREDIT after them. -/
def Handed (s t : State) (l : Nat) (fs : List FrameSays) : Prop :=
  t.handed l = s.handed l ++ fs ∨ t.handed l = s.handed l ++ fs ++ [(2, 0, 0, 0, [])]
/-- An SPDM message in segments of 1,968 bytes (R438). -/
def spdmFrames (xfer : W32) (m : List Byte) : List FrameSays :=
  let n := max 1 (ceilDiv m.length 1968)
  (List.range n).map fun i => (0x10, if i + 1 = n then 1 else 0, xfer, i, sub m (1968 * i) 1968)
/-- The bytes of a signed SPDM response: the message and the Alias key's ECDSA P-384 signature over the transcript,
under the random number r (R439). -/
def State.signedBytes (s : State) (r : Nat) (context : String) (transcript msg : List Byte) : List Byte :=
  let v := ecdsaSign 1 (s.slotKey 3).toNat (sha384 (spdmSignedBytes context transcript)) r
  msg ++ beBytes v.1 48 ++ beBytes v.2 48

/-! ### MSPI (R451 to R457) -/

/-- What the host reads of a frame that returns these words: their CRC word while CRC_ON is 1, then ones. -/
def State.hostReads (s : State) (ws : List W32) (crc : W32) (clocked : Nat) : List W32 :=
  let all := if s.mspi.crcOn then ws ++ [crc] else ws
  (all ++ List.replicate (clocked - all.length) 0xFFFFFFFF).take clocked

/-- A 0xAB frame names target i of this FUNCTION, in a state that answers it and in its form (R451, R455, R475). -/
def State.AbortOf (s : State) (m : MspiIn) (fn i : Nat) : Prop :=
  s.boot.dev = .service ∧ s.mspiDead = false ∧ m.addr.toNat = fn * 2 ^ 20 + i * 2 ^ 12 ∧ s.hostFrame 0xAB m = .ok []
    ∧ abortIndexOk fn i = true

/-! ### Fuse functions of commands (R365, R471) -/

/-- A fuse function of this core on a unit meets every condition of its FIRE (R365). -/
def State.FuseReady (s : State) (src : Agent) (fn code a : Nat) : Prop :=
  ∃ u, otpUnit code = some u ∧ s.fuses.state = .idle ∧ s.fuseIssuer fn u = some src ∧ s.fuseStateOk fn u = true
    ∧ s.fuseOwn fn u a = 0 ∧ s.fuses.tempOk = true ∧ s.mainGood = true
/-- The command is in progress and its fuse function burns, or waits for its leave; no bit has changed yet. -/
def Burns (s t : State) (q : Nat) (tag : Byte) (fn code : Nat) : Prop :=
  InProgress t q tag ∧ t.fuses.state = .burning ∧ fuseFn t.fuses.word = fn ∧ fuseUnit t.fuses.word = code
    ∧ t.fuses.otp = s.fuses.otp ∧ (t.fuses.waiting = true ∨ t.heldOf 0 6 = s.heldOf 0 6 + 2)

/-! ### The commands of the mailboxes -/

/-- A command of Shentiha: its mailbox, its code, whether MB0 takes it (R468, R473). -/
def shentihaOf : Instr → Option (MailboxId × Nat × Bool)
  | .cmdGetInfo mb => some (mb, 0x01, true)
  | .cmdSetMspi mb => some (mb, 0x02, true)
  | .cmdWarmRestart mb => some (mb, 0x03, true)
  | .cmdAbort mb _ => some (mb, 0x04, true)
  | .cmdObjectOpen mb => some (mb, 0x05, true)
  | .cmdObjectWrite mb => some (mb, 0x06, true)
  | .cmdObjectClose mb => some (mb, 0x07, true)
  | .cmdPolicySubmit mb => some (mb, 0x10, false)
  | .cmdWakeStart mb => some (mb, 0x11, false)
  | .cmdRewake mb => some (mb, 0x12, false)
  | .cmdDispensation mb => some (mb, 0x13, true)
  | .cmdGetVerdicts mb => some (mb, 0x14, true)
  | .cmdGetMeasurement mb => some (mb, 0x15, false)
  | .cmdRevocationPrecheck mb => some (mb, 0x16, false)
  | .cmdClearHold mb => some (mb, 0x17, true)
  | .cmdPortStatus mb => some (mb, 0x18, true)
  | .cmdHomeErase mb => some (mb, 0x19, false)
  | .cmdHomeWrite mb _ => some (mb, 0x1A, false)
  | .cmdAlarmList mb => some (mb, 0x20, true)
  | .cmdAlarmAck mb => some (mb, 0x21, true)
  | .cmdAlarmRank mb => some (mb, 0x22, false)
  | .cmdLogStatus mb => some (mb, 0x28, false)
  | .cmdLogRead mb => some (mb, 0x29, false)
  | .cmdLogOwner mb => some (mb, 0x2A, false)
  | .cmdLogRestart mb => some (mb, 0x2B, false)
  | .cmdKeyWrite mb => some (mb, 0x30, false)
  | .cmdKeyGenerate mb => some (mb, 0x31, false)
  | .cmdKeyDerive mb => some (mb, 0x32, false)
  | .cmdKeySetattr mb => some (mb, 0x33, false)
  | .cmdKeyRead mb => some (mb, 0x34, false)
  | .cmdKeyClear mb => some (mb, 0x35, false)
  | .cmdKeyInfo mb => some (mb, 0x36, false)
  | .cmdKeyProvenance mb => some (mb, 0x37, false)
  | .cmdRootGenerate mb => some (mb, 0x38, false)
  | .cmdIdentity mb => some (mb, 0x39, false)
  | .cmdFuseBurn mb => some (mb, 0x40, false)
  | .cmdFuseLock mb => some (mb, 0x41, false)
  | .cmdFuseAdvance mb => some (mb, 0x42, false)
  | .cmdFuseRevoke mb => some (mb, 0x43, false)
  | .cmdFuseReburn mb => some (mb, 0x44, false)
  | .cmdFuseResense mb => some (mb, 0x45, false)
  | .cmdFuseRead mb => some (mb, 0x46, false)
  | .cmdLcAdvance mb => some (mb, 0x47, false)
  | .cmdPageMap mb => some (mb, 0x50, false)
  | .cmdRecover mb => some (mb, 0x58, false)
  | .cmdRecoverStatus mb => some (mb, 0x59, false)
  | .cmdRecoverCancel mb => some (mb, 0x5A, true)
  | .cmdLinkPeer mb => some (mb, 0x60, false)
  | .cmdLinkCak mb => some (mb, 0x61, false)
  | .cmdLinkStatus mb => some (mb, 0x62, false)
  | .cmdHandoverPrepare mb => some (mb, 0x68, false)
  | .cmdHandoverStatus mb => some (mb, 0x69, true)
  | .cmdReinstate mb _ => some (mb, 0x6A, false)
  | .cmdChannelStatus mb => some (mb, 0x6B, false)
  | .cmdBundleErase mb => some (mb, 0x70, false)
  | .cmdBundleWrite mb _ => some (mb, 0x71, false)
  | _ => none

/-! ### Writers of the home flash -/

/-- The commands that may change a byte of the home flash: appends to the log, its drain, its erase, its scan and its
restart, a policy that is accepted once an engine has verified it, erases and writes of regions and bundle slots, the end of a flow's program. -/
def writesHome : Instr → Bool
  | .logAppend _ | .backupLogDrain | .segmentErase | .logScan => true
  | .cmdPolicySubmit _ | .cmdHomeErase _ | .cmdHomeWrite _ _ | .cmdLogOwner _ | .cmdLogRestart _ => true
  | .cmdBundleErase _ | .cmdBundleWrite _ _ | .cmdLoadErase _ | .cmdLoadWrite _ _ | .flashProgramDone _ _ => true
  | .kernelOperationDone _ _ => true
  | _ => false

/-! ### What a command leaves alone -/

/-- The commands outside which no verdict changes: resets, a wake, its verdicts and what starts one, a fall of power-good, a
dispensation, the start of a flow of recovery; and those in which a sequencer may retire in a wake (R102): probes, the
re-application of retirements, tests of lanes, aborts, frames that carry events. -/
def setsVerdict : Instr → Bool
  | .supplyGood _ | .supplyNotGood _ | .refclkHoldoverExpiry | .pllLockLoss _ | .wakeAutoStart | .wakeRound _ _
  | .drainEnd | .verdictStage | .pgFall _ | .leaveGrant | .flowReprogram _ | .flowManifestOnly _ | .flowServeSet _
  | .flowShelfManifest | .kernelOperationDone _ _
  | .cmdWakeStart _ | .cmdRewake _ | .cmdDispensation _ => true
  | .probe _ _ _ | .retirementReapply | .selfTestSlot _ _ | .wakeEntryEnd _ _ _ | .hostFrame _ _ | .stallTimeout _ _
  | .profileBreach _ _ | .abortPke _ | .abortLane _ | .abortPort _ _ | .abortThread _ | .abortLink _ | .abortMailbox _
  | .cmdAbort _ _ => true
  | _ => false
/-- The commands outside which no port's edge machine changes (frame tag, parameters, ADDR4, continuous read, the last
outcome, the frames sent in MASTER), nor the frames of the home port, which stand at 127: the writers of the home flash, resets, frames, a schedule or rule rebuild, a wake, a handback, an abort, a probe of its
port, a flow of recovery. -/
def movesEdge : Instr → Bool
  | .supplyGood _ | .supplyNotGood _ | .refclkHoldoverExpiry | .pllLockLoss _ | .scheduleContainerLoad _
  | .wakeAutoStart | .verdictStage | .handback _ _ | .hostFrame _ _ | .stallTimeout _ _ | .profileBreach _ _
  | .contExitFrame _ | .rebuildContainer | .deferredPortUpdate _ | .leaveGrant | .probe _ _ _ | .flowReprogram _
  | .flowManifestOnly _ | .flowServeSet _ | .flowShelfManifest | .wakeEntryEnd _ _ _ | .wakeRound _ _
  | .abortPke _ | .abortLane _ | .abortPort _ _ | .abortThread _
  | .abortLink _ | .abortMailbox _ | .cmdAbort _ _ | .cmdWakeStart _ | .cmdRewake _ | .cmdReinstate _ _ => true
  | c => writesHome c
/-- The commands outside which the device sends no frame on the trust link: a HELLO, a CREDIT, requests and answers
of transfers and of SPDM, a NOTICE, an ABORT, of a frame's events the end of a flow; a reset clears them. -/
def sendsFrames : Instr → Bool
  | .supplyGood _ | .supplyNotGood _ | .refclkHoldoverExpiry | .pllLockLoss _ | .wakeEntryEnd _ _ _
  | .selfTestSlot _ _ | .scrubRead _ | .linkCoreReloaded | .probe _ _ _ | .retirementReapply | .lossOfSignal _
  | .blockLockLoss _ | .mkaLive _ | .hello _ _ | .credit _ _ | .creditTimer _ | .objectFrame _ _ _ | .leafFrame _ _ _
  | .abortFrame _ _ _ | .notice | .spdmGetVersion _ _ _ | .spdmGetCapabilities _ _ _ | .spdmNegotiateAlgorithms _ _ _
  | .spdmGetDigests _ _ _ | .spdmGetCertificate _ _ _ _ _ | .spdmChallenge _ _ _ _ | .spdmGetMeasurements _ _ _ _ _ _
  | .objectTimeout _ | .leafVerify _ _ | .leafTimeout _ _ | .transferSuspendExpiry _ | .flowReprogram _
  | .flowManifestOnly _ | .flowServeSet _ | .flowRestage _ | .flowShelfManifest | .flashProgramDone _ _ | .abortPke _
  | .abortLane _ | .abortPort _ _ | .abortThread _ | .abortLink _ | .abortMailbox _ | .cmdAbort _ _ | .cmdRecover _
  | .kernelOperationDone _ _ | .kernelAbortDone _ | .leaveGrant | .linkCoreRelease
  | .hostFrame _ _ | .stallTimeout _ _ | .profileBreach _ _ | .cmdRecoverCancel _ | .mkaLifeExpiry _ | .malformedFrame _ _ _ | .spdmUnsupportedRequest _ _ _ => true
  | _ => false
/-- The commands that may set the cycle counter CYC: resets and the release of the seed core. -/
def setsCyc : Instr → Bool
  | .supplyGood _ | .supplyNotGood _ | .seedCoreRelease _ | .refclkHoldoverExpiry | .pllLockLoss _ => true
  | _ => false

end Sys2Proof.Machine
end

