-- ==== Sys2Proof/Certificates/Slice0/Obligations.lean ====
section
/-! DEFINITION. The statements for the provers. -/

open Sys2Proof Sys2Proof.Machine

/-! ### Fekiroth-36 words (09) -/

/-- R280, R281, R282, R288: the long arithmetic and logic ops complete on every core where their word is ready; the result
is in flight to Dd at distance 1 (MUL: 4), nothing else but the slot, the pc and pending transfers of that core changes.
-/
def Obligations.LongArithmeticResults : Prop :=
  ∀ (s : State) (c : CoreId) (cc rd rs rt : BitVec 4) (fn : BitVec 13) (imm : BitVec 17) (wide : BitVec 21),
    let k := s.coreAt c
    (s.Ready c (wordLong 0x01 cc (layR rd rs rt fn)) →
      Completes (.alu c cc rd rs rt fn) s (s.Issued c (.d rd) ((aluOp fn.toNat (k.rd rs.toNat) (k.rd rt.toNat)).setWidth 72) 1))
    ∧ (s.Ready c (wordLong 0x02 cc (layI rd rs imm)) →
      Completes (.addi c cc rd rs imm) s (s.Issued c (.d rd) ((k.rd rs.toNat + imm.signExtend 36).setWidth 72) 1))
    ∧ (s.Ready c (wordLong 0x03 cc (layI rd rs imm)) →
      Completes (.andi c cc rd rs imm) s (s.Issued c (.d rd) ((k.rd rs.toNat &&& imm.setWidth 36).setWidth 72) 1))
    ∧ (s.Ready c (wordLong 0x04 cc (layI rd rs imm)) →
      Completes (.ori c cc rd rs imm) s (s.Issued c (.d rd) ((k.rd rs.toNat ||| imm.setWidth 36).setWidth 72) 1))
    ∧ (s.Ready c (wordLong 0x05 cc (layI rd rs imm)) →
      Completes (.xori c cc rd rs imm) s (s.Issued c (.d rd) ((k.rd rs.toNat ^^^ imm.setWidth 36).setWidth 72) 1))
    ∧ (s.Ready c (wordLong 0x06 cc (layI rd rs imm)) →
      Completes (.shfi c cc rd rs imm) s
        (s.Issued c (.d rd) ((shiftImm (imm.toNat / 64 % 4) (k.rd rs.toNat) (imm.toNat % 64)).setWidth 72) 1))
    ∧ (s.Ready c (wordLong 0x07 cc (layW rd wide)) →
      Completes (.movl c cc rd wide) s (s.Issued c (.d rd) (wide.setWidth 72) 1))
    ∧ (s.Ready c (wordLong 0x08 cc (layW rd wide)) →
      Completes (.movh c cc rd wide) s
        (s.Issued c (.d rd) (((wide.setWidth 15) ++ (k.rd rd.toNat).setWidth 21).setWidth 72) 1))
    ∧ (s.Ready c (wordLong 0x0F cc (layI rd rs imm)) →
      Completes (.exti c cc rd rs imm) s
        (s.Issued c (.d rd) ((extract36 (k.rd rs.toNat) (imm.toNat / 64 % 64) (imm.toNat % 64)).setWidth 72) 1))
    ∧ (s.Ready c (wordLong 0x0C cc (layR rd rs rt fn)) →
      Completes (.mul c cc rd rs rt fn) s (s.Issued c (.d rd) ((mulOp fn.toNat (k.rd rs.toNat) (k.rd rt.toNat)).setWidth 72) 4))

/-- R278, R280, R288: NOP, the compares, the accumulator ops and the address ops complete where their word is ready; a
compare's flags land in FL at distance 1, an accumulator's value at distance 2, an address at distance 1. -/
def Obligations.LongFlagsAccumulatorsAddresses : Prop :=
  ∀ (s : State) (c : CoreId) (cc rd rs rt : BitVec 4) (fn : BitVec 13) (imm : BitVec 17) (ad : BitVec 3) (wide : BitVec 22),
    let k := s.coreAt c
    (s.Ready c (wordLong 0x00 cc 0) → Completes (.nop c cc) s fun t => (s.atIssue c).Left t c (k.advance none))
    ∧ (s.Ready c (wordLong 0x09 cc (layR 0 rs rt 0)) →
      Completes (.cmp c cc rs rt) s (s.Issued c .fl ((subFlags (k.rd rs.toNat) (k.rd rt.toNat)).setWidth 72) 1))
    ∧ (s.Ready c (wordLong 0x0A cc (layI 0 rs imm)) →
      Completes (.cmpi c cc rs imm) s (s.Issued c .fl ((subFlags (k.rd rs.toNat) (imm.signExtend 36)).setWidth 72) 1))
    ∧ (s.Ready c (wordLong 0x0B cc (layR 0 rs rt 0)) →
      Completes (.tst c cc rs rt) s (s.Issued c .fl ((tstFlags (k.rd rs.toNat) (k.rd rt.toNat)).setWidth 72) 1))
    ∧ (s.Ready c (wordLong 0x0D cc (layR rd rs rt fn)) →
      Completes (.macy c cc rd rs rt fn) s (s.Issued c (.y (rd.setWidth 2))
        (macOp fn.toNat (k.ry (rd.toNat % 4)) (k.rd rs.toNat) (k.rd rt.toNat)) 2))
    ∧ (s.Ready c (wordLong 0x0E cc (layR rd rs rt fn)) →
      (fn = 0 → Completes (.mvy c cc rd rs rt fn) s (s.Issued c (.d rd) ((lo36 (k.ry (rs.toNat % 4))).setWidth 72) 1))
      ∧ (fn = 1 → Completes (.mvy c cc rd rs rt fn) s (s.Issued c (.d rd) ((hi36 (k.ry (rs.toNat % 4))).setWidth 72) 1))
      ∧ (fn = 2 → Completes (.mvy c cc rd rs rt fn) s
          (s.Issued c (.y (rd.setWidth 2)) (k.rd rt.toNat ++ k.rd rs.toNat) 2)))
    ∧ (s.Ready c (wordLong 0x10 cc (layI rd rs imm)) →
      Completes (.adda c cc rd rs imm) s
        (s.Issued c (.a (rd.setWidth 3)) ((k.ra (rs.toNat % 8) + imm.signExtend 24).setWidth 72) 1))
    ∧ (s.Ready c (wordLong 0x11 cc (layR rd rs rt fn)) →
      (fn = 0 → Completes (.mva c cc rd rs rt fn) s
        (s.Issued c (.a (rd.setWidth 3)) (((k.rd rs.toNat).setWidth 24).setWidth 72) 1))
      ∧ (fn = 1 → Completes (.mva c cc rd rs rt fn) s
        (s.Issued c (.d rd) (((k.ra (rs.toNat % 8)).setWidth 36).setWidth 72) 1))
      ∧ (fn = 2 → Completes (.mva c cc rd rs rt fn) s
        (s.Issued c (.a (rd.setWidth 3)) ((k.ra (rs.toNat % 8) + (k.rd rt.toNat).setWidth 24).setWidth 72) 1)))
    ∧ (s.Ready c (wordLong 0x12 cc (layAW ad wide)) →
      Completes (.mova c cc ad wide) s (s.Issued c (.a ad) ((wide ++ (0 : BitVec 2)).setWidth 72) 1))

/-- R271, R280, R288, R300: an aligned load from any place a core can read completes; the bytes, least significant first,
are in flight at distance 3, zero-extended, bits 63:36 of a doubleword dropped; a long is two doublewords, each read where
it stands. R271, R280, R288, R300: an aligned store where the core may store completes; its bytes, least significant
first, wait to become visible at distance 2; every memory reads as before. (Which register stands at a device address is
the model's choice, log 13.) -/
def Obligations.LongMemoryResults : Prop :=
  (∀ (s v v1 : State) (c : CoreId) (cc rg : BitVec 4) (ab : BitVec 3) (off : BitVec 18) (lo bs : List Byte),
    let u := s.atIssue c
    let a := ((s.coreAt c).ra ab.toNat + off.signExtend 24).toNat
    (s.Ready c (wordLong 0x14 cc (layM rg ab off)) → Loads u c a 1 v bs →
      Completes (.ldb c cc rg ab off) s (v.LoadIssued c (.d rg) (BitVec.ofNat 72 (leNat bs % 2 ^ 36))))
    ∧ (s.Ready c (wordLong 0x15 cc (layM rg ab off)) → a % 2 = 0 → Loads u c a 2 v bs →
      Completes (.ldh c cc rg ab off) s (v.LoadIssued c (.d rg) (BitVec.ofNat 72 (leNat bs % 2 ^ 36))))
    ∧ (s.Ready c (wordLong 0x16 cc (layM rg ab off)) → a % 4 = 0 → Loads u c a 4 v bs →
      Completes (.ldw c cc rg ab off) s (v.LoadIssued c (.d rg) (BitVec.ofNat 72 (leNat bs % 2 ^ 36))))
    ∧ (s.Ready c (wordLong 0x17 cc (layM rg ab off)) → a % 8 = 0 → Loads u c a 8 v bs →
      Completes (.ldf c cc rg ab off) s (v.LoadIssued c (.d rg) (BitVec.ofNat 72 (leNat bs % 2 ^ 36))))
    ∧ (s.Ready c (wordLong 0x18 cc (layM rg ab off)) → a % 8 = 0 → Loads u c a 8 v1 lo → Loads v1 c ((a + 8) % 2 ^ 24) 8 v bs →
      Completes (.ldy c cc rg ab off) s (v.LoadIssued c (.y (rg.setWidth 2))
        (BitVec.ofNat 36 (leNat bs) ++ BitVec.ofNat 36 (leNat lo))))
    ∧ (s.Ready c (wordLong 0x19 cc (layM rg ab off)) → a % 4 = 0 → Loads u c a 4 v bs →
      Completes (.lda c cc rg ab off) s (v.LoadIssued c (.a (rg.setWidth 3)) (BitVec.ofNat 72 (leNat bs % 2 ^ 24)))))
  ∧ (∀ (s : State) (c : CoreId) (cc rg : BitVec 4) (ab : BitVec 3) (off : BitVec 18),
    let k := s.coreAt c
    let a := (k.ra ab.toNat + off.signExtend 24).toNat
    (s.Ready c (wordLong 0x1A cc (layM rg ab off)) → storeOk c a false = true →
      Completes (.stb c cc rg ab off) s (s.StoreIssued c a (leBytes (k.rd rg.toNat).toNat 1)))
    ∧ (s.Ready c (wordLong 0x1B cc (layM rg ab off)) → a % 2 = 0 → storeOk c a false = true →
      Completes (.sth c cc rg ab off) s (s.StoreIssued c a (leBytes (k.rd rg.toNat).toNat 2)))
    ∧ (s.Ready c (wordLong 0x1C cc (layM rg ab off)) → a % 4 = 0 → storeOk c a true = true →
      Completes (.stw c cc rg ab off) s (s.StoreIssued c a (leBytes (k.rd rg.toNat).toNat 4)))
    ∧ (s.Ready c (wordLong 0x1D cc (layM rg ab off)) → a % 8 = 0 → storeOk c a false = true →
      Completes (.stf c cc rg ab off) s (s.StoreIssued c a (leBytes (k.rd rg.toNat).toNat 8)))
    ∧ (s.Ready c (wordLong 0x1E cc (layM rg ab off)) → a % 8 = 0 → storeOk c a false = true → storeOk c (a + 8) false = true →
      Completes (.sty c cc rg ab off) s (s.StoreIssued c a
        (leBytes (lo36 (k.ry (rg.toNat % 4))).toNat 8 ++ leBytes (hi36 (k.ry (rg.toNat % 4))).toNat 8)))
    ∧ (s.Ready c (wordLong 0x1F cc (layM rg ab off)) → a % 4 = 0 → storeOk c a true = true →
      Completes (.sta c cc rg ab off) s (s.StoreIssued c a (leBytes (k.ra (rg.toNat % 8)).toNat 4))))

/-- R279, R285: transfers complete: a taken one has its target issue after two shadow words, one not taken is passed; BAL
and JAL put the address past the shadow into the link register. On an E core no transfer may be pending. -/
def Obligations.TransferResults : Prop :=
  ∀ (s : State) (c : CoreId) (cc rd rs : BitVec 4) (disp : BitVec 21),
    let k := s.coreAt c
    let target := k.pc + (disp.signExtend 24 <<< 3)
    let link := (k.pc + 24).setWidth 72
    let jump := k.ra (rs.toNat % 8)
    (isE c = true → k.xfer = []) →
    (s.Ready c (wordLong 0x20 cc (layB 0 disp)) → Completes (.br c cc disp) s (s.Transfers c target))
    ∧ (s.Ready c (wordLong 0x21 cc (layB rs disp)) → (isP c = true → (k.rd rs.toNat).toNat ≤ 1) →
      (k.rd rs.toNat = 0 → Completes (.bz c cc rs disp) s (s.Transfers c target))
      ∧ (k.rd rs.toNat ≠ 0 → Completes (.bz c cc rs disp) s fun t => (s.atIssue c).Left t c (k.advance none)))
    ∧ (s.Ready c (wordLong 0x22 cc (layB rs disp)) → (isP c = true → (k.rd rs.toNat).toNat ≤ 1) →
      (k.rd rs.toNat ≠ 0 → Completes (.bnz c cc rs disp) s (s.Transfers c target))
      ∧ (k.rd rs.toNat = 0 → Completes (.bnz c cc rs disp) s fun t => (s.atIssue c).Left t c (k.advance none)))
    ∧ (s.Ready c (wordLong 0x23 cc (layB 0 disp)) → Completes (.bal c cc disp) s fun t =>
      (s.atIssue c).Left t c ((k.lands (.a 7) link (distOn c 1)).advance (some target)))
    ∧ (s.Ready c (wordLong 0x24 cc (layR 0 rs 0 0)) → jump.toNat % 8 = 0 →
      Completes (.jr c cc 0 rs 0 0) s (s.Transfers c jump))
    ∧ (s.Ready c (wordLong 0x24 cc (layR rd rs 0 1)) → jump.toNat % 8 = 0 →
      Completes (.jr c cc rd rs 0 1) s fun t =>
        (s.atIssue c).Left t c ((k.lands (.a (rd.setWidth 3)) link (distOn c 1)).advance (some jump)))

/-- R274: D0 reads zero on every core and in every state, and no result that lands changes that. R285: of a taken transfer
the two words behind it issue first; then the word at the target, whatever the target is. -/
def Obligations.ZeroRegisterAndBranchShadow : Prop :=
  (∀ (k : Core) (n : Nat) (d : Dest) (v : W72), k.rd 0 = 0 ∧ ((k.lands d v n).rd 0 = 0))
  ∧ (∀ (k : Core) (target : W24), k.xfer = [] →
    let k1 := k.advance (some target)
    let k2 := k1.advance none
    let k3 := k2.advance none
    k1.pc = k.pc + 8 ∧ k2.pc = k.pc + 16 ∧ k3.pc = target ∧ k3.slot = k.slot + 3 ∧ k3.xfer = [])

/-- R283, R284: the short arithmetic ops complete, in either slot, whatever op that goes on stands in the other; the
result is in flight at distance 1. R278, R283, R284: the short field, compare, address, count and accumulator ops
complete, in either slot, whatever op that goes on stands in the other; the result is in flight at distance 1, an
accumulator's at distance 2. -/
def Obligations.ShortResults : Prop :=
  (∀ (s : State) (c : CoreId) (cc : BitVec 3) (slot1 : Bool) (d x : BitVec 4) (z : BitVec 3) (imm : BitVec 7) (other : BitVec 16),
    let k := s.coreAt c
    let a := k.rd d.toNat
    let b := k.rd x.toNat
    s.ShortGoes c other →
    (s.Ready c (pairWord cc slot1 (layRR 0x00 0 0 0) other) →
      Completes (.snop c cc slot1 0 0 0 other) s fun t => (t.co (coreNo c)).slot = k.slot + 1)
    ∧ (s.Ready c (pairWord cc slot1 (layRR 0x01 d x z) other) →
      Completes (.sAdd c cc slot1 d x z other) s (s.ShortIssued c slot1 other (.d d) ((a + b).setWidth 72) 1))
    ∧ (s.Ready c (pairWord cc slot1 (layRR 0x02 d x z) other) →
      Completes (.sSub c cc slot1 d x z other) s (s.ShortIssued c slot1 other (.d d) ((a - b).setWidth 72) 1))
    ∧ (s.Ready c (pairWord cc slot1 (layRR 0x03 d x z) other) →
      Completes (.sAnd c cc slot1 d x z other) s (s.ShortIssued c slot1 other (.d d) ((a &&& b).setWidth 72) 1))
    ∧ (s.Ready c (pairWord cc slot1 (layRR 0x04 d x z) other) →
      Completes (.sOr c cc slot1 d x z other) s (s.ShortIssued c slot1 other (.d d) ((a ||| b).setWidth 72) 1))
    ∧ (s.Ready c (pairWord cc slot1 (layRR 0x05 d x z) other) →
      Completes (.sXor c cc slot1 d x z other) s (s.ShortIssued c slot1 other (.d d) ((a ^^^ b).setWidth 72) 1))
    ∧ (s.Ready c (pairWord cc slot1 (layRR 0x06 d x z) other) →
      Completes (.sMov c cc slot1 d x z other) s (s.ShortIssued c slot1 other (.d d) (b.setWidth 72) 1))
    ∧ (s.Ready c (pairWord cc slot1 (layRI 0x07 d imm) other) →
      Completes (.sAddi c cc slot1 d imm other) s
        (s.ShortIssued c slot1 other (.d d) ((a + imm.signExtend 36).setWidth 72) 1))
    ∧ (s.Ready c (pairWord cc slot1 (layRI 0x08 d imm) other) →
      Completes (.sMovi c cc slot1 d imm other) s (s.ShortIssued c slot1 other (.d d) ((imm.signExtend 36).setWidth 72) 1))
    ∧ (s.Ready c (pairWord cc slot1 (layRI 0x09 d imm) other) →
      Completes (.sShi c cc slot1 d imm other) s (s.ShortIssued c slot1 other (.d d)
        ((if imm.msb then a >>> (imm.toNat % 64) else a <<< (imm.toNat % 64)).setWidth 72) 1))
    ∧ (s.Ready c (pairWord cc slot1 (layRI 0x0A d imm) other) →
      Completes (.sSari c cc slot1 d imm other) s
        (s.ShortIssued c slot1 other (.d d) ((a.sshiftRight (min imm.toNat 36)).setWidth 72) 1)))
  ∧ (∀ (s : State) (c : CoreId) (cc : BitVec 3) (slot1 : Bool) (d x : BitVec 4) (z : BitVec 3) (imm : BitVec 7) (other : BitVec 16),
    let k := s.coreAt c
    let a := k.rd d.toNat
    let b := k.rd x.toNat
    s.ShortGoes c other →
    (s.Ready c (pairWord cc slot1 (layRR 0x0B d x z) other) →
      Completes (.sXf c cc slot1 d x z other) s
        (s.ShortIssued c slot1 other (.d d) (BitVec.ofNat 72 (b.toNat / 2 ^ (4 * z.toNat) % 16)) 1))
    ∧ (s.Ready c (pairWord cc slot1 (layRR 0x0C d x z) other) →
      Completes (.sSeq c cc slot1 d x z other) s (s.ShortIssued c slot1 other (.d d) (if a = b then 1 else 0) 1))
    ∧ (s.Ready c (pairWord cc slot1 (layRR 0x0D d x z) other) →
      Completes (.sSltu c cc slot1 d x z other) s (s.ShortIssued c slot1 other (.d d) (if a.toNat < b.toNat then 1 else 0) 1))
    ∧ (s.Ready c (pairWord cc slot1 (layRR 0x0E d x z) other) →
      Completes (.sSlt c cc slot1 d x z other) s (s.ShortIssued c slot1 other (.d d) (if a.toInt < b.toInt then 1 else 0) 1))
    ∧ (s.Ready c (pairWord cc slot1 (layRR 0x0F d x z) other) →
      Completes (.sCmp c cc slot1 d x z other) s (s.ShortIssued c slot1 other .fl ((subFlags a b).setWidth 72) 1))
    ∧ (s.Ready c (pairWord cc slot1 (layRI 0x15 d imm) other) →
      Completes (.sAdda c cc slot1 d imm other) s
        (s.ShortIssued c slot1 other (.a (d.setWidth 3)) ((k.ra (d.toNat % 8) + imm.signExtend 24).setWidth 72) 1))
    ∧ (s.Ready c (pairWord cc slot1 (layRR 0x16 d x z) other) →
      Completes (.sMva c cc slot1 d x z other) s (s.ShortIssued c slot1 other (.a (d.setWidth 3)) (b.setWidth 72) 1))
    ∧ (s.Ready c (pairWord cc slot1 (layRR 0x17 d x z) other) →
      Completes (.sMvd c cc slot1 d x z other) s
        (s.ShortIssued c slot1 other (.d d) ((k.ra (x.toNat % 8)).setWidth 72) 1))
    ∧ (s.Ready c (pairWord cc slot1 (layRR 0x18 d x z) other) →
      Completes (.sRank c cc slot1 d x z other) s
        (s.ShortIssued c slot1 other (.d d) ((rank36 b (a.toNat % 64)).setWidth 72) 1))
    ∧ (s.Ready c (pairWord cc slot1 (layRR 0x19 d x z) other) →
      Completes (.sPopc c cc slot1 d x z other) s (s.ShortIssued c slot1 other (.d d) ((rank36 b 36).setWidth 72) 1))
    ∧ (s.Ready c (pairWord cc slot1 (layRR 0x1A d x z) other) →
      Completes (.sMac c cc slot1 d x z other) s (s.ShortIssued c slot1 other (.y (z.setWidth 2))
        (k.ry (z.toNat % 4) + prod72 z.msb a b) 2))
    ∧ (s.Ready c (pairWord cc slot1 (layRR 0x1B d x z) other) →
      Completes (.sMvy c cc slot1 d x z other) s (s.ShortIssued c slot1 other (.d d)
        ((if z.toNat % 2 = 1 then hi36 (k.ry (x.toNat % 4)) else lo36 (k.ry (x.toNat % 4))).setWidth 72) 1)))

/-- R283, R284, R300: the short loads, stores and the short DCS complete in either slot beside an op that goes on: a
load's word or doubleword is in flight at distance 3, a store's word waits to become visible at distance 2, a decision
word enters the decision path of the thread's port. -/
def Obligations.ShortMemoryAndDecisionResults : Prop :=
  ∀ (s v : State) (c : CoreId) (cc : BitVec 3) (slot1 : Bool) (d x : BitVec 4) (z : BitVec 3) (other : BitVec 16) (bs : List Byte),
    let u := s.atIssue c
    let k := s.coreAt c
    let a := k.rd d.toNat
    let b := k.rd x.toNat
    let byWord := (k.ra z.toNat + BitVec.ofNat 24 (4 * (b.toNat % 2 ^ 22))).toNat
    let byFull := (k.ra z.toNat + BitVec.ofNat 24 (8 * (b.toNat % 2 ^ 21))).toNat
    let byOffset := (k.ra z.toNat + BitVec.ofNat 24 (4 * x.toNat)).toNat
    let loaded := s.ShortIssued c slot1 other (.d d) (BitVec.ofNat 72 (leNat bs % 2 ^ 36)) 3
    let stored := fun (n : Nat) (t : State) =>
      ({ slot := k.slot + distOn c 2, addr := n, bytes := leBytes a.toNat 4 } : StoreIn) ∈ (t.co (coreNo c)).stores ∧ t.mems = u.mems
    s.ShortGoes c other →
    (s.Ready c (pairWord cc slot1 (layRR 0x10 d x z) other) → byWord % 4 = 0 → Loads u c byWord 4 v bs →
      Completes (.sLwx c cc slot1 d x z other) s loaded)
    ∧ (s.Ready c (pairWord cc slot1 (layRR 0x11 d x z) other) → byFull % 8 = 0 → Loads u c byFull 8 v bs →
      Completes (.sLfx c cc slot1 d x z other) s loaded)
    ∧ (s.Ready c (pairWord cc slot1 (layRR 0x12 d x z) other) → byWord % 4 = 0 → storeOk c byWord true = true →
      Completes (.sSwx c cc slot1 d x z other) s (stored byWord))
    ∧ (s.Ready c (pairWord cc slot1 (layRR 0x13 d x z) other) → byOffset % 4 = 0 → Loads u c byOffset 4 v bs →
      Completes (.sLwo c cc slot1 d x z other) s loaded)
    ∧ (s.Ready c (pairWord cc slot1 (layRR 0x14 d x z) other) → byOffset % 4 = 0 → storeOk c byOffset true = true →
      Completes (.sSwo c cc slot1 d x z other) s (stored byOffset))
    ∧ (s.Ready c (pairWord cc slot1 (layRR 0x1C d 0 0) other) →
      Completes (.sDcs c cc slot1 d 0 0 other) s fun t => (t.pd (threadPort c)).decs = (u.pd (threadPort c)).decs ++ [a])

/-- R224, R292 to R295: the port ops complete on a sequencer thread: WEV takes the oldest event into D15, or the thread
waits; WEV_RESUME lets its slots pass and takes an event that has come; LKP's request waits for its lookup slot; DCS's
word enters the decision path; ACW writes one word of an answer-cache slot, or nothing where the place names none. -/
def Obligations.PortOpResults : Prop :=
  ∀ (s : State) (c : CoreId) (k : SheafId) (th : Fin 8) (slots : Nat) (cc rd rs rt : BitVec 4) (fn : BitVec 13) (w : W36)
    (rest : List W36),
    let u := s.atIssue c
    let r := s.coreAt c
    let p := threadPort c
    (s.Ready c (wordLong 0x28 cc 0) →
      ((u.pd p).events = [] → Completes (.wev c cc) s fun t => (t.co (coreNo c)).run = .waitEvent ∧ t.dec = u.dec)
      ∧ ((u.pd p).events = w :: rest → Completes (.wev c cc) s fun t =>
          (t.co (coreNo c)).rd 15 = w ∧ (t.co (coreNo c)).run = .running ∧ (t.pd p).events.take rest.length = rest))
    ∧ ((s.co (coreNo (.sq k th))).run = .waitEvent → (s.pd (8 * k.val + th.val)).events = [] →
      Completes (.wevResume k th slots) s fun t =>
        (t.co (coreNo (.sq k th))).run = .waitEvent ∧ (t.co (coreNo (.sq k th))).slot = (s.co (coreNo (.sq k th))).slot + slots)
    ∧ ((s.co (coreNo (.sq k th))).run = .waitEvent → (s.pd (8 * k.val + th.val)).events = w :: rest →
      Completes (.wevResume k th slots) s fun t =>
        (t.co (coreNo (.sq k th))).run = .running ∧ (t.co (coreNo (.sq k th))).rd 15 = w
          ∧ (t.pd (8 * k.val + th.val)).events.take rest.length = rest)
    ∧ (s.Ready c (wordLong 0x29 cc (layR rd rs rt fn)) → Completes (.lkp c cc rd rs rt fn) s fun t =>
        (t.pd p).lookups = (u.pd p).lookups ++ [{ rd := rd, index := (r.rd rs.toNat).setWidth 17, dt := r.rd rt.toNat, direct := fn.getLsbD 0 }])
    ∧ (s.Ready c (wordLong 0x2A cc (layR 0 rs 0 0)) → Completes (.dcs c cc rs) s fun t =>
        (t.pd p).decs = (u.pd p).decs ++ [r.rd rs.toNat])
    ∧ (s.Ready c (wordLong 0x2B cc (layR 0 rs rt 0)) →
      let n := (r.rd rt.toNat).toNat
      ((n / 2 ^ 16 ≠ 0 ∨ n % 4 ≠ 0 ∨ bitsOf n 15 9 = 0) → Completes (.acw c cc rs rt) s fun t => t.dec = u.dec)
      ∧ (¬ (n / 2 ^ 16 ≠ 0 ∨ n % 4 ≠ 0 ∨ bitsOf n 15 9 = 0) → Completes (.acw c cc rs rt) s fun t =>
          let slot := Tab.get {} (t.pd p).cache (bitsOf n 8 7)
          sub slot.bytes (4 * bitsOf n 6 2) 4 = leBytes (r.rd rs.toNat).toNat 4
            ∧ (bitsOf n 6 2 = 0 → slot.valid = true ∧ slot.context = BitVec.ofNat 7 (bitsOf n 15 9))
            ∧ (bitsOf n 6 2 ≠ 0 → slot.valid = false)))

/-- R286, R287, R291, R299, R301: MFS has the special register in flight to Dd; MTS writes a handler address as a multiple
of 8 and FL at distance 1; after FENCE no store of the core waits; HALT stops the core; WFI waits unless an enabled line
is asserted, and WFI_WAKE ends the wait. -/
def Obligations.SystemOpResults : Prop :=
  ∀ (s : State) (c : CoreId) (cc rd rs : BitVec 4) (arg : BitVec 8),
    let u := s.atIssue c
    let k := s.coreAt c
    (s.Ready c (wordLong 0x30 cc (layS rd 0 1 arg)) → k.badRegs.contains arg.toNat = false → Completes (.mfs c cc rd arg) s fun t =>
      ({ slot := k.slot + distOn c 1, dest := .d rd, val := (u.special c k arg.toNat).setWidth 72 } : Landing) ∈ (t.co (coreNo c)).land)
    ∧ (s.Ready c (wordLong 0x30 cc (layS 0 rs 2 0x07)) → Completes (.mts c cc rs 0x07) s fun t =>
      (t.co (coreNo c)).evec = (k.rd rs.toNat).setWidth 24 &&& 0xFFFFF8)
    ∧ (s.Ready c (wordLong 0x30 cc (layS 0 rs 2 0x00)) → Completes (.mts c cc rs 0x00) s fun t =>
      ({ slot := k.slot + distOn c 1, dest := .fl, val := (k.rd rs.toNat).setWidth 72 &&& 15 } : Landing) ∈ (t.co (coreNo c)).land)
    ∧ (s.Ready c (wordLong 0x30 cc (layS 0 0 3 0)) → Completes (.fence c cc) s fun t =>
      (t.co (coreNo c)).stores = [] ∧ t.mems = ((u.each k.stores fun v x => v.storeOut c x).mems))
    ∧ (s.Ready c (wordLong 0x30 cc (layS 0 0 6 0)) → Completes (.halt c cc) s fun t => (t.co (coreNo c)).run = .halted)
    ∧ (s.Ready c (wordLong 0x30 cc (layS 0 0 7 0)) → Completes (.wfi c cc) s fun t =>
      (t.co (coreNo c)).run = if k.lineUp && !isWatch c then .running else .waitIrq)
    ∧ ((s.co (coreNo c)).run = .waitIrq → (isWatch c = true ∨ (s.co (coreNo c)).lineUp = true) →
      Completes (.wfiWake c) s fun t => (t.co (coreNo c)).run = .running ∧ SameButCores s t)

/-- R276, R296, R297, R299: on an E core outside a handler, its STATUS and EVEC sound, TRAP saves the address past itself
and its code, an enabled interrupt saves the address of the next word, an illegal word and a word that reads a register
whose check fails the address of that word; each continues at EVEC with interrupts off; inside a handler a TRAP stops the
core. ERET returns to EPC with the saved interrupt enable; shadow words that were left still issue there before the saved
branch target. (Interrupt lines are serviced by taking them: the model's choice, log 15.) -/
def Obligations.ExceptionEntryAndReturn : Prop :=
  ∀ (s : State) (c : CoreId) (cc rd rs rt : BitVec 4) (fn : BitVec 13) (code : BitVec 8) (dw : W64),
    isE c = true →
    let k := s.coreAt c
    let i := coreNo c
    (s.Ready c (wordLong 0x30 cc (layS 0 0 4 code)) → k.status.getLsbD 2 = false → k.entryBad = false → k.xfer = [] →
      Completes (.trap c cc code) s fun t =>
        (t.co i).pc = k.evec ∧ (t.co i).epc = k.pc + 8 ∧ (t.co i).cause = 8 ∧ (t.co i).eaddr = code.setWidth 24
          ∧ (t.co i).status = (if k.status.getLsbD 0 then 6 else 4))
    ∧ (s.Ready c (wordLong 0x30 cc (layS 0 0 4 code)) → k.status.getLsbD 2 = true → Completes (.trap c cc code) s fun t =>
        (t.co i).run = .stopped)
    ∧ (s.Ready c (wordLong 0x30 cc (layS 0 0 5 0)) → k.xfer = [] →
        (∀ n ∈ k.badRegs, n ∉ [0x04, 0x05, 0x08] ∧ (n = 0x0C → k.cause.toNat < 256)) →
        Completes (.eret c cc) s fun t =>
          (t.co i).pc = k.epc ∧ (t.co i).status = (if k.status.getLsbD 1 then 3 else 0)
            ∧ (t.co i).xfer = (if k.cause.toNat < 256 then [] else [(k.slot + 3 + k.cause.toNat / 256, k.ebt &&& 0xFFFFF8)]))
    ∧ ((s.co i).run = .running ∨ (s.co i).run = .waitIrq → (s.co i).status.getLsbD 0 = true → (s.co i).xfer = [] →
        (s.co i).badRegs.any (fun n => decide (7 ≤ n ∧ n ≤ 9)) = false → ∀ n, (s.co i).lowestLine = some n →
      Completes (.interruptTaken c) s fun t =>
        (t.co i).pc = (s.co i).evec ∧ (t.co i).epc = (s.co i).pc ∧ (t.co i).cause.toNat = 0x20 + n
          ∧ (t.co i).status = 6 ∧ (t.co i).run = .running)
    ∧ ((s.co i).run = .running → s.xipWaits c = false → fetchOk c (s.co i).pc.toNat = true →
        (dw.toNat / 2 ^ 36 ≠ 0 ∨ wordLegal c (dw.setWidth 36) = false) → (s.atIssue c).readBad c k.pc.toNat 8 = false →
        k.badRegs.contains pcReg = false → k.status.getLsbD 2 = false → k.entryBad = false → k.xfer = [] →
      Completes (.illegalInstruction c dw) s fun t =>
        (t.co i).pc = k.evec ∧ (t.co i).epc = (s.co i).pc ∧ (t.co i).cause = 1
          ∧ (t.co i).status = (if k.status.getLsbD 0 then 6 else 4))
    ∧ (s.ReadsFlawed c (wordLong 0x01 cc (layR rd rs rt fn)) → k.status.getLsbD 2 = false → k.entryBad = false → k.xfer = [] →
        s.rankOf 0x0141 ≤ 4 → Completes (.alu c cc rd rs rt fn) s fun t =>
      (t.co i).pc = k.evec ∧ (t.co i).epc = k.pc ∧ (t.co i).cause = 7
        ∧ (t.co i).status = (if k.status.getLsbD 0 then 6 else 4))

/-- R278: CMP and CMPI, long and short, set the flags of a − b on 36 bits: Z when the difference is zero, N its bit 35, C
when a ≥ b as unsigned values, V when the signed subtraction overflows; TST sets Z and N of a AND b and clears C and V. -/
def Obligations.CompareFlags : Prop :=
  ∀ (s : State) (c : CoreId) (cc rs rt d x : BitVec 4) (imm : BitVec 17) (c3 z : BitVec 3) (slot1 : Bool) (other : BitVec 16),
    let k := s.coreAt c
    let ofDifference := fun (a b : W36) (f : BitVec 4) =>
      (f.getLsbD 2 = true ↔ a - b = 0) ∧ f.getLsbD 3 = (a - b).getLsbD 35 ∧ (f.getLsbD 1 = true ↔ b.toNat ≤ a.toNat)
        ∧ (f.getLsbD 0 = true ↔ (a.toInt - b.toInt < -(2 ^ 35) ∨ 2 ^ 35 ≤ a.toInt - b.toInt))
    (s.Ready c (wordLong 0x09 cc (layR 0 rs rt 0)) → ∃ f, ofDifference (k.rd rs.toNat) (k.rd rt.toNat) f ∧
      Completes (.cmp c cc rs rt) s (s.Issued c .fl (f.setWidth 72) 1))
    ∧ (s.Ready c (wordLong 0x0A cc (layI 0 rs imm)) → ∃ f, ofDifference (k.rd rs.toNat) (imm.signExtend 36) f ∧
      Completes (.cmpi c cc rs imm) s (s.Issued c .fl (f.setWidth 72) 1))
    ∧ (s.Ready c (wordLong 0x0B cc (layR 0 rs rt 0)) → ∃ f : BitVec 4,
      (f.getLsbD 2 = true ↔ k.rd rs.toNat &&& k.rd rt.toNat = 0) ∧ f.getLsbD 3 = (k.rd rs.toNat &&& k.rd rt.toNat).getLsbD 35
        ∧ f.getLsbD 1 = false ∧ f.getLsbD 0 = false ∧ Completes (.tst c cc rs rt) s (s.Issued c .fl (f.setWidth 72) 1))
    ∧ (s.ShortGoes c other → s.Ready c (pairWord c3 slot1 (layRR 0x0F d x z) other) → ∃ f,
      ofDifference (k.rd d.toNat) (k.rd x.toNat) f ∧
      Completes (.sCmp c c3 slot1 d x z other) s (s.ShortIssued c slot1 other .fl (f.setWidth 72) 1))

/-- R282: with a count of 36 or more SHL and SHR give 0, SAR 36 copies of bit 35, ROL rotates by the count mod 36, RANK
counts every set bit, in the register forms, the immediate forms and the short forms; only bits 5:0 of a count register
are read. -/
def Obligations.CountsOf36OrMore : Prop :=
  (∀ (a b : W36) (fn : Nat), fn ∈ [6, 7, 8, 9, 0x0E] → aluOp fn a b = aluOp fn a (BitVec.ofNat 36 (b.toNat % 64)))
  ∧ ∀ (s : State) (c : CoreId) (cc rd rs rt d x : BitVec 4) (n : BitVec 6) (c3 z : BitVec 3) (slot1 : Bool) (other : BitVec 16),
    let k := s.coreAt c
    let a := k.rd rs.toNat
    let ones := fun (v : W36) => BitVec.ofNat 36 ((List.range 36).filter fun i => v.getLsbD i).length
    let copies := fun (v : W36) => if v.getLsbD 35 then BitVec.allOnes 36 else (0 : W36)
    let alu := fun (fn : BitVec 13) (v : W36) => s.Ready c (wordLong 0x01 cc (layR rd rs rt fn)) →
      Completes (.alu c cc rd rs rt fn) s (s.Issued c (.d rd) (v.setWidth 72) 1)
    let shfi := fun (op : Nat) (v : W36) => s.Ready c (wordLong 0x06 cc (layI rd rs (BitVec.ofNat 17 (64 * op + n.toNat)))) →
      Completes (.shfi c cc rd rs (BitVec.ofNat 17 (64 * op + n.toNat))) s (s.Issued c (.d rd) (v.setWidth 72) 1)
    let short := fun (i : Instr) (op : BitVec 16) (v : W36) => s.ShortGoes c other → s.Ready c (pairWord c3 slot1 op other) →
      Completes i s (s.ShortIssued c slot1 other (.d d) (v.setWidth 72) 1)
    (36 ≤ (k.rd rt.toNat).toNat % 64 →
      alu 6 0 ∧ alu 7 0 ∧ alu 8 (copies a) ∧ alu 9 (a.rotateLeft ((k.rd rt.toNat).toNat % 64 % 36)) ∧ alu 0x0E (ones a))
    ∧ (36 ≤ n.toNat →
      shfi 0 0 ∧ shfi 1 0 ∧ shfi 2 (copies a) ∧ shfi 3 (a.rotateLeft (n.toNat % 36))
        ∧ short (.sShi c c3 slot1 d (BitVec.ofNat 7 n.toNat) other) (layRI 0x09 d (BitVec.ofNat 7 n.toNat)) 0
        ∧ short (.sShi c c3 slot1 d (BitVec.ofNat 7 (64 + n.toNat)) other) (layRI 0x09 d (BitVec.ofNat 7 (64 + n.toNat))) 0
        ∧ short (.sSari c c3 slot1 d (BitVec.ofNat 7 n.toNat) other) (layRI 0x0A d (BitVec.ofNat 7 n.toNat))
            (copies (k.rd d.toNat)))
    ∧ (36 ≤ (k.rd d.toNat).toNat % 64 →
      short (.sRank c c3 slot1 d x z other) (layRR 0x18 d x z) (ones (k.rd x.toNat)))

/-- R281: FN[4:0] of ALU chooses the op of the table, a word with FN[12:5] not zero or any other FN is illegal; POPC and
CLZ have RT zero. -/
def Obligations.AluFunctionTable : Prop :=
  ∀ (s : State) (c : CoreId) (cc rd rs rt : BitVec 4) (fn : BitVec 13),
    let k := s.coreAt c
    let a := k.rd rs.toNat
    let b := k.rd rt.toNat
    let n := b.toNat % 64
    let bit := fun (p : Bool) => if p then (1 : W36) else 0
    let count := fun (m : Nat) => BitVec.ofNat 36 ((List.range (min m 36)).filter fun i => a.getLsbD i).length
    let op := fun (f : BitVec 13) (v : W36) => s.Ready c (wordLong 0x01 cc (layR rd rs rt f)) →
      Completes (.alu c cc rd rs rt f) s (s.Issued c (.d rd) (v.setWidth 72) 1)
    op 0x00 (a + b) ∧ op 0x01 (a - b) ∧ op 0x02 (a &&& b) ∧ op 0x03 (a ||| b) ∧ op 0x04 (a ^^^ b) ∧ op 0x05 (a &&& ~~~ b)
    ∧ op 0x06 (a <<< n) ∧ op 0x07 (a >>> n) ∧ op 0x08 (a.sshiftRight n) ∧ op 0x09 (a.rotateLeft (n % 36))
    ∧ op 0x0A (BitVec.ofNat 36 (min a.toNat b.toNat)) ∧ op 0x0B (BitVec.ofNat 36 (max a.toNat b.toNat))
    ∧ op 0x0C (BitVec.ofInt 36 (min a.toInt b.toInt)) ∧ op 0x0D (BitVec.ofInt 36 (max a.toInt b.toInt))
    ∧ op 0x0E (count n) ∧ (rt = 0 → op 0x0F (count 36))
    ∧ (rt = 0 → op 0x10 (BitVec.ofNat 36 ((List.range 36).takeWhile fun i => !a.getLsbD (35 - i)).length))
    ∧ op 0x18 (bit (decide (a = b))) ∧ op 0x19 (bit (decide (a ≠ b))) ∧ op 0x1A (bit (decide (a.toInt < b.toInt)))
    ∧ op 0x1B (bit (decide (a.toNat < b.toNat))) ∧ op 0x1C (bit (decide (a.toInt ≤ b.toInt)))
    ∧ op 0x1D (bit (decide (a.toNat ≤ b.toNat)))
    ∧ (fn.toNat ∉ [0, 1, 2, 3, 4, 5, 6, 7, 8, 9, 0x0A, 0x0B, 0x0C, 0x0D, 0x0E, 0x0F, 0x10, 0x18, 0x19, 0x1A, 0x1B, 0x1C, 0x1D] ∨
        ((fn = 0x0F ∨ fn = 0x10) ∧ rt ≠ 0) →
      wordLegal c (wordLong 0x01 cc (layR rd rs rt fn)) = false)

/-! ### Supplies, clocks, start-up and release of cores (02, 20) -/

/-- R40 to R43, R56, R499: a supply's detector reports it; main power-good becoming true starts the main domain at START
with epoch 1, the straps sampled and every port held; its loss resets the main domain and holds every port; VBAT starts
the watch core. The home flash stays. R531: the loss of REFCLK begins the holdover of a locked core PLL, and its return
ends it; the end of the holdover without it, or a loss of lock, resets the main domain, which waits in START with every
port held. (Each supply and clock event is a command: the model's choice, log 7.) -/
def Obligations.SupplyAndClockEvents : Prop :=
  (∀ (s : State) (x : Supply),
    Completes (.supplyGood x) s (fun t =>
      t.boot.sup = s.boot.sup.set x true ∧ t.home = s.home
      ∧ (s.mainGood = false → t.mainGood = true →
          t.boot.dev = .start ∧ t.boot.epoch = 1 ∧ t.boot.vsel = s.boot.vselPins ∧ ∀ p, t.heldNow p = true))
    ∧ Completes (.supplyNotGood x) s (fun t =>
      t.boot.sup = s.boot.sup.set x false ∧ t.home = s.home
      ∧ (s.mainGood = true → t.mainGood = false → t.boot.dev = .off ∧ ∀ p, t.heldNow p = true))
    ∧ Completes .backupDomainSupplied s (fun t =>
      t.boot.sup = s.boot.sup.set .vbat true ∧ t.boot.watchOut = true ∧ t.home = s.home))
  ∧ (∀ (s : State) (flash : Bool),
    (s.boot.refPresent = true → Completes .refclkLoss s fun t =>
      t.boot.refPresent = false ∧ t.boot.refHoldover = s.boot.coreLock ∧ t.home = s.home)
    ∧ (s.boot.refHoldover = true → Completes .refclkHoldoverExpiry s fun t =>
      t.boot.dev = .start ∧ t.boot.epoch = 1 ∧ t.boot.coreLock = false ∧ ∀ p, t.heldNow p = true)
    ∧ ((if flash then s.boot.flashLock else s.boot.coreLock) = true → Completes (.pllLockLoss flash) s fun t =>
      t.boot.dev = .start ∧ t.boot.epoch = 1 ∧ t.boot.flashLock = false ∧ ∀ p, t.heldNow p = true)
    ∧ Completes .refclkReturn s fun t => t.boot.refPresent = true ∧ t.boot.refHoldover = false ∧ t.boot.dev = s.boot.dev)

/-- R45 to R56, R66: the fuse sense latches what both references read and seals a part whose class K groups fail; the seed
core starts at its ROM vector; its bundle pass chooses a candidate, reads it once on a wake lane with the leave of its
engines, keeps its header and digests, loads its parts, and takes a valid one; a bad one is not taken. (The lanes' probe
outcomes are an operand: the model's choice, log 11.) -/
def Obligations.StartUpAndBundle : Prop :=
  ∀ (s : State) (x : Slot) (probes : BitVec 4),
    ((s.boot.dev = .start ∨ s.boot.dev = .sealed) → s.boot.sensed = false → Completes .fuseSenseDone s fun t =>
      t.boot.sensed = true ∧ t.fuses.latched = s.fuses.otp.filterMap (fun e => if e.2.value then some (e.1, true) else none)
      ∧ (t.boot.failing ≠ [] → t.boot.dev = .sealed))
    ∧ (s.mainGood = true → s.boot.refPresent = true → s.boot.sensed = true → s.boot.seedOut = false →
        ((s.boot.dev = .start ∧ s.boot.coreLock = false) ∨ (s.boot.dev = .ride ∧ s.boot.entryDone = true)) →
      Completes (.seedCoreRelease probes) s fun t =>
        t.boot.seedOut = true ∧ t.boot.step = .headers ∧ (t.co 0).run = .running ∧ (t.co 0).pc = 0 ∧ t.boot.dev = s.boot.dev
          ∧ t.home = s.home)
    ∧ (s.boot.step = .headers → s.bundleCandidate = some x → Completes .bundleHeadersRead s fun t =>
      t.boot.step = .reading ∧ t.boot.cand = some x ∧ t.home = s.home)
    ∧ (s.boot.step = .headers → s.bundleCandidate = none → (s.boot.dev = .start ∨ s.boot.dev = .ride) →
      Completes .bundleHeadersRead s fun t =>
        t.boot.step = .none ∧ t.boot.dev = (if s.boot.dev = .start then .fwless else .headless))
    ∧ (s.boot.step = .reading → s.boot.cand = some x → (s.seedDraw (s.bundleHeader x)).isSome = true →
      Completes .bundleCandidateRead s fun t =>
        t.boot.step = .verifying ∧ t.heldOf 8 2 = s.heldOf 8 2 + 1 ∧ t.boot.head = s.bundleHeader x
        ∧ t.boot.digs = s.partDigests x (s.bundleHeader x) ∧ t.home = s.home
        ∧ ∀ a, t.memGet 3 a = byteAt (s.partBytes x (s.bundleHeader x) 1) a)
    ∧ (s.boot.step = .verifying → s.boot.cand = some x → s.passOk s.boot.head s.boot.digs = true →
        s.seedRan s.boot.head = true →
        (s.bundleOk (otherSlot x) && headsConflict s.boot.head (s.bundleHeader (otherSlot x))) = false →
      Completes .bundleSignatureVerified s fun t =>
        t.boot.step = .good ∧ t.boot.bundle = some (bundleFrom x s.boot.head) ∧ t.boot.dev = s.boot.dev ∧ t.home = s.home)
    ∧ (s.boot.step = .verifying → s.boot.cand = some x → s.passOk s.boot.head s.boot.digs = false →
      Completes .bundleSignatureVerified s fun t => t.boot.step ≠ .good ∧ t.home = s.home)

/-- R57, R27, R59, R272: with a good bundle and two tokens the Canopy cores start in one cycle at the header's vector, A
with LEAD; the seed core halts, the device is in SERVICE. Each release token returns by itself; the link core follows in
SERVICE. After a restart of its own it runs again once its part of the running bundle has been read and checked; a part
that differs leaves it in reset. R61 to R66: the Canopy watchdog starts a warm restart, in which the epoch advances, every
core but the watch core and the sequencers is held in reset, and no port in the glade is held; an expiry in a running one
is merged and counted; the entry stage ends once, and the gate of a faulted stand opens again where its self-test passed.
-/
def Obligations.CoreReleaseAndWarmRestart : Prop :=
  (∀ (s : State) (b : Bundle),
    (s.boot.step = .good → s.boot.bundle = some b → s.boot.dev ≠ .sealed → s.leaveFor1 2 →
      Completes .canopyRelease s fun t =>
        t.boot.dev = .service ∧ t.boot.lead = .a ∧ t.boot.canopyOut = true ∧ t.boot.seedOut = false ∧ (t.co 0).run = .halted
        ∧ (t.co 1).run = .running ∧ (t.co 1).pc = vectorPc b.canopy ∧ (t.co 2).run = .running ∧ (t.co 2).pc = vectorPc b.canopy
        ∧ t.boot.running = b ∧ t.home = s.home)
    ∧ ((s.po 0).quiet = true → 0 < s.heldOf 0 7 → s.boot.step ≠ .verifying → Completes .canopyLeaveReturn s fun t =>
      t.heldOf 0 7 + 1 = s.heldOf 0 7 ∧ (t.po 0).free = (s.po 0).free + 1 ∧ { t with leave := s.leave } = s)
    ∧ (s.boot.dev = .service → s.boot.sup.sd = true → s.boot.sup.sda = true → s.boot.linkOut = false →
        s.boot.linkReload = false → s.leaveFor1 1 →
      Completes .linkCoreRelease s fun t =>
        t.boot.linkOut = true ∧ (t.co 3).run = .running ∧ (t.co 3).pc = vectorPc s.boot.running.link ∧ t.home = s.home)
    ∧ (s.boot.dev = .service → s.leads = true → s.boot.linkOut = false → s.boot.sup.sd = true → s.boot.sup.sda = true →
        s.boot.linkReload = true → s.wake.svcJobs.contains .reload = false →
      (∀ part, s.bundleImage s.boot.running 1 = some part → s.leaveFor1 1 →
        Completes .linkCoreReloaded s fun t =>
          t.boot.linkOut = true ∧ (t.co 3).run = .running ∧ (t.co 3).pc = vectorPc s.boot.running.link ∧ t.home = s.home
          ∧ ∀ a, a < part.length → t.memGet 3 a = byteAt part a)
      ∧ (s.bundleImage s.boot.running 1 = none → Completes .linkCoreReloaded s fun t =>
          t.boot.linkOut = false ∧ t.cores = s.cores ∧ (∀ a, t.memGet 3 a = 0) ∧ t.home = s.home))
    ∧ (s.boot.dev = .service → s.leads = true → s.boot.laneSched = false →
      Completes .runtimeLaneScheduleReload s fun t => t.boot.laneSched = true ∧ t.hold = s.hold ∧ t.home = s.home))
  ∧ (∀ (s : State) (c : BitVec 6),
    (s.boot.canopyOut = true → s.boot.dev = .service → Completes .canopyWatchdogExpiry s fun t =>
      t.boot.dev = .ride ∧ t.boot.epoch = (if s.boot.epoch = BitVec.allOnes 32 then s.boot.epoch else s.boot.epoch + 1) ∧ t.boot.canopyOut = false ∧ t.boot.linkOut = false
      ∧ (∀ j, j < 4 → (t.co j).run = .reset) ∧ (∀ p, (t.ph p).hold = (s.ph p).hold) ∧ t.home = s.home)
    ∧ (s.boot.dev = .ride → Completes .canopyWatchdogExpiry s fun t =>
      t.boot.restartMerged.toNat = min 255 (s.boot.restartMerged.toNat + 1) ∧ { t with boot := s.boot } = s)
    ∧ (s.boot.dev = .ride → s.boot.entryDone = false → Completes (.warmRestartEntryDone c) s fun t =>
      t.boot.entryDone = true ∧ t.boot.dev = .ride ∧ t.hold = s.hold ∧ t.home = s.home
      ∧ ∀ k, k < 6 → (s.st k).gate = false → s.chanRetired .stand k = false → (t.st k).gate = s.standTest k (c.getLsbD k)))

/-! ### Policy, the shelf wake and the verdict (02 R58, 03, 04) -/

/-- R58, R127, R414: in SERVICE, once the standing retirements act, a sheaf whose sequencer is not released reads its
container once; while the policy is being verified the load waits; one that matches the accepted policy is loaded and its
eight threads start at the vectors of THREADS, any other is refused and its sequencer stays in reset. R81, R84, R121,
R319, R417: the shelf manifest is read before a wake; one that fails its form, its floor or its signer is rejected, any
other has its signature verified on an engine before it is decided, a hash-based one at once. -/
def Obligations.ContainersAreLoadedOrRefused : Prop :=
  ∀ (s : State) (k : SheafId),
    let u := s.readPolicy
    let c := u.homeContainer (schedBase k.val) 0x100000
    let waits := u.wake.policy.isNone && u.verUnder .policy
    let good := u.wake.policy.isSome && sheafFormOk c k.val && decide (cDigest c = polSheafDigest u.pol k.val)
      && !u.rulesCollide k.val (u.pw (8 * k.val)).gen (ruleRecords (sectionOf c 4))
    let m := s.homeContainer 0x02000000 0x10000
    let checked := shelfFormOk m s.pol && decide (mcCount s.fuses.latched 0 ≤ field m 0x20 4) && keyBlockOk (cScheme m) (cSigBlock m)
      && signerMatch s.fuses.latched 0xFFF0 m
    (s.boot.dev = .service → s.leads = true → (s.sh k.val).released = false → s.chanRetired .sequencer k.val = false →
        s.standingDone = true →
      Completes (.scheduleContainerLoad k) s fun t =>
        t.home = s.home
        ∧ (waits = true → t = u)
        ∧ (good = true → (t.sh k.val).released = true ∧ (t.sh k.val).matched = true ∧ ∀ j, j < 8 →
            (t.co (8 + 8 * k.val + j)).run = .running
              ∧ (t.co (8 + 8 * k.val + j)).pc = vectorPc (BitVec.ofNat 24 (field (sectionOf c 1) (4 * j) 3)))
        ∧ (good = false → (t.sh k.val).released = false ∧ (waits = false → (t.sh k.val).refused = true)))
    ∧ (s.boot.dev = .service → s.wake.policy.isSome = true → s.wake.stage = .idle → s.verUnder .shelf = false →
      Completes .shelfManifestDecide s fun t =>
        t.wake.shelf.stale = false ∧ t.wake.shelf.epoch = s.boot.epoch ∧ t.wake.shelf.bytes = m ∧ t.home = s.home
        ∧ (checked = false → t.wake.shelf.decided = true ∧ t.wake.shelf.rejected = true)
        ∧ (checked = true → s.onEngine (cScheme m) = false →
            t.wake.shelf.decided = true ∧ t.wake.shelf.rejected = !(jobOf .shelf m).atOnce)
        ∧ (checked = true → s.onEngine (cScheme m) = true → t.wake.shelf.decided = false ∧ t.Verifying (jobOf .shelf m)))

/-- R59, R65, R67, R70 to R72, R76, R95, R406: with its leave granted and every bank good the wake enters the entry stage
on the lanes it maps onto, and every held port it names has lost its token and stands PENDING; entry ends in round 0, and
a port whose identification or set-up compare fails is marked (R528); no MASTER frame goes out for a flash side that
probes or on a bank that is down, and the port ends incomplete (R406, R500); round by round a port's burst comes in, the
signature window follows round 0 and the drain the last round. R232: a retired lane leaves the wake at a frame boundary.
(What the wake does with a burst that fails its check is the model's inference, log 50.) -/
def Obligations.WakeStages : Prop :=
  ∀ (s : State) (ids : List (PortId × List Byte)) (replies : List (PortId × Replies)) (badLanes : List LaneId)
    (bursts : List (PortId × List Byte)) (q : PortId),
    (s.wakeReady = true → s.leads = true → s.autoPorts ≠ [] → s.wakeLanes ≠ [] → s.canGrant 0 s.laneLeave' = true →
        s.canGrant 8 s.wakeLanes.length = true → s.leave.queue = [] → (∀ p, p < 96 → s.bankUp p = true) →
      Completes .wakeAutoStart s fun t =>
        t.wake.stage = .entry ∧ t.wake.round = 0 ∧ t.wake.lanes = s.wakeLanes ∧ t.heldOf 0 4 = s.heldOf 0 4 + s.laneLeave'
        ∧ t.home = s.home
        ∧ ∀ p ∈ s.autoPorts, s.heldNow p = true →
            (t.ph p).token = none ∧ (t.pv p).verdict = 0 ∧ (s.canWake p = true → (t.pk p).part = true))
    ∧ (s.wake.stage = .entry → Completes (.wakeEntryEnd ids replies badLanes) s fun t =>
      t.home = s.home)
    ∧ (s.wake.stage = .entry → (badLanes = [] ∨ s.rankOf 0x0141 < 6) → Completes (.wakeEntryEnd ids replies badLanes) s fun t =>
      t.wake.stage = .round ∧ t.wake.round = 0 ∧ t.home = s.home)
    ∧ (s.wake.stage = .entry → Completes (.wakeEntryEnd ids replies []) s fun t =>
      (s.pk q.val).part = true → polUsed s.pol q.val = true → (s.pk q.val).pgLow = false → (s.pk q.val).pgFell = false →
        (s.pk q.val).aborted = false → (s.pk q.val).granary = false →
        (s.masterBarred q.val = true → (t.pk q.val).incomplete = true)
        ∧ (s.masterBarred q.val = false → (t.pe q.val).master = s.entryFrames q.val
        ∧ (t.pk q.val).idBad = ((s.pk q.val).idBad ||
            !s.entryOk q.val (((ids.find? fun e => decide (e.1.val = q.val)).map (·.2)).getD [])
              (((replies.find? fun e => decide (e.1.val = q.val)).map (·.2)).getD []))))
    ∧ (s.wake.stage = .round → s.wake.endNext = false → Completes (.wakeRound bursts []) s fun t =>
      t.wake.round = s.wake.round + 1
      ∧ t.wake.stage = (if s.wake.round = 0 then .window else if s.wakeRounds ≤ s.wake.round + 1 then .drain else .round)
      ∧ t.home = s.home
      ∧ ∀ p : PortId, (s.pk p.val).part = true → (s.pk p.val).pgLow = false → (s.pk p.val).pgFell = false →
          (s.pk p.val).aborted = false → s.wake.round < polBursts s.pol p.val →
          (s.masterBarred p.val = true → (t.pk p.val).incomplete = true ∧ (t.pk p.val).staging = [])
          ∧ (s.masterBarred p.val = false →
            (t.pk p.val).staging = s.roundBytes p.val s.wake.round (((bursts.find? fun e => decide (e.1.val = p.val)).map (·.2)).getD [])))
    ∧ (s.wake.stage = .round → s.wake.endNext = false → (s.pk q.val).part = true → (s.pk q.val).pgLow = false →
        (s.pk q.val).pgFell = false → (s.pk q.val).aborted = false → (s.pk q.val).granary = false →
        s.wake.round < polBursts s.pol q.val → s.rankOf 0x0141 ≤ 4 → Completes (.wakeRound bursts [q]) s fun t =>
      (t.pk q.val).incomplete = true ∧ (t.pk q.val).staging = []
        ∧ (s.masterBarred q.val = false →
            planBurst (planRegions s.pol q.val) s.wake.round ≠ none → (t.ch (chanKey .flash q.val)).state = .probing))
    ∧ (s.wake.stage = .window → Completes .signatureWindowEnd s fun t =>
      t.wake.stage = (if s.wakeRounds ≤ 1 then .drain else .round) ∧ { t with wake := s.wake } = s)
    ∧ ((s.wake.stage = .round ∨ s.wake.stage = .drain) → Completes .wakeFrameBoundary s fun t =>
      t.wake.stage = s.wake.stage ∧ ∀ l ∈ t.wake.lanes, t.chanRetired .lane l = false)
    ∧ (s.wake.stage = .drain → s.wake.endNext = false → Completes .drainEnd s fun t =>
      t.wake.stage = .verdict ∧ { t with wake := s.wake } = s)

/-- R32, R73, R76, R77, R82, R83, R382, R406: on the lane that the schedule gives it a digest job keeps the chunk it
hashed and a tag job counts; a lane error makes the lane's channel probe; the engine dealt to a manifest takes it in the
order of its share; a hash-based signature is decided on a lane. R81, R83, R319 to R321, R384: the first part of a hybrid
signature is followed by the second on the same engine; the last part decides the manifest of a port, the shelf manifest,
or the policy of the home flash; after an integrity failure the engine probes and the verification is due again. -/
def Obligations.WakeWork : Prop :=
  (∀ (s : State) (p : PortId) (chunk : Fin 16) (x : Slot) (lane : LaneId) (a n e : Nat),
    let w := s.pk p.val
    let m := w.manifest
    let given := fun (tags : Bool) => s.jobLane p.val (s.wake.round - 1) chunk.val tags = some lane.val ∧ (s.ch (chanKey .lane lane.val)).state = .inService
    let chunks := fun (t : State) => match x with | .a => (t.pk p.val).slotA | .b => (t.pk p.val).slotB
    ((s.wake.stage = .round ∨ s.wake.stage = .window ∨ s.wake.stage = .drain) → w.part = true → w.staging ≠ [] →
        planBurst (planRegions s.pol p.val) (s.wake.round - 1) = some (some x, a, n) →
      (given false → Completes (.wakeLaneJob p chunk false lane .ok) s fun t =>
        chunks t = Tab.put [] (chunks s) (16 * n + chunk.val) (sub w.staging (4096 * chunk.val) 4096) ∧ t.home = s.home)
      ∧ (given true → Completes (.wakeLaneJob p chunk true lane .ok) s fun t =>
        (t.pk p.val).tagJobs = w.tagJobs + 1 ∧ chunks t = chunks s ∧ t.home = s.home)
      ∧ (given false →
        Completes (.wakeLaneJob p chunk false lane .lane) s fun t => (t.ch (chanKey .lane lane.val)).state = .probing)
      ∧ (given false → (s.ch (chanKey .port p.val)).state = .inService →
        Completes (.wakeLaneJob p chunk false lane .beat) s fun t => (t.ch (chanKey .port p.val)).state = .probing))
    ∧ ((s.wake.stage = .round ∨ s.wake.stage = .window ∨ s.wake.stage = .drain) → s.chainEngine p.val = some e →
        (s.chainQueue e).head? = some p.val → (s.en e).state = .idle → (s.en e).waiting = false →
        (s.ch (chanKey .engine e)).state = .inService →
      Completes (.chainVerifyStart p) s fun t =>
        (t.pk p.val).sig = .running e ∧ (t.en e).owner = 3 ∧ ((t.en e).state = .busy ∨ (t.en e).waiting = true)
          ∧ t.home = s.home)
    ∧ (s.wake.stage = .window → s.portMode p.val = true → s.manKeyOk p.val = true → hashScheme (cScheme m) = true →
        w.sig = .none → s.wake.lanes ≠ [] →
      Completes (.hashSignatureVerify p) s fun t =>
        (t.pk p.val).sig = (if sigVerifies (cScheme m) (cDigest m) (cSigBlock m) then .ok else .failed)
          ∧ { t with wport := s.wport } = s))
  ∧ (∀ (s : State) (e : EngineId) (j : ChainJob),
    let k := s.en e.val
    let ok := sigVerifies j.scheme j.digest j.block
    let last := decide ((hybridParts j.scheme).isNone ∨ j.second = true)
    let j' := { j with second := false }
    let c := s.homePolicy
    k.state = .busy → k.chain = some j →
      ((last = false) → Completes (.kernelOperationDone e false) s fun t =>
        (t.en e.val).chain = some { j with second := true } ∧ (t.en e.val).state = .busy ∧ t.home = s.home)
      ∧ (last = true →
        (∀ p, j.use = .port p → (s.pk p).sig = .running e.val → Completes (.kernelOperationDone e false) s fun t =>
          (t.pk p).sig = (if ok then .ok else .failed) ∧ t.home = s.home)
        ∧ (j.use = .shelf → s.verLive j' = true → Completes (.kernelOperationDone e false) s fun t =>
          t.wake.shelf.decided = true ∧ t.wake.shelf.rejected = !ok ∧ t.home = s.home)
        ∧ (j.use = .policy → s.verLive j' = true →
          (ok = true → jobOf .policy c = j' → Completes (.kernelOperationDone e false) s fun t =>
            t.wake.policy = some { bytes := c, digest := cDigest c, signer := BitVec.ofNat 4 (cSigner c) } ∧ t.home = s.home)
          ∧ (ok = false → Completes (.kernelOperationDone e false) s fun t =>
            t.wake.policy = none ∧ t.home = s.home ∧ ∀ i, i < 12 → (s.sh i).released = false → (t.sh i).refused = true)))
      ∧ ((s.ch (chanKey .engine e.val)).state = .inService → Completes (.kernelOperationDone e true) s fun t =>
        (t.ch (chanKey .engine e.val)).state = .probing ∧ (t.en e.val).state = .idle
          ∧ ((∀ p, j.use ≠ .port p) → s.verLive j' = true → t.Verifying j')
          ∧ (∀ p, j.use = .port p → (s.pk p).sig = .running e.val → (t.pk p).sig = .none)))

/-- R86, R87, R92 to R94, R529: in the verdict stage every port that takes part gets the verdict, reason and choice of
R86, and the wake ends; at handback the port sends its handback frames, and replies that agree with every compare mint the
token of the current epoch. -/
def Obligations.VerdictAndHandback : Prop :=
  ∀ (s : State) (p : PortId) (replies : Replies),
    (s.wake.stage = .verdict → s.wake.endNext = false → Completes .verdictStage s fun t =>
      t.wake.stage = .idle ∧ t.wake.firstDone = true ∧ t.wake.lanes = [] ∧ t.home = s.home
      ∧ ((s.pk p.val).part = true →
          (t.pv p.val).verdict = BitVec.ofNat 4 (s.verdictOf p.val).verdict
          ∧ (t.pv p.val).reason = BitVec.ofNat 4 (s.verdictOf p.val).reason
          ∧ (t.pv p.val).chosen = BitVec.ofNat 2 (s.verdictOf p.val).chosen))
    ∧ ((s.ph p.val).handback = true → s.boot.dev = .service → (s.ch (chanKey .flash p.val)).state = .inService →
        s.portServes p.val = true → s.bankUp p.val = true →
      (seqHolds (s.handRecs p.val) replies = true → (s.sh (sheafOf p.val)).released = true →
        Completes (.handback p replies) s fun t =>
          (t.ph p.val).token = some s.boot.epoch ∧ (t.ph p.val).handback = false ∧ (t.ph p.val).mode = .isolated
            ∧ (t.pe p.val).master = (s.handRecs p.val).map recFrame
            ∧ (t.ph p.val).hold = (s.ph p.val).hold ∧ t.home = s.home)
      ∧ (seqHolds (s.handRecs p.val) replies = false →
        Completes (.handback p replies) s fun t =>
          (t.ch (chanKey .flash p.val)).state = .probing ∧ t.hold = s.hold ∧ t.home = s.home))

/-- R79 to R81, R86: a port gets GOOD or a resolved CONFLICT only where its record's form passed, and in PORT mode only
where its manifest's signature verified against a key of its signer set under a scheme it allows; the chosen slot's digest
is the entry's, its version at or above the floor. -/
def Obligations.OnlySoundSlotsAreChosen : Prop :=
  ∀ (s : State) (p : Nat),
    (s.verdictOf p).chosen ≠ 0 →
      s.engineLeft = true ∧ polUsed s.pol p = true ∧ (s.pk p).pgLow = false ∧ (s.pk p).pgFell = false ∧ (s.pk p).idBad = false
      ∧ (polShelf s.pol p = false → s.manKeyOk p = true ∧ (s.pk p).sig = .ok
          ∧ kdRevoke s.fuses.latched (cSigner (s.pk p).manifest) = false)
      ∧ (polShelf s.pol p = true → s.shelfBad p = false ∧ s.wake.shelf.revoked = false)
      ∧ ((s.verdictOf p).chosen = 1 →
          (s.slotCheck p .a).digest = (s.portEntry p .a).digest ∧ polFloor s.pol p ≤ (s.portEntry p .a).version)
      ∧ ((s.verdictOf p).chosen = 2 →
          (s.slotCheck p .b).digest = (s.portEntry p .b).digest ∧ polFloor s.pol p ≤ (s.portEntry p .b).version)

/-! ### Stands, release and holds (01, 03 R95 to R99, 13) -/

/-- R25, R36, R38, R97, R98, R400: Shentiha opens the next stand of STAND_ORDER whose gate is open; a release draws the
port's weight from the stand's own pool and spends its token; a hold response that meets it wins: latch set, token
unspent, no leave drawn; a fault of the controller that meets it, of whatever cause, closes the gate, leaves the token
unspent and reconciles the pool with CAUSE 3. The settle timer returns the weight. -/
def Obligations.StandReleases : Prop :=
  ∀ (s : State) (k : StandId) (p : Nat),
    (s.boot.dev = .service → s.leads = true → s.wake.firstDone = true → s.wake.policy.isSome = true → s.wake.standNext < 6 →
      Completes .standStaggerExpiry s fun t =>
        let n := (polStandOrder s.pol).getD s.wake.standNext 0
        t.wake.standNext = s.wake.standNext + 1 ∧ t.hold = s.hold
          ∧ (t.st n).opened = ((s.st n).gate || (s.st n).opened)
          ∧ (t.st n).status = (if (s.st n).gate then 0 else 0x5201) ∧ t.home = s.home)
    ∧ (s.boot.dev = .service → s.nextRelease k.val = some p →
      Completes (.portRelease k .nothing) s (fun t =>
        (t.ph p).hold = false ∧ (t.ph p).holdN = true ∧ (t.ph p).token = none
        ∧ (t.ph p).settle = some (polSettle s.pol p)
        ∧ ((t.ph p).mode = .pass ∨ (t.ph p).mode = .dark)
        ∧ t.heldOf (1 + standOf p) (p / 6) = s.heldOf (1 + standOf p) (p / 6) + polWeight s.pol p
        ∧ (∀ q, q ≠ p → t.ph q = s.ph q) ∧ t.home = s.home)
      ∧ Completes (.portRelease k .hold) s (fun t =>
        (t.ph p).hold = (s.ph p).hold ∧ (t.ph p).token = some s.boot.epoch ∧ (t.ph p).latch = true
        ∧ { t with hold := s.hold } = s)
      ∧ ∀ c, Completes (.portRelease k (.fault c)) s (fun t =>
        t.heldNow p = true ∧ (t.ph p).token = some s.boot.epoch ∧ (t.st k.val).gate = false
        ∧ (t.po (1 + k.val)).st = .reconciling ∧ ({ holder := p / 6, cause := 3 } : PoolRet) ∈ (t.po (1 + k.val)).ret))
    ∧ (s.boot.dev = .service → s.nextRelease k.val = none → ∀ c, Completes (.portRelease k (.fault c)) s fun t =>
      (t.st k.val).gate = false ∧ t.home = s.home)
    ∧ (∀ p : PortId, (s.ph p.val).settle.isSome = true → (s.po (1 + standOf p.val)).quiet = true →
      Completes (.settleExpiry p) s fun t =>
        (t.ph p.val).settle = none ∧ (t.ph p.val).hold = (s.ph p.val).hold
        ∧ t.heldOf (1 + standOf p.val) (p.val / 6) = 0
        ∧ (t.po (1 + standOf p.val)).free = (s.po (1 + standOf p.val)).free + s.heldOf (1 + standOf p.val) (p.val / 6))

/-- R95, R99, R503: when the power-good of a carrier in the glade falls the stand controller holds the port, voids its
token and sets ABSENT with reason PG_LOST; its rise changes nothing else. R505: Pn_PG is sampled in SERVICE, RIDE and
HEADLESS only. R383 with R26, R36, R203, R339, R399: a critical register that disagrees with its shadow takes its fail-
safe value. (What a mismatch the rules do not spell out does is the model's choice, log 28 and 29.) -/
def Obligations.PowerGoodAndShadowMismatches : Prop :=
  (∀ (s : State) (p : PortId),
    (s.boot.dev.late = true → Completes (.pgFall p) s fun t =>
      (t.ph p.val).pg = false ∧ (t.ph p.val).token = none
      ∧ (s.inGlade p.val = true → t.heldNow p.val = true ∧ (t.pv p.val).verdict = 5 ∧ (t.pv p.val).reason = 3)
      ∧ t.home = s.home)
    ∧ (s.boot.dev.late = true → Completes (.pgRise p) s fun t => t.ph p.val = { s.ph p.val with pg := true }
      ∧ (∀ q, q ≠ p.val → t.ph q = s.ph q) ∧ { t with hold := s.hold } = s)
    ∧ (s.boot.dev.late = false → Completes (.pgFall p) s (· = s) ∧ Completes (.pgRise p) s (· = s)))
  ∧ (∀ (s : State) (p : PortId) (k : StandId) (n : KeySlotId) (q : BitVec 8),
    Completes (.shadowMismatch (.hold p)) s (fun t => t.heldNow p.val = true)
    ∧ Completes (.shadowMismatch (.gate k)) s (fun t => (t.st k.val).gate = false ∧ (t.st k.val).opened = false)
    ∧ Completes (.shadowMismatch (.firebreak k)) s (fun t => (t.st k.val).gate = false ∧ (t.st k.val).opened = false)
    ∧ Completes (.shadowMismatch (.token p)) s (fun t => (t.ph p.val).token = none)
    ∧ Completes (.shadowMismatch (.gen p)) s (fun t => (t.pw p.val).genN = (t.pw p.val).gen)
    ∧ Completes (.shadowMismatch .lcLatched) s (fun t => t.keys.lcBad = true)
    ∧ (poolCode q.toNat = true → (s.po q.toNat).st ≠ .frozen →
      Completes (.shadowMismatch (.census q)) s fun t => (t.po q.toNat).st = .reconciling
        ∧ (1 ≤ q.toNat ∧ q.toNat ≤ 6 → (t.st (q.toNat - 1)).gate = false))
    ∧ Completes (.shadowMismatch (.keyAttr n)) s (fun t => (t.ks n.val).bad = true ∧ (t.ks n.val).share0 = 0 ∧ (t.ks n.val).share1 = 0)
    ∧ Completes (.shadowMismatch .ownerRoot) s (fun t => t.keys.rootFail = true)
    ∧ Completes (.shadowMismatch .leadRole) s (fun t => t.boot.leadShadowBad = true ∧ t.leadAgent = none))

/-- R374, R375: a response of rank HOLD-PORT to HOLD-ALL holds every port of its set and sets HOLD_LATCH with the alarm's
SEQ; the ports outside the set keep their hold state. -/
def Obligations.HoldResponses : Prop :=
  ∀ (s : State) (code rank tkind target data p : Nat), 2 ≤ rank → rank ≤ 4 → p < 96 →
    let t := s.raise code rank tkind target data
    (p ∈ s.holdSet rank tkind target →
      (t.ph p).hold = true ∧ t.heldNow p = true ∧ (t.ph p).latch = true ∧ s.alarms.seq + 1 ∈ (t.ph p).latchBy)
    ∧ (p ∉ s.holdSet rank tkind target → (t.ph p).hold = (s.ph p).hold ∧ (t.ph p).latch = (s.ph p).latch)

/-! ### Host frames and the filter (05, 06, 07) -/

/-- R131, R133: a frame on a held port reaches no carrier flash and gets no answer; it counts as HELD_ACTIVITY, and the
frame tag advances. R137 to R143, R160, R161, R173, R178: on a released port a frame whose leaf allows it without a check
commits, and the host gets the flash's bytes; one whose leaf denies it is killed at the edge of its leaf, without make-up
pulse; a stall and a breach of the profile end it as STALLED and as killed. R500: on a bank that is not good nothing
happens. (A frame is one command: the model's choice, log 8.) -/
def Obligations.HostFrames : Prop :=
  (∀ (s : State) (p : PortId) (f : FrameIn),
    s.boot.dev ≠ .off → s.bankUp p.val = true → (s.ph p.val).mode ≠ .pass → (s.ph p.val).mode ≠ .dark →
    Completes (.hostFrame p f) s fun t =>
      (t.pe p.val).out = { ended := .ignored } ∧ (t.pe p.val).tag = (s.pe p.val).tag + 1
      ∧ t.count p.val .heldActivity = satAdd 16 (s.count p.val .heldActivity) 1 ∧ t.home = s.home)
  ∧ (∀ (s : State) (p : PortId) (f : FrameIn) (eL : Nat) (l : Leaf),
    let e := s.pe p.val
    let h := shapeOf l e.params.cLanes false e.addr4
    (s.bankUp p.val = false → Completes (.hostFrame p f) s (· = s) ∧ Completes (.profileBreach p f) s (· = s))
    ∧ (s.boot.dev ≠ .off → s.bankUp p.val = true → (s.ph p.val).mode = .pass →
    (f.clkHigh = e.params.mode3 → e.cont = false → f.lanes ≠ [] → l.check = false → lostEdges f = [] → f.events = [] →
        (∀ i, Flaw.trie p.val i ∉ s.flaws) →
        (s.pw p.val).walk e.params.cLanes f.lanes 0 0 (8 / e.params.cLanes) = some (eL, l) →
      (l.action = 0 → l.change = false → l.mPresent = false → Completes (.hostFrame p f) s fun t =>
        (t.pe p.val).out.ended = .committed
        ∧ (l.dDir = 2 → (t.pe p.val).out.host =
            (List.range (ceilDiv (f.lanes.length - h.eD) h.epb)).map fun j => f.flash.getD j 0xFF))
      ∧ (l.action = 1 → Completes (.hostFrame p f) s fun t =>
        (t.pe p.val).out.ended = .killed ∧ (t.pe p.val).out.pulses ≤ eL ∧ (t.pe p.val).out.makeUp = false
        ∧ (t.pe p.val).out.host = []))
    ∧ (e.params.stall ≠ 0 → Completes (.stallTimeout p f) s fun t =>
      (t.pe p.val).out.ended = .stalled ∧ t.count p.val .stalled = satAdd 32 (s.count p.val .stalled) 1)
    ∧ Completes (.profileBreach p f) s fun t =>
      (t.pe p.val).out.ended = .killed ∧ satAdd 32 (s.count p.val .breach) 1 ≤ t.count p.val .breach))

/-- R137, R142, R196: a host frame that does not commit sets neither WEL nor BUSY of the port's status model and leaves
ADDR4, but for a handback of the port that a probe ends meanwhile. -/
def Obligations.OnlyCommittedFramesSetTheModel : Prop :=
  ∀ (s t : State) (p : PortId) (f : FrameIn),
    exec (.hostFrame p f) s = .next t → (t.pe p.val).out.ended ≠ .committed →
      ((t.pw p.val).wel = true → (s.pw p.val).wel = true) ∧ ((t.pw p.val).busy = true → (s.pw p.val).busy = true)
        ∧ ((t.pe p.val).addr4 = (s.pe p.val).addr4 ∨ ((t.pe p.val).addr4 = false ∧ f.events ≠ []))

/-- R171, R186, R203, R293: in the generation that the port's frame latched a lookup that meets an invalid entry, another
port's, another build's, a sector outside its range, a class outside its mask, an entry that fails ECC or a GEN shadow
that disagrees answers a refused DENY for the whole granule. -/
def Obligations.RefusedLookupsDeny : Prop :=
  ∀ (s : State) (p : Nat) (index : BitVec 17) (dt : W36) (a : Nat),
    let w := s.pw p
    let e := (s.rule w.genFrame index.toNat).toNat
    let sector := bitsOf dt.toNat 15 0
    (Flaw.rule w.genFrame index.toNat ∈ s.flaws ∨ w.gen = w.genN ∨ bitOf e 127 = false ∨ bitsOf e 126 120 ≠ p ∨ bitsOf e 63 48 ≠ (if w.genFrame then w.build1 else w.build0).toNat ∨ sector < bitsOf e 115 100
        ∨ bitsOf e 99 84 < sector ∨ bitOf e (116 + bitsOf dt.toNat 25 24) = false) →
      let d := decOf (s.lookupWord p index dt) a
      d.action = 1 ∧ d.refused = true ∧ d.last = a / 65536 * 65536 + 65535
        ∧ decTag (s.lookupWord p index dt) = bitsOf dt.toNat 31 30 ∧ decSpan (s.lookupWord p index dt) = bitsOf dt.toNat 29 26

/-- R157, R196, R220, R228, R252, R293: the oldest lookup of a port gets its word, in Dd of the thread and, with DIRECT,
in the decision path of a thread that runs; the busy timer clears BUSY; a held port leaves continuous read with its EXIT
frame; a glean slot takes half a leaf, and with the second half the tag decides. R203 to R207, R212, R229: a rebuild
empties the staging bank, takes the next build and leaves the active bank; a container that matches is written and counted
once the service lane is free, one that does not stops the rebuild; a flip changes GEN with its shadow; a DEFERRED port
that is held takes its slices and flips. (The outcome of a leaf whose job fails its check is the model's choice, log 50.)
-/
def Obligations.FilterAndRebuild : Prop :=
  (∀ (s : State) (p : PortId) (q : Lookup) (qs : List Lookup) (i : GleanItem) (is : List GleanItem) (g : Nat),
    ((s.pd p.val).lookups = q :: qs → Completes (.ruleLookupResult p) s fun t =>
      let w := s.lookupWord p.val q.index q.dt
      (t.pd p.val).lookups = qs ∧ (t.pd p.val).decs = (if q.direct && !s.threadOff p.val then (s.pd p.val).decs ++ [w] else (s.pd p.val).decs)
        ∧ (q.rd ≠ 0 → (t.co (8 + p.val)).rd q.rd.toNat = w) ∧ (t.co (8 + p.val)).rd 0 = 0)
    ∧ Completes (.busyTimerExpiry p) s (fun t => t.pw p.val = { s.pw p.val with busy := false } ∧ { t with win := s.win } = s)
    ∧ (s.heldNow p.val = true → (s.pe p.val).cont = true →
      Completes (.contExitFrame p) s fun t => t.pe p.val = { s.pe p.val with
        cont := false, master := (frameRecs (sub (s.handRec p.val) 8 24) 1).map recFrame } ∧ { t with edge := s.edge } = s)
    ∧ ((s.pg p.val).glean = i :: is →
      (i.half = false → Completes (.gleanHalfLeaf p .ok) s fun t => (t.pg p.val).glean = { i with half := true } :: is
        ∧ { t with pgran := s.pgran } = s)
      ∧ (∀ x, x ≠ .ok → s.rankOf 0x0141 ≤ 4 → Completes (.gleanHalfLeaf p x) s fun t => (t.pg p.val).glean = is
        ∧ (let out := if (s.leafGroup p.val i.addr).isSome then Ctr.unobserved else Ctr.untagged
           t.count p.val out = satAdd 32 (s.count p.val out) 1))
      ∧ (i.half = true → s.leafGroup p.val i.addr = some g → s.gleanStopped p.val g = false →
        (leBytes (s.gleanTag p.val i.addr i.data).toNat 8 = s.storedTag g i.addr → Completes (.gleanHalfLeaf p .ok) s fun t =>
          t.count p.val .verified = satAdd 32 (s.count p.val .verified) 1
            ∧ (t.pg p.val).mismatchLeaf = (s.pg p.val).mismatchLeaf)
        ∧ (leBytes (s.gleanTag p.val i.addr i.data).toNat 8 ≠ s.storedTag g i.addr → Completes (.gleanHalfLeaf p .ok) s fun t =>
          t.count p.val .mismatch = satAdd 16 (s.count p.val .mismatch) 1
            ∧ (t.pg p.val).mismatchLeaf = BitVec.ofNat 20 (i.addr / 256)))))
  ∧ (∀ (s : State) (p : PortId),
    let r := s.rules
    let c := s.homeContainer (schedBase r.done) 0x100000
    let good := sheafFormOk c r.done && decide (cDigest c = polSheafDigest r.policy r.done)
    let d := s.homeContainer (schedBase (sheafOf p.val)) 0x100000
    (s.boot.dev = .service → r.restart = true → s.wake.policy.isSome = true → (r.state = .idle ∨ r.state = .blocked) →
        (∀ q, q < 96 → (s.pw q).gen ≠ r.staging) →
      Completes .rebuildStart s fun t =>
        t.rules.state = .rebuilding ∧ t.rules.done = 0 ∧ t.rules.restart = false
        ∧ t.rules.stBuild = (if r.stBuild = 0xFFFF then 1 else r.stBuild + 1)
        ∧ (if r.staging then t.rules.bank1 = [] ∧ t.rules.bank0 = r.bank0 else t.rules.bank0 = [] ∧ t.rules.bank1 = r.bank1))
    ∧ (r.state = .rebuilding → s.svcFree = true → r.done < 11 → good = true →
        s.rulesCollide r.done r.staging (ruleRecords (sectionOf c 4)) = false →
      Completes .rebuildContainer s fun t =>
        t.rules.done = r.done + 1 ∧ t.rules.state = .rebuilding ∧ t.win = s.win ∧ t.home = s.home
        ∧ (if r.staging then t.rules.bank0 = r.bank0 else t.rules.bank1 = r.bank1))
    ∧ (r.state = .rebuilding → s.svcFree = true → good = false → Completes .rebuildContainer s fun t =>
      t.rules.state = .idle ∧ t.win = s.win ∧ (if r.staging then t.rules.bank1 = [] else t.rules.bank0 = []))
    ∧ ((s.pw p.val).flipPend = true → Completes (.generationFlip p) s fun t =>
      (t.pw p.val).gen = !(s.pw p.val).gen ∧ (t.pw p.val).genN = (s.pw p.val).gen ∧ (t.pw p.val).flipPend = false
        ∧ (∀ q, q ≠ p.val → t.pw q = s.pw q))
    ∧ (s.svcFree = true → (s.pw p.val).deferred = true → s.heldNow p.val = true → r.state ≠ .rebuilding → sheafFormOk d (sheafOf p.val) = true →
        cDigest d = polSheafDigest r.policy (sheafOf p.val) → (s.sh (sheafOf p.val)).threads = sectionOf d 1 →
      Completes (.deferredPortUpdate p) s fun t =>
        (t.pw p.val).deferred = false ∧ (t.pw p.val).gen = !(s.pw p.val).gen ∧ (t.pw p.val).genN = (s.pw p.val).gen
          ∧ (t.pw p.val).tries = sliceTries d (p.val % 8) ∧ (t.pw p.val).coarse = sliceCoarse d (p.val % 8)))

/-! ### Granary, lanes and execute in place (07 R229 to R231, 08) -/

/-- R247 to R249, R256: the scrub reads word after word, counts a corrected error of an allocated page and makes an
uncorrectable page BAD, and gives its slot to a relocation that runs; a relocation takes a SPARE group, starts after its
wait anyway, and moves the 2 KiB; a serve slot puts the next word of the port's span into the serve buffer. R229 to R231,
R406, R410, R418, R420: the service lane finishes the hash of the link firmware, or that of a handover's image, whose core
then waits for READY or goes back to the old bundle; a self-test that passes changes nothing, one that fails makes the
channel of its unit probe, and in the entry stage retires its lane; the test of a lane that a wake holds waits for the
wake's end. -/
def Obligations.GranaryLaneAndSelfTests : Prop :=
  (∀ (s : State) (r : Reloc) (rs : List Reloc) (g new : Nat) (p : PortId) (w : ServeSpan) (bs : List Byte) (addr : BitVec 28),
    let n := s.gran.scrub / 16
    ((s.gran.relocs.any fun x => x.target.isSome) = true → ∀ x, Completes (.scrubRead x) s (· = s))
    ∧ (s.gran.uses ≠ 1023 → (s.gran.relocs.any fun x => x.target.isSome) = false →
      Completes (.scrubRead .ok) s (fun t =>
        t.gran = { s.gran with uses := (s.gran.uses + 1) % 1024, scrub := (s.gran.scrub + 1) % 2097152 }
          ∧ { t with gran := s.gran } = s)
      ∧ (pageUse (s.page n) ≠ 0 → pageUse (s.page n) ≠ 7 → Completes (.scrubRead .corrected) s fun t =>
          pageCe (t.page n) = min 3 (pageCe (s.page n) + 1) ∧ pageUse (t.page n) = pageUse (s.page n)
            ∧ t.gran.data = s.gran.data)
      ∧ Completes (.scrubRead .uncorrectable) s (fun t => pageUse (t.page n) = 7))
    ∧ (s.gran.relocs = r :: rs → (s.gran.relocs.any fun x => x.target.isSome) = false → s.movable r.group = true →
        s.spareGroup r.group = some g →
      Completes .relocationStart s (fun t => t.gran.relocs = { r with target := some g } :: rs ∧ t.gran.data = s.gran.data)
      ∧ Completes .relocationWaitExpiry s (fun t =>
          t.gran.relocs = { r with target := some g, overdue := true } :: rs ∧ t.gran.data = s.gran.data))
    ∧ (s.gran.relocs = r :: rs → r.target = some new → s.movable r.group = true →
      Completes .relocationDone s fun t =>
        t.gran.relocs = rs ∧ t.granGet (2048 * new) 2048 = s.granGet (2048 * r.group) 2048)
    ∧ (s.bankUp p.val = true → s.chanRetired .sequencer (sheafOf p.val) = false →
        (s.pg p.val).span = some w → (s.pg p.val).serve.length < 4 → w.next ≤ w.last → w.next / 16 = addr.toNat / 16 →
        s.serveWord p.val w.ctx w.next = some bs → Completes (.serveSlotRead p addr) s fun t =>
        t.pg p.val = { s.pg p.val with serve := (s.pg p.val).serve ++ [(w.next, bs)], span := some { w with next := w.step w.next } }
          ∧ { t with pgran := s.pgran } = s))
  ∧ (∀ (s : State) (u : TestUnit) (i : Fin 4) (k : SheafId) (th : Fin 8) (l : LaneId) (n : Nat),
    (s.serviceLane.isSome = true → s.svcNext = some .reload → Completes .serviceLaneJob s fun t =>
      t.wake.svcJobs.contains .reload = false ∧ (∀ j ∈ t.wake.svcJobs, j ∈ s.wake.svcJobs) ∧ { t with wake := s.wake } = s)
    ∧ (s.svcNext = some .image →
      ((s.bundleImage s.hand.new 0).isSome = true → Completes .serviceLaneJob s fun t =>
        t.hand.state = .waitingReady ∧ t.boot = s.boot ∧ t.home = s.home)
      ∧ (s.bundleImage s.hand.new 0 = none → Completes .serviceLaneJob s fun t =>
        t.hand.state = .idle ∧ t.hand.result = 0x3E01 ∧ t.boot = s.boot ∧ t.home = s.home))
    ∧ Completes (.selfTestSlot u true) s (fun t => t = s)
    ∧ (s.gleanLane i.val = some n → (s.ch (chanKey .lane n)).state = .inService →
      Completes (.selfTestSlot (.gleanLane i) false) s fun t => (t.ch (chanKey .lane n)).state = .probing)
    ∧ ((s.co (8 + 8 * k.val + th.val)).run = .waitEvent → (s.ch (chanKey .sequencer k.val)).state = .inService →
      Completes (.selfTestSlot (.thread k th) false) s fun t => (t.ch (chanKey .sequencer k.val)).state = .probing)
    ∧ (s.wake.stage = .entry → s.wake.lanes.contains l.val = true → Completes (.selfTestSlot (.wakeLane l) false) s fun t =>
      t.chanRetired .lane l.val = true ∧ t.wake.lanes.contains l.val = false)
    ∧ (s.wake.stage ≠ .idle → s.wake.lanes.contains l.val = true → Completes (.laneTestRequest l false) s fun t =>
      t.wake.tests = s.wake.tests ++ [l.val] ∧ { t with wake := s.wake } = s)
    ∧ (s.wake.stage = .idle → (s.ch (chanKey .lane l.val)).state = .inService →
      Completes (.laneTestRequest l false) s (fun t => (t.ch (chanKey .lane l.val)).state = .probing)
      ∧ (s.wake.tests.contains l.val = true → Completes (.deferredLaneTest l false) s fun t =>
          (t.ch (chanKey .lane l.val)).state = .probing ∧ t.wake.tests = s.wake.tests.filter fun x => decide (x ≠ l.val))))

/-- R264 to R266, R406, R418, R420 to R422: a Canopy core that misses waits for the fetch of its line; a line that passes
its check enters the buffer, and the next line is fetched with it. READY stops the mailboxes; with no command in progress
LEAD flips in one cycle to the new bundle, and they are ready again; the other core is reloaded from it where its part
still has the header's digest, and the tag pass ends the handover with OK; without READY the core returns to the old slot.
-/
def Obligations.ExecuteInPlaceAndHandover : Prop :=
  ∀ (s : State) (b : Bool) (addr : W24) (f : XipFetch) (data : List Byte),
    let line := (f.addr.toNat - 0x400000) / 256
    (s.boot.canopyOut = true → 0x400000 ≤ addr.toNat → s.xipLine addr.toNat = none →
      Completes (.xipMiss b addr) s fun t =>
        t.xipWaits (if b then .canopyB else .canopyA) = true ∧ { t with gran := s.gran } = s)
    ∧ (s.gran.fetch = some f → s.gran.tagging = false → s.xipChecked line = some data →
      Completes (.xipFetchDone true) s fun t => t.xipLine f.addr.toNat = some data ∧ t.homeCont = true
        ∧ t.gran.fetch = (if f.ahead || !s.xipAhead line then s.gran.held.head?
            else some { core := f.core, addr := BitVec.ofNat 24 (0x400000 + 256 * (line + 1)), ahead := true })
        ∧ { t with gran := s.gran, homeCont := s.homeCont } = s)
    ∧ (s.gran.fetch = some f → s.gran.tagging = false → f.tries = 0 → (s.ch (chanKey .home 0)).state = .inService →
      Completes (.xipFetchDone false) s fun t => t.gran.fetch = some { f with tries := 1 }
        ∧ (t.ch (chanKey .home 0)).state = .probing)
    ∧ (s.hand.state = .waitingReady → Completes .handoverReady s fun t =>
      t.hand.state = .switching ∧ (∀ q, q < 8 → (t.mb q).ready = false ∧ ((s.mb q).ready = true → (t.mb q).paused = true))
        ∧ t.boot = s.boot ∧ t.home = s.home)
    ∧ (s.hand.state = .switching → (∀ q, q < 8 → (s.mb q).tag = none) → Completes .handoverReady s fun t =>
      t.boot.lead = (if s.boot.lead = .b then .a else .b) ∧ t.boot.running = s.hand.new ∧ t.hand.running = s.hand.slot
        ∧ t.hand.state = .reloading ∧ t.gran.tagging = true ∧ t.home = s.home
        ∧ ∀ q, q < 8 → (s.mb q).paused = true → (t.mb q).ready = true)
    ∧ (s.hand.state = .waitingReady → s.leaveFor1 1 → (s.bundleImage s.hand.old 0).isSome = true →
      Completes .handoverReadyTimeout s fun t =>
        t.hand.state = .idle ∧ t.hand.result = 0x5001 ∧ t.boot.lead = s.boot.lead ∧ t.home = s.home
          ∧ (t.co s.secondCore).run = .running ∧ (t.co s.secondCore).pc = vectorPc s.hand.old.canopy)
    ∧ (s.hand.state = .reloading → s.svcFree = true → s.leaveFor1 1 →
      ((s.bundleImage s.hand.new 0).isSome = true → Completes .handoverReload s fun t =>
        t.hand.state = .tagging ∧ (t.co s.secondCore).run = .running ∧ (t.co s.secondCore).pc = vectorPc s.hand.new.canopy
          ∧ t.home = s.home)
      ∧ (s.bundleImage s.hand.new 0 = none → Completes .handoverReload s fun t =>
        t.hand.state = .tagging ∧ (t.co s.secondCore).run = .reset ∧ t.home = s.home))
    ∧ (s.hand.state = .tagging → Completes .tagPass s fun t =>
      t.hand.state = .idle ∧ t.hand.result = 0 ∧ t.gran.tagging = false ∧ t.home = s.home)

/-! ### Channels, pools and device leave (14, 15) -/

/-- R408 to R416, R425: a passed probe puts its channel back in service and fills its bucket by one, a failed one is tried
again, the third failure retires the channel (the home port is kept); a bucket loses 1 per decay; after the scan every
standing retirement is re-applied. -/
def Obligations.ChannelProbes : Prop :=
  ∀ (s : State) (k : ChannelKind) (i : Nat),
    let c := s.ch (chanKey k i)
    (c.state = .probing → i < chanSize k → s.probeReady k i = true →
      (c.bucket < 16 → Completes (.probe k i true) s fun t =>
        (t.ch (chanKey k i)).state = .inService ∧ (t.ch (chanKey k i)).bucket = c.bucket + 1
          ∧ (t.ch (chanKey k i)).try_ = 0 ∧ t.home = s.home)
      ∧ (c.try_ < 3 → Completes (.probe k i false) s fun t =>
        (t.ch (chanKey k i)).state = .probing ∧ (t.ch (chanKey k i)).try_ = c.try_ + 1 ∧ { t with chans := s.chans } = s)
      ∧ (3 ≤ c.try_ → Completes (.probe k i false) s fun t =>
        (t.ch (chanKey k i)).state = (if k = .home then .kept else .retired) ∧ (t.ch (chanKey k i)).try_ = 0))
    ∧ (i < chanSize k → Completes (.bucketDecay k i) s fun t =>
      t.ch (chanKey k i) = { c with bucket := c.bucket - 1 } ∧ { t with chans := s.chans } = s)
    ∧ (s.boot.dev = .service → s.leads = true → s.log.state = .running → s.wake.stage = .idle →
        (∀ b ∈ s.log.retires, ∀ x, kindOf (retireOf b).1 = some x → (retireOf b).2 < chanSize x) →
      Completes .retirementReapply s fun t =>
        t.home = s.home ∧ ∀ b ∈ s.log.retires, ∀ x, kindOf (retireOf b).1 = some x → x ≠ .home →
          t.chanRetired x (retireOf b).2 = true)

/-- R393, R396, R399, R404: a grant that the pool covers and a return of units that are held conserve TOTAL; a return
above HELD is refused, nothing moves and the pool reconciles; a pool grants nothing while it is frozen or reconciling, nor
more than FREE. -/
def Obligations.PoolsConserve : Prop :=
  ∀ (s : State) (q h n : Nat), (s.po q).conserved = true →
    (s.canGrant q n = true → ((s.poolGrant q h n).po q).conserved = true
      ∧ (s.poolGrant q h n).heldOf q h = s.heldOf q h + n ∧ ∀ j, j ≠ q → (s.poolGrant q h n).po j = s.po j)
    ∧ ((s.po q).st ≠ .reconciling → (s.po q).fault = false → n ≤ s.heldOf q h → ((s.poolReturn q h n).po q).conserved = true
      ∧ (s.poolReturn q h n).heldOf q h = s.heldOf q h - n ∧ ∀ j, j ≠ q → (s.poolReturn q h n).po j = s.po j)
    ∧ ((s.po q).st = .ok → s.heldOf q h < n → s.rankOf 0x0140 < 2 → ((s.poolReturn q h n).po q).st = .reconciling
      ∧ ((s.poolReturn q h n).po q).free = (s.po q).free ∧ ((s.poolReturn q h n).po q).held = (s.po q).held
      ∧ Alarmed s (s.poolReturn q h n) 0x0140 0 0)
    ∧ ((s.po q).st ≠ .ok → s.canGrant q n = false) ∧ ((s.po q).free < n → s.canGrant q n = false)

/-- R57, R395, R398, R400 to R402: the arbiter grants the request that is next and lets it begin; a bundle pass, the
Canopy cores and the link core start with it; a reconciliation sets FREE from the holders' own counts without what they
return and writes an entry for each, or leaves a pool whose counts exceed TOTAL frozen; a stand pool that no port holds
takes its new total. -/
def Obligations.LeaveAndCensus : Prop :=
  ∀ (s : State) (r : LvReq) (q : BitVec 8) (k : StandId) (n : Nat) (b : Bundle) (x : Slot),
    let p := s.po q.toNat
    let kept := (p.holding.map fun e => e.2 - p.returned e.1).sum
    (s.nextLeave = some r → r.use.holder ≠ 4 → r.use.holder ≠ 7 → s.rankOf 0x0402 < 2 → Completes .leaveGrant s fun t =>
      t.heldOf 0 r.use.holder = s.heldOf 0 r.use.holder + r.n
        ∧ t.leave.queue = dropFirst (fun x => decide (x = r)) s.leave.queue ∧ t.home = s.home
        ∧ (∀ e, r.use = .kernel e → (t.en e).state = .busy ∧ (t.en e).waiting = false)
        ∧ (∀ e, r.use = .chain e → (t.en e).state = .busy ∧ (t.en e).waiting = false)
        ∧ (r.use = .fuse → t.fuses.waiting = false) ∧ (∀ l, r.use = .retrain l → (t.ln l).st = .training)
        ∧ (∀ i, r.use = .recovery i → (t.fl i).token = true))
    ∧ (s.nextLeave = some ⟨.canopyB, 1⟩ → s.boot.step = .good → s.boot.bundle = some b → Completes .leaveGrant s fun t =>
      t.boot.dev = .service ∧ t.boot.canopyOut = true ∧ (t.co 1).run = .running ∧ (t.co 2).run = .running)
    ∧ (s.nextLeave = some ⟨.linkCore, 1⟩ → s.linkReady = true → Completes .leaveGrant s fun t =>
      t.boot.linkOut = true ∧ (t.co 3).run = .running)
    ∧ (s.boot.step = .reading → s.boot.cand = some x → s.seedReady (s.bundleHeader x) = true →
        s.nextLeave = some ⟨.bundle, s.seedTokens (s.bundleHeader x)⟩ → Completes .leaveGrant s fun t => t.boot.step = .verifying)
    ∧ (p.st = .reconciling → q.toNat < 16 → ((q.toNat ≠ 0 ∧ q.toNat ≠ 8) ∨ s.boot.laneSched = false) → p.late = [] →
        p.claims = [] → p.fault = false → Tab.wf 0 p.holding = true →
      (kept ≤ p.total → Completes (.reconciliationDone q) s fun t =>
        (t.po q.toNat).st = .ok ∧ (t.po q.toNat).free = p.total - kept
          ∧ (∀ h, t.heldOf q.toNat h = Tab.get 0 p.holding h - p.returned h)
          ∧ t.log.waiting = s.log.waiting ++ (p.entries q.toNat).map fun e => { kind := 0x30, body := e })
      ∧ (p.total < kept → Completes (.reconciliationDone q) s fun t => (t.po q.toNat).st = .frozen))
    ∧ ((s.po (1 + k.val)).newTot = some n → (s.po (1 + k.val)).sumHeld = 0 → (s.po (1 + k.val)).st = .ok →
      Completes (.poolTotalChange k) s fun t =>
        (t.po (1 + k.val)).total = n ∧ (t.po (1 + k.val)).free = n ∧ (t.po (1 + k.val)).newTot = none
          ∧ ∀ j, j ≠ 1 + k.val → t.po j = s.po j)

/-! ### Kernel (10) -/

/-- R304, R309, R310, R312: a start by the agent that owns an idle engine, with a word of the operation table, is accepted
for each operation; the engine is BUSY under its leave, or waits for it. R308, R310, R315 to R317, R325 to R327: operand
memory of an idle engine takes a write in its writable words and discards one elsewhere; an operation that nothing waits
behind ends with the RESULT of its first failing check or its outcome, its working words zero, its leave returned; an
abort ends it as ABORTED with every word zero, and an engine that retires as RETIRED. -/
def Obligations.KernelOperations : Prop :=
  (∀ (s : State) (e : EngineId) (src : Agent) (w : W32),
    s.kernelAgent = some src → (s.en e.val).state = .idle → (s.en e.val).waiting = false →
    (s.ch (chanKey .engine e.val)).state ≠ .probing → wordRefused w = false → s.rankOf 0x0402 < 5 →
    let started := fun (t : State) =>
      (t.en e.val).op = w ∧ (t.en e.val).owner = ownerCode src ∧ (t.en e.val).lastOp = BitVec.ofNat 6 (opCode w)
        ∧ ((t.en e.val).state = .busy ∨ (t.en e.val).waiting = true)
        ∧ ((∀ o, kop (opCode w) = some o → s.leaveFor1 (kopTokens o (opLen w))) →
            (t.en e.val).state = .busy) ∧ t.home = s.home
    (kop (opCode w) = some .rsaPub → Completes (.rsaPub e src w) s started)
    ∧ (kop (opCode w) = some .rsaPss → Completes (.rsaPssVerify e src w) s started)
    ∧ (kop (opCode w) = some .rsaCrt → Completes (.rsaCrt e src w) s started)
    ∧ (kop (opCode w) = some .modmul → Completes (.modmul e src w) s started)
    ∧ (kop (opCode w) = some .modexp → Completes (.modexp e src w) s started)
    ∧ (∀ c, kop (opCode w) = some (.ecdsaVerify c) → Completes (.ecdsaVerify e src w) s started)
    ∧ (∀ c, kop (opCode w) = some (.ecdsaSign c) → Completes (.ecdsaSign e src w) s started)
    ∧ (∀ c, kop (opCode w) = some (.ecdh c) → Completes (.ecdh e src w) s started)
    ∧ (∀ c, kop (opCode w) = some (.ecPubgen c) → Completes (.ecPubgen e src w) s started)
    ∧ (kop (opCode w) = some .ed25519 → Completes (.ed25519Verify e src w) s started)
    ∧ (∀ c, kop (opCode w) = some (.mldsa c) → Completes (.mldsaVerify e src w) s started))
  ∧ (∀ (s : State) (e : EngineId) (src : Agent) (word : BitVec 12) (v : W64) (o : KOp) (integrity : Bool),
    let k := s.en e.val
    let taken := (k.outSlot.map fun n => (s.ks n).bad).getD false
    let code := (kernelRun o k.mem (opLen k.op) k.key (s.drawn 0)).code (k.keyFail || taken) integrity
    let alone := s.wake.verify = [] ∧ s.keys.tasks = [] ∧ k.task = none ∧ k.chain = none
    (s.kernelAgent = some src → k.chain = none → k.state = .idle → k.waiting = false →
      (operandWritable word.toNat = true → Completes (.operandMemoryWrite e src word v) s fun t =>
        Tab.get 0 (t.en e.val).mem word.toNat = v ∧ (∀ j, j ≠ word.toNat → Tab.get 0 (t.en e.val).mem j = Tab.get 0 k.mem j)
          ∧ { t with engines := s.engines } = s)
      ∧ (operandWritable word.toNat = false → Completes (.operandMemoryWrite e src word v) s fun t => t = s))
    ∧ (k.state = .busy → alone → kop (opCode k.op) = some o → (s.po 0).quiet = true →
      Completes (.kernelOperationDone e integrity) s fun t =>
        (t.en e.val).state = .idle ∧ (t.en e.val).done = true ∧ (t.en e.val).result = BitVec.ofNat 4 code
          ∧ t.heldOf 0 e.val = 0 ∧ t.home = s.home ∧ ∀ j, 0x3D0 ≤ j → j < 0x1000 → Tab.get 0 (t.en e.val).mem j = 0)
    ∧ (k.state = .aborting → (s.ch (chanKey .engine e.val)).state = .inService → Completes (.kernelOperationDone e true) s fun t =>
      (t.ch (chanKey .engine e.val)).state = .probing ∧ { t with chans := s.chans } = s)
    ∧ (k.state = .aborting → alone → s.boot.dev ≠ .ride → Completes (.kernelAbortDone e) s fun t =>
      (t.en e.val).state = (if k.gone then .retired else .idle) ∧ (t.en e.val).done = true ∧ (t.en e.val).result = 0xC
        ∧ (t.en e.val).mem = []))

/-- R312, R316: where RESULT is OK, RSA_PUB leaves A^65537 mod M in OUT_A, MODEXP A^E mod M, MODMUL A * B mod M. -/
def Obligations.KernelArithmetic : Prop :=
  ∀ (s t : State) (e : EngineId),
    let k := s.en e.val
    let n := opLen k.op
    let m := memInt k.mem 0x000 n
    let a := memInt k.mem 0x080 n
    let out := memInt (t.en e.val).mem 0x280 128
    k.state = .busy → k.chain = none → k.task = none → s.wake.verify = [] → s.keys.tasks = [] → wordRefused k.op = false → exec (.kernelOperationDone e false) s = .next t →
    (t.en e.val).result = 0 →
      (kop (opCode k.op) = some .rsaPub → out = a ^ 65537 % m)
      ∧ (kop (opCode k.op) = some .modexp → out = a ^ memInt k.mem 0x400 n % m)
      ∧ (kop (opCode k.op) = some .modmul → out = a * memInt k.mem 0x100 n % m)

/-! ### Key slots and roots (11) -/

/-- R328, R329, R332 to R336, R338, R350: on a free firmware slot WRITE, GENERATE and DERIVE place a key with its
attribute word and a new INSTANCE, RESULT 0, and no other slot changes; one that a ZEROIZE or a SEAL cuts short leaves
every slot, one that a warm restart cuts short the slot empty with the next INSTANCE; LEAD's WRITE of KS4 and the link
core's GENERATE of KS5 to KS7 do it with the word of a reserved slot. R329, R335, R338, R339, R341, R343, R349, R350:
SETATTR narrows, READ fills KEYOUT, CLEAR empties a slot, PROVENANCE writes its statement, ROOT_GENERATE draws the owner
root, in DEPLOYED once its authorisation has been verified; KEYOUT expires; a remask that passes keeps the key and counts,
one that fails makes the slot unusable; a redraw renews K_SLOT, KS0 and KS1. (Key derivation's byte order is the model's
choice, log 20; a drawn key is a free value, log 10.) -/
def Obligations.KeyUnitFunctions : Prop :=
  (∀ (s : State) (src : Agent) (slot : KeySlotId) (attr : W32) (curve : BitVec 2) (parent : BitVec 6) (label context : List Byte),
    let n := slot.val
    let x := attr.toNat
    let bits := klenBits (bitsOf x 14 13)
    let owner := decide (parent = 0x3F) && decide (s.lcCurrent = 2 ∨ s.lcCurrent = 3)
    let rights := !(bitOf x 26 && (decide (parent = 0x3F) || !bitOf (s.ks parent.toNat).attr.toNat 26)) && (bitOf x 27 || !owner)
    let args := decide (1 ≤ label.length ∧ label.length ≤ 32 ∧ context.length ≤ 96) && label.all fun b => decide (b.toNat < 128)
    let key := fun (v : Nat) (t : State) => t.slotKey n = BitVec.ofNat 512 v
    let placed := fun (attr : W32) (t : State) =>
      (t.ks n).attr = attr ∧ (t.ks n).instn = incr64 (s.ks n).instn ∧ t.keys.result = 0 ∧ t.home = s.home
    let alone := fun (t : State) => ∀ j, j ≠ n → t.ks j = s.ks j
    let word := fun (origin : Nat) => s.placedAttr attr origin (bitOf x 27) (bitOf x 26)
    s.slotsOpen = true → s.keys.kSlot = true →
    (s.firmware src = true → 8 ≤ n → s.placeRefusal n attr = 0 →
      Completes (.keyUnitWrite { agent := src } slot attr) s (fun t =>
        placed (word 0) t ∧ alone t ∧ key (s.keyinNat % 2 ^ bits) t ∧ t.keys.keyin = [])
      ∧ Completes (.keyUnitWrite { agent := src, ended := .cleared } slot attr) s (fun t =>
        t.keys.result = 0x4401 ∧ t.keys.slots = s.keys.slots)
      ∧ Completes (.keyUnitWrite { agent := src, ended := .restart } slot attr) s (fun t =>
        t.keys.result = 0x4401 ∧ alone t ∧ t.ks n = { s.ks n with instn := incr64 (s.ks n).instn })
      ∧ (curveFits curve attr = true → Completes (.keyUnitGenerate { agent := src } slot curve attr) s fun t =>
        placed (word 1) t ∧ alone t ∧ key (trngKey curve bits (s.drawn 0)) t)
      ∧ (curveFits curve attr = true → args = true → rights = true → (s.deriveParent parent.toNat).1 = 0 →
        Completes (.keyUnitDerive { agent := src } slot parent curve attr label context) s fun t =>
          placed (word 2) t ∧ alone t
            ∧ (curve = 0 → key (leNat (kdf (s.deriveParent parent.toNat).2 label context bits)) t)))
    ∧ (s.leadAgent = some src → n = 4 → (s.ks 4).stop = 0 → destOk attr = true →
      Completes (.keyUnitWrite { agent := src } slot attr) s fun t =>
      placed (s.macsecAttr attr 0) t ∧ key (s.keyinNat % 2 ^ 256) t ∧ t.keys.keyin = [])
    ∧ (src = .link → s.boot.linkOut = true → 5 ≤ n → n ≤ 7 → (s.ks n).stop = 0 → destOk attr = true →
      Completes (.keyUnitGenerate { agent := src } slot curve attr) s fun t =>
        placed (s.macsecAttr attr 1) t ∧ alone t ∧ key (s.drawn 0 % 2 ^ 256) t))
  ∧ (∀ (s : State) (src : Agent) (slot : KeySlotId) (attr : W32) (nonce : List Byte),
    let n := slot.val
    let k := s.ks n
    let a := k.attr.toNat
    (s.slotsOpen = true → s.keys.kSlot = true → 8 ≤ n → k.stop = 0 →
      (s.firmware src = true →
        (narrows k.attr attr = true → Completes (.keyUnitSetattr { agent := src } slot attr) s fun t =>
          t.ks n = k.withAttr (s.narrowed k.attr attr) ∧ t.keys.result = 0 ∧ ∀ j, j ≠ n → t.ks j = s.ks j)
        ∧ Completes (.keyUnitClear { agent := src } slot) s (fun t =>
          t.ks n = k.cleared ∧ t.keys.result = 0 ∧ ∀ j, j ≠ n → t.ks j = s.ks j))
      ∧ (s.leadAgent = some src → s.bindOk k.attr = true →
        (bitOf a 31 = true → bitOf a 26 = true → Completes (.keyUnitRead { agent := src } slot) s fun t =>
          t.keys.keyout = wordsOf (leBytes (s.slotKey n).toNat 64) ∧ t.keys.result = 0 ∧ t.keys.slots = s.keys.slots)
        ∧ (bitOf a 31 = true → bitOf a 26 = false → (bitsOf a 25 24 = 1 ∨ bitsOf a 25 24 = 2) →
          Completes (.keyUnitProvenance { agent := src } slot nonce) s fun t =>
            t.keys.provOut = s.provenanceBody n nonce ∧ t.keys.result = 0 ∧ t.keys.slots = s.keys.slots)))
    ∧ (s.leadAgent = some src → s.boot.orderAF = false → s.lcCurrent = 2 → s.keys.lcBad = false → s.keys.kSlot = true →
      Completes (.rootGenerateFunction { agent := src }) s fun t =>
        t.keys.root ^^^ t.keys.rootMask = BitVec.ofNat 256 (s.drawn 0) ∧ t.keys.rootState = 1 ∧ t.keys.result = 0
          ∧ t.keys.slots = s.keys.slots)
    ∧ (s.leadAgent = some src → s.lcCurrent = 3 → s.objAuth 1 0 = true → s.keys.rootJob = none →
        s.onEngine (field s.mspi.obj.data 0x0A 2) = true →
      Completes (.rootGenerateFunction { agent := src }) s fun t =>
        t.Verifying (authJob (.root src) s.mspi.obj.data) ∧ t.keys.root = s.keys.root ∧ t.keys.slots = s.keys.slots)
    ∧ Completes .keyoutExpiry s (fun t => t.keys = { s.keys with keyout := [] } ∧ { t with keys := s.keys } = s)
    ∧ (k.bad = false → Completes (.slotRemask slot true) s (fun t =>
        t.slotKey n = s.slotKey n ∧ (t.ks n).remasks = k.remasks + 1 ∧ (t.ks n).attr = k.attr ∧ ∀ j, j ≠ n → t.ks j = s.ks j)
      ∧ Completes (.slotRemask slot false) s (fun t => (t.ks n).bad = true ∧ (t.ks n).share0 = 0 ∧ (t.ks n).share1 = 0))
    ∧ (s.keys.redraw = true → Completes .keyRedraw s fun t =>
      t.keys.kSlot = true ∧ t.keys.kSlotKey = BitVec.ofNat 256 (s.drawn 2) ∧ t.keys.redraw = false
        ∧ ((s.ks 0).bad = false → bitOf (t.ks 0).attr.toNat 31 = true) ∧ ((s.ks 1).bad = false → bitOf (t.ks 1).attr.toNat 31 = true)
        ∧ ∀ j, 2 ≤ j → t.ks j = s.ks j))

/-- R28, R333, R337, R339, R350: a key-unit function that ends with a RESULT other than OK changes no slot, but for a slot
that fails its checks and for the INSTANCE of one cut short by a warm restart; a Canopy core without LEAD gets ROLE. -/
def Obligations.RefusedKeyFunctionsChangeNoSlot : Prop :=
  ∀ (s t : State) (src : KeyIssue) (slot : KeySlotId) (attr : W32) (curve : BitVec 2) (parent : BitVec 6)
    (label context : List Byte) (i : Instr),
    i ∈ [.keyUnitWrite src slot attr, .keyUnitGenerate src slot curve attr, .keyUnitDerive src slot parent curve attr label context,
      .keyUnitSetattr src slot attr, .keyUnitClear src slot, .keyUnitRead src slot] →
    exec i s = .next t →
      (t.keys.result ≠ 0 → (s.ks slot.val).sound = true → src.ended ≠ .restart → t.keys.slots = s.keys.slots)
        ∧ (s.noLead src.agent = true → t.keys.result = 0x1408)

/-! ### Fuses (12) -/

/-- R364, R365, R371: the arming and its end; a re-sense starts, and its end makes the controller idle again. R352, R357,
R360 to R365, R368: a FIRE that matches its arming inside the window and passes every check starts its function, under 2
tokens or waiting for them; one that fails a check of its own ends with that RESULT and burns nothing; a burn whose pulses
all verify ends with OK and both copies of every bit sound. -/
def Obligations.FuseFunctions : Prop :=
  (∀ (s : State) (src : Agent) (w : W32) (findings : List (BitVec 14 × Resensed)) (hot : Bool),
    (fuseCore src = true →
      (s.fuses.state = .idle → w.toNat / 2 ^ 24 = 0xA5 → Completes (.fuseArm src w) s fun t =>
        t.fuses = { s.fuses with state := .armed, arm := some (src, w, s.cyc) } ∧ { t with fuses := s.fuses } = s)
      ∧ (s.fuses.state = .idle → Completes (.fuseResense src) s fun t =>
        t.fuses.state = .sensing ∧ { t with fuses := s.fuses } = s))
    ∧ (s.fuses.state = .armed → s.fuses.resense = none → Completes .fuseArmWindowExpiry s fun t =>
      t.fuses.state = .idle ∧ t.fuses.arm = none ∧ t.fuses.result = 0x1507 ∧ { t with fuses := s.fuses } = s)
    ∧ (s.fuses.state = .sensing → s.fuses.resense = none → Completes (.resenseDone findings) s fun t =>
      t.fuses.state = .idle ∧ (fuseFn s.fuses.word = 6 → t.fuses.done = true ∧ t.fuses.result = 0) ∧ t.home = s.home)
    ∧ (s.fuses.state = .burning → s.fuses.waiting = true → s.fuses.resense = none → Completes .fuseLeaveTimeout s fun t =>
      t.fuses.state = .idle ∧ t.fuses.done = true ∧ t.fuses.result = 0x2501 ∧ t.fuses.otp = s.fuses.otp)
    ∧ Completes (.temperatureThresholdCrossing true hot) s (fun t => t.fuses.tempOk = true ∧ t.fuses.otp = s.fuses.otp)
    ∧ (s.fuses.state = .burning → Completes (.temperatureThresholdCrossing false hot) s fun t =>
      t.fuses.tempOk = false ∧ t.fuses.done = true ∧ t.fuses.result = 0x2502))
  ∧ (∀ (s : State) (src : Agent) (w v : W32) (time : W64) (u : OtpUnit) (i : Instr),
    let fn := fuseFn w
    let d := s.cyc.toNat - time.toNat
    ((fn = 1 ∧ i = .fuseFireBurn src w) ∨ (fn = 2 ∧ i = .fuseFireLock src w) ∨ (fn = 3 ∧ i = .fuseFireAdvance src w)
        ∨ (fn = 4 ∧ i = .fuseFireRevoke src w) ∨ (fn = 5 ∧ i = .fuseFireReburn src w) →
      fuseCore src = true → s.fuses.state = .armed → s.fuses.arm = some (src, v, time) → w.toNat / 2 ^ 24 = 0x5A →
      w.toNat % 2 ^ 24 = v.toNat % 2 ^ 24 → 1200 ≤ d → d ≤ 12000000 → otpUnit (fuseUnit w) = some u →
      s.fuseIssuer fn u = some src → s.fuseStateOk fn u = true →
        (s.fuseOwn fn u (fuseArg w) = 0 → s.fuses.tempOk = true → s.mainGood = true → Completes i s fun t =>
          t.fuses.state = .burning ∧ t.fuses.word = w ∧ t.fuses.otp = s.fuses.otp
            ∧ (t.fuses.waiting = true ∨ t.heldOf 0 6 = s.heldOf 0 6 + 2))
        ∧ (s.fuseOwn fn u (fuseArg w) ≠ 0 → s.fuses.resense = none → Completes i s fun t =>
          t.fuses.state = .idle ∧ t.fuses.done = true ∧ t.fuses.result = BitVec.ofNat 16 (s.fuseOwn fn u (fuseArg w))
            ∧ t.fuses.otp = s.fuses.otp))
    ∧ (s.fuses.state = .burning → s.fuses.waiting = false → s.fuses.resense = none → Completes (.fuseDone []) s fun t =>
      t.fuses.state = .idle ∧ t.fuses.done = true ∧ t.fuses.result = 0 ∧ t.home = s.home
        ∧ ∀ a mask, (a, mask) ∈ s.fuses.plan →
          (bitOf mask 0 = true → (t.otpBit a).c0 = .sound) ∧ (bitOf mask 1 = true → (t.otpBit a).c1 = .sound))
    ∧ (∀ l ls lead, s.fuses.lrQueue = l :: ls → s.leadAgent = some lead → s.fuses.state = .idle → s.boot.canopyOut = true →
        s.fuses.tempOk = true → s.mainGood = true → s.lcLatched ≠ 5 → 1 ≤ s.lcLatched → s.lcLatched ≤ 4 → s.lcCurrent ≠ 5 →
        (∀ x ∈ l :: ls, x < 24) → s.boot.dev ≠ .sealed →
      Completes .lrBurnRetry s fun t =>
        t.fuses.state = .burning ∧ fuseUnit t.fuses.word = 1 ∧ fuseFn t.fuses.word = 1
          ∧ t.fuses.image = [BitVec.ofNat 32 (maskOf (l :: ls))]))

/-! ### Alarms and evidence log (13) -/

/-- R372 to R376, R379, R387: each monitor raises its alarm at its rank; a thread watchdog also takes its sequencer's
channel out of service; a backup source that is armed raises its alarm, or clears root and last-good digests where only
the cell is present and the response is ZEROIZE or SEAL; the coincidence window closes; an acknowledged level alarm that
reads normal ends. -/
def Obligations.MonitorsRaiseTheirAlarms : Prop :=
  ∀ (s : State) (g : GlitchSupply) (b : BankSupply) (ta : TempAlarm) (k : SheafId) (th : Fin 8) (mesh : BitVec 4) (bad level : Bool)
    (n : Fin 2) (seq : W32) (x : Alarm),
    (s.boot.dev ≠ .off →
      Completes (.supplyGlitch g) s (fun t => Alarmed s t (match g with | .aon => 0x0102 | _ => 0x0101) 0 0)
      ∧ Completes (.bankSupplyExcursion b) s (fun t => match b with
          | .io j => Alarmed s t 0x0103 2 j.val | .ioH => Alarmed s t 0x0104 0 0 | _ => Alarmed s t 0x0105 0 0)
      ∧ Completes (.dieTemperatureAlarm ta) s (fun t =>
          Alarmed s t (match ta with | .above140 => 0x0120 | .below45 => 0x0121 | .atLeast130 => 0x0122) 0 0))
    ∧ ((s.sh k.val).released = true → (s.pd (8 * k.val + th.val)).events ≠ [] →
      (s.ch (chanKey .sequencer k.val)).state = .inService → Completes (.threadWatchdogExpiry k th) s fun t =>
        Alarmed s t 0x0130 1 (8 * k.val + th.val) ∧ (t.ch (chanKey .sequencer k.val)).state = .probing)
    ∧ Completes .coincidenceWindowClose s (fun t => t.alarms.window = none ∧ { t with alarms := s.alarms } = s)
    ∧ (s.alarms.active.find? (fun a => decide (a.seq = seq.toNat) && levelSource a.code) = some x →
      Completes (.alarmNormalTimer seq) s fun t =>
        (x.acked = true → ∀ y ∈ t.alarms.active, y.seq = seq.toNat → y.acked = false)
          ∧ (x.acked = false → ∃ y ∈ t.alarms.active, y.seq = seq.toNat ∧ y.normal = true) ∧ t.hold = s.hold)
    ∧ (s.backupUp = true → Completes (.backupTick mesh bad) s fun t =>
      t.backup.clock = s.backup.clock + 1
        ∧ ∀ j, j < 4 → mesh.getLsbD j = true → s.boot.dev ≠ .off → s.armedFor (0x0501 + j) → Alarmed s t (0x0501 + j) 0 0)
    ∧ (s.backupUp = true → s.backup.switches.getLsbD n.val ≠ level → Completes (.caseSwitchChange n level) s fun t =>
      t.backup.switches.getLsbD n.val = level
        ∧ (s.boot.dev ≠ .off → s.armedFor (0x0508 + n.val) → Alarmed s t (0x0508 + n.val) 0 0))
    ∧ (s.boot.dev ≠ .off → s.armedFor 0x050A → Completes .vbatGlitch s fun t => Alarmed s t 0x050A 0 0)
    ∧ (s.boot.dev = .off → s.armedFor 0x050A → 5 ≤ s.rankOf 0x050A → Completes .vbatGlitch s fun t =>
      t.keys.root = 0 ∧ t.backup.lastGood = [] ∧ t.backup.zeroFlag = true ∧ t.home = s.home)
    ∧ (s.boot.dev ≠ .off → s.armedFor 0x050C → Completes .clock32Loss s fun t => Alarmed s t 0x050C 0 0)

/-- R378, R384, R387 to R391: SECOND programs the next record at APPEND_PTR with its header and CHAIN and nothing else of
the flash; a reserved KIND is refused; the backup log drains the same way and an entry of ZEROIZE or SEAL arms its source
again, one that fails its parity goes without an append; with less than 64 KiB left the log goes on in the next segment;
only the segment that may be erased is; a scan finds the open segment or stops the log. -/
def Obligations.EvidenceLogEvents : Prop :=
  ∀ (s u : State) (r : LogRec) (w : W128) (rest : List W128) (k : Nat),
    let g := s.log
    let entry := fun (kind : Nat) (b : List Byte) =>
      let body := padTo b (roundUp b.length 16)
      let head := logHead kind body.length g.seq s.backup.clock.toNat s.cyc.toNat
      head ++ chainOf g.chain head body ++ body
    let a := logBase + 16 * g.ptr
    let ready := s.secondServes = true ∧ g.state = .running ∧ s.homeUp = true ∧ s.svcFree = true
    let open_ := ready ∧ g.closed = false ∧ 65536 ≤ s.logFree
    (open_ → s.nextRecord = some (r, u) → logKinds.contains r.kind = true → Completes (.logAppend true) s fun t =>
      t.homeGet a (entry r.kind r.body).length = entry r.kind r.body ∧ HomeSameBut s t a (entry r.kind r.body).length
        ∧ t.log.seq = g.seq + 1 ∧ t.log.ptr = g.ptr + 5 + (roundUp r.body.length 16) / 16)
    ∧ (open_ → s.nextRecord = some (r, u) → logKinds.contains r.kind = false → Completes (.logAppend true) s fun t =>
      t.home = s.home ∧ t.log = s.log)
    ∧ Completes (.logAppend false) s (fun t => t = s)
    ∧ (ready → (g.closed = true ∨ s.logFree < 65536) →
        s.segErased ((g.openSeg + 1) % 8) = true → s.nextRecord.isSome = true → Completes (.logAppend true) s fun t =>
      t.log.openSeg = (g.openSeg + 1) % 8 ∧ t.log.carried = true ∧ t.log.closed = false
        ∧ t.log.epoch = (if 256 ≤ s.mc3 then 256 else s.mc3 + 1))
    ∧ (open_ → s.backup.log = w :: rest → Flaw.backupLog w ∉ s.flaws → Completes .backupLogDrain s fun t =>
      t.backup.log = rest
        ∧ t.backup.disarmed = s.backup.disarmed.filter (fun c => decide (entryRank w < 5) || decide (c ≠ bitsOf w.toNat 79 64))
        ∧ t.homeGet a (entry 0x12 (leBytes w.toNat 16)).length = entry 0x12 (leBytes w.toNat 16)
        ∧ HomeSameBut s t a (entry 0x12 (leBytes w.toNat 16)).length)
    ∧ (ready → s.backup.log = w :: rest → Flaw.backupLog w ∈ s.flaws → Completes .backupLogDrain s fun t =>
      t.backup.log = rest ∧ t.home = s.home ∧ ∃ x ∈ t.alarms.active, s.alarms.seq < x.seq ∧ x.code = 0x0141 ∧ x.rank = 1)
    ∧ (s.secondServes = true → g.state = .running → s.homeUp = true → s.erasable = some k → Completes .segmentErase s fun t =>
      (∀ j, j < 0x200000 → t.homeGet (segBase k + j) 1 = [0xFF]) ∧ HomeSameBut s t (segBase k) 0x200000 ∧ t.log.carried = false)
    ∧ (s.boot.dev = .service → g.state = .scanning →
      (s.openSegment = none → Completes .logScan s fun t => t.log.state = .stopped ∧ t.home = s.home)
      ∧ (∀ e q p, s.openSegment = some (k, e, q, p) →
        (e < mcCount s.fuses.latched 3 → Completes .logScan s fun t => t.log.state = .stopped ∧ t.home = s.home)
        ∧ (mcCount s.fuses.latched 3 ≤ e → Completes .logScan s fun t =>
            t.log.state = .running ∧ t.log.openSeg = k ∧ t.log.epoch = e)))

/-! ### Trust link and recovery (16) -/

/-- R426 to R432, R449, R450: a lane trains under its leave, locks at the fastest common rate, is SECURED with a fresh SAK
once its MKA is live and sends HELLO; a SAK change takes KS7 and ends in the lane's own slot, whereupon one that waited on
the other lane starts; a rate that fails twice is withdrawn; frames that fail validation or carry another EtherType are
counted; loss of signal, of lock or of MKA life takes the lane down a state; both lanes gone, the link is autonomous and
every transfer is suspended. (Rates that are withdrawn and the fall of a lane after lock loss are the model's choice, log
32.) -/
def Obligations.LinkLaneEvents : Prop :=
  ∀ (s : State) (l : LinkId) (peer : BitVec 6) (r : Nat),
    let n := l.val
    let k := s.ln n
    (k.st ≠ .retired → k.los = false → Completes (.lossOfSignal l) s fun t =>
      (t.ln n).st = .down ∧ (t.ln n).los = true ∧ t.home = s.home)
    ∧ (k.st = .down → k.los = true → s.boot.linkOut = true → s.leaveFor1 2 →
      Completes (.signalPresent l) s fun t => (t.ln n).st = .training ∧ (t.ln n).los = false ∧ t.heldOf 0 8 = s.heldOf 0 8 + 2)
    ∧ (k.st = .training → s.common n peer = some r → Completes (.trainingTimeout { lane := l, peerRates := peer }) s fun t =>
      (Tab.get 0 k.fails r = 0 → Tab.get 0 (t.ln n).fails r = 1 ∧ (t.ln n).advert = k.advert)
        ∧ (Tab.get 0 k.fails r ≠ 0 → Tab.get 0 (t.ln n).fails r = 0 ∧ (t.ln n).advert = k.advert ||| BitVec.ofNat 6 (2 ^ (r - 1))))
    ∧ (k.st = .training → s.common n peer = some r → Completes (.blockLock l peer) s fun t =>
      (t.ln n).st = .up ∧ (t.ln n).rate = BitVec.ofNat 3 r ∧ t.home = s.home)
    ∧ ((k.st = .up ∨ k.st = .secured) → k.los = false → Completes (.blockLockLoss l) s fun t =>
      (t.ln n).st = .up ∧ ((s.ch (chanKey .link n)).state = .inService → (t.ch (chanKey .link n)).state = .probing))
    ∧ (k.st = .up → s.boot.linkOut = true → s.slotServes 4 2 = true → (s.ks (5 + n)).stop = 0 →
      Completes (.mkaLive l) s fun t =>
        (t.ln n).st = .secured ∧ t.link.auto = false ∧ bitOf (t.ks (5 + n)).attr.toNat 31 = true ∧ t.link.aborts = []
          ∧ ∃ f, t.linkOut[s.linkOut.length]? = some f ∧ f.lane = n ∧ f.type = 1 ∧ f.sent = 0)
    ∧ (s.secured n = true → k.changing = false → (s.ln (otherLane n)).changing = false → (s.ks 7).stop = 0 →
      Completes (.sakChangeDue l) s fun t =>
        (t.ln n).changing = true ∧ (t.ln n).sak = 3 ∧ t.slotKey 7 = BitVec.ofNat 512 (s.drawn 0 % 2 ^ 256))
    ∧ (k.changing = true → (s.ks (5 + n)).bad = false → Completes (.sakChangeDone l) s fun t =>
      (t.ln n).changing = false ∧ (t.ln n).sak = BitVec.ofNat 2 (n + 1) ∧ t.slotKey (5 + n) = s.slotKey 7
        ∧ ((s.ln (otherLane n)).due = true → s.secured (otherLane n) = true → (s.ln (otherLane n)).changing = false →
          (s.ks 7).bad = false → (s.ks 7).reserved = false →
            (t.ln (otherLane n)).changing = true ∧ (t.ln (otherLane n)).due = false ∧ (t.ln (otherLane n)).sak = 3))
    ∧ (k.st = .secured → Completes (.mkaLifeExpiry l) s fun t => (t.ln n).st = .up ∧ t.home = s.home)
    ∧ ((k.st = .up ∨ k.st = .secured) → s.boot.linkOut = true →
      (∀ e : BitVec 16, e.toNat ≠ s.etherType → Completes (.macsecDrop l (.etherType e)) s fun t =>
        Tab.get 0 (t.ln n).ctrs 2 = satAdd 32 (Tab.get 0 k.ctrs 2) 1 ∧ t.link.xfers = s.link.xfers)
      ∧ Completes (.macsecDrop l .validation) s (fun t =>
        Tab.get 0 (t.ln n).ctrs 2 = satAdd 32 (Tab.get 0 k.ctrs 2) 1 ∧ t.link.xfers = s.link.xfers))
    ∧ Completes (.macsecDrop l .tagged) s (fun t => t = s) ∧ Completes (.macsecDrop l .pause) s (fun t => t = s)
    ∧ ((∀ j, j < 2 → (s.ln j).los = true ∨ (s.ln j).st = .retired) → Completes .autonomousEntry s fun t =>
      t.link.auto = true ∧ (∀ e ∈ t.link.xfers, e.2.susp = true) ∧ { t with link := s.link } = s)

/-- R433 to R435, R441 to R443, R449, R450: of a frame that arrives in its turn HELLO restarts the counts, CREDIT takes
the LIMIT, a malformed one is counted, OBJECT adds its segment or fails the transfer, LEAF adds its quarter, ABORT ends
the transfer; a leaf whose path folds to the root is verified, one that does not, or does not come, is asked for again,
the third time it fails the transfer; time limits end transfers; a NOTICE goes out as far as the peer's LIMIT allows.
R417, R437 to R440: an SPDM request in one segment that arrives in its turn is answered on its lane in segments of its
XFER; CHALLENGE and signed GET_MEASUREMENTS wait in their turn for ECDSA_SIGN under the Alias key over the transcript of
their exchange, whose end sends the answer with its signature; Busy while that key is stale, UnsupportedRequest for
another slot than 0; the oldest request that stays incomplete is discarded. (The message forms and transcripts of DSP0274
are presumed, log 9; a manifest that finds no staging group fails its flow with GRANARY_SHORT, the model's choice, log
53.) -/
def Obligations.LinkFramesAndSpdm : Prop :=
  (∀ (s : State) (l : LinkId) (h : TrustHeader) (payload : List Byte) (xfer : W32) (i : Nat) (o : Nat × List Nat × List Byte),
    let n := l.val
    let x := h.xfer.toNat
    let f := s.xf x
    let y := xfer.toNat
    let v := s.xf y
    (h.type = 1 → badHeader h [] = false → s.secured n = true → Completes (.hello l h) s fun t =>
      (t.ln n).counted = 0 ∧ (t.ln n).peerLim = h.limit.toNat ∧ t.link.xfers = s.link.xfers)
    ∧ (s.RxNext n h → h.type = 2 → badHeader h [] = false → Completes (.credit l h) s fun t =>
      (t.ln n).counted = h.sent.toNat ∧ (t.ln n).peerLim = h.limit.toNat ∧ t.link.xfers = s.link.xfers)
    ∧ (s.secured n = true → Completes (.creditTimer l) s fun t => t.handed n = s.handed n ++ [(2, 0, 0, 0, [])])
    ∧ (s.RxNext n h → (badHeader h payload = true ∨ s.frameWrong h payload = true) → Completes (.malformedFrame l h payload) s fun t =>
      (t.ln n).counted = h.sent.toNat ∧ Tab.get 0 (t.ln n).ctrs 5 = satAdd 16 (Tab.get 0 (s.ln n).ctrs 5) 1
        ∧ t.link.xfers = s.link.xfers)
    ∧ (s.RxNext n h → h.type = 0x21 → badHeader h payload = false → objectWrong h payload = false → s.xferOpen x = true →
        f.kind ≠ 3 → f.last = false → f.susp = false →
      (h.index.toNat = f.next → f.bytes.length + payload.length ≤ 65536 → Completes (.objectFrame l h payload) s fun t =>
        ((t.xf x).bytes = f.bytes ++ payload ∧ (t.xf x).next = f.next + 1 ∧ (t.xf x).last = bitOf h.flags.toNat 0)
          ∨ (f.kind = 1 ∧ (s.fl f.port).flow = 3 ∧ t.xferOpen x = false ∧ (t.fl f.port).reason = 0x2601))
      ∧ (h.index.toNat ≠ f.next → Completes (.objectFrame l h payload) s fun t => t.xferOpen x = false))
    ∧ (s.xferOpen y = true → v.kind ≠ 3 → v.last = false → v.susp = false → Completes (.objectTimeout xfer) s fun t =>
      t.xferOpen y = false)
    ∧ (s.RxNext n h → h.type = 0x23 → badHeader h payload = false → payload.length = 16 → s.xferOpen x = true →
      Completes (.abortFrame l h payload) s fun t =>
        t.xferOpen x = false ∧ ((s.fl f.port).active = true → (s.fl f.port).xfer = x →
          (t.fl f.port).st = .failed ∧ (t.fl f.port).reason = BitVec.ofNat 16 (field payload 0 2)))
    ∧ (s.RxNext n h → h.type = 0x22 → badHeader h payload = false → s.leafWrong h payload = false → s.xferOpen x = true →
        f.kind = 3 → f.susp = false → f.open_.find? (fun e => decide (e.1 = h.index.toNat / 4)) = some o →
        o.2.1.contains (h.index.toNat % 4) = false → Completes (.leafFrame l h payload) s fun t =>
      ∃ o', (t.xf x).open_.find? (fun e => decide (e.1 = h.index.toNat / 4)) = some o'
        ∧ o'.2.1 = o.2.1 ++ [h.index.toNat % 4] ∧ t.home = s.home)
    ∧ (s.xferOpen y = true → v.susp = false → v.open_.find? (fun e => decide (e.1 = i)) = some o →
      let whole := (quarters v.len i).all o.2.1.contains
      let bs := s.stageGet v.port (v.base + 4096 * i) (leafLen v.len i)
      let folds := foldPath 15 i (ceilDiv v.len 4096) (leafHash i bs) o.2.2 = v.root
      (whole = true → s.svcNext = some (.leaf y i) → folds → Completes (.leafVerify xfer i) s fun t =>
        (t.xf y).ok = v.ok ++ [i] ∧ t.home = s.home)
      ∧ (whole = true → s.svcNext = some (.leaf y i) → ¬ folds → 2 ≤ Tab.get 0 v.fails i → Completes (.leafVerify xfer i) s fun t => t.xferOpen y = false)
      ∧ (Tab.get 0 v.fails i < 2 → Completes (.leafTimeout xfer i) s fun t =>
          Tab.get 0 (t.xf y).fails i = Tab.get 0 v.fails i + 1
            ∧ (t.xf y).open_.find? (fun e => decide (e.1 = i)) = some (i, [], [])))
    ∧ (s.xferOpen y = true → v.susp = true → Completes (.transferSuspendExpiry xfer) s fun t =>
      t.xferOpen y = false ∧ ((s.fl v.port).active = true → (s.fl v.port).xfer = y →
        (t.fl v.port).st = .failed ∧ (t.fl v.port).reason = 5))
    ∧ (∀ p ps, s.laneUp = some n → s.link.notices = p :: ps →
      ((s.ln n).wait = [] → (s.ln n).mayTx = true → Completes .notice s fun t =>
        t.link.notices = ps ∧ t.handed n = s.handed n ++ [(0x30, 0, 0, 0, padTo (s.pv p).meas 128)])
      ∧ ((s.ln n).mayTx = false → Completes .notice s fun t => t = s)))
  ∧ (∀ (s : State) (l : LinkId) (h : TrustHeader) (m nonce : List Byte) (offset len : Nat) (index : Byte) (signed : Bool) (e : EngineId),
    let n := l.val
    let k := s.ln n
    let x := h.xfer.toNat
    let replies := fun (b : List Byte) (t : State) => Handed s t n (spdmFrames h.xfer b) ∧ t.home = s.home ∧ t.hold = s.hold
    let challenge := s.spdmChallengeAuth m nonce
    let measured := s.spdmMeasurements index.toNat nonce
    let signs := s.engineMayRead 3 0 = true ∧ s.engineLeft = true
    let asked := fun (context : String) (transcript msg : List Byte) (t : State) =>
      t.link.spdmOut = [{ lane := n, xfer := x, msg := none }]
        ∧ t.Tasked (.spdmSign n x (sha384 (spdmSignedBytes context transcript)) msg) ∧ t.home = s.home
    (s.RxNext n h → (s.po (10 + n)).quiet = true → h.type = 0x10 → badHeader h m = false → h.index = 0 →
        bitOf h.flags.toNat 0 = true → m ≠ [] → s.link.spdmOut = [] → (k.spdmIn.any fun r => decide (r.xfer = h.xfer)) = false →
      (spdmCode m = 0x84 → Completes (.spdmGetVersion l h m) s fun t => replies spdmVersion t ∧ (t.ln n).spdmVca = m ++ spdmVersion)
      ∧ (spdmCode m = 0xE1 → Completes (.spdmGetCapabilities l h m) s fun t =>
        replies spdmCapabilities t ∧ (t.ln n).spdmVca = k.spdmVca ++ (m ++ spdmCapabilities))
      ∧ (spdmCode m = 0xE3 → Completes (.spdmNegotiateAlgorithms l h m) s fun t =>
        replies (spdmAlgorithms m) t ∧ (t.ln n).spdmVca = k.spdmVca ++ (m ++ spdmAlgorithms m))
      ∧ (spdmCode m = 0x81 → s.homeUp = true → Completes (.spdmGetDigests l h m) s (replies (spdmDigests s.certChain)))
      ∧ (spdmCode m = 0x82 → s.homeUp = true → Completes (.spdmGetCertificate l h m offset len) s
          (replies (if slotZero (byteAt m 2) then spdmCertificate s.certChain offset len else spdmError 7 0x82)))
      ∧ (spdmCode m = 0x83 →
        (slotZero (byteAt m 2) = false → Completes (.spdmChallenge l h m nonce) s (replies (spdmError 7 0x83)))
        ∧ (slotZero (byteAt m 2) = true → s.hand.stale = true → Completes (.spdmChallenge l h m nonce) s (replies (spdmError 3 0)))
        ∧ (slotZero (byteAt m 2) = true → s.hand.stale = false → s.homeUp = true →
          (signs → Completes (.spdmChallenge l h m nonce) s (asked "responder-challenge_auth signing"
            (k.spdmVca ++ k.spdmCert ++ m ++ challenge) challenge))
          ∧ (¬ signs → Completes (.spdmChallenge l h m nonce) s (replies (spdmError 5 0)))))
      ∧ (spdmCode m = 0xE0 → (index.toNat < 98 ∨ index = 0xFF) →
        (signed = false → Completes (.spdmGetMeasurements l h m index signed nonce) s (replies measured))
        ∧ (signed = true → slotZero (byteAt m 36) = false →
          Completes (.spdmGetMeasurements l h m index signed nonce) s (replies (spdmError 7 0xE0)))
        ∧ (signed = true → slotZero (byteAt m 36) = true → s.hand.stale = true →
          Completes (.spdmGetMeasurements l h m index signed nonce) s (replies (spdmError 3 0)))
        ∧ (signed = true → slotZero (byteAt m 36) = true → s.hand.stale = false → signs →
          Completes (.spdmGetMeasurements l h m index signed nonce) s (asked "responder-measurements signing"
            (k.spdmVca ++ k.spdmMeas ++ m ++ measured) measured)))
      ∧ (spdmCode m = 0xE0 → 98 ≤ index.toNat → index ≠ 0xFF →
        Completes (.spdmGetMeasurements l h m index signed nonce) s (replies (spdmError 1 0)))
      ∧ (spdmCodes.contains (spdmCode m) = false → Completes (.spdmUnsupportedRequest l h m) s
          (replies (spdmError 7 (spdmCode m)))))
    ∧ (let g := s.en e.val
      let r := kernelRun (.ecdsaSign 1) g.mem (opLen g.op) g.key (s.drawn 0)
      ∀ digest, g.state = .busy → g.chain = none → kop (opCode g.op) = some (.ecdsaSign 1) → g.outSlot = none →
        g.task = some (.spdmSign n x digest m) → r.code g.keyFail false = 0 → s.secured n = true →
        s.link.spdmOut = [{ lane := n, xfer := x, msg := none }] → Completes (.kernelOperationDone e false) s fun t =>
          t.handed n = s.handed n ++ spdmFrames h.xfer (m ++ (beBytes r.outA 48 ++ beBytes r.outB 48)) ∧ t.link.spdmOut = [])
    ∧ Completes (.spdmSegmentTimeout l) s (fun t => (t.ln n).spdmIn = k.spdmIn.drop 1 ∧ t.linkOut = s.linkOut))

/-- R444 to R448, R262, R406: a pulled manifest is verified in chain mode, and the flow goes on with it or fails; its
erases and programs start under its token and in MASTER, end with their step, and are repeated on a readback that differs;
a whole serve set becomes STAGED; a restage ends its flow; the shelf manifest is programmed at its place in the home flash
and nothing else of it. -/
def Obligations.RecoveryFlows : Prop :=
  ∀ (s : State) (p : PortId) (a g : Nat) (back : List Byte),
    let q := p.val
    let f := s.fl q
    let v := s.xf f.xfer
    let z := s.fl 127
    let w := s.xf z.xfer
    let job := jobOf (.flow q)
    let shelfJob := jobOf (.flow 127)
    (s.flowDue q 1 = true →
      (f.stepNo = 0 → v.last = true → f.check = none → s.pulledOk q f.slot v.bytes = true →
        (s.onEngine (cScheme v.bytes) = true → Completes (.flowReprogram p) s fun t =>
          (t.fl q).check = some (job v.bytes) ∧ t.Verifying (job v.bytes) ∧ (t.fl q).stepNo = 0 ∧ t.home = s.home)
        ∧ ((job v.bytes).atOnce = true → Completes (.flowReprogram p) s fun t =>
          (t.fl q).man = v.bytes ∧ (t.fl q).stepNo = 1 ∧ t.home = s.home))
      ∧ (f.stepNo = 0 → v.last = true → f.check = none → s.pulledOk q f.slot v.bytes = false → s.xferOpen f.xfer = true → v.port = q →
        Completes (.flowReprogram p) s fun t => (t.fl q).st = .failed ∧ (t.fl q).reason = 4 ∧ t.xferOpen f.xfer = false)
      ∧ (f.stepNo = 2 → f.token = true → s.masterOk q = true → Completes (.flowReprogram p) s fun t =>
        (t.fl q).st = .erasing ∧ (t.fl q).stepNo = 3 ∧ (t.ph q).mode = .master ∧ (t.pe q).flash = s.flashWork q 3))
    ∧ (s.flowDue q 2 = true → f.stepNo = 8 → f.token = true → s.masterOk q = true → Completes (.flowManifestOnly p) s fun t =>
      (t.fl q).st = .programming ∧ (t.fl q).stepNo = 9 ∧ (t.ph q).mode = .master ∧ (t.pe q).flash = s.flashWork q 9)
    ∧ (s.flowDue q 3 = true → f.stepNo = 4 → f.total ≤ v.ok.length → s.xferOpen f.xfer = true →
      Completes (.flowServeSet p) s fun t =>
        (t.pg q).setState = .staged ∧ (t.pg q).setSlot = f.slot ∧ (t.fl q).stepNo = 10 ∧ t.home = s.home)
    ∧ (s.flowDue q 4 = true → f.total ≤ v.ok.length → s.xferOpen f.xfer = true → s.groupSource (f.page / 8) f.slot = some a →
        s.canGrant 9 8 = true → s.freeGroup = some g → Completes (.flowRestage p) s fun t =>
      (t.fl q).st = .done ∧ t.xferOpen f.xfer = false ∧ t.home = s.home)
    ∧ (s.flowDue 127 5 = true →
      (z.stepNo = 0 → w.last = true → z.check = none → s.shelfPulledOk w.bytes = true →
        (s.onEngine (cScheme w.bytes) = true → Completes .flowShelfManifest s fun t =>
          (t.fl 127).check = some (shelfJob w.bytes) ∧ t.Verifying (shelfJob w.bytes) ∧ t.home = s.home)
        ∧ ((shelfJob w.bytes).atOnce = true → Completes .flowShelfManifest s fun t =>
          (t.fl 127).man = w.bytes ∧ (t.fl 127).stepNo = 8 ∧ t.home = s.home))
      ∧ (z.stepNo = 8 → z.token = true → s.homeUp = true → Completes .flowShelfManifest s fun t =>
        (t.fl 127).st = .programming ∧ (t.fl 127).stepNo = 9))
    ∧ (∀ e : EngineId, (s.en e.val).state = .busy → (s.en e.val).chain = some (job v.bytes) → f.check = some (job v.bytes) →
        f.flow = 1 → (hybridParts (cScheme v.bytes)).isNone = true →
      (sigVerifies (cScheme v.bytes) (cDigest v.bytes) (cSigBlock v.bytes) = true → Completes (.kernelOperationDone e false) s fun t =>
        (t.fl q).man = v.bytes ∧ (t.fl q).stepNo = 1 ∧ t.home = s.home)
      ∧ (sigVerifies (cScheme v.bytes) (cDigest v.bytes) (cSigBlock v.bytes) = false → s.xferOpen f.xfer = true → v.port = q →
          f.active = true → Completes (.kernelOperationDone e false) s fun t => (t.fl q).st = .failed ∧ (t.fl q).reason = 4))
    ∧ (z.active = true → z.stepNo = 9 → z.cancel = false → s.homeUp = true → z.man.length ≤ 65536 →
        (∀ b, readbackOf (s.pe 127).flash = some b → back = b.2) → Completes (.flashProgramDone none back) s fun t =>
      (t.fl 127).st = .done ∧ t.homeGet 0x02000000 z.man.length = z.man ∧ HomeSameBut s t 0x02000000 z.man.length)
    ∧ (f.active = true → f.cancel = false →
      (f.stepNo = 3 → (∀ b, readbackOf (s.pe q).flash = some b → back = b.2) → Completes (.flashProgramDone (some p) back) s fun t => (t.fl q).stepNo = 4 ∧ t.home = s.home)
      ∧ ((f.stepNo = 3 ∨ f.stepNo = 5 ∨ f.stepNo = 7 ∨ f.stepNo = 9) → (s.ch (chanKey .flash q)).state = .inService →
          (∃ b, readbackOf (s.pe q).flash = some b ∧ back ≠ b.2) → Completes (.flashProgramDone (some p) back) s fun t =>
          (t.fl q).stepNo = f.stepNo - 1 ∧ (t.ch (chanKey .flash q)).state = .probing))

/-! ### MSPI, register window, aborts (17, 18) -/

/-- R451 to R461: words written enter the mailbox's FIFO as far as the shelf's credits cover them, else none does; a read
delivers its header and words, an ACK gives up what the last read delivered in full; STATUS and identity are returned;
frames that the state does not answer, and stalled ones, are counted. -/
def Obligations.MspiFrames : Prop :=
  ∀ (s : State) (m : MspiIn) (ws : List W32) (addr : W24) (q n clocked : Nat) (cmd : Byte),
    s.mspiDead = false →
    (q < 8 → m.addr.toNat = q * 2 ^ 20 →
      (s.hostFrame 0x02 m = .ok ws → (s.mb q).ready = true → ws.length ≤ s.holds (16 + q) 0 → Completes (.mspiWriteWords m) s fun t =>
        (t.mb q).req = (s.mb q).req ++ ws ∧ t.heldOf (16 + q) 0 = s.heldOf (16 + q) 0 - ws.length
          ∧ t.heldOf (16 + q) 1 = s.heldOf (16 + q) 1 + ws.length ∧ t.mspi.lastResult = 0)
      ∧ (s.hostFrame 0x02 m = .ok ws → (s.mb q).ready = false → Completes (.mspiWriteWords m) s fun t =>
        t.mspi.boxes = s.mspi.boxes ∧ t.mspi.lastResult = 1)
      ∧ (s.hostFrame 0x02 m = .ok ws → (s.mb q).ready = true → s.holds (16 + q) 0 < ws.length → Completes (.mspiWriteWords m) s fun t =>
        t.mspi.boxes = s.mspi.boxes ∧ t.leave = s.leave ∧ t.mspi.lastResult = 2)
      ∧ (∀ e, s.hostFrame 0x02 m = .error e → Completes (.mspiWriteWords m) s fun t =>
        t.mspi.boxes = s.mspi.boxes ∧ t.mspi.lastResult = if e = 0 then 3 else 4))
    ∧ (q < 8 → n < 256 → (s.mb q).frozen = none →
      (addr.toNat = q * 2 ^ 20 + n * 2 ^ 8 → (s.mb q).ready = true → Completes (.mspiReadWords addr clocked) s fun t =>
        let some_ := (s.mb q).rsp.take (if n = 0 then 256 else n)
        let all := (s.mb q).readHeader some_.length :: some_
        t.mspi.out = s.hostReads all (frameCrc 0x0B addr all) clocked ∧ (t.mb q).rsp = (s.mb q).rsp)
      ∧ (addr.toNat = q * 2 ^ 20 + n * 2 ^ 8 → (s.mb q).ready = false → Completes (.mspiReadWords addr clocked) s fun t =>
        t.mspi.out = ((0 : W32) :: List.replicate (clocked - 1) 0xFFFFFFFF).take clocked ∧ t.mspi.boxes = s.mspi.boxes)
      ∧ (addr.toNat = q * 2 ^ 20 + 2 ^ 19 + n * 2 ^ 8 → (s.mb q).ready = true → (s.mb q).owed = [] →
        Completes (.mspiReadWords addr clocked) s fun t => (t.mb q).rsp = (s.mb q).rsp.drop (s.mb q).delivered))
    ∧ Completes (.mspiStatus clocked) s (fun t =>
      let all := s.mspiStatusWord :: (List.range 8).map s.mailboxWord
      t.mspi.out = s.hostReads all (crc32 (leBytes 0x05 1 ++ all.flatMap wireWord)) clocked ∧ t.mspi.boxes = s.mspi.boxes)
    ∧ Completes (.mspiIdentityRead clocked) s (fun t =>
      t.mspi.outBytes = (s.identBytes ++ List.replicate (clocked - 8) 0xFF).take clocked ∧ t.mspi.boxes = s.mspi.boxes)
    ∧ ((cmd ∉ ([0x02, 0x0B, 0x05, 0x9F, 0xAB, 0x3B, 0x32] : List Byte) ∨ ((cmd = 0x3B ∨ cmd = 0x32) ∧ s.boot.dev ≠ .service)
        ∨ (cmd = 0xAB ∧ s.boot.dev ∉ ([.service, .ride, .headless] : List DevState))) →
      Completes (.mspiIgnoredFrame cmd) s fun t =>
        t.mspi.lastResult = 5 ∧ Tab.get 0 t.mspi.ctrs 4 = satAdd 16 (Tab.get 0 s.mspi.ctrs 4) 1 ∧ t.mspi.boxes = s.mspi.boxes
          ∧ t.mspi.out = [] ∧ t.mspi.outBytes = []
          ∧ (Tab.get 0 s.mspi.ctrs 4 ≠ 65534 → { t with mspi := s.mspi } = s)
          ∧ (Tab.get 0 s.mspi.ctrs 4 = 65534 → ∃ a ∈ t.alarms.active, s.alarms.seq < a.seq ∧ a.code = 0x0208 ∧ a.rank = 0))
    ∧ (bitsOf (byteAt s.cfg 0).toNat 3 1 ≠ 0 →
      Completes (.mspiStall { cmd := cmd }) s (fun t =>
        Tab.get 0 t.mspi.ctrs 2 = satAdd 16 (Tab.get 0 s.mspi.ctrs 2) 1 ∧ t.mspi.boxes = s.mspi.boxes
          ∧ (cmd = 0x02 ∨ cmd = 0x32 ∨ cmd = 0xAB → t.mspi.lastResult = 4))
      ∧ Completes (.mspiStall { cmd := 0x02, addr := some addr, clocked := clocked }) s (fun t =>
        t.mspi.lastMb.toNat = bitsOf addr.toNat 22 20 ∧ t.mspi.boxes = s.mspi.boxes ∧ t.mspi.lastResult = 4)
      ∧ (q < 8 → n < 256 → addr.toNat = q * 2 ^ 20 + 2 ^ 19 + n * 2 ^ 8 → (s.mb q).ready = true → (s.mb q).frozen = none →
          (s.mb q).owed = [] → Completes (.mspiStall { cmd := 0x0B, addr := some addr, clocked := clocked }) s fun t =>
        (t.mb q).rsp = (s.mb q).rsp.drop (s.mb q).delivered ∧ (t.mb q).delivered = 0))

/-- R28, R38, R479 to R486, R311, R333: in SERVICE a window read returns the word of its address, an unmapped one zero, a
write takes SCRATCH and counts elsewhere; the lowest word of a wide register latches its upper words; a core's register
write has the effect of its register, and ROLE where it is not its own. -/
def Obligations.RegisterWindowAndRegisters : Prop :=
  ∀ (s : State) (m : MspiIn) (addr : W24) (clocked : Nat) (v : W32) (src : Agent) (e : EngineId) (i : Fin 16) (k : StandId)
    (q : MailboxId),
    (s.boot.dev = .service → s.mspiDead = false →
      (addr.toNat % 4 = 0 → 0 < clocked →
        (∀ w, s.windowRead addr.toNat = some w → Completes (.registerWindowRead addr clocked) s fun t => t.mspi.out.head? = some w)
        ∧ (s.windowRead addr.toNat = none → Completes (.registerWindowRead addr clocked) s fun t => t.mspi.out.head? = some 0))
      ∧ (s.hostFrame 0x32 m = .ok [v] →
        (m.addr = 0x120 → Completes (.registerWindowWrite m) s fun t =>
          t.mspi.scratch = v ∧ t.mspi.lastResult = 0 ∧ { t with mspi := s.mspi } = s)
        ∧ (m.addr.toNat % 4 = 0 → s.windowLive m.addr.toNat = none → Completes (.registerWindowWrite m) s fun t =>
          t.mspi.unmapped.toNat = satAdd 16 s.mspi.unmapped.toNat 1 ∧ { t with mspi := s.mspi } = s))
      ∧ (rsUpper addr.toNat ≠ [] → Completes (.rsLatchRead addr) s fun t =>
        ∀ u ∈ rsUpper addr.toNat, Tab.get none t.mspi.latch u = s.windowLive u))
    ∧ (fuseCore src = true →
      Completes (.registerWrite src (.engineStatus e) v) s (fun t => (t.en e.val).done = ((s.en e.val).done && !bitOf v.toNat 27))
      ∧ Completes (.registerWrite src .fuseStatus v) s (fun t =>
          t.fuses.done = (s.fuses.done && !bitOf v.toNat 29) ∧ t.fuses.state ≠ .armed)
      ∧ Completes (.registerWrite src (.image i) v) s (fun t => t.fuses.image.getD i.val 0 = v ∧ t.fuses.state ≠ .armed))
    ∧ (s.noLead src = false → s.firmware src = true → Completes (.registerWrite src (.keyin i) v) s fun t =>
      t.keys.keyin.getD i.val 0 = v ∧ { t with keys := s.keys } = s)
    ∧ (s.noLead src = true → Completes (.registerWrite src (.keyin i) v) s fun t =>
      t.keys = s.keys ∧ ∃ a ∈ t.alarms.active, s.alarms.seq < a.seq ∧ a.code = 0x0302 ∧ a.rank = 1)
    ∧ (s.noLead src = false → s.leadAgent = some src → s.boot.dev = .service →
      ((s.st k.val).gate = true →
        Completes (.registerWrite src (.standOpen k) v) s fun t => (t.st k.val).opened = true ∧ t.hold = s.hold)
      ∧ ((s.st k.val).gate = false → Completes (.registerWrite src (.standOpen k) v) s fun t =>
        (t.st k.val).status = 0x5201 ∧ (t.st k.val).opened = (s.st k.val).opened ∧ t.hold = s.hold))
    ∧ (s.noLead src = true → Completes (.registerWrite src (.response q) v) s fun t =>
      t.mspi = s.mspi ∧ ∃ a ∈ t.alarms.active, s.alarms.seq < a.seq ∧ a.code = 0x0302 ∧ a.rank = 1)
    ∧ (s.noLead src = false → s.firmware src = true → (s.mb q.val).ready = true → 1 ≤ s.rspRoom q.val →
      ((s.mb q.val).aborted = false → Completes (.registerWrite src (.response q) v) s fun t => (t.mb q.val).rsp = (s.mb q.val).rsp ++ [v])
      ∧ ((s.mb q.val).aborted = true → Completes (.registerWrite src (.response q) v) s fun t => t = s))
    ∧ (s.boot.leadShadowBad = true → s.boot.canopyOut = true → Completes (.registerWrite .canopyA .roleClaim v) s fun t =>
      t.boot.lead = .a ∧ t.boot.leadShadowBad = false)

/-- R475 to R478, R325, R463, R465: an abort acts on what it names: an engine is ABORTING, a lane job's port fails, the
service lane's leaf is asked for again, a MASTER port is isolated, a thread restarts, a link lane goes down and trains, a
mailbox is emptied and says ABORTED; an abort of a target whose last one still runs merges; a request that stays
incomplete is answered LENGTH; the object buffer closes; the home port's end of a frame raises line 13. -/
def Obligations.AbortsAndTimeLimits : Prop :=
  ∀ (s : State) (m : MspiIn) (i x leaf : Nat) (mb : MailboxId) (w : W32) (ws : List W32),
    let b := s.mb mb.val
    let merges := fun (t : State) =>
      t.mspi.merged.toNat = satAdd 8 s.mspi.merged.toNat 1 ∧ t.mspi.lastResult = 0 ∧ { t with mspi := s.mspi } = s
    (m.again = false →
      (s.AbortOf m 1 i → (s.en i).chain = none → (s.en i).state = .busy → Completes (.abortPke m) s fun t =>
        (t.en i).state = .aborting ∧ t.mspi.lastResult = 0 ∧ t.home = s.home)
      ∧ (s.AbortOf m 2 i → s.wake.stage ≠ .idle → s.wake.lanes.contains i = true → Completes (.abortLane m) s fun t =>
        t.mspi.lastResult = 0 ∧ ∀ p, (t.pk p).incomplete = true ∨ t.pk p = s.pk p)
      ∧ (s.AbortOf m 2 i → s.wake.stage = .idle → s.serviceLane = some i → s.svcNext = some (.leaf x leaf) →
          Tab.get 0 (s.xf x).fails leaf < 2 → Completes (.abortLane m) s fun t =>
        t.mspi.lastResult = 0 ∧ Tab.get 0 (t.xf x).fails leaf = Tab.get 0 (s.xf x).fails leaf + 1)
      ∧ (s.AbortOf m 3 i → (s.ph i).mode = .master → Completes (.abortPort m none) s fun t =>
        (t.ph i).mode = .isolated ∧ t.mspi.lastResult = 0 ∧ t.home = s.home)
      ∧ (s.AbortOf m 4 i → (s.sh (i / 8)).released = true → (s.co (8 + i)).run ≠ .stopped → Completes (.abortThread m) s fun t =>
        (t.co (8 + i)).run = .running ∧ t.mspi.lastResult = 0
          ∧ (t.co (8 + i)).pc = vectorPc (BitVec.ofNat 24 (field (s.sh (i / 8)).threads (4 * (i % 8)) 3))
          ∧ (t.pd i).lookups = [] ∧ (t.pd i).decs = [])
      ∧ (s.AbortOf m 5 i → Completes (.abortLink m) s fun t => t.mspi.lastResult = 0 ∧
        ∀ j, j < 2 → (i = 2 ∨ j = i) → (s.ln j).st ≠ .retired → ((t.ln j).st = .down ∨ (t.ln j).st = .training) ∧ (t.ln j).rate = 0)
      ∧ (s.AbortOf m 6 i → s.served i = true → (s.po (16 + i)).st = .ok → (s.po (24 + i)).st = .ok → Completes (.abortMailbox m) s fun t =>
        (t.mb i).req = [] ∧ (t.mb i).rsp = [rspHeader 0x4001 (s.mb i).tagNow 0] ∧ (t.mb i).aborted = true ∧ t.mspi.lastResult = 0))
    ∧ (m.again = true →
      (s.AbortOf m 2 i → s.mspi.abortOf = [(2, i)] → Completes (.abortLane m) s merges)
      ∧ (s.AbortOf m 3 i → s.mspi.abortOf = [(3, i)] → Completes (.abortPort m none) s merges)
      ∧ (s.AbortOf m 4 i → s.mspi.abortOf = [(4, i)] → Completes (.abortThread m) s merges)
      ∧ (i < 2 → s.AbortOf m 5 i → s.mspi.abortOf = [(5, i)] → Completes (.abortLink m) s merges)
      ∧ (s.AbortOf m 6 i → s.mspi.abortOf = [(6, i)] → Completes (.abortMailbox m) s merges))
    ∧ (b.req = w :: ws → b.request = none → b.tag = none → b.ready = true → Completes (.requestTimeout mb) s fun t =>
      (t.mb mb.val).req = [] ∧ Answered s t mb.val (hdrTag w.toNat) 0x1002 [] ∧ t.home = s.home)
    ∧ Completes .objectBufferTimeout s (fun t => t.mspi.obj = {} ∧ t.mspi.boxes = s.mspi.boxes)
    ∧ Completes .homePortFrameComplete s (fun t => (t.co 0).lines.getLsbD 13 = true ∧ SameButCores s t)

/-! ### Commands of the mailboxes (17) -/

/-- R384, R463, R464, R467, R468, R473: what a request's header alone decides. Of every command of Shentiha: outside
SERVICE it is answered UNKNOWN, with RSVD not zero ARGUMENT, one that MB0 does not take MB0, and nothing else of the
device changes; one with a word that failed its parity is answered WORD_PARITY. (The order of the checks is the model's
choice, log 38.) -/
def Obligations.HeaderRefusals : Prop :=
  ∀ (s : State) (mb : MailboxId) (h : Nat) (ws : List W32) (i : Instr) (code : Nat) (mb0 : Bool),
    shentihaOf i = some (mb, code, mb0) → s.request mb.val (fun c => decide (c = code)) = some (h, ws) →
      let good := (s.mb mb.val).parity = false
      (good → s.boot.dev ≠ .service → Completes i s fun t => Told s t mb.val (hdrTag h) 0x1001 [])
      ∧ (good → s.boot.dev = .service → h / 2 ^ 8 % 2 ^ 8 ≠ 0 → Completes i s fun t => Told s t mb.val (hdrTag h) 0x1003 [])
      ∧ (good → s.boot.dev = .service → h / 2 ^ 8 % 2 ^ 8 = 0 → mb.val = 0 → mb0 = false → Completes i s fun t =>
          Told s t mb.val (hdrTag h) 0x1005 [])
      ∧ (¬good → Completes i s fun t => Answered s t mb.val (hdrTag h) 0x3001 [])

/-- R454, R465, R468, R475: GET_INFO reports, SET_MSPI chooses CRC_ON for later, WARM_RESTART enters RIDE, ABORT acts on
what it names, the object buffer opens for one mailbox, takes its bytes and closes. -/
def Obligations.GeneralCommands : Prop :=
  ∀ (s : State) (mb : MailboxId) (tag : Byte) (w v : W32) (ws : List W32) (e : EngineId),
    let q := mb.val
    let o := s.mspi.obj
    let bs := bytesOf ws
    (s.Runs mb 0x01 tag [] → Completes (.cmdGetInfo mb) s fun t =>
      Told s t q tag 0 ([BitVec.ofNat 32 (s.boot.dev.code * 2 ^ 28 + (if s.boot.lead = .b then 2 else 1) * 2 ^ 24
        + (decide (s.hand.running = .b)).toNat * 2 ^ 16 + 3), s.boot.running.version, s.boot.epoch] ++ wordsOf (padTo s.boot.nonce 16)))
    ∧ (s.Runs mb 0x02 tag [w] →
      (w.toNat < 2 → Completes (.cmdSetMspi mb) s fun t =>
        Answered s t q tag 0 [] ∧ t.mspi.crcOn = s.mspi.crcOn
          ∧ t.mspi.crcs = s.mspi.crcs ++ [{ mb := q, left := (t.outgoing q).length, on := decide (w = 1) }])
      ∧ (2 ≤ w.toNat → Completes (.cmdSetMspi mb) s fun t => Told s t q tag 0x1003 []))
    ∧ (s.Runs mb 0x03 tag [w] →
      (w = 0x57535254 → Completes (.cmdWarmRestart mb) s fun t =>
        t.boot.dev = .ride ∧ t.boot.epoch.toNat = satAdd 32 s.boot.epoch.toNat 1 ∧ (∀ p, (t.ph p).hold = (s.ph p).hold) ∧ t.home = s.home)
      ∧ (w ≠ 0x57535254 → Completes (.cmdWarmRestart mb) s fun t => Told s t q tag 0x1003 []))
    ∧ (s.Runs mb 0x04 tag [w] → w.toNat = 2 ^ 20 + e.val * 2 ^ 12 → (s.en e.val).chain = none → (s.en e.val).state = .busy →
      Completes (.cmdAbort mb {}) s fun t => Answered s t q tag 0 [] ∧ (t.en e.val).state = .aborting)
    ∧ (s.Runs mb 0x05 tag [w, v] → 1 ≤ w.toNat → w.toNat ≤ 3 → 16 ≤ v.toNat → v.toNat ≤ 65536 → (q = 0 → w = 2) →
      ((o.owner = none ∨ o.owner = some q) → Completes (.cmdObjectOpen mb) s fun t =>
        Answered s t q tag 0 [] ∧ t.mspi.obj = { owner := some q, kind := w.toNat, len := v.toNat })
      ∧ (∀ j, o.owner = some j → j ≠ q → Completes (.cmdObjectOpen mb) s fun t => Told s t q tag 0x2001 []))
    ∧ (s.Runs mb 0x06 tag (w :: ws) → 1 ≤ ws.length → ws.length ≤ 253 →
      (o.owner = some q → w.toNat % 4 = 0 → w.toNat + bs.length ≤ o.len → Completes (.cmdObjectWrite mb) s fun t =>
        Answered s t q tag 0 [] ∧ Tab.range 0 t.mspi.obj.bytes w.toNat bs.length = bs
          ∧ ∀ a, ¬ (w.toNat ≤ a ∧ a < w.toNat + bs.length) → Tab.get 0 t.mspi.obj.bytes a = Tab.get 0 o.bytes a)
      ∧ (o.owner ≠ some q → Completes (.cmdObjectWrite mb) s fun t => Told s t q tag 0x1006 []))
    ∧ (s.Runs mb 0x07 tag [] →
      (o.owner = some q → Completes (.cmdObjectClose mb) s fun t => Answered s t q tag 0 [] ∧ t.mspi.obj = {})
      ∧ (o.owner ≠ some q → Completes (.cmdObjectClose mb) s fun t => Told s t q tag 0x1006 []))

/-- R38, R67, R90, R93, R96, R101, R103, R468, R469, R484: the commands of policy, wake and release: a policy goes to an
engine, and once its signature verifies it is in force and stands in the home flash; a wake or rewake is STARTED; a
dispensation record chooses its slot; verdicts, measurements and port status are reported; a pre-check is remembered; hold
latches whose alarms are over clear; regions of the home flash are erased and written. (Which answer a CLEAR_HOLD gives
for a closed stand is the model's choice, log 31.) -/
def Obligations.PolicyWakeAndReleaseCommands : Prop :=
  ∀ (s : State) (mb : MailboxId) (tag : Byte) (w v : W32) (ws : List W32) (o : List Byte) (x : Nat) (e : EngineId) (j : ChainJob),
    let q := mb.val
    let c := objContainer o
    let job := jobOf (.command q) c
    let passes := sigVerifies j.scheme j.digest j.block
    let bs := bytesOf ws
    let a := w.toNat
    (s.Runs mb 0x10 tag [] → q ≠ 0 → s.mspi.obj.object q 1 = some o → s.verdictBusy = false →
      (s.policyOk c = true → s.onEngine (cScheme c) = true → Completes (.cmdPolicySubmit mb) s fun t =>
        t.CallWaits q tag 0x10 [] c job ∧ t.wake.policy = s.wake.policy ∧ t.home = s.home)
      ∧ (s.policyOk c = false → Completes (.cmdPolicySubmit mb) s fun t =>
        Answered s t q tag 0x1101 [] ∧ t.wake = s.wake ∧ t.home = s.home))
    ∧ (s.CallEnds e q tag 0x10 [] c j → s.verdictBusy = false → s.homeUp = true → c.length ≤ 65536 →
      (passes = true → Completes (.kernelOperationDone e false) s fun t =>
        Answered s t q tag 0 [BitVec.ofNat 32 (polEpoch c)]
          ∧ t.wake.policy = some { bytes := c, digest := cDigest c, signer := BitVec.ofNat 4 (cSigner c) } ∧ t.rules.restart = true
          ∧ t.homeGet 0x02010000 c.length = c ∧ HomeSameBut s t 0x02010000 0x10000)
      ∧ (passes = false → Completes (.kernelOperationDone e false) s fun t =>
        Answered s t q tag 0x1101 [] ∧ t.wake.policy = s.wake.policy ∧ t.home = s.home))
    ∧ (s.Runs mb 0x11 tag [] → q ≠ 0 → s.wakeRunning = false → s.wakeReady = true → s.wakeLanes ≠ [] →
        s.rankOf 0x0103 < 5 → Completes (.cmdWakeStart mb) s fun t => Answered s t q tag 2 [] ∧ t.wakeRunning = true)
    ∧ (s.Runs mb 0x12 tag ws → ws.length = 3 → q ≠ 0 → (∀ p ∈ maskPorts ws, s.inGlade p = false) → s.wakeRunning = false →
        s.wakeReady = true → s.wakeLanes ≠ [] → s.rankOf 0x0103 < 5 →
      Completes (.cmdRewake mb) s fun t => Answered s t q tag 2 [] ∧ t.wakeRunning = true ∧ t.wake.rewake = true)
    ∧ (s.Runs mb 0x13 tag [] → s.mspi.obj.object q 2 = some o →
      (s.dispensation c = some x → s.onEngine (cScheme c) = true → Completes (.cmdDispensation mb) s fun t =>
        t.CallWaits q tag 0x13 [] c job ∧ t.verd = s.verd ∧ t.hold = s.hold)
      ∧ (s.dispensation c = none → Completes (.cmdDispensation mb) s fun t =>
        Answered s t q tag 0x1102 [] ∧ t.verd = s.verd ∧ t.hold = s.hold))
    ∧ (s.CallEnds e q tag 0x13 [] c j → s.rankOf 0x0140 < 5 →
      (passes = true → s.dispensation c = some x → Completes (.kernelOperationDone e false) s fun t =>
        Answered s t q tag 0 [] ∧ (t.pv (byteAt c 0x20).toNat).chosen = BitVec.ofNat 2 x
          ∧ (t.ph (byteAt c 0x20).toNat).handback = true ∧ t.home = s.home)
      ∧ (passes = false → Completes (.kernelOperationDone e false) s fun t =>
        Answered s t q tag 0x1102 [] ∧ t.verd = s.verd ∧ t.hold = s.hold))
    ∧ (s.Runs mb 0x14 tag [w, v] → 1 ≤ v.toNat → a + v.toNat ≤ 96 → Completes (.cmdGetVerdicts mb) s fun t =>
      Told s t q tag 0 ((List.range v.toNat).map fun i => s.verdictWord (a + i)))
    ∧ (s.Runs mb 0x15 tag [w] → q ≠ 0 → a < 96 → Completes (.cmdGetMeasurement mb) s fun t =>
      Told s t q tag 0 (wordsOf (padTo (s.pv a).meas 113)))
    ∧ (s.Runs mb 0x16 tag [w] → q ≠ 0 → a < 65536 → Completes (.cmdRevocationPrecheck mb) s fun t =>
      Answered s t q tag 0 (s.precheck a) ∧ t.wake.prechecks = s.wake.prechecks ++ [BitVec.ofNat 16 a] ∧ t.home = s.home)
    ∧ (s.Runs mb 0x17 tag ws → ws.length = 3 → Completes (.cmdClearHold mb) s fun t =>
      let shut := fun p => !(s.st (standOf p)).gate
      let done := (maskPorts ws).filter fun p => s.mayClear p && !shut p
      let kept := (maskPorts ws).any fun p => (s.ph p).latch && (!s.mayClear p || shut p)
      (if done = [] ∧ (maskPorts ws).any shut then Answered s t q tag 0x5201 []
        else Answered s t q tag kept.toNat (portMask done))
        ∧ (∀ p ∈ done, (t.ph p).latch = false) ∧ (∀ p, p ∉ done → t.ph p = s.ph p)
        ∧ ∀ p ∈ maskPorts ws, shut p = true → (t.st (standOf p)).status = 0x5201)
    ∧ (s.Runs mb 0x18 tag [w] → a < 96 → Completes (.cmdPortStatus mb) s fun t =>
      Told s t q tag 0 ([s.verdictWord a, s.filterWord a, s.serveWordOf a, s.channelWord (chanKey .port a),
        s.channelWord (chanKey .flash a)] ++ (List.range 21).map fun i => s.portCounter a i))
    ∧ (s.Runs mb 0x19 tag [w, v] → q ≠ 0 → a % 65536 = 0 → 0x02020000 ≤ a → a ≤ 0x02E00000 → v = ~~~ w →
        s.homeUp = true → Completes (.cmdHomeErase mb) s fun t =>
        Answered s t q tag 0 [] ∧ (∀ j, j < 65536 → t.homeGet (a + j) 1 = [0xFF]) ∧ HomeSameBut s t a 65536)
    ∧ (s.Runs mb 0x1A tag (w :: ws) → q ≠ 0 → 1 ≤ ws.length → ws.length ≤ 253 → a % 4 = 0 → 0x02020000 ≤ a →
        a + 4 * ws.length ≤ 0x02E10000 →
      (s.homeUp = true → Completes (.cmdHomeWrite mb true) s fun t =>
        Answered s t q tag 0 [] ∧ t.homeGet a bs.length = bs ∧ HomeSameBut s t a bs.length)
      ∧ Completes (.cmdHomeWrite mb false) s fun t =>
        Answered s t q tag 0x5001 [] ∧ HomeSameBut s t a bs.length ∧ ∃ x ∈ t.log.waiting, x.kind = 0x40)

/-- R372, R376, R388 to R391, R470: ACTIVE alarms are listed and acknowledged, a rank register takes its rank no lower
than its floor; log status and log bytes are read; an owner entry is appended before its answer; a stopped log restarts
once its authorisation has been verified. -/
def Obligations.AlarmAndLogCommands : Prop :=
  ∀ (s : State) (mb : MailboxId) (tag : Byte) (w v : W32) (ws : List W32) (o : List Byte) (r : Nat) (e : EngineId) (j : ChainJob),
    let q := mb.val
    let passes := sigVerifies j.scheme j.digest j.block
    let seqs := ws.map (·.toNat)
    let body := bytesOf ws
    let head := logHead 0x40 body.length s.log.seq s.backup.clock.toNat s.cyc.toNat
    let entry := head ++ chainOf s.log.chain head body ++ body
    let code := w.toNat % 65536
    (s.Runs mb 0x20 tag [w] → Completes (.cmdAlarmList mb) s fun t =>
      Told s t q tag 0 (((s.alarms.active.filter fun a => decide (w.toNat ≤ a.seq)).take 16).flatMap alarmWords))
    ∧ (s.Runs mb 0x21 tag (w :: ws) → w.toNat = ws.length → 1 ≤ ws.length → ws.length ≤ 64 → Completes (.cmdAlarmAck mb) s fun t =>
      Answered s t q tag 0 [BitVec.ofNat 32 (s.alarms.active.filter fun a => !a.acked && seqs.contains a.seq).length]
        ∧ (∀ a ∈ t.alarms.active, seqs.contains a.seq = true → a.acked = true ∧ levelSource a.code = true ∧ a.normal = false)
        ∧ t.hold = s.hold)
    ∧ (s.Runs mb 0x22 tag [w] → q ≠ 0 → w.toNat < 2 ^ 19 → rankStored code (w.toNat / 65536) = some r →
      Completes (.cmdAlarmRank mb) s fun t =>
        Answered s t q tag 0 [BitVec.ofNat 32 r] ∧ t.rankOf code = r ∧ ∀ c, c ≠ code → t.rankOf c = s.rankOf c)
    ∧ (s.Runs mb 0x28 tag [] → q ≠ 0 → Completes (.cmdLogStatus mb) s fun t =>
      Told s t q tag 0 ([s.logWord] ++ wordsOf (leBytes (s.log.seq - 1) 8) ++ wordsOf (padTo s.log.chain 48) ++ [s.counterWord 3]))
    ∧ (s.Runs mb 0x29 tag [w, v] → q ≠ 0 → w.toNat % 16 = 0 → 1 ≤ v.toNat → v.toNat ≤ 252 → w.toNat + 4 * v.toNat ≤ 2 ^ 24 →
      Completes (.cmdLogRead mb) s fun t => Told s t q tag 0 (wordsOf (s.homeGet (logBase + w.toNat) (4 * v.toNat))))
    ∧ (s.Runs mb 0x2A tag (w :: ws) → q ≠ 0 → w.toNat = 4 * ws.length → ws.length % 4 = 0 → 4 ≤ ws.length → ws.length ≤ 64 →
      (s.secondServes = true → s.log.state = .running → s.log.closed = false → 65536 ≤ s.logFree → s.homeUp = true →
        Completes (.cmdLogOwner mb) s fun t =>
          Answered s t q tag 0 (wordsOf (leBytes s.log.seq 8)) ∧ t.log.seq = s.log.seq + 1
            ∧ t.homeGet (logBase + 16 * s.log.ptr) entry.length = entry ∧ HomeSameBut s t (logBase + 16 * s.log.ptr) entry.length)
      ∧ (s.secondServes = false → Completes (.cmdLogOwner mb) s fun t => Told s t q tag 0x2801 []))
    ∧ (s.Runs mb 0x2B tag [] → q ≠ 0 → s.mspi.obj.object q 3 = some o → s.log.state = .stopped →
      (s.authOk o 6 0 = true → s.onEngine (field o 0x0A 2) = true → Completes (.cmdLogRestart mb) s fun t =>
        t.CallWaits q tag 0x2B [] o (authJob (.command q) o) ∧ t.log = s.log ∧ t.home = s.home)
      ∧ (s.authOk o 6 0 = false → Completes (.cmdLogRestart mb) s fun t =>
        Answered s t q tag 0x1007 [] ∧ t.log = s.log ∧ t.home = s.home))
    ∧ (s.CallEnds e q tag 0x2B [] o j → s.log.state = .stopped →
      (passes = true → s.homeUp = true → Completes (.kernelOperationDone e false) s fun t =>
        Answered s t q tag 0 [] ∧ t.log.state = .running ∧ t.log.openSeg = 0 ∧ t.log.entries = 1
          ∧ HomeSameBut s t logBase 0x1000000)
      ∧ (passes = false → Completes (.kernelOperationDone e false) s fun t =>
        Answered s t q tag 0x1007 [] ∧ t.log = s.log ∧ t.home = s.home))

/-- R328 to R349, R470: each key command issues its key-unit function as LEAD, whose outcome is that function's outcome,
and answers with its RESULT and words; KEY_READ passes KEYOUT on and clears it; KEY_INFO and IDENTITY report;
KEY_PROVENANCE goes to an engine for PUBKEY and for its signature under KS3; ROOT_GENERATE in DEPLOYED first has its
authorisation verified. -/
def Obligations.KeyCommands : Prop :=
  ∀ (s : State) (mb : MailboxId) (tag : Byte) (w v x : W32) (ws : List W32) (slot : KeySlotId) (o : List Byte) (e : EngineId),
    let q := mb.val
    let ag := s.keyIssue
    let n := slot.val
    let calm := s.rankOf 0x0402 < 5 ∨ (s.ks n).sound = true
    let answers := fun (u : State) (words : List W32) (t : State) =>
      t.keys = u.keys ∧ t.home = s.home ∧ Answered s t q tag u.keys.result.toNat (if u.keys.result = 0 then words else [])
    let label := bytesOf ((ws.drop 0).take 8)
    let context := bytesOf ((ws.drop 8).take 24)
    q ≠ 0 → calm →
    (s.Runs mb 0x30 tag (w :: v :: ws) → ws.length = 16 → w.toNat = n → attrArgOk v = true →
      Completes (.cmdKeyWrite mb) s (answers (after (exec (.keyUnitWrite ag slot v) (s.keyinSet ws)) s) []))
    ∧ (∀ curve : BitVec 2, s.Runs mb 0x31 tag [w, v] → w.toNat = n + 256 * curve.toNat → attrArgOk v = true →
      Completes (.cmdKeyGenerate mb) s (answers (after (exec (.keyUnitGenerate ag slot curve v) s) s) []))
    ∧ (∀ (parent : BitVec 6) (curve : BitVec 2) (i j : Nat), s.Runs mb 0x32 tag (w :: v :: x :: ws) → ws.length = 32 →
        w.toNat = n + 256 * parent.toNat + 65536 * curve.toNat → x.toNat = i + 256 * j → i ≤ 32 → j ≤ 96 → attrArgOk v = true →
        zeros label i 32 = true → zeros context j 96 = true →
      Completes (.cmdKeyDerive mb) s
        (answers (after (exec (.keyUnitDerive ag slot parent curve v (label.take i) (context.take j)) s) s) []))
    ∧ (s.Runs mb 0x33 tag [w, v] → w.toNat = n → attrArgOk v = true →
      Completes (.cmdKeySetattr mb) s (answers (after (exec (.keyUnitSetattr ag slot v) s) s) []))
    ∧ (s.Runs mb 0x34 tag [w] → w.toNat = n → Completes (.cmdKeyRead mb) s fun t =>
      let u := after (exec (.keyUnitRead ag slot) s) s
      Answered s t q tag u.keys.result.toNat (if u.keys.result = 0 then u.keys.keyout else [])
        ∧ t.keys.slots = u.keys.slots ∧ (u.keys.result = 0 → t.keys.keyout = []))
    ∧ (s.Runs mb 0x35 tag [w] → w.toNat = n →
      Completes (.cmdKeyClear mb) s (answers (after (exec (.keyUnitClear ag slot) s) s) []))
    ∧ (s.Runs mb 0x36 tag [w] → w.toNat = n → Completes (.cmdKeyInfo mb) s fun t =>
      Told s t q tag 0 ((s.ks n).attr :: wordsOf (leBytes (s.ks n).instn.toNat 8)))
    ∧ (s.Runs mb 0x37 tag (w :: ws) → ws.length = 8 → w.toNat = n →
      let u := after (exec (.keyUnitProvenance ag slot (bytesOf ws)) s) s
      let body := padTo u.keys.provOut 0x60
      let klen := bitsOf (s.ks n).attr.toNat 14 13
      (u.keys.result = 0 → s.engineMayRead 3 0 = true → s.engineLeft = true → Completes (.cmdKeyProvenance mb) s fun t =>
        InProgress t q tag ∧ (t.mb q).call = some { code := 0x37, obj := body } ∧ t.home = s.home
          ∧ t.Tasked (if klen = 1 ∨ klen = 2 then .provPub q n body else .provSign q (padTo (padTo body 0x60 ++ padTo [] 96) 256)))
      ∧ (u.keys.result ≠ 0 → Completes (.cmdKeyProvenance mb) s (answers u []))
      ∧ (u.keys.result = 0 → s.engineMayRead 3 0 = false → Completes (.cmdKeyProvenance mb) s fun t =>
        Answered s t q tag 0x1004 [] ∧ t.home = s.home))
    ∧ (let g := s.en e.val
      ∀ (body : List Byte) (k : KOp), g.state = .busy → g.chain = none → g.outSlot = none → kop (opCode g.op) = some k →
        s.keys.tasks = [] → (s.mb q).tag = some tag → (s.mb q).aborted = false →
      let r := kernelRun k g.mem (opLen g.op) g.key (s.drawn 0)
      (k = .ecPubgen 1 → g.task = some (.provPub q n body) → bitsOf (s.ks n).attr.toNat 14 13 = 2 → r.code g.keyFail false = 0 →
        Completes (.kernelOperationDone e false) s fun t =>
          t.Tasked (.provSign q (padTo (padTo body 0x60 ++ padTo (beBytes r.outA 48 ++ beBytes r.outB 48) 96) 256)))
      ∧ (k = .ecdsaSign 1 → g.task = some (.provSign q body) → (s.mb q).call = some { code := 0x37, obj := body.take 0x60 } →
          r.code g.keyFail false = 0 → Completes (.kernelOperationDone e false) s fun t =>
        Answered s t q tag 0 (wordsOf (body ++ (beBytes r.outA 48 ++ beBytes r.outB 48)))))
    ∧ (s.Runs mb 0x38 tag [] → (s.rankOf 0x0402 < 5 ∨ (s.ks 0).sound = true) →
      (s.lcCurrent ≠ 3 → Completes (.cmdRootGenerate mb) s fun t =>
        let u := after (exec (.rootGenerateFunction ag) s) s
        answers u (wordsOf u.rootId) t)
      ∧ (s.lcCurrent = 3 → s.mspi.obj.object q 3 = some o → s.authOk o 1 0 = true → s.onEngine (field o 0x0A 2) = true →
          Completes (.cmdRootGenerate mb) s fun t =>
        t.CallWaits q tag 0x38 [] o (authJob (.command q) o) ∧ t.mspi.obj = {} ∧ t.keys.root = s.keys.root))
    ∧ (∀ j : ChainJob, s.CallEnds e q tag 0x38 [] o j → s.lcCurrent = 3 → s.boot.orderAF = false → s.leads = true →
        s.keys.lcBad = false → s.keys.kSlot = true → sigVerifies j.scheme j.digest j.block = true →
      Completes (.kernelOperationDone e false) s fun t =>
        t.keys.root ^^^ t.keys.rootMask = BitVec.ofNat 256 (s.drawn 0) ∧ t.keys.rootState = 1
          ∧ Answered s t q tag 0 (wordsOf t.rootId))
    ∧ (s.Runs mb 0x39 tag [w] →
      (w = 0 → Completes (.cmdIdentity mb) s fun t => Told s t q tag 0 (wordsOf (padTo s.keys.devid 96)))
      ∧ (w = 1 → Completes (.cmdIdentity mb) s fun t => Told s t q tag 0 ((wordsOf s.keys.cert).take 252))
      ∧ (w = 2 → Completes (.cmdIdentity mb) s fun t => Told s t q tag 0 (s.rootWord :: wordsOf s.rootId)))

/-- R104, R346, R361 to R371, R466, R471, R472: a fuse command whose function meets every condition of its FIRE burns, or
waits for its leave, while the command is in progress; one that meets a busy controller is answered BUSY; a revocation
needs a pre-check, a burn or lock of KD0 to KD3 in DEPLOYED and a step of the life cycle past PROVISIONED an authorisation
that an engine verifies first; FUSE_READ reports. -/
def Obligations.FuseCommands : Prop :=
  ∀ (s : State) (mb : MailboxId) (tag : Byte) (w v : W32) (ws : List W32) (o : List Byte) (e : EngineId) (j : ChainJob),
    let q := mb.val
    let passes := sigVerifies j.scheme j.digest j.block
    let auth := authJob (.command q) o
    let ag := s.keyAgent
    let n := w.toNat
    let ok := v = ~~~ w
    q ≠ 0 →
    (s.Runs mb 0x40 tag (w :: ws ++ [v]) → ws.length = 16 → ok → n < 256 → n ≠ 0x31 → s.kdNeedsAuth n = false →
      (({ s with fuses := { s.fuses with image := ws } } : State).FuseReady ag 1 n 0) →
      Completes (.cmdFuseBurn mb) s fun t => Burns s t q tag 1 n ∧ t.fuses.image = ws)
    ∧ (s.Runs mb 0x40 tag (w :: ws ++ [v]) → ws.length = 16 → ok → n < 256 → s.kdNeedsAuth n = true → s.fuses.state = .idle →
        s.mspi.obj.object q 3 = some o → s.authOk o 5 (n + 256) = true → s.onEngine (field o 0x0A 2) = true →
      Completes (.cmdFuseBurn mb) s fun t => t.CallWaits q tag 0x40 (w :: ws ++ [v]) o auth ∧ t.fuses = s.fuses)
    ∧ (s.Runs mb 0x41 tag [w, v] → ok → n < 256 → s.kdNeedsAuth n = false → s.FuseReady ag 2 n 0 →
      Completes (.cmdFuseLock mb) s fun t => Burns s t q tag 2 n)
    ∧ (s.Runs mb 0x41 tag [w, v] → ok → n < 256 → s.kdNeedsAuth n = true → s.fuses.state = .idle →
        s.mspi.obj.object q 3 = some o → s.authOk o 5 (n + 512) = true → s.onEngine (field o 0x0A 2) = true →
      Completes (.cmdFuseLock mb) s fun t => t.CallWaits q tag 0x41 [w, v] o auth ∧ t.fuses = s.fuses)
    ∧ (s.CallEnds e q tag 0x41 [w, v] o j → s.fuses.state = .idle →
      (passes = true → (s.grantFuse 2 n).FuseReady ag 2 n 0 → Completes (.kernelOperationDone e false) s fun t => Burns s t q tag 2 n)
      ∧ (passes = false → Completes (.kernelOperationDone e false) s fun t =>
        Answered s t q tag 0x1007 [] ∧ t.fuses = s.fuses))
    ∧ (s.Runs mb 0x42 tag [w, v] → ok → n < 2 ^ 17 →
        s.FuseReady (if n % 256 = 0x13 then s.secondAgent.getD ag else ag) 3 (n % 256) (n / 256) →
      Completes (.cmdFuseAdvance mb) s fun t => Burns s t q tag 3 (n % 256) ∧ fuseArg t.fuses.word = n / 256)
    ∧ (s.Runs mb 0x43 tag [w, v] → ok → 0x20 ≤ n → n ≤ 0x2F →
      ((s.wake.prechecks.any fun m => bitOf m.toNat (n - 0x20)) = true → s.FuseReady ag 4 n 0 →
        Completes (.cmdFuseRevoke mb) s fun t => Burns s t q tag 4 n)
      ∧ ((s.wake.prechecks.any fun m => bitOf m.toNat (n - 0x20)) = false → Completes (.cmdFuseRevoke mb) s fun t =>
        Told s t q tag 0x1009 []))
    ∧ (s.Runs mb 0x44 tag [w, v] → ok → n < 128 → s.FuseReady ag 5 (s.weakUnit n) n →
      Completes (.cmdFuseReburn mb) s fun t => Burns s t q tag 5 (s.weakUnit n))
    ∧ (s.Runs mb 0x45 tag [] →
      (s.fuses.state = .idle → Completes (.cmdFuseResense mb) s fun t => InProgress t q tag ∧ t.fuses.state = .sensing)
      ∧ (s.fuses.state ≠ .idle → Completes (.cmdFuseResense mb) s fun t => Told s t q tag 0x2001 []))
    ∧ (s.Runs mb 0x46 tag [w, v] →
      (w = 0 → v = 0 → Completes (.cmdFuseRead mb) s fun t =>
        Told s t q tag 0 (s.counterWord 8 :: (List.range 8).map fun i => s.counterWord i))
      ∧ (w = 1 → v = 0 → Completes (.cmdFuseRead mb) s fun t => Told s t q tag 0 [kdWord s.fuses.latched, kdWord s.fuses.current])
      ∧ (w = 2 → v.toNat < 128 → Completes (.cmdFuseRead mb) s fun t => Told s t q tag 0 ((s.fuses.weakMap.drop v.toNat).take 128))
      ∧ (w = 3 → v.toNat < 16 → Completes (.cmdFuseRead mb) s fun t =>
        Told s t q tag 0 (wordsOf (padTo (kdDigest s.fuses.latched v.toNat) 48))))
    ∧ (s.Runs mb 0x47 tag [w, v] → ok →
      (n = 2 → s.FuseReady ag 3 0 2 → Completes (.cmdLcAdvance mb) s fun t => Burns s t q tag 3 0 ∧ fuseArg t.fuses.word = 2)
      ∧ (3 ≤ n → n ≤ 5 → s.mspi.obj.object q 3 = some o →
        (s.authOk o (n - 1) n = true → s.fuses.state = .idle → s.onEngine (field o 0x0A 2) = true →
          Completes (.cmdLcAdvance mb) s fun t => t.CallWaits q tag 0x47 [w, v] o auth ∧ t.fuses = s.fuses)
        ∧ (s.authOk o (n - 1) n = false → s.fuses.state = .idle → Completes (.cmdLcAdvance mb) s fun t =>
          Answered s t q tag 0x1007 [] ∧ t.fuses = s.fuses)))
    ∧ (s.CallEnds e q tag 0x47 [w, v] o j → passes = true → s.fuses.state = .idle → 3 ≤ n → n ≤ 5 →
        (s.grantFuse 3 n).FuseReady ag 3 0 n → Completes (.kernelOperationDone e false) s fun t =>
      Burns s t q tag 3 0 ∧ fuseArg t.fuses.word = n)

/-- R243, R416, R420, R423, R432, R441, R444, R472, R473: page map, flow, link, handover and channel status are reported;
a recovery flow whose conditions hold is PULLING under the XFER of its answer; a peer's address and the CAK are taken; a
handover has the new header verified and its image hashed; a retired channel that passes its probes is in service again;
the slot that does not run is erased and written. -/
def Obligations.RecoveryLinkAndContinuityCommands : Prop :=
  ∀ (s : State) (mb : MailboxId) (tag : Byte) (w v : W32) (ws : List W32) (k : ChannelKind) (i : Nat) (e : EngineId),
    let q := mb.val
    let a := recoverArg ws
    let n := w.toNat
    let x : Slot := if n = 1 then .b else .a
    let f := s.fl n
    let bs := bytesOf ws
    q ≠ 0 →
    (s.Runs mb 0x50 tag [w, v] → 1 ≤ v.toNat → v.toNat ≤ 252 → n + v.toNat ≤ 131072 → Completes (.cmdPageMap mb) s fun t =>
      Told s t q tag 0 ((List.range v.toNat).map fun j => s.page (n + j)))
    ∧ (s.Runs mb 0x58 tag ws → ws.length = 18 → recoverArgOk ws = true → s.rxRefuses = false →
      ((a.flow = 1 ∨ a.flow = 2) → (s.fl a.port).active = false → s.mayReprogram a = true → Completes (.cmdRecover mb) s fun t =>
        Answered s t q tag 2 [BitVec.ofNat 32 s.link.nextXfer] ∧ (t.fl a.port).st = .pulling ∧ (t.fl a.port).flow = a.flow
          ∧ t.home = s.home)
      ∧ (a.flow = 3 → (s.fl a.port).active = false → s.mayServe a = true → polShelf s.pol a.port = false →
          (s.stageRange a.port (polRegion s.pol a.port 0).1 1).isSome = true → Completes (.cmdRecover mb) s fun t =>
        Answered s t q tag 2 [BitVec.ofNat 32 s.link.nextXfer] ∧ (t.fl a.port).st = .pulling ∧ (t.pg a.port).setState = .staging
          ∧ t.home = s.home)
      ∧ (∀ want, a.flow = 4 → (s.fl a.port).active = false → s.restageLeaves a = some want → Completes (.cmdRecover mb) s fun t =>
        Answered s t q tag 2 [BitVec.ofNat 32 s.link.nextXfer] ∧ (t.fl a.port).st = .pulling ∧ (t.fl a.port).flow = 4
          ∧ (t.fl a.port).total = want.length ∧ t.home = s.home)
      ∧ (a.flow = 5 → (s.fl 127).active = false → Completes (.cmdRecover mb) s fun t =>
        Answered s t q tag 2 [BitVec.ofNat 32 s.link.nextXfer] ∧ (t.fl 127).st = .pulling ∧ (t.fl 127).flow = 5)
      ∧ ((a.flow = 1 ∨ a.flow = 2) → (s.fl a.port).active = false → s.mayReprogram a = false → .lastGood a.port ∉ s.flaws →
          Completes (.cmdRecover mb) s fun t => Told s t q tag 0x1701 [])
      ∧ (a.flow = 3 → (s.fl a.port).active = false → s.mayServe a = false → Completes (.cmdRecover mb) s fun t =>
        Told s t q tag 0x1701 []))
    ∧ (s.Runs mb 0x59 tag [w] → flowKeyOk n = true → Completes (.cmdRecoverStatus mb) s fun t =>
      Told s t q tag 0 [BitVec.ofNat 32 (f.reason.toNat * 2 ^ 16 + f.flow * 16 + s.flowCode n),
        BitVec.ofNat 32 (s.leavesVerified n), BitVec.ofNat 32 f.total])
    ∧ (s.Runs mb 0x5A tag [w] → flowKeyOk n = true → f.active = true →
      (f.stepNo % 2 = 0 → s.xferOpen f.xfer = false → s.rankOf 0x0140 < 5 → Completes (.cmdRecoverCancel mb) s fun t =>
        Answered s t q tag 0 [] ∧ (t.fl n).st = .failed ∧ (t.fl n).reason = 1)
      ∧ (f.stepNo % 2 = 1 → f.stepNo < 10 → (f.st = .erasing ∨ f.st = .programming) → Completes (.cmdRecoverCancel mb) s fun t =>
        Answered s t q tag 0 [] ∧ (t.fl n).cancel = true ∧ (t.fl n).st = f.st))
    ∧ (s.Runs mb 0x60 tag (w :: ws) → ws.length = 2 → (w = 0x100 ∨ w = 0x101 ∨ w = 0x200 ∨ w = 0x201) → arg (w :: ws) 3 < 65536 →
      Completes (.cmdLinkPeer mb) s fun t =>
        Answered s t q tag 0 [] ∧ Tab.get [] t.link.peers (2 * (n / 256) + n % 2) = bs.take 6)
    ∧ (∀ key : List W32, ws.length = 8 → (s.rankOf 0x0402 < 5 ∨ (s.ks 4).sound = true) → 256 ≤ n → n ≤ 0x2001 →
        zeros bs (n / 256) 32 = true →
      let cak := fun (u t : State) =>
        (u.keys.result = 0 → Answered s t q tag 0 [] ∧ t.link.ckn = bs.take (n / 256) ∧ t.ks 4 = u.ks 4)
          ∧ (u.keys.result ≠ 0 → Answered s t q tag u.keys.result.toNat [] ∧ t.link = s.link)
      (s.Runs mb 0x61 tag (w :: ws ++ key) → key.length = 8 → n % 256 = 0 → Completes (.cmdLinkCak mb) s
        (cak (after (exec (.keyUnitWrite s.keyIssue 4 0) (s.keyinSet key)) s)))
      ∧ (s.Runs mb 0x61 tag (w :: ws) → n % 256 = 1 → Completes (.cmdLinkCak mb) s
        (cak (after (exec (.keyUnitDerive s.keyIssue 4 0x3F 0 0 (ascii "SV96-CAK") (bs.take (n / 256))) s) s))))
    ∧ (s.Runs mb 0x62 tag [] → Completes (.cmdLinkStatus mb) s fun t =>
      Told s t q tag 0 ([s.linkWord 0, s.linkWord 1] ++ s.laneCounters 0 ++ s.laneCounters 1))
    ∧ (s.Runs mb 0x68 tag [w] → n < 2 → s.verdictBusy = false → s.hand.state = .idle →
      (x ≠ s.hand.running → s.newBundleOk x = true → s.onEngine (cScheme (s.bundleHeader x)) = true →
        Completes (.cmdHandoverPrepare mb) s fun t =>
          InProgress t q tag ∧ t.Verifying (jobOf (.handover q) (s.bundleHeader x)) ∧ t.hand.state = .checking ∧ t.hand.slot = x
            ∧ t.boot.lead = s.boot.lead)
      ∧ (x ≠ s.hand.running → s.newBundleOk x = false → Completes (.cmdHandoverPrepare mb) s fun t => Told s t q tag 0x3E01 [])
      ∧ (x = s.hand.running → Completes (.cmdHandoverPrepare mb) s fun t => Told s t q tag 0x1004 []))
    ∧ (∀ j : ChainJob, (s.en e.val).state = .busy → (s.en e.val).chain = some j → ((hybridParts j.scheme).isNone = true ∨ j.second = true) →
        j.use = .handover q → s.hand.state = .checking → s.keys.tasks = [] → (s.mb q).tag = some tag → (s.mb q).aborted = false →
        (s.mb q).call.map (·.code) = some 0x68 →
      (sigVerifies j.scheme j.digest j.block = true → s.serviceLane.isSome = true → Completes (.kernelOperationDone e false) s fun t =>
        Answered s t q tag 2 [] ∧ t.hand.state = .loading ∧ .image ∈ t.wake.svcJobs ∧ t.boot.lead = s.boot.lead)
      ∧ (sigVerifies j.scheme j.digest j.block = false → Completes (.kernelOperationDone e false) s fun t =>
        Answered s t q tag 0x3E01 [] ∧ t.hand.state = .idle ∧ t.boot.lead = s.boot.lead))
    ∧ (s.Runs mb 0x69 tag [] → Completes (.cmdHandoverStatus mb) s fun t => Told s t q tag 0 [s.handoverWord])
    ∧ (s.Runs mb 0x6A tag [w] → channelArg [w] = some (k, i) → k ≠ .lane → k ≠ .home → (s.ch (chanKey k i)).state = .retired →
      (k ≠ .sequencer → Completes (.cmdReinstate mb 7) s fun t =>
        Answered s t q tag 0 [t.channelWord (chanKey k i)] ∧ (t.ch (chanKey k i)).state = .inService ∧ (t.ch (chanKey k i)).bucket = 0
          ∧ t.home = s.home)
      ∧ (k = .sequencer → ((sheafPorts i).all fun p => s.heldNow p) = false → Completes (.cmdReinstate mb 7) s fun t =>
        Answered s t q tag 0 [t.channelWord (chanKey k i)] ∧ (t.ch (chanKey k i)).state = .retired ∧ (t.ch (chanKey k i)).bucket = 0)
      ∧ (∀ probes, probes ≠ 7 → Completes (.cmdReinstate mb probes) s fun t => Told s t q tag 0x1004 []))
    ∧ (s.Runs mb 0x6B tag [w] → channelArg [w] = some (k, i) → Completes (.cmdChannelStatus mb) s fun t =>
      Told s t q tag 0 [s.channelWord (chanKey k i)])
    ∧ (s.Runs mb 0x70 tag [w, v] → n < 2 → v = ~~~ w →
      (x ≠ s.hand.running → s.homeUp = true → Completes (.cmdBundleErase mb) s fun t =>
        Answered s t q tag 0 [] ∧ (∀ j, j < 0x01000000 → t.homeGet (slotBase x + j) 1 = [0xFF])
          ∧ HomeSameBut s t (slotBase x) 0x01000000)
      ∧ (x = s.hand.running → Completes (.cmdBundleErase mb) s fun t => Told s t q tag 0x1004 []))
    ∧ (s.Runs mb 0x71 tag (w :: v :: ws) → 1 ≤ ws.length → ws.length ≤ 253 → n < 2 → v.toNat % 4 = 0 →
        v.toNat + 4 * ws.length ≤ 0x01000000 → x ≠ s.hand.running → s.homeUp = true → Completes (.cmdBundleWrite mb true) s fun t =>
      Answered s t q tag 0 [] ∧ t.homeGet (slotBase x + v.toNat) bs.length = bs ∧ HomeSameBut s t (slotBase x + v.toNat) bs.length)

/-- R51, R55, R66, R474: the seed ROM's services: the repair list and a reburn of it in SEALED; in FWLESS and HEADLESS a
slot that does not pass is erased and written, and a slot that passes is taken: the bundle is GOOD, or the warm restart
begins its bundle stages. Production services are answered, one that leaves BLANK burns UDS, order code and the first
step; unknown codes are answered. (Production services are opaque, log 9.) -/
def Obligations.SeedServices : Prop :=
  ∀ (s : State) (mb : MailboxId) (tag : Byte) (w v : W32) (ws : List W32) (code : Nat),
    let q := mb.val
    let n := w.toNat
    let x : Slot := if n = 1 then .b else .a
    let bs := bytesOf ws
    let open_ := s.boot.dev = .fwless ∨ s.boot.dev = .headless
    (s.boot.dev = .sealed → s.lcLatched ≠ 5 → n < 128 →
      (s.Serves q 0xE0 tag [w] → Completes (.cmdRepairList mb) s fun t =>
        Told s t q tag 0 ([BitVec.ofNat 32 (maskOf ((List.range 5).filter fun g => s.boot.failing.any fun e => decide (e.1 = g))),
          BitVec.ofNat 32 s.fuses.weakCount] ++ (s.fuses.weakMap.drop n).take 128))
      ∧ (s.Serves q 0xE1 tag [w, v] → v = ~~~ w → s.FuseReady .seed 5 (s.weakUnit n) n → Completes (.cmdRepairReburn mb) s fun t =>
        Burns s t q tag 5 (s.weakUnit n)))
    ∧ (open_ → s.Serves q 0xE8 tag [w, v] → n < 2 → v = ~~~ w →
      (s.slotPasses x = false → s.homeUp = true → Completes (.cmdLoadErase mb) s fun t =>
        Answered s t q tag 0 [] ∧ (∀ j, j < 0x01000000 → t.homeGet (slotBase x + j) 1 = [0xFF])
          ∧ HomeSameBut s t (slotBase x) 0x01000000)
      ∧ (s.slotPasses x = true → Completes (.cmdLoadErase mb) s fun t => Told s t q tag 0x1E01 []))
    ∧ (open_ → s.Serves q 0xE9 tag (w :: v :: ws) → 1 ≤ ws.length → ws.length ≤ 253 → n < 2 → v.toNat % 4 = 0 →
        v.toNat + 4 * ws.length ≤ 0x01000000 → s.slotPasses x = false → s.homeUp = true → Completes (.cmdLoadWrite mb true) s fun t =>
      Answered s t q tag 0 [] ∧ t.homeGet (slotBase x + v.toNat) bs.length = bs ∧ HomeSameBut s t (slotBase x + v.toNat) bs.length)
    ∧ (s.Serves q 0xEA tag [w] → n < 2 →
      ((s.seedDraw (s.bundleHeader x)).isSome = true → s.slotPasses x = true →
        (s.boot.dev = .fwless → Completes (.cmdLoadCommit mb) s fun t =>
          t.boot.step = .good ∧ t.boot.bundle = some (bundleFrom x (s.bundleHeader x)) ∧ t.home = s.home)
        ∧ (s.boot.dev = .headless → Completes (.cmdLoadCommit mb) s fun t =>
          t.boot.dev = .ride ∧ t.boot.step = .headers ∧ t.home = s.home))
      ∧ (open_ → (s.slotPasses x = false ∨ s.seedDraw (s.bundleHeader x) = none) → Completes (.cmdLoadCommit mb) s fun t =>
        Answered s t q tag 0x3E01 [] ∧ t.boot = s.boot ∧ t.home = s.home))
    ∧ (s.Serves q code tag ws → 0xF0 ≤ code → s.lcLatched ≤ 1 → ∀ h, s.request q (fun c => decide (c = code)) = some (h, ws) →
      Completes (.cmdVendorProductionService mb) s fun t => match Config.production code (requestBytes h ws) with
        | some r => Answered s t q tag 0 ((wordsOf r.answer).take 255) ∧ t.home = s.home
          ∧ (r.factory = none → Told s t q tag 0 ((wordsOf r.answer).take 255))
          ∧ ∀ af, r.factory = some af → s.lcLatched = 0 → s.lcCurrent = 0 →
            ∀ a ∈ factoryBits (leBytes (s.drawn 0) 48) af, (t.otpBit a).c0 = .sound ∧ (t.otpBit a).c1 = .sound
        | none => Told s t q tag 0x1007 [])
    ∧ (s.Serves q code tag ws → code < 0xF0 → commandCodes.contains code = false → Completes (.unknownCommandCode mb) s fun t =>
      Told s t q tag 0x1001 [])

/-! ### The whole machine -/

/-- A step takes the command at the front of the queue and is that command's effect on the state with the queue's rest;
every command of the table, its operands whatever they are, completes in every state. R217, R399: with an empty queue one
core cycle passes: CYC counts while the core PLL is locked; where every pool passes the census unit's checks, no handover
waits to flip and an engine is left, nothing but CYC and the timer lines of the cores changes; a pool that fails them
begins to reconcile (the tick on an empty queue is the model's choice, log 6). -/
def Obligations.StepRunsFrontCommand : Prop :=
  (∀ (s : State) (c : Instr) (rest : List Instr),
    (s.pending = c :: rest → step s = exec c { s with pending := rest }) ∧ ∃ t, exec c s = .next t)
  ∧ (∀ s : State, s.pending = [] →
    (s.boot.coreLock = false → step s = .next s)
    ∧ (s.boot.coreLock = true → (∀ e ∈ s.leave.pools, (s.po e.1).fault = false ∧ s.holdingBad e.1 = false
          ∧ ((s.po e.1).st = .ok → (s.po e.1).checks = true)) → s.hand.state ≠ .switching → s.engineLeft = true →
        ∃ t, step s = .next t ∧ t.cyc = s.cyc + 1 ∧ { t with cyc := s.cyc, cores := s.cores } = s)
    ∧ (s.boot.coreLock = true → s.rankOf 0x0140 ≤ 1 → s.rankOf 0x0141 ≤ 1 → ∃ t, step s = .next t ∧ t.cyc = s.cyc + 1
        ∧ ∀ e ∈ s.leave.pools, (s.po e.1).st = .ok → (s.po e.1).checks = false → (t.po e.1).st = .reconciling))

/-- R24: a port passes from held to released only where its stand controller accepts a release token of the current
verdict epoch for it and draws its inrush leave from that stand's own pool. -/
def Obligations.OnlyReleaseOpensAPort : Prop :=
  ∀ (s t : State) (p : Nat),
    step s = .next t → (s.ph p).hold = true → (t.ph p).hold = false →
      (s.ph p).token = some s.boot.epoch
        ∧ ∃ k rest, s.pending = .portRelease k .nothing :: rest ∧ k.val = standOf p ∧ s.nextRelease k.val = some p
          ∧ s.canGrant (1 + k.val) (polWeight s.pol p) = true
          ∧ t.heldOf (1 + k.val) (p / 6) = s.heldOf (1 + k.val) (p / 6) + polWeight s.pol p

/-- Every step keeps the memories in canonical form: keys rising, nothing listed that reads as unlisted. (The canonical
form is the model's own, log 3.) -/
def Obligations.StepsKeepMemoriesCanonical : Prop :=
  ∀ s t : State, s.memWf = true → step s = .next t → t.memWf = true

/-- The state after reset has its memories in canonical form, every port held and no command waiting (R25, R44). (Reset
values that no rule gives are the model's choice, log 2 and 3.) -/
def Obligations.ResetState : Prop :=
  State.reset.memWf = true ∧ (∀ p, State.reset.heldNow p = true) ∧ State.reset.boot.dev = .off ∧ State.reset.pending = []
    ∧ State.reset.boot.epoch = 1 ∧ ∀ e ∈ State.reset.leave.pools, e.2.conserved = true

/-- R109, R387 to R391, R446, R469, R473: no command but those that append to, drain, erase, scan or restart the evidence
log, accept a policy, erase or write a region or bundle slot, or end a flow's program changes a byte of the home flash. -/
def Obligations.OnlyTheseCommandsWriteTheHomeFlash : Prop :=
  ∀ (s t : State) (c : Instr), writesHome c = false → exec c s = .next t → t.home = s.home

/-- No command but those named changes a verdict, the edge machine of a port, the frames sent on the trust link or CYC,
and no command changes the queue of the commands that wait (R86, R99, R130, R217, R433). -/
def Obligations.OnlyTheseCommandsSetVerdicts : Prop :=
  ∀ (s t : State) (c : Instr), exec c s = .next t →
    t.pending = s.pending ∧ (setsVerdict c = false → t.verd = s.verd) ∧ (movesEdge c = false → t.edge = s.edge)
      ∧ (sendsFrames c = false → t.linkOut = s.linkOut) ∧ (setsCyc c = false → t.cyc = s.cyc)
end

