-- ==== Sys2Proof/Laws/Tab.lean ====
section
/-! SUPPORT. Laws of the sparse tables: what a read gives after each write, and that every operation keeps the canonical
form. -/

namespace Sys2Proof.Machine

variable {α : Type}

theorem Tab.get_del (d : α) (t : Tab α) (n m : Nat) :
    Tab.get d (Tab.del t n) m = if m = n then d else Tab.get d t m := by
  induction t with
  | nil => simp [Tab.del, Tab.get]
  | cons e t ih =>
    obtain ⟨k, v⟩ := e
    by_cases hk : k = n
    · subst hk
      by_cases hm : m = k
      · subst hm; simpa [Tab.del] using ih
      · simp [Tab.del, ih, Tab.get, hm, Ne.symm hm]
    · by_cases hm : k = m
      · subst hm; simp [Tab.del, Tab.get, hk]
      · simp [Tab.del, Tab.get, hk, hm, ih]

theorem Tab.get_of_absent (d : α) (t : Tab α) (n : Nat) (h : ∀ e ∈ t, e.1 ≠ n) : Tab.get d t n = d := by
  induction t with
  | nil => rfl
  | cons e t ih =>
    obtain ⟨k, v⟩ := e
    simp only [List.mem_cons, forall_eq_or_imp] at h
    simp [Tab.get, h.1, ih h.2]

theorem Tab.del_absent (t : Tab α) (n : Nat) : ∀ e ∈ Tab.del t n, e.1 ≠ n := by
  induction t with
  | nil => simp [Tab.del]
  | cons e t ih =>
    obtain ⟨k, v⟩ := e
    by_cases hk : k = n
    · simpa [Tab.del, hk] using ih
    · simp [Tab.del, hk]; exact fun a b h => ih (a, b) h

theorem Tab.get_ins (d : α) (t : Tab α) (n : Nat) (v : α) (m : Nat) (h : ∀ e ∈ t, e.1 ≠ n) :
    Tab.get d (Tab.ins t n v) m = if m = n then v else Tab.get d t m := by
  induction t with
  | nil => simp [Tab.ins, Tab.get, eq_comm]
  | cons e t ih =>
    obtain ⟨k, w⟩ := e
    simp only [List.mem_cons, forall_eq_or_imp] at h
    by_cases hn : n < k
    · by_cases hm : m = n
      · simp [Tab.ins, hn, Tab.get, hm]
      · simp [Tab.ins, hn, Tab.get, hm, Ne.symm hm]
    · by_cases hk : k = m
      · subst hk; simp [Tab.ins, hn, Tab.get, h.1]
      · simp [Tab.ins, hn, Tab.get, hk, ih h.2]

/-- A read after a write gives the value written there and what stood elsewhere. -/
theorem Tab.get_put [DecidableEq α] (d : α) (t : Tab α) (n : Nat) (v : α) (m : Nat) :
    Tab.get d (Tab.put d t n v) m = if m = n then v else Tab.get d t m := by
  unfold Tab.put
  split
  · next h => rw [Tab.get_del, h]
  · rw [Tab.get_ins _ _ _ _ _ (Tab.del_absent t n), Tab.get_del]; split <;> rfl

@[simp] theorem Tab.get_put_same [DecidableEq α] (d : α) (t : Tab α) (n : Nat) (v : α) :
    Tab.get d (Tab.put d t n v) n = v := by simp [Tab.get_put]

@[simp] theorem Tab.get_put_ne [DecidableEq α] (d : α) (t : Tab α) (n : Nat) (v : α) (m : Nat) (h : m ≠ n) :
    Tab.get d (Tab.put d t n v) m = Tab.get d t m := by simp [Tab.get_put, h]

/-- A read after a change of one key. -/
theorem Tab.get_upd [DecidableEq α] (d : α) (t : Tab α) (n : Nat) (f : α → α) (m : Nat) :
    Tab.get d (Tab.upd d t n f) m = if m = n then f (Tab.get d t n) else Tab.get d t m := by
  simp [Tab.upd, Tab.get_put]

@[simp] theorem Tab.get_upd_same [DecidableEq α] (d : α) (t : Tab α) (n : Nat) (f : α → α) :
    Tab.get d (Tab.upd d t n f) n = f (Tab.get d t n) := by simp [Tab.get_upd]

@[simp] theorem Tab.get_upd_ne [DecidableEq α] (d : α) (t : Tab α) (n : Nat) (f : α → α) (m : Nat) (h : m ≠ n) :
    Tab.get d (Tab.upd d t n f) m = Tab.get d t m := by simp [Tab.get_upd, h]

@[simp] theorem Tab.get_nil (d : α) (n : Nat) : Tab.get d [] n = d := rfl

/-- A read after a write of consecutive values. -/
theorem Tab.get_putList [DecidableEq α] (d : α) (vs : List α) : ∀ (t : Tab α) (n m : Nat),
    Tab.get d (Tab.putList d t n vs) m = if n ≤ m ∧ m < n + vs.length then vs.getD (m - n) d else Tab.get d t m := by
  induction vs with
  | nil => intro t n m; simp [Tab.putList]
  | cons v vs ih =>
    intro t n m
    rw [Tab.putList, ih, Tab.get_put]
    simp only [List.length_cons]
    by_cases h1 : n + 1 ≤ m ∧ m < n + 1 + vs.length
    · have h2 : n ≤ m ∧ m < n + (vs.length + 1) := by omega
      have h3 : m - n = (m - (n + 1)) + 1 := by omega
      simp [h1, h2, h3]
    · by_cases h4 : m = n
      · subst h4; simp
      · have h2 : ¬ (n ≤ m ∧ m < n + (vs.length + 1)) := by omega
        rw [if_neg h1, if_neg h4, if_neg h2]

/-- A read after an erase. -/
theorem Tab.get_clear (d : α) (t : Tab α) (lo hi n : Nat) :
    Tab.get d (Tab.clear t lo hi) n = if lo ≤ n ∧ n < hi then d else Tab.get d t n := by
  induction t with
  | nil => simp [Tab.clear]
  | cons e t ih =>
    obtain ⟨k, v⟩ := e
    unfold Tab.clear at ih ⊢
    by_cases hk : k < lo ∨ hi ≤ k
    · rw [List.filter_cons_of_pos (by simpa using hk)]
      by_cases hn : k = n
      · subst hn
        have h2 : ¬ (lo ≤ k ∧ k < hi) := by omega
        simp [Tab.get, h2]
      · rw [Tab.get, if_neg hn, ih, Tab.get, if_neg hn]
    · rw [List.filter_cons_of_neg (by simpa using hk), ih]
      by_cases hn : k = n
      · subst hn
        have h2 : lo ≤ k ∧ k < hi := by omega
        simp [h2]
      · simp [Tab.get, hn]

theorem Tab.above_iff (n : Nat) (t : Tab α) : Tab.above n t = true ↔ ∀ e ∈ t, n < e.1 := by
  induction t with
  | nil => simp [Tab.above]
  | cons e t ih => obtain ⟨k, v⟩ := e; simp [Tab.above, ih]

theorem Tab.wf_cons [DecidableEq α] (d : α) (k : Nat) (v : α) (t : Tab α) :
    Tab.wf d ((k, v) :: t) = true ↔ v ≠ d ∧ (∀ e ∈ t, k < e.1) ∧ Tab.wf d t = true := by
  simp [Tab.wf, Tab.above_iff, and_assoc]

theorem Tab.mem_del (t : Tab α) (n : Nat) (e : Nat × α) : e ∈ Tab.del t n ↔ e ∈ t ∧ e.1 ≠ n := by
  induction t with
  | nil => simp [Tab.del]
  | cons a t ih =>
    obtain ⟨k, v⟩ := a
    by_cases hk : k = n
    · subst hk
      simp only [Tab.del, ↓reduceIte, ih, List.mem_cons]
      constructor
      · exact fun h => ⟨.inr h.1, h.2⟩
      · rintro ⟨rfl | h, h2⟩
        · exact absurd rfl h2
        · exact ⟨h, h2⟩
    · simp only [Tab.del, hk, ↓reduceIte, List.mem_cons, ih]
      constructor
      · rintro (rfl | h)
        · exact ⟨.inl rfl, hk⟩
        · exact ⟨.inr h.1, h.2⟩
      · rintro ⟨rfl | h, h2⟩
        · exact .inl rfl
        · exact .inr ⟨h, h2⟩

/-- Unlisting a key keeps the canonical form. -/
theorem Tab.wf_del [DecidableEq α] (d : α) (t : Tab α) (n : Nat) (h : Tab.wf d t = true) :
    Tab.wf d (Tab.del t n) = true := by
  induction t with
  | nil => rfl
  | cons e t ih =>
    obtain ⟨k, v⟩ := e
    rw [Tab.wf_cons] at h
    by_cases hk : k = n
    · simpa [Tab.del, hk] using ih h.2.2
    · simp only [Tab.del, hk, ↓reduceIte, Tab.wf_cons]
      exact ⟨h.1, fun e he => h.2.1 e ((Tab.mem_del t n e).1 he).1, ih h.2.2⟩

theorem Tab.mem_ins (t : Tab α) (n : Nat) (v : α) (e : Nat × α) : e ∈ Tab.ins t n v ↔ e = (n, v) ∨ e ∈ t := by
  induction t with
  | nil => simp [Tab.ins]
  | cons a t ih =>
    obtain ⟨k, w⟩ := a
    by_cases hn : n < k
    · simp [Tab.ins, hn]
    · simp only [Tab.ins, hn, ↓reduceIte, List.mem_cons, ih]; tauto

theorem Tab.wf_ins [DecidableEq α] (d : α) (t : Tab α) (n : Nat) (v : α) (hv : v ≠ d) (hn : ∀ e ∈ t, e.1 ≠ n)
    (h : Tab.wf d t = true) : Tab.wf d (Tab.ins t n v) = true := by
  induction t with
  | nil => simp [Tab.ins, Tab.wf, Tab.above, hv]
  | cons e t ih =>
    obtain ⟨k, w⟩ := e
    have h' := (Tab.wf_cons d k w t).1 h
    simp only [List.mem_cons, forall_eq_or_imp] at hn
    by_cases hk : n < k
    · simp only [Tab.ins, hk, ↓reduceIte, Tab.wf_cons]
      refine ⟨hv, ?_, h'.1, h'.2.1, h'.2.2⟩
      intro e he
      rcases List.mem_cons.1 he with rfl | he
      · exact hk
      · exact lt_trans hk (h'.2.1 e he)
    · simp only [Tab.ins, hk, ↓reduceIte, Tab.wf_cons]
      refine ⟨h'.1, ?_, ih hn.2 h'.2.2⟩
      intro e he
      rcases (Tab.mem_ins t n v e).1 he with rfl | he
      · exact lt_of_le_of_ne (Nat.le_of_not_lt hk) hn.1
      · exact h'.2.1 e he

/-- A write keeps the canonical form. -/
theorem Tab.wf_put [DecidableEq α] (d : α) (t : Tab α) (n : Nat) (v : α) (h : Tab.wf d t = true) :
    Tab.wf d (Tab.put d t n v) = true := by
  unfold Tab.put
  split
  · exact Tab.wf_del d t n h
  · next hv => exact Tab.wf_ins d _ n v hv (Tab.del_absent t n) (Tab.wf_del d t n h)

/-- A change of one key keeps the canonical form. -/
theorem Tab.wf_upd [DecidableEq α] (d : α) (t : Tab α) (n : Nat) (f : α → α) (h : Tab.wf d t = true) :
    Tab.wf d (Tab.upd d t n f) = true := Tab.wf_put d t n _ h

/-- A write of consecutive values keeps the canonical form. -/
theorem Tab.wf_putList [DecidableEq α] (d : α) (vs : List α) : ∀ (t : Tab α) (n : Nat), Tab.wf d t = true →
    Tab.wf d (Tab.putList d t n vs) = true := by
  induction vs with
  | nil => exact fun _ _ h => h
  | cons v vs ih => exact fun t n h => ih _ _ (Tab.wf_put d t n v h)

theorem Tab.wf_filter [DecidableEq α] (d : α) (t : Tab α) (p : Nat × α → Bool) (h : Tab.wf d t = true) :
    Tab.wf d (t.filter p) = true := by
  induction t with
  | nil => rfl
  | cons e t ih =>
    obtain ⟨k, v⟩ := e
    rw [Tab.wf_cons] at h
    by_cases hp : p (k, v) = true
    · rw [List.filter_cons_of_pos hp, Tab.wf_cons]
      exact ⟨h.1, fun e he => h.2.1 e (List.mem_filter.1 he).1, ih h.2.2⟩
    · rw [List.filter_cons_of_neg hp]; exact ih h.2.2

/-- An erase keeps the canonical form. -/
theorem Tab.wf_clear [DecidableEq α] (d : α) (t : Tab α) (lo hi : Nat) (h : Tab.wf d t = true) :
    Tab.wf d (Tab.clear t lo hi) = true := Tab.wf_filter d t _ h

end Sys2Proof.Machine
end

