-- ==== Sys2Proof/Laws/State.lean ====
section
/-! SUPPORT. What each update of the state leaves alone, field by field, and what a read gives after a write. -/

namespace Sys2Proof.Machine

open Sys2Proof

variable (s : State)

section
variable (i j : Nat) (f : PHold → PHold)
theorem State.phU_ph : (s.phU i f).ph j = if j = i then f (s.ph i) else s.ph j := Tab.get_upd _ _ _ _ _
@[simp] theorem State.phU_ph_same : (s.phU i f).ph i = f (s.ph i) := Tab.get_upd_same _ _ _ _
@[simp] theorem State.phU_ph_ne (h : j ≠ i) : (s.phU i f).ph j = s.ph j := Tab.get_upd_ne _ _ _ _ _ h
@[simp] theorem State.phU_boot : (s.phU i f).boot = s.boot := rfl
@[simp] theorem State.phU_stands : (s.phU i f).stands = s.stands := rfl
@[simp] theorem State.phU_edge : (s.phU i f).edge = s.edge := rfl
@[simp] theorem State.phU_ctr : (s.phU i f).ctr = s.ctr := rfl
@[simp] theorem State.phU_win : (s.phU i f).win = s.win := rfl
@[simp] theorem State.phU_dec : (s.phU i f).dec = s.dec := rfl
@[simp] theorem State.phU_sheaves : (s.phU i f).sheaves = s.sheaves := rfl
@[simp] theorem State.phU_rules : (s.phU i f).rules = s.rules := rfl
@[simp] theorem State.phU_wake : (s.phU i f).wake = s.wake := rfl
@[simp] theorem State.phU_wport : (s.phU i f).wport = s.wport := rfl
@[simp] theorem State.phU_verd : (s.phU i f).verd = s.verd := rfl
@[simp] theorem State.phU_gran : (s.phU i f).gran = s.gran := rfl
@[simp] theorem State.phU_pgran : (s.phU i f).pgran = s.pgran := rfl
@[simp] theorem State.phU_cores : (s.phU i f).cores = s.cores := rfl
@[simp] theorem State.phU_mems : (s.phU i f).mems = s.mems := rfl
@[simp] theorem State.phU_flaws : (s.phU i f).flaws = s.flaws := rfl
@[simp] theorem State.phU_engines : (s.phU i f).engines = s.engines := rfl
@[simp] theorem State.phU_keys : (s.phU i f).keys = s.keys := rfl
@[simp] theorem State.phU_fuses : (s.phU i f).fuses = s.fuses := rfl
@[simp] theorem State.phU_alarms : (s.phU i f).alarms = s.alarms := rfl
@[simp] theorem State.phU_backup : (s.phU i f).backup = s.backup := rfl
@[simp] theorem State.phU_log : (s.phU i f).log = s.log := rfl
@[simp] theorem State.phU_leave : (s.phU i f).leave = s.leave := rfl
@[simp] theorem State.phU_chans : (s.phU i f).chans = s.chans := rfl
@[simp] theorem State.phU_hand : (s.phU i f).hand = s.hand := rfl
@[simp] theorem State.phU_link : (s.phU i f).link = s.link := rfl
@[simp] theorem State.phU_mspi : (s.phU i f).mspi = s.mspi := rfl
@[simp] theorem State.phU_home : (s.phU i f).home = s.home := rfl
@[simp] theorem State.phU_linkOut : (s.phU i f).linkOut = s.linkOut := rfl
@[simp] theorem State.phU_cyc : (s.phU i f).cyc = s.cyc := rfl
@[simp] theorem State.phU_fresh : (s.phU i f).fresh = s.fresh := rfl
@[simp] theorem State.phU_pending : (s.phU i f).pending = s.pending := rfl
@[simp] theorem State.phU_st : (s.phU i f).st j = s.st j := rfl
@[simp] theorem State.phU_pe : (s.phU i f).pe j = s.pe j := rfl
@[simp] theorem State.phU_pw : (s.phU i f).pw j = s.pw j := rfl
@[simp] theorem State.phU_pd : (s.phU i f).pd j = s.pd j := rfl
@[simp] theorem State.phU_sh : (s.phU i f).sh j = s.sh j := rfl
@[simp] theorem State.phU_pk : (s.phU i f).pk j = s.pk j := rfl
@[simp] theorem State.phU_pv : (s.phU i f).pv j = s.pv j := rfl
@[simp] theorem State.phU_pg : (s.phU i f).pg j = s.pg j := rfl
@[simp] theorem State.phU_co : (s.phU i f).co j = s.co j := rfl
@[simp] theorem State.phU_en : (s.phU i f).en j = s.en j := rfl
@[simp] theorem State.phU_ch : (s.phU i f).ch j = s.ch j := rfl
@[simp] theorem State.phU_ln : (s.phU i f).ln j = s.ln j := rfl
@[simp] theorem State.phU_mb : (s.phU i f).mb j = s.mb j := rfl
@[simp] theorem State.phU_po : (s.phU i f).po j = s.po j := rfl
@[simp] theorem State.phU_ks : (s.phU i f).ks j = s.ks j := rfl
end

section
variable (i j : Nat) (f : Stand → Stand)
theorem State.stU_st : (s.stU i f).st j = if j = i then f (s.st i) else s.st j := Tab.get_upd _ _ _ _ _
@[simp] theorem State.stU_st_same : (s.stU i f).st i = f (s.st i) := Tab.get_upd_same _ _ _ _
@[simp] theorem State.stU_st_ne (h : j ≠ i) : (s.stU i f).st j = s.st j := Tab.get_upd_ne _ _ _ _ _ h
@[simp] theorem State.stU_boot : (s.stU i f).boot = s.boot := rfl
@[simp] theorem State.stU_hold : (s.stU i f).hold = s.hold := rfl
@[simp] theorem State.stU_edge : (s.stU i f).edge = s.edge := rfl
@[simp] theorem State.stU_ctr : (s.stU i f).ctr = s.ctr := rfl
@[simp] theorem State.stU_win : (s.stU i f).win = s.win := rfl
@[simp] theorem State.stU_dec : (s.stU i f).dec = s.dec := rfl
@[simp] theorem State.stU_sheaves : (s.stU i f).sheaves = s.sheaves := rfl
@[simp] theorem State.stU_rules : (s.stU i f).rules = s.rules := rfl
@[simp] theorem State.stU_wake : (s.stU i f).wake = s.wake := rfl
@[simp] theorem State.stU_wport : (s.stU i f).wport = s.wport := rfl
@[simp] theorem State.stU_verd : (s.stU i f).verd = s.verd := rfl
@[simp] theorem State.stU_gran : (s.stU i f).gran = s.gran := rfl
@[simp] theorem State.stU_pgran : (s.stU i f).pgran = s.pgran := rfl
@[simp] theorem State.stU_cores : (s.stU i f).cores = s.cores := rfl
@[simp] theorem State.stU_mems : (s.stU i f).mems = s.mems := rfl
@[simp] theorem State.stU_flaws : (s.stU i f).flaws = s.flaws := rfl
@[simp] theorem State.stU_engines : (s.stU i f).engines = s.engines := rfl
@[simp] theorem State.stU_keys : (s.stU i f).keys = s.keys := rfl
@[simp] theorem State.stU_fuses : (s.stU i f).fuses = s.fuses := rfl
@[simp] theorem State.stU_alarms : (s.stU i f).alarms = s.alarms := rfl
@[simp] theorem State.stU_backup : (s.stU i f).backup = s.backup := rfl
@[simp] theorem State.stU_log : (s.stU i f).log = s.log := rfl
@[simp] theorem State.stU_leave : (s.stU i f).leave = s.leave := rfl
@[simp] theorem State.stU_chans : (s.stU i f).chans = s.chans := rfl
@[simp] theorem State.stU_hand : (s.stU i f).hand = s.hand := rfl
@[simp] theorem State.stU_link : (s.stU i f).link = s.link := rfl
@[simp] theorem State.stU_mspi : (s.stU i f).mspi = s.mspi := rfl
@[simp] theorem State.stU_home : (s.stU i f).home = s.home := rfl
@[simp] theorem State.stU_linkOut : (s.stU i f).linkOut = s.linkOut := rfl
@[simp] theorem State.stU_cyc : (s.stU i f).cyc = s.cyc := rfl
@[simp] theorem State.stU_fresh : (s.stU i f).fresh = s.fresh := rfl
@[simp] theorem State.stU_pending : (s.stU i f).pending = s.pending := rfl
@[simp] theorem State.stU_ph : (s.stU i f).ph j = s.ph j := rfl
@[simp] theorem State.stU_pe : (s.stU i f).pe j = s.pe j := rfl
@[simp] theorem State.stU_pw : (s.stU i f).pw j = s.pw j := rfl
@[simp] theorem State.stU_pd : (s.stU i f).pd j = s.pd j := rfl
@[simp] theorem State.stU_sh : (s.stU i f).sh j = s.sh j := rfl
@[simp] theorem State.stU_pk : (s.stU i f).pk j = s.pk j := rfl
@[simp] theorem State.stU_pv : (s.stU i f).pv j = s.pv j := rfl
@[simp] theorem State.stU_pg : (s.stU i f).pg j = s.pg j := rfl
@[simp] theorem State.stU_co : (s.stU i f).co j = s.co j := rfl
@[simp] theorem State.stU_en : (s.stU i f).en j = s.en j := rfl
@[simp] theorem State.stU_ch : (s.stU i f).ch j = s.ch j := rfl
@[simp] theorem State.stU_ln : (s.stU i f).ln j = s.ln j := rfl
@[simp] theorem State.stU_mb : (s.stU i f).mb j = s.mb j := rfl
@[simp] theorem State.stU_po : (s.stU i f).po j = s.po j := rfl
@[simp] theorem State.stU_ks : (s.stU i f).ks j = s.ks j := rfl
end

section
variable (i j : Nat) (f : PEdge → PEdge)
theorem State.peU_pe : (s.peU i f).pe j = if j = i then f (s.pe i) else s.pe j := Tab.get_upd _ _ _ _ _
@[simp] theorem State.peU_pe_same : (s.peU i f).pe i = f (s.pe i) := Tab.get_upd_same _ _ _ _
@[simp] theorem State.peU_pe_ne (h : j ≠ i) : (s.peU i f).pe j = s.pe j := Tab.get_upd_ne _ _ _ _ _ h
@[simp] theorem State.peU_boot : (s.peU i f).boot = s.boot := rfl
@[simp] theorem State.peU_hold : (s.peU i f).hold = s.hold := rfl
@[simp] theorem State.peU_stands : (s.peU i f).stands = s.stands := rfl
@[simp] theorem State.peU_ctr : (s.peU i f).ctr = s.ctr := rfl
@[simp] theorem State.peU_win : (s.peU i f).win = s.win := rfl
@[simp] theorem State.peU_dec : (s.peU i f).dec = s.dec := rfl
@[simp] theorem State.peU_sheaves : (s.peU i f).sheaves = s.sheaves := rfl
@[simp] theorem State.peU_rules : (s.peU i f).rules = s.rules := rfl
@[simp] theorem State.peU_wake : (s.peU i f).wake = s.wake := rfl
@[simp] theorem State.peU_wport : (s.peU i f).wport = s.wport := rfl
@[simp] theorem State.peU_verd : (s.peU i f).verd = s.verd := rfl
@[simp] theorem State.peU_gran : (s.peU i f).gran = s.gran := rfl
@[simp] theorem State.peU_pgran : (s.peU i f).pgran = s.pgran := rfl
@[simp] theorem State.peU_cores : (s.peU i f).cores = s.cores := rfl
@[simp] theorem State.peU_mems : (s.peU i f).mems = s.mems := rfl
@[simp] theorem State.peU_flaws : (s.peU i f).flaws = s.flaws := rfl
@[simp] theorem State.peU_engines : (s.peU i f).engines = s.engines := rfl
@[simp] theorem State.peU_keys : (s.peU i f).keys = s.keys := rfl
@[simp] theorem State.peU_fuses : (s.peU i f).fuses = s.fuses := rfl
@[simp] theorem State.peU_alarms : (s.peU i f).alarms = s.alarms := rfl
@[simp] theorem State.peU_backup : (s.peU i f).backup = s.backup := rfl
@[simp] theorem State.peU_log : (s.peU i f).log = s.log := rfl
@[simp] theorem State.peU_leave : (s.peU i f).leave = s.leave := rfl
@[simp] theorem State.peU_chans : (s.peU i f).chans = s.chans := rfl
@[simp] theorem State.peU_hand : (s.peU i f).hand = s.hand := rfl
@[simp] theorem State.peU_link : (s.peU i f).link = s.link := rfl
@[simp] theorem State.peU_mspi : (s.peU i f).mspi = s.mspi := rfl
@[simp] theorem State.peU_home : (s.peU i f).home = s.home := rfl
@[simp] theorem State.peU_linkOut : (s.peU i f).linkOut = s.linkOut := rfl
@[simp] theorem State.peU_cyc : (s.peU i f).cyc = s.cyc := rfl
@[simp] theorem State.peU_fresh : (s.peU i f).fresh = s.fresh := rfl
@[simp] theorem State.peU_pending : (s.peU i f).pending = s.pending := rfl
@[simp] theorem State.peU_ph : (s.peU i f).ph j = s.ph j := rfl
@[simp] theorem State.peU_st : (s.peU i f).st j = s.st j := rfl
@[simp] theorem State.peU_pw : (s.peU i f).pw j = s.pw j := rfl
@[simp] theorem State.peU_pd : (s.peU i f).pd j = s.pd j := rfl
@[simp] theorem State.peU_sh : (s.peU i f).sh j = s.sh j := rfl
@[simp] theorem State.peU_pk : (s.peU i f).pk j = s.pk j := rfl
@[simp] theorem State.peU_pv : (s.peU i f).pv j = s.pv j := rfl
@[simp] theorem State.peU_pg : (s.peU i f).pg j = s.pg j := rfl
@[simp] theorem State.peU_co : (s.peU i f).co j = s.co j := rfl
@[simp] theorem State.peU_en : (s.peU i f).en j = s.en j := rfl
@[simp] theorem State.peU_ch : (s.peU i f).ch j = s.ch j := rfl
@[simp] theorem State.peU_ln : (s.peU i f).ln j = s.ln j := rfl
@[simp] theorem State.peU_mb : (s.peU i f).mb j = s.mb j := rfl
@[simp] theorem State.peU_po : (s.peU i f).po j = s.po j := rfl
@[simp] theorem State.peU_ks : (s.peU i f).ks j = s.ks j := rfl
end

section
variable (i j : Nat) (f : PWin → PWin)
theorem State.pwU_pw : (s.pwU i f).pw j = if j = i then f (s.pw i) else s.pw j := Tab.get_upd _ _ _ _ _
@[simp] theorem State.pwU_pw_same : (s.pwU i f).pw i = f (s.pw i) := Tab.get_upd_same _ _ _ _
@[simp] theorem State.pwU_pw_ne (h : j ≠ i) : (s.pwU i f).pw j = s.pw j := Tab.get_upd_ne _ _ _ _ _ h
@[simp] theorem State.pwU_boot : (s.pwU i f).boot = s.boot := rfl
@[simp] theorem State.pwU_hold : (s.pwU i f).hold = s.hold := rfl
@[simp] theorem State.pwU_stands : (s.pwU i f).stands = s.stands := rfl
@[simp] theorem State.pwU_edge : (s.pwU i f).edge = s.edge := rfl
@[simp] theorem State.pwU_ctr : (s.pwU i f).ctr = s.ctr := rfl
@[simp] theorem State.pwU_dec : (s.pwU i f).dec = s.dec := rfl
@[simp] theorem State.pwU_sheaves : (s.pwU i f).sheaves = s.sheaves := rfl
@[simp] theorem State.pwU_rules : (s.pwU i f).rules = s.rules := rfl
@[simp] theorem State.pwU_wake : (s.pwU i f).wake = s.wake := rfl
@[simp] theorem State.pwU_wport : (s.pwU i f).wport = s.wport := rfl
@[simp] theorem State.pwU_verd : (s.pwU i f).verd = s.verd := rfl
@[simp] theorem State.pwU_gran : (s.pwU i f).gran = s.gran := rfl
@[simp] theorem State.pwU_pgran : (s.pwU i f).pgran = s.pgran := rfl
@[simp] theorem State.pwU_cores : (s.pwU i f).cores = s.cores := rfl
@[simp] theorem State.pwU_mems : (s.pwU i f).mems = s.mems := rfl
@[simp] theorem State.pwU_flaws : (s.pwU i f).flaws = s.flaws := rfl
@[simp] theorem State.pwU_engines : (s.pwU i f).engines = s.engines := rfl
@[simp] theorem State.pwU_keys : (s.pwU i f).keys = s.keys := rfl
@[simp] theorem State.pwU_fuses : (s.pwU i f).fuses = s.fuses := rfl
@[simp] theorem State.pwU_alarms : (s.pwU i f).alarms = s.alarms := rfl
@[simp] theorem State.pwU_backup : (s.pwU i f).backup = s.backup := rfl
@[simp] theorem State.pwU_log : (s.pwU i f).log = s.log := rfl
@[simp] theorem State.pwU_leave : (s.pwU i f).leave = s.leave := rfl
@[simp] theorem State.pwU_chans : (s.pwU i f).chans = s.chans := rfl
@[simp] theorem State.pwU_hand : (s.pwU i f).hand = s.hand := rfl
@[simp] theorem State.pwU_link : (s.pwU i f).link = s.link := rfl
@[simp] theorem State.pwU_mspi : (s.pwU i f).mspi = s.mspi := rfl
@[simp] theorem State.pwU_home : (s.pwU i f).home = s.home := rfl
@[simp] theorem State.pwU_linkOut : (s.pwU i f).linkOut = s.linkOut := rfl
@[simp] theorem State.pwU_cyc : (s.pwU i f).cyc = s.cyc := rfl
@[simp] theorem State.pwU_fresh : (s.pwU i f).fresh = s.fresh := rfl
@[simp] theorem State.pwU_pending : (s.pwU i f).pending = s.pending := rfl
@[simp] theorem State.pwU_ph : (s.pwU i f).ph j = s.ph j := rfl
@[simp] theorem State.pwU_st : (s.pwU i f).st j = s.st j := rfl
@[simp] theorem State.pwU_pe : (s.pwU i f).pe j = s.pe j := rfl
@[simp] theorem State.pwU_pd : (s.pwU i f).pd j = s.pd j := rfl
@[simp] theorem State.pwU_sh : (s.pwU i f).sh j = s.sh j := rfl
@[simp] theorem State.pwU_pk : (s.pwU i f).pk j = s.pk j := rfl
@[simp] theorem State.pwU_pv : (s.pwU i f).pv j = s.pv j := rfl
@[simp] theorem State.pwU_pg : (s.pwU i f).pg j = s.pg j := rfl
@[simp] theorem State.pwU_co : (s.pwU i f).co j = s.co j := rfl
@[simp] theorem State.pwU_en : (s.pwU i f).en j = s.en j := rfl
@[simp] theorem State.pwU_ch : (s.pwU i f).ch j = s.ch j := rfl
@[simp] theorem State.pwU_ln : (s.pwU i f).ln j = s.ln j := rfl
@[simp] theorem State.pwU_mb : (s.pwU i f).mb j = s.mb j := rfl
@[simp] theorem State.pwU_po : (s.pwU i f).po j = s.po j := rfl
@[simp] theorem State.pwU_ks : (s.pwU i f).ks j = s.ks j := rfl
end

section
variable (i j : Nat) (f : PDec → PDec)
theorem State.pdU_pd : (s.pdU i f).pd j = if j = i then f (s.pd i) else s.pd j := Tab.get_upd _ _ _ _ _
@[simp] theorem State.pdU_pd_same : (s.pdU i f).pd i = f (s.pd i) := Tab.get_upd_same _ _ _ _
@[simp] theorem State.pdU_pd_ne (h : j ≠ i) : (s.pdU i f).pd j = s.pd j := Tab.get_upd_ne _ _ _ _ _ h
@[simp] theorem State.pdU_boot : (s.pdU i f).boot = s.boot := rfl
@[simp] theorem State.pdU_hold : (s.pdU i f).hold = s.hold := rfl
@[simp] theorem State.pdU_stands : (s.pdU i f).stands = s.stands := rfl
@[simp] theorem State.pdU_edge : (s.pdU i f).edge = s.edge := rfl
@[simp] theorem State.pdU_ctr : (s.pdU i f).ctr = s.ctr := rfl
@[simp] theorem State.pdU_win : (s.pdU i f).win = s.win := rfl
@[simp] theorem State.pdU_sheaves : (s.pdU i f).sheaves = s.sheaves := rfl
@[simp] theorem State.pdU_rules : (s.pdU i f).rules = s.rules := rfl
@[simp] theorem State.pdU_wake : (s.pdU i f).wake = s.wake := rfl
@[simp] theorem State.pdU_wport : (s.pdU i f).wport = s.wport := rfl
@[simp] theorem State.pdU_verd : (s.pdU i f).verd = s.verd := rfl
@[simp] theorem State.pdU_gran : (s.pdU i f).gran = s.gran := rfl
@[simp] theorem State.pdU_pgran : (s.pdU i f).pgran = s.pgran := rfl
@[simp] theorem State.pdU_cores : (s.pdU i f).cores = s.cores := rfl
@[simp] theorem State.pdU_mems : (s.pdU i f).mems = s.mems := rfl
@[simp] theorem State.pdU_flaws : (s.pdU i f).flaws = s.flaws := rfl
@[simp] theorem State.pdU_engines : (s.pdU i f).engines = s.engines := rfl
@[simp] theorem State.pdU_keys : (s.pdU i f).keys = s.keys := rfl
@[simp] theorem State.pdU_fuses : (s.pdU i f).fuses = s.fuses := rfl
@[simp] theorem State.pdU_alarms : (s.pdU i f).alarms = s.alarms := rfl
@[simp] theorem State.pdU_backup : (s.pdU i f).backup = s.backup := rfl
@[simp] theorem State.pdU_log : (s.pdU i f).log = s.log := rfl
@[simp] theorem State.pdU_leave : (s.pdU i f).leave = s.leave := rfl
@[simp] theorem State.pdU_chans : (s.pdU i f).chans = s.chans := rfl
@[simp] theorem State.pdU_hand : (s.pdU i f).hand = s.hand := rfl
@[simp] theorem State.pdU_link : (s.pdU i f).link = s.link := rfl
@[simp] theorem State.pdU_mspi : (s.pdU i f).mspi = s.mspi := rfl
@[simp] theorem State.pdU_home : (s.pdU i f).home = s.home := rfl
@[simp] theorem State.pdU_linkOut : (s.pdU i f).linkOut = s.linkOut := rfl
@[simp] theorem State.pdU_cyc : (s.pdU i f).cyc = s.cyc := rfl
@[simp] theorem State.pdU_fresh : (s.pdU i f).fresh = s.fresh := rfl
@[simp] theorem State.pdU_pending : (s.pdU i f).pending = s.pending := rfl
@[simp] theorem State.pdU_ph : (s.pdU i f).ph j = s.ph j := rfl
@[simp] theorem State.pdU_st : (s.pdU i f).st j = s.st j := rfl
@[simp] theorem State.pdU_pe : (s.pdU i f).pe j = s.pe j := rfl
@[simp] theorem State.pdU_pw : (s.pdU i f).pw j = s.pw j := rfl
@[simp] theorem State.pdU_sh : (s.pdU i f).sh j = s.sh j := rfl
@[simp] theorem State.pdU_pk : (s.pdU i f).pk j = s.pk j := rfl
@[simp] theorem State.pdU_pv : (s.pdU i f).pv j = s.pv j := rfl
@[simp] theorem State.pdU_pg : (s.pdU i f).pg j = s.pg j := rfl
@[simp] theorem State.pdU_co : (s.pdU i f).co j = s.co j := rfl
@[simp] theorem State.pdU_en : (s.pdU i f).en j = s.en j := rfl
@[simp] theorem State.pdU_ch : (s.pdU i f).ch j = s.ch j := rfl
@[simp] theorem State.pdU_ln : (s.pdU i f).ln j = s.ln j := rfl
@[simp] theorem State.pdU_mb : (s.pdU i f).mb j = s.mb j := rfl
@[simp] theorem State.pdU_po : (s.pdU i f).po j = s.po j := rfl
@[simp] theorem State.pdU_ks : (s.pdU i f).ks j = s.ks j := rfl
end

section
variable (i j : Nat) (f : Sheaf → Sheaf)
theorem State.shU_sh : (s.shU i f).sh j = if j = i then f (s.sh i) else s.sh j := Tab.get_upd _ _ _ _ _
@[simp] theorem State.shU_sh_same : (s.shU i f).sh i = f (s.sh i) := Tab.get_upd_same _ _ _ _
@[simp] theorem State.shU_sh_ne (h : j ≠ i) : (s.shU i f).sh j = s.sh j := Tab.get_upd_ne _ _ _ _ _ h
@[simp] theorem State.shU_boot : (s.shU i f).boot = s.boot := rfl
@[simp] theorem State.shU_hold : (s.shU i f).hold = s.hold := rfl
@[simp] theorem State.shU_stands : (s.shU i f).stands = s.stands := rfl
@[simp] theorem State.shU_edge : (s.shU i f).edge = s.edge := rfl
@[simp] theorem State.shU_ctr : (s.shU i f).ctr = s.ctr := rfl
@[simp] theorem State.shU_win : (s.shU i f).win = s.win := rfl
@[simp] theorem State.shU_dec : (s.shU i f).dec = s.dec := rfl
@[simp] theorem State.shU_rules : (s.shU i f).rules = s.rules := rfl
@[simp] theorem State.shU_wake : (s.shU i f).wake = s.wake := rfl
@[simp] theorem State.shU_wport : (s.shU i f).wport = s.wport := rfl
@[simp] theorem State.shU_verd : (s.shU i f).verd = s.verd := rfl
@[simp] theorem State.shU_gran : (s.shU i f).gran = s.gran := rfl
@[simp] theorem State.shU_pgran : (s.shU i f).pgran = s.pgran := rfl
@[simp] theorem State.shU_cores : (s.shU i f).cores = s.cores := rfl
@[simp] theorem State.shU_mems : (s.shU i f).mems = s.mems := rfl
@[simp] theorem State.shU_flaws : (s.shU i f).flaws = s.flaws := rfl
@[simp] theorem State.shU_engines : (s.shU i f).engines = s.engines := rfl
@[simp] theorem State.shU_keys : (s.shU i f).keys = s.keys := rfl
@[simp] theorem State.shU_fuses : (s.shU i f).fuses = s.fuses := rfl
@[simp] theorem State.shU_alarms : (s.shU i f).alarms = s.alarms := rfl
@[simp] theorem State.shU_backup : (s.shU i f).backup = s.backup := rfl
@[simp] theorem State.shU_log : (s.shU i f).log = s.log := rfl
@[simp] theorem State.shU_leave : (s.shU i f).leave = s.leave := rfl
@[simp] theorem State.shU_chans : (s.shU i f).chans = s.chans := rfl
@[simp] theorem State.shU_hand : (s.shU i f).hand = s.hand := rfl
@[simp] theorem State.shU_link : (s.shU i f).link = s.link := rfl
@[simp] theorem State.shU_mspi : (s.shU i f).mspi = s.mspi := rfl
@[simp] theorem State.shU_home : (s.shU i f).home = s.home := rfl
@[simp] theorem State.shU_linkOut : (s.shU i f).linkOut = s.linkOut := rfl
@[simp] theorem State.shU_cyc : (s.shU i f).cyc = s.cyc := rfl
@[simp] theorem State.shU_fresh : (s.shU i f).fresh = s.fresh := rfl
@[simp] theorem State.shU_pending : (s.shU i f).pending = s.pending := rfl
@[simp] theorem State.shU_ph : (s.shU i f).ph j = s.ph j := rfl
@[simp] theorem State.shU_st : (s.shU i f).st j = s.st j := rfl
@[simp] theorem State.shU_pe : (s.shU i f).pe j = s.pe j := rfl
@[simp] theorem State.shU_pw : (s.shU i f).pw j = s.pw j := rfl
@[simp] theorem State.shU_pd : (s.shU i f).pd j = s.pd j := rfl
@[simp] theorem State.shU_pk : (s.shU i f).pk j = s.pk j := rfl
@[simp] theorem State.shU_pv : (s.shU i f).pv j = s.pv j := rfl
@[simp] theorem State.shU_pg : (s.shU i f).pg j = s.pg j := rfl
@[simp] theorem State.shU_co : (s.shU i f).co j = s.co j := rfl
@[simp] theorem State.shU_en : (s.shU i f).en j = s.en j := rfl
@[simp] theorem State.shU_ch : (s.shU i f).ch j = s.ch j := rfl
@[simp] theorem State.shU_ln : (s.shU i f).ln j = s.ln j := rfl
@[simp] theorem State.shU_mb : (s.shU i f).mb j = s.mb j := rfl
@[simp] theorem State.shU_po : (s.shU i f).po j = s.po j := rfl
@[simp] theorem State.shU_ks : (s.shU i f).ks j = s.ks j := rfl
end

section
variable (i j : Nat) (f : PWake → PWake)
theorem State.pkU_pk : (s.pkU i f).pk j = if j = i then f (s.pk i) else s.pk j := Tab.get_upd _ _ _ _ _
@[simp] theorem State.pkU_pk_same : (s.pkU i f).pk i = f (s.pk i) := Tab.get_upd_same _ _ _ _
@[simp] theorem State.pkU_pk_ne (h : j ≠ i) : (s.pkU i f).pk j = s.pk j := Tab.get_upd_ne _ _ _ _ _ h
@[simp] theorem State.pkU_boot : (s.pkU i f).boot = s.boot := rfl
@[simp] theorem State.pkU_hold : (s.pkU i f).hold = s.hold := rfl
@[simp] theorem State.pkU_stands : (s.pkU i f).stands = s.stands := rfl
@[simp] theorem State.pkU_edge : (s.pkU i f).edge = s.edge := rfl
@[simp] theorem State.pkU_ctr : (s.pkU i f).ctr = s.ctr := rfl
@[simp] theorem State.pkU_win : (s.pkU i f).win = s.win := rfl
@[simp] theorem State.pkU_dec : (s.pkU i f).dec = s.dec := rfl
@[simp] theorem State.pkU_sheaves : (s.pkU i f).sheaves = s.sheaves := rfl
@[simp] theorem State.pkU_rules : (s.pkU i f).rules = s.rules := rfl
@[simp] theorem State.pkU_wake : (s.pkU i f).wake = s.wake := rfl
@[simp] theorem State.pkU_verd : (s.pkU i f).verd = s.verd := rfl
@[simp] theorem State.pkU_gran : (s.pkU i f).gran = s.gran := rfl
@[simp] theorem State.pkU_pgran : (s.pkU i f).pgran = s.pgran := rfl
@[simp] theorem State.pkU_cores : (s.pkU i f).cores = s.cores := rfl
@[simp] theorem State.pkU_mems : (s.pkU i f).mems = s.mems := rfl
@[simp] theorem State.pkU_flaws : (s.pkU i f).flaws = s.flaws := rfl
@[simp] theorem State.pkU_engines : (s.pkU i f).engines = s.engines := rfl
@[simp] theorem State.pkU_keys : (s.pkU i f).keys = s.keys := rfl
@[simp] theorem State.pkU_fuses : (s.pkU i f).fuses = s.fuses := rfl
@[simp] theorem State.pkU_alarms : (s.pkU i f).alarms = s.alarms := rfl
@[simp] theorem State.pkU_backup : (s.pkU i f).backup = s.backup := rfl
@[simp] theorem State.pkU_log : (s.pkU i f).log = s.log := rfl
@[simp] theorem State.pkU_leave : (s.pkU i f).leave = s.leave := rfl
@[simp] theorem State.pkU_chans : (s.pkU i f).chans = s.chans := rfl
@[simp] theorem State.pkU_hand : (s.pkU i f).hand = s.hand := rfl
@[simp] theorem State.pkU_link : (s.pkU i f).link = s.link := rfl
@[simp] theorem State.pkU_mspi : (s.pkU i f).mspi = s.mspi := rfl
@[simp] theorem State.pkU_home : (s.pkU i f).home = s.home := rfl
@[simp] theorem State.pkU_linkOut : (s.pkU i f).linkOut = s.linkOut := rfl
@[simp] theorem State.pkU_cyc : (s.pkU i f).cyc = s.cyc := rfl
@[simp] theorem State.pkU_fresh : (s.pkU i f).fresh = s.fresh := rfl
@[simp] theorem State.pkU_pending : (s.pkU i f).pending = s.pending := rfl
@[simp] theorem State.pkU_ph : (s.pkU i f).ph j = s.ph j := rfl
@[simp] theorem State.pkU_st : (s.pkU i f).st j = s.st j := rfl
@[simp] theorem State.pkU_pe : (s.pkU i f).pe j = s.pe j := rfl
@[simp] theorem State.pkU_pw : (s.pkU i f).pw j = s.pw j := rfl
@[simp] theorem State.pkU_pd : (s.pkU i f).pd j = s.pd j := rfl
@[simp] theorem State.pkU_sh : (s.pkU i f).sh j = s.sh j := rfl
@[simp] theorem State.pkU_pv : (s.pkU i f).pv j = s.pv j := rfl
@[simp] theorem State.pkU_pg : (s.pkU i f).pg j = s.pg j := rfl
@[simp] theorem State.pkU_co : (s.pkU i f).co j = s.co j := rfl
@[simp] theorem State.pkU_en : (s.pkU i f).en j = s.en j := rfl
@[simp] theorem State.pkU_ch : (s.pkU i f).ch j = s.ch j := rfl
@[simp] theorem State.pkU_ln : (s.pkU i f).ln j = s.ln j := rfl
@[simp] theorem State.pkU_mb : (s.pkU i f).mb j = s.mb j := rfl
@[simp] theorem State.pkU_po : (s.pkU i f).po j = s.po j := rfl
@[simp] theorem State.pkU_ks : (s.pkU i f).ks j = s.ks j := rfl
end

section
variable (i j : Nat) (f : PVerd → PVerd)
theorem State.pvU_pv : (s.pvU i f).pv j = if j = i then f (s.pv i) else s.pv j := Tab.get_upd _ _ _ _ _
@[simp] theorem State.pvU_pv_same : (s.pvU i f).pv i = f (s.pv i) := Tab.get_upd_same _ _ _ _
@[simp] theorem State.pvU_pv_ne (h : j ≠ i) : (s.pvU i f).pv j = s.pv j := Tab.get_upd_ne _ _ _ _ _ h
@[simp] theorem State.pvU_boot : (s.pvU i f).boot = s.boot := rfl
@[simp] theorem State.pvU_hold : (s.pvU i f).hold = s.hold := rfl
@[simp] theorem State.pvU_stands : (s.pvU i f).stands = s.stands := rfl
@[simp] theorem State.pvU_edge : (s.pvU i f).edge = s.edge := rfl
@[simp] theorem State.pvU_ctr : (s.pvU i f).ctr = s.ctr := rfl
@[simp] theorem State.pvU_win : (s.pvU i f).win = s.win := rfl
@[simp] theorem State.pvU_dec : (s.pvU i f).dec = s.dec := rfl
@[simp] theorem State.pvU_sheaves : (s.pvU i f).sheaves = s.sheaves := rfl
@[simp] theorem State.pvU_rules : (s.pvU i f).rules = s.rules := rfl
@[simp] theorem State.pvU_wake : (s.pvU i f).wake = s.wake := rfl
@[simp] theorem State.pvU_wport : (s.pvU i f).wport = s.wport := rfl
@[simp] theorem State.pvU_gran : (s.pvU i f).gran = s.gran := rfl
@[simp] theorem State.pvU_pgran : (s.pvU i f).pgran = s.pgran := rfl
@[simp] theorem State.pvU_cores : (s.pvU i f).cores = s.cores := rfl
@[simp] theorem State.pvU_mems : (s.pvU i f).mems = s.mems := rfl
@[simp] theorem State.pvU_flaws : (s.pvU i f).flaws = s.flaws := rfl
@[simp] theorem State.pvU_engines : (s.pvU i f).engines = s.engines := rfl
@[simp] theorem State.pvU_keys : (s.pvU i f).keys = s.keys := rfl
@[simp] theorem State.pvU_fuses : (s.pvU i f).fuses = s.fuses := rfl
@[simp] theorem State.pvU_alarms : (s.pvU i f).alarms = s.alarms := rfl
@[simp] theorem State.pvU_backup : (s.pvU i f).backup = s.backup := rfl
@[simp] theorem State.pvU_log : (s.pvU i f).log = s.log := rfl
@[simp] theorem State.pvU_leave : (s.pvU i f).leave = s.leave := rfl
@[simp] theorem State.pvU_chans : (s.pvU i f).chans = s.chans := rfl
@[simp] theorem State.pvU_hand : (s.pvU i f).hand = s.hand := rfl
@[simp] theorem State.pvU_link : (s.pvU i f).link = s.link := rfl
@[simp] theorem State.pvU_mspi : (s.pvU i f).mspi = s.mspi := rfl
@[simp] theorem State.pvU_home : (s.pvU i f).home = s.home := rfl
@[simp] theorem State.pvU_linkOut : (s.pvU i f).linkOut = s.linkOut := rfl
@[simp] theorem State.pvU_cyc : (s.pvU i f).cyc = s.cyc := rfl
@[simp] theorem State.pvU_fresh : (s.pvU i f).fresh = s.fresh := rfl
@[simp] theorem State.pvU_pending : (s.pvU i f).pending = s.pending := rfl
@[simp] theorem State.pvU_ph : (s.pvU i f).ph j = s.ph j := rfl
@[simp] theorem State.pvU_st : (s.pvU i f).st j = s.st j := rfl
@[simp] theorem State.pvU_pe : (s.pvU i f).pe j = s.pe j := rfl
@[simp] theorem State.pvU_pw : (s.pvU i f).pw j = s.pw j := rfl
@[simp] theorem State.pvU_pd : (s.pvU i f).pd j = s.pd j := rfl
@[simp] theorem State.pvU_sh : (s.pvU i f).sh j = s.sh j := rfl
@[simp] theorem State.pvU_pk : (s.pvU i f).pk j = s.pk j := rfl
@[simp] theorem State.pvU_pg : (s.pvU i f).pg j = s.pg j := rfl
@[simp] theorem State.pvU_co : (s.pvU i f).co j = s.co j := rfl
@[simp] theorem State.pvU_en : (s.pvU i f).en j = s.en j := rfl
@[simp] theorem State.pvU_ch : (s.pvU i f).ch j = s.ch j := rfl
@[simp] theorem State.pvU_ln : (s.pvU i f).ln j = s.ln j := rfl
@[simp] theorem State.pvU_mb : (s.pvU i f).mb j = s.mb j := rfl
@[simp] theorem State.pvU_po : (s.pvU i f).po j = s.po j := rfl
@[simp] theorem State.pvU_ks : (s.pvU i f).ks j = s.ks j := rfl
end

section
variable (i j : Nat) (f : PGran → PGran)
theorem State.pgU_pg : (s.pgU i f).pg j = if j = i then f (s.pg i) else s.pg j := Tab.get_upd _ _ _ _ _
@[simp] theorem State.pgU_pg_same : (s.pgU i f).pg i = f (s.pg i) := Tab.get_upd_same _ _ _ _
@[simp] theorem State.pgU_pg_ne (h : j ≠ i) : (s.pgU i f).pg j = s.pg j := Tab.get_upd_ne _ _ _ _ _ h
@[simp] theorem State.pgU_boot : (s.pgU i f).boot = s.boot := rfl
@[simp] theorem State.pgU_hold : (s.pgU i f).hold = s.hold := rfl
@[simp] theorem State.pgU_stands : (s.pgU i f).stands = s.stands := rfl
@[simp] theorem State.pgU_edge : (s.pgU i f).edge = s.edge := rfl
@[simp] theorem State.pgU_ctr : (s.pgU i f).ctr = s.ctr := rfl
@[simp] theorem State.pgU_win : (s.pgU i f).win = s.win := rfl
@[simp] theorem State.pgU_dec : (s.pgU i f).dec = s.dec := rfl
@[simp] theorem State.pgU_sheaves : (s.pgU i f).sheaves = s.sheaves := rfl
@[simp] theorem State.pgU_rules : (s.pgU i f).rules = s.rules := rfl
@[simp] theorem State.pgU_wake : (s.pgU i f).wake = s.wake := rfl
@[simp] theorem State.pgU_wport : (s.pgU i f).wport = s.wport := rfl
@[simp] theorem State.pgU_verd : (s.pgU i f).verd = s.verd := rfl
@[simp] theorem State.pgU_gran : (s.pgU i f).gran = s.gran := rfl
@[simp] theorem State.pgU_cores : (s.pgU i f).cores = s.cores := rfl
@[simp] theorem State.pgU_mems : (s.pgU i f).mems = s.mems := rfl
@[simp] theorem State.pgU_flaws : (s.pgU i f).flaws = s.flaws := rfl
@[simp] theorem State.pgU_engines : (s.pgU i f).engines = s.engines := rfl
@[simp] theorem State.pgU_keys : (s.pgU i f).keys = s.keys := rfl
@[simp] theorem State.pgU_fuses : (s.pgU i f).fuses = s.fuses := rfl
@[simp] theorem State.pgU_alarms : (s.pgU i f).alarms = s.alarms := rfl
@[simp] theorem State.pgU_backup : (s.pgU i f).backup = s.backup := rfl
@[simp] theorem State.pgU_log : (s.pgU i f).log = s.log := rfl
@[simp] theorem State.pgU_leave : (s.pgU i f).leave = s.leave := rfl
@[simp] theorem State.pgU_chans : (s.pgU i f).chans = s.chans := rfl
@[simp] theorem State.pgU_hand : (s.pgU i f).hand = s.hand := rfl
@[simp] theorem State.pgU_link : (s.pgU i f).link = s.link := rfl
@[simp] theorem State.pgU_mspi : (s.pgU i f).mspi = s.mspi := rfl
@[simp] theorem State.pgU_home : (s.pgU i f).home = s.home := rfl
@[simp] theorem State.pgU_linkOut : (s.pgU i f).linkOut = s.linkOut := rfl
@[simp] theorem State.pgU_cyc : (s.pgU i f).cyc = s.cyc := rfl
@[simp] theorem State.pgU_fresh : (s.pgU i f).fresh = s.fresh := rfl
@[simp] theorem State.pgU_pending : (s.pgU i f).pending = s.pending := rfl
@[simp] theorem State.pgU_ph : (s.pgU i f).ph j = s.ph j := rfl
@[simp] theorem State.pgU_st : (s.pgU i f).st j = s.st j := rfl
@[simp] theorem State.pgU_pe : (s.pgU i f).pe j = s.pe j := rfl
@[simp] theorem State.pgU_pw : (s.pgU i f).pw j = s.pw j := rfl
@[simp] theorem State.pgU_pd : (s.pgU i f).pd j = s.pd j := rfl
@[simp] theorem State.pgU_sh : (s.pgU i f).sh j = s.sh j := rfl
@[simp] theorem State.pgU_pk : (s.pgU i f).pk j = s.pk j := rfl
@[simp] theorem State.pgU_pv : (s.pgU i f).pv j = s.pv j := rfl
@[simp] theorem State.pgU_co : (s.pgU i f).co j = s.co j := rfl
@[simp] theorem State.pgU_en : (s.pgU i f).en j = s.en j := rfl
@[simp] theorem State.pgU_ch : (s.pgU i f).ch j = s.ch j := rfl
@[simp] theorem State.pgU_ln : (s.pgU i f).ln j = s.ln j := rfl
@[simp] theorem State.pgU_mb : (s.pgU i f).mb j = s.mb j := rfl
@[simp] theorem State.pgU_po : (s.pgU i f).po j = s.po j := rfl
@[simp] theorem State.pgU_ks : (s.pgU i f).ks j = s.ks j := rfl
end

section
variable (i j : Nat) (f : Core → Core)
theorem State.coU_co : (s.coU i f).co j = if j = i then f (s.co i) else s.co j := Tab.get_upd _ _ _ _ _
@[simp] theorem State.coU_co_same : (s.coU i f).co i = f (s.co i) := Tab.get_upd_same _ _ _ _
@[simp] theorem State.coU_co_ne (h : j ≠ i) : (s.coU i f).co j = s.co j := Tab.get_upd_ne _ _ _ _ _ h
@[simp] theorem State.coU_boot : (s.coU i f).boot = s.boot := rfl
@[simp] theorem State.coU_hold : (s.coU i f).hold = s.hold := rfl
@[simp] theorem State.coU_stands : (s.coU i f).stands = s.stands := rfl
@[simp] theorem State.coU_edge : (s.coU i f).edge = s.edge := rfl
@[simp] theorem State.coU_ctr : (s.coU i f).ctr = s.ctr := rfl
@[simp] theorem State.coU_win : (s.coU i f).win = s.win := rfl
@[simp] theorem State.coU_dec : (s.coU i f).dec = s.dec := rfl
@[simp] theorem State.coU_sheaves : (s.coU i f).sheaves = s.sheaves := rfl
@[simp] theorem State.coU_rules : (s.coU i f).rules = s.rules := rfl
@[simp] theorem State.coU_wake : (s.coU i f).wake = s.wake := rfl
@[simp] theorem State.coU_wport : (s.coU i f).wport = s.wport := rfl
@[simp] theorem State.coU_verd : (s.coU i f).verd = s.verd := rfl
@[simp] theorem State.coU_gran : (s.coU i f).gran = s.gran := rfl
@[simp] theorem State.coU_pgran : (s.coU i f).pgran = s.pgran := rfl
@[simp] theorem State.coU_mems : (s.coU i f).mems = s.mems := rfl
@[simp] theorem State.coU_flaws : (s.coU i f).flaws = s.flaws := rfl
@[simp] theorem State.coU_engines : (s.coU i f).engines = s.engines := rfl
@[simp] theorem State.coU_keys : (s.coU i f).keys = s.keys := rfl
@[simp] theorem State.coU_fuses : (s.coU i f).fuses = s.fuses := rfl
@[simp] theorem State.coU_alarms : (s.coU i f).alarms = s.alarms := rfl
@[simp] theorem State.coU_backup : (s.coU i f).backup = s.backup := rfl
@[simp] theorem State.coU_log : (s.coU i f).log = s.log := rfl
@[simp] theorem State.coU_leave : (s.coU i f).leave = s.leave := rfl
@[simp] theorem State.coU_chans : (s.coU i f).chans = s.chans := rfl
@[simp] theorem State.coU_hand : (s.coU i f).hand = s.hand := rfl
@[simp] theorem State.coU_link : (s.coU i f).link = s.link := rfl
@[simp] theorem State.coU_mspi : (s.coU i f).mspi = s.mspi := rfl
@[simp] theorem State.coU_home : (s.coU i f).home = s.home := rfl
@[simp] theorem State.coU_linkOut : (s.coU i f).linkOut = s.linkOut := rfl
@[simp] theorem State.coU_cyc : (s.coU i f).cyc = s.cyc := rfl
@[simp] theorem State.coU_fresh : (s.coU i f).fresh = s.fresh := rfl
@[simp] theorem State.coU_pending : (s.coU i f).pending = s.pending := rfl
@[simp] theorem State.coU_ph : (s.coU i f).ph j = s.ph j := rfl
@[simp] theorem State.coU_st : (s.coU i f).st j = s.st j := rfl
@[simp] theorem State.coU_pe : (s.coU i f).pe j = s.pe j := rfl
@[simp] theorem State.coU_pw : (s.coU i f).pw j = s.pw j := rfl
@[simp] theorem State.coU_pd : (s.coU i f).pd j = s.pd j := rfl
@[simp] theorem State.coU_sh : (s.coU i f).sh j = s.sh j := rfl
@[simp] theorem State.coU_pk : (s.coU i f).pk j = s.pk j := rfl
@[simp] theorem State.coU_pv : (s.coU i f).pv j = s.pv j := rfl
@[simp] theorem State.coU_pg : (s.coU i f).pg j = s.pg j := rfl
@[simp] theorem State.coU_en : (s.coU i f).en j = s.en j := rfl
@[simp] theorem State.coU_ch : (s.coU i f).ch j = s.ch j := rfl
@[simp] theorem State.coU_ln : (s.coU i f).ln j = s.ln j := rfl
@[simp] theorem State.coU_mb : (s.coU i f).mb j = s.mb j := rfl
@[simp] theorem State.coU_po : (s.coU i f).po j = s.po j := rfl
@[simp] theorem State.coU_ks : (s.coU i f).ks j = s.ks j := rfl
end

section
variable (i j : Nat) (f : Engine → Engine)
theorem State.enU_en : (s.enU i f).en j = if j = i then f (s.en i) else s.en j := Tab.get_upd _ _ _ _ _
@[simp] theorem State.enU_en_same : (s.enU i f).en i = f (s.en i) := Tab.get_upd_same _ _ _ _
@[simp] theorem State.enU_en_ne (h : j ≠ i) : (s.enU i f).en j = s.en j := Tab.get_upd_ne _ _ _ _ _ h
@[simp] theorem State.enU_boot : (s.enU i f).boot = s.boot := rfl
@[simp] theorem State.enU_hold : (s.enU i f).hold = s.hold := rfl
@[simp] theorem State.enU_stands : (s.enU i f).stands = s.stands := rfl
@[simp] theorem State.enU_edge : (s.enU i f).edge = s.edge := rfl
@[simp] theorem State.enU_ctr : (s.enU i f).ctr = s.ctr := rfl
@[simp] theorem State.enU_win : (s.enU i f).win = s.win := rfl
@[simp] theorem State.enU_dec : (s.enU i f).dec = s.dec := rfl
@[simp] theorem State.enU_sheaves : (s.enU i f).sheaves = s.sheaves := rfl
@[simp] theorem State.enU_rules : (s.enU i f).rules = s.rules := rfl
@[simp] theorem State.enU_wake : (s.enU i f).wake = s.wake := rfl
@[simp] theorem State.enU_wport : (s.enU i f).wport = s.wport := rfl
@[simp] theorem State.enU_verd : (s.enU i f).verd = s.verd := rfl
@[simp] theorem State.enU_gran : (s.enU i f).gran = s.gran := rfl
@[simp] theorem State.enU_pgran : (s.enU i f).pgran = s.pgran := rfl
@[simp] theorem State.enU_cores : (s.enU i f).cores = s.cores := rfl
@[simp] theorem State.enU_mems : (s.enU i f).mems = s.mems := rfl
@[simp] theorem State.enU_flaws : (s.enU i f).flaws = s.flaws := rfl
@[simp] theorem State.enU_keys : (s.enU i f).keys = s.keys := rfl
@[simp] theorem State.enU_fuses : (s.enU i f).fuses = s.fuses := rfl
@[simp] theorem State.enU_alarms : (s.enU i f).alarms = s.alarms := rfl
@[simp] theorem State.enU_backup : (s.enU i f).backup = s.backup := rfl
@[simp] theorem State.enU_log : (s.enU i f).log = s.log := rfl
@[simp] theorem State.enU_leave : (s.enU i f).leave = s.leave := rfl
@[simp] theorem State.enU_chans : (s.enU i f).chans = s.chans := rfl
@[simp] theorem State.enU_hand : (s.enU i f).hand = s.hand := rfl
@[simp] theorem State.enU_link : (s.enU i f).link = s.link := rfl
@[simp] theorem State.enU_mspi : (s.enU i f).mspi = s.mspi := rfl
@[simp] theorem State.enU_home : (s.enU i f).home = s.home := rfl
@[simp] theorem State.enU_linkOut : (s.enU i f).linkOut = s.linkOut := rfl
@[simp] theorem State.enU_cyc : (s.enU i f).cyc = s.cyc := rfl
@[simp] theorem State.enU_fresh : (s.enU i f).fresh = s.fresh := rfl
@[simp] theorem State.enU_pending : (s.enU i f).pending = s.pending := rfl
@[simp] theorem State.enU_ph : (s.enU i f).ph j = s.ph j := rfl
@[simp] theorem State.enU_st : (s.enU i f).st j = s.st j := rfl
@[simp] theorem State.enU_pe : (s.enU i f).pe j = s.pe j := rfl
@[simp] theorem State.enU_pw : (s.enU i f).pw j = s.pw j := rfl
@[simp] theorem State.enU_pd : (s.enU i f).pd j = s.pd j := rfl
@[simp] theorem State.enU_sh : (s.enU i f).sh j = s.sh j := rfl
@[simp] theorem State.enU_pk : (s.enU i f).pk j = s.pk j := rfl
@[simp] theorem State.enU_pv : (s.enU i f).pv j = s.pv j := rfl
@[simp] theorem State.enU_pg : (s.enU i f).pg j = s.pg j := rfl
@[simp] theorem State.enU_co : (s.enU i f).co j = s.co j := rfl
@[simp] theorem State.enU_ch : (s.enU i f).ch j = s.ch j := rfl
@[simp] theorem State.enU_ln : (s.enU i f).ln j = s.ln j := rfl
@[simp] theorem State.enU_mb : (s.enU i f).mb j = s.mb j := rfl
@[simp] theorem State.enU_po : (s.enU i f).po j = s.po j := rfl
@[simp] theorem State.enU_ks : (s.enU i f).ks j = s.ks j := rfl
end

section
variable (i j : Nat) (f : Chan → Chan)
theorem State.chU_ch : (s.chU i f).ch j = if j = i then f (s.ch i) else s.ch j := Tab.get_upd _ _ _ _ _
@[simp] theorem State.chU_ch_same : (s.chU i f).ch i = f (s.ch i) := Tab.get_upd_same _ _ _ _
@[simp] theorem State.chU_ch_ne (h : j ≠ i) : (s.chU i f).ch j = s.ch j := Tab.get_upd_ne _ _ _ _ _ h
@[simp] theorem State.chU_boot : (s.chU i f).boot = s.boot := rfl
@[simp] theorem State.chU_hold : (s.chU i f).hold = s.hold := rfl
@[simp] theorem State.chU_stands : (s.chU i f).stands = s.stands := rfl
@[simp] theorem State.chU_edge : (s.chU i f).edge = s.edge := rfl
@[simp] theorem State.chU_ctr : (s.chU i f).ctr = s.ctr := rfl
@[simp] theorem State.chU_win : (s.chU i f).win = s.win := rfl
@[simp] theorem State.chU_dec : (s.chU i f).dec = s.dec := rfl
@[simp] theorem State.chU_sheaves : (s.chU i f).sheaves = s.sheaves := rfl
@[simp] theorem State.chU_rules : (s.chU i f).rules = s.rules := rfl
@[simp] theorem State.chU_wake : (s.chU i f).wake = s.wake := rfl
@[simp] theorem State.chU_wport : (s.chU i f).wport = s.wport := rfl
@[simp] theorem State.chU_verd : (s.chU i f).verd = s.verd := rfl
@[simp] theorem State.chU_gran : (s.chU i f).gran = s.gran := rfl
@[simp] theorem State.chU_pgran : (s.chU i f).pgran = s.pgran := rfl
@[simp] theorem State.chU_cores : (s.chU i f).cores = s.cores := rfl
@[simp] theorem State.chU_mems : (s.chU i f).mems = s.mems := rfl
@[simp] theorem State.chU_flaws : (s.chU i f).flaws = s.flaws := rfl
@[simp] theorem State.chU_engines : (s.chU i f).engines = s.engines := rfl
@[simp] theorem State.chU_keys : (s.chU i f).keys = s.keys := rfl
@[simp] theorem State.chU_fuses : (s.chU i f).fuses = s.fuses := rfl
@[simp] theorem State.chU_alarms : (s.chU i f).alarms = s.alarms := rfl
@[simp] theorem State.chU_backup : (s.chU i f).backup = s.backup := rfl
@[simp] theorem State.chU_log : (s.chU i f).log = s.log := rfl
@[simp] theorem State.chU_leave : (s.chU i f).leave = s.leave := rfl
@[simp] theorem State.chU_hand : (s.chU i f).hand = s.hand := rfl
@[simp] theorem State.chU_link : (s.chU i f).link = s.link := rfl
@[simp] theorem State.chU_mspi : (s.chU i f).mspi = s.mspi := rfl
@[simp] theorem State.chU_home : (s.chU i f).home = s.home := rfl
@[simp] theorem State.chU_linkOut : (s.chU i f).linkOut = s.linkOut := rfl
@[simp] theorem State.chU_cyc : (s.chU i f).cyc = s.cyc := rfl
@[simp] theorem State.chU_fresh : (s.chU i f).fresh = s.fresh := rfl
@[simp] theorem State.chU_pending : (s.chU i f).pending = s.pending := rfl
@[simp] theorem State.chU_ph : (s.chU i f).ph j = s.ph j := rfl
@[simp] theorem State.chU_st : (s.chU i f).st j = s.st j := rfl
@[simp] theorem State.chU_pe : (s.chU i f).pe j = s.pe j := rfl
@[simp] theorem State.chU_pw : (s.chU i f).pw j = s.pw j := rfl
@[simp] theorem State.chU_pd : (s.chU i f).pd j = s.pd j := rfl
@[simp] theorem State.chU_sh : (s.chU i f).sh j = s.sh j := rfl
@[simp] theorem State.chU_pk : (s.chU i f).pk j = s.pk j := rfl
@[simp] theorem State.chU_pv : (s.chU i f).pv j = s.pv j := rfl
@[simp] theorem State.chU_pg : (s.chU i f).pg j = s.pg j := rfl
@[simp] theorem State.chU_co : (s.chU i f).co j = s.co j := rfl
@[simp] theorem State.chU_en : (s.chU i f).en j = s.en j := rfl
@[simp] theorem State.chU_ln : (s.chU i f).ln j = s.ln j := rfl
@[simp] theorem State.chU_mb : (s.chU i f).mb j = s.mb j := rfl
@[simp] theorem State.chU_po : (s.chU i f).po j = s.po j := rfl
@[simp] theorem State.chU_ks : (s.chU i f).ks j = s.ks j := rfl
end

section
variable (i j : Nat) (f : LaneLink → LaneLink)
theorem State.lnU_ln : (s.lnU i f).ln j = if j = i then f (s.ln i) else s.ln j := Tab.get_upd _ _ _ _ _
@[simp] theorem State.lnU_ln_same : (s.lnU i f).ln i = f (s.ln i) := Tab.get_upd_same _ _ _ _
@[simp] theorem State.lnU_ln_ne (h : j ≠ i) : (s.lnU i f).ln j = s.ln j := Tab.get_upd_ne _ _ _ _ _ h
@[simp] theorem State.lnU_boot : (s.lnU i f).boot = s.boot := rfl
@[simp] theorem State.lnU_hold : (s.lnU i f).hold = s.hold := rfl
@[simp] theorem State.lnU_stands : (s.lnU i f).stands = s.stands := rfl
@[simp] theorem State.lnU_edge : (s.lnU i f).edge = s.edge := rfl
@[simp] theorem State.lnU_ctr : (s.lnU i f).ctr = s.ctr := rfl
@[simp] theorem State.lnU_win : (s.lnU i f).win = s.win := rfl
@[simp] theorem State.lnU_dec : (s.lnU i f).dec = s.dec := rfl
@[simp] theorem State.lnU_sheaves : (s.lnU i f).sheaves = s.sheaves := rfl
@[simp] theorem State.lnU_rules : (s.lnU i f).rules = s.rules := rfl
@[simp] theorem State.lnU_wake : (s.lnU i f).wake = s.wake := rfl
@[simp] theorem State.lnU_wport : (s.lnU i f).wport = s.wport := rfl
@[simp] theorem State.lnU_verd : (s.lnU i f).verd = s.verd := rfl
@[simp] theorem State.lnU_gran : (s.lnU i f).gran = s.gran := rfl
@[simp] theorem State.lnU_pgran : (s.lnU i f).pgran = s.pgran := rfl
@[simp] theorem State.lnU_cores : (s.lnU i f).cores = s.cores := rfl
@[simp] theorem State.lnU_mems : (s.lnU i f).mems = s.mems := rfl
@[simp] theorem State.lnU_flaws : (s.lnU i f).flaws = s.flaws := rfl
@[simp] theorem State.lnU_engines : (s.lnU i f).engines = s.engines := rfl
@[simp] theorem State.lnU_keys : (s.lnU i f).keys = s.keys := rfl
@[simp] theorem State.lnU_fuses : (s.lnU i f).fuses = s.fuses := rfl
@[simp] theorem State.lnU_alarms : (s.lnU i f).alarms = s.alarms := rfl
@[simp] theorem State.lnU_backup : (s.lnU i f).backup = s.backup := rfl
@[simp] theorem State.lnU_log : (s.lnU i f).log = s.log := rfl
@[simp] theorem State.lnU_leave : (s.lnU i f).leave = s.leave := rfl
@[simp] theorem State.lnU_chans : (s.lnU i f).chans = s.chans := rfl
@[simp] theorem State.lnU_hand : (s.lnU i f).hand = s.hand := rfl
@[simp] theorem State.lnU_mspi : (s.lnU i f).mspi = s.mspi := rfl
@[simp] theorem State.lnU_home : (s.lnU i f).home = s.home := rfl
@[simp] theorem State.lnU_linkOut : (s.lnU i f).linkOut = s.linkOut := rfl
@[simp] theorem State.lnU_cyc : (s.lnU i f).cyc = s.cyc := rfl
@[simp] theorem State.lnU_fresh : (s.lnU i f).fresh = s.fresh := rfl
@[simp] theorem State.lnU_pending : (s.lnU i f).pending = s.pending := rfl
@[simp] theorem State.lnU_ph : (s.lnU i f).ph j = s.ph j := rfl
@[simp] theorem State.lnU_st : (s.lnU i f).st j = s.st j := rfl
@[simp] theorem State.lnU_pe : (s.lnU i f).pe j = s.pe j := rfl
@[simp] theorem State.lnU_pw : (s.lnU i f).pw j = s.pw j := rfl
@[simp] theorem State.lnU_pd : (s.lnU i f).pd j = s.pd j := rfl
@[simp] theorem State.lnU_sh : (s.lnU i f).sh j = s.sh j := rfl
@[simp] theorem State.lnU_pk : (s.lnU i f).pk j = s.pk j := rfl
@[simp] theorem State.lnU_pv : (s.lnU i f).pv j = s.pv j := rfl
@[simp] theorem State.lnU_pg : (s.lnU i f).pg j = s.pg j := rfl
@[simp] theorem State.lnU_co : (s.lnU i f).co j = s.co j := rfl
@[simp] theorem State.lnU_en : (s.lnU i f).en j = s.en j := rfl
@[simp] theorem State.lnU_ch : (s.lnU i f).ch j = s.ch j := rfl
@[simp] theorem State.lnU_mb : (s.lnU i f).mb j = s.mb j := rfl
@[simp] theorem State.lnU_po : (s.lnU i f).po j = s.po j := rfl
@[simp] theorem State.lnU_ks : (s.lnU i f).ks j = s.ks j := rfl
end

section
variable (i j : Nat) (f : Mbox → Mbox)
theorem State.mbU_mb : (s.mbU i f).mb j = if j = i then f (s.mb i) else s.mb j := Tab.get_upd _ _ _ _ _
@[simp] theorem State.mbU_mb_same : (s.mbU i f).mb i = f (s.mb i) := Tab.get_upd_same _ _ _ _
@[simp] theorem State.mbU_mb_ne (h : j ≠ i) : (s.mbU i f).mb j = s.mb j := Tab.get_upd_ne _ _ _ _ _ h
@[simp] theorem State.mbU_boot : (s.mbU i f).boot = s.boot := rfl
@[simp] theorem State.mbU_hold : (s.mbU i f).hold = s.hold := rfl
@[simp] theorem State.mbU_stands : (s.mbU i f).stands = s.stands := rfl
@[simp] theorem State.mbU_edge : (s.mbU i f).edge = s.edge := rfl
@[simp] theorem State.mbU_ctr : (s.mbU i f).ctr = s.ctr := rfl
@[simp] theorem State.mbU_win : (s.mbU i f).win = s.win := rfl
@[simp] theorem State.mbU_dec : (s.mbU i f).dec = s.dec := rfl
@[simp] theorem State.mbU_sheaves : (s.mbU i f).sheaves = s.sheaves := rfl
@[simp] theorem State.mbU_rules : (s.mbU i f).rules = s.rules := rfl
@[simp] theorem State.mbU_wake : (s.mbU i f).wake = s.wake := rfl
@[simp] theorem State.mbU_wport : (s.mbU i f).wport = s.wport := rfl
@[simp] theorem State.mbU_verd : (s.mbU i f).verd = s.verd := rfl
@[simp] theorem State.mbU_gran : (s.mbU i f).gran = s.gran := rfl
@[simp] theorem State.mbU_pgran : (s.mbU i f).pgran = s.pgran := rfl
@[simp] theorem State.mbU_cores : (s.mbU i f).cores = s.cores := rfl
@[simp] theorem State.mbU_mems : (s.mbU i f).mems = s.mems := rfl
@[simp] theorem State.mbU_flaws : (s.mbU i f).flaws = s.flaws := rfl
@[simp] theorem State.mbU_engines : (s.mbU i f).engines = s.engines := rfl
@[simp] theorem State.mbU_keys : (s.mbU i f).keys = s.keys := rfl
@[simp] theorem State.mbU_fuses : (s.mbU i f).fuses = s.fuses := rfl
@[simp] theorem State.mbU_alarms : (s.mbU i f).alarms = s.alarms := rfl
@[simp] theorem State.mbU_backup : (s.mbU i f).backup = s.backup := rfl
@[simp] theorem State.mbU_log : (s.mbU i f).log = s.log := rfl
@[simp] theorem State.mbU_leave : (s.mbU i f).leave = s.leave := rfl
@[simp] theorem State.mbU_chans : (s.mbU i f).chans = s.chans := rfl
@[simp] theorem State.mbU_hand : (s.mbU i f).hand = s.hand := rfl
@[simp] theorem State.mbU_link : (s.mbU i f).link = s.link := rfl
@[simp] theorem State.mbU_home : (s.mbU i f).home = s.home := rfl
@[simp] theorem State.mbU_linkOut : (s.mbU i f).linkOut = s.linkOut := rfl
@[simp] theorem State.mbU_cyc : (s.mbU i f).cyc = s.cyc := rfl
@[simp] theorem State.mbU_fresh : (s.mbU i f).fresh = s.fresh := rfl
@[simp] theorem State.mbU_pending : (s.mbU i f).pending = s.pending := rfl
@[simp] theorem State.mbU_ph : (s.mbU i f).ph j = s.ph j := rfl
@[simp] theorem State.mbU_st : (s.mbU i f).st j = s.st j := rfl
@[simp] theorem State.mbU_pe : (s.mbU i f).pe j = s.pe j := rfl
@[simp] theorem State.mbU_pw : (s.mbU i f).pw j = s.pw j := rfl
@[simp] theorem State.mbU_pd : (s.mbU i f).pd j = s.pd j := rfl
@[simp] theorem State.mbU_sh : (s.mbU i f).sh j = s.sh j := rfl
@[simp] theorem State.mbU_pk : (s.mbU i f).pk j = s.pk j := rfl
@[simp] theorem State.mbU_pv : (s.mbU i f).pv j = s.pv j := rfl
@[simp] theorem State.mbU_pg : (s.mbU i f).pg j = s.pg j := rfl
@[simp] theorem State.mbU_co : (s.mbU i f).co j = s.co j := rfl
@[simp] theorem State.mbU_en : (s.mbU i f).en j = s.en j := rfl
@[simp] theorem State.mbU_ch : (s.mbU i f).ch j = s.ch j := rfl
@[simp] theorem State.mbU_ln : (s.mbU i f).ln j = s.ln j := rfl
@[simp] theorem State.mbU_po : (s.mbU i f).po j = s.po j := rfl
@[simp] theorem State.mbU_ks : (s.mbU i f).ks j = s.ks j := rfl
end

section
variable (i j : Nat) (f : Pool → Pool)
theorem State.poU_po : (s.poU i f).po j = if j = i then f (s.po i) else s.po j := Tab.get_upd _ _ _ _ _
@[simp] theorem State.poU_po_same : (s.poU i f).po i = f (s.po i) := Tab.get_upd_same _ _ _ _
@[simp] theorem State.poU_po_ne (h : j ≠ i) : (s.poU i f).po j = s.po j := Tab.get_upd_ne _ _ _ _ _ h
@[simp] theorem State.poU_boot : (s.poU i f).boot = s.boot := rfl
@[simp] theorem State.poU_hold : (s.poU i f).hold = s.hold := rfl
@[simp] theorem State.poU_stands : (s.poU i f).stands = s.stands := rfl
@[simp] theorem State.poU_edge : (s.poU i f).edge = s.edge := rfl
@[simp] theorem State.poU_ctr : (s.poU i f).ctr = s.ctr := rfl
@[simp] theorem State.poU_win : (s.poU i f).win = s.win := rfl
@[simp] theorem State.poU_dec : (s.poU i f).dec = s.dec := rfl
@[simp] theorem State.poU_sheaves : (s.poU i f).sheaves = s.sheaves := rfl
@[simp] theorem State.poU_rules : (s.poU i f).rules = s.rules := rfl
@[simp] theorem State.poU_wake : (s.poU i f).wake = s.wake := rfl
@[simp] theorem State.poU_wport : (s.poU i f).wport = s.wport := rfl
@[simp] theorem State.poU_verd : (s.poU i f).verd = s.verd := rfl
@[simp] theorem State.poU_gran : (s.poU i f).gran = s.gran := rfl
@[simp] theorem State.poU_pgran : (s.poU i f).pgran = s.pgran := rfl
@[simp] theorem State.poU_cores : (s.poU i f).cores = s.cores := rfl
@[simp] theorem State.poU_mems : (s.poU i f).mems = s.mems := rfl
@[simp] theorem State.poU_flaws : (s.poU i f).flaws = s.flaws := rfl
@[simp] theorem State.poU_engines : (s.poU i f).engines = s.engines := rfl
@[simp] theorem State.poU_keys : (s.poU i f).keys = s.keys := rfl
@[simp] theorem State.poU_fuses : (s.poU i f).fuses = s.fuses := rfl
@[simp] theorem State.poU_alarms : (s.poU i f).alarms = s.alarms := rfl
@[simp] theorem State.poU_backup : (s.poU i f).backup = s.backup := rfl
@[simp] theorem State.poU_log : (s.poU i f).log = s.log := rfl
@[simp] theorem State.poU_chans : (s.poU i f).chans = s.chans := rfl
@[simp] theorem State.poU_hand : (s.poU i f).hand = s.hand := rfl
@[simp] theorem State.poU_link : (s.poU i f).link = s.link := rfl
@[simp] theorem State.poU_mspi : (s.poU i f).mspi = s.mspi := rfl
@[simp] theorem State.poU_home : (s.poU i f).home = s.home := rfl
@[simp] theorem State.poU_linkOut : (s.poU i f).linkOut = s.linkOut := rfl
@[simp] theorem State.poU_cyc : (s.poU i f).cyc = s.cyc := rfl
@[simp] theorem State.poU_fresh : (s.poU i f).fresh = s.fresh := rfl
@[simp] theorem State.poU_pending : (s.poU i f).pending = s.pending := rfl
@[simp] theorem State.poU_ph : (s.poU i f).ph j = s.ph j := rfl
@[simp] theorem State.poU_st : (s.poU i f).st j = s.st j := rfl
@[simp] theorem State.poU_pe : (s.poU i f).pe j = s.pe j := rfl
@[simp] theorem State.poU_pw : (s.poU i f).pw j = s.pw j := rfl
@[simp] theorem State.poU_pd : (s.poU i f).pd j = s.pd j := rfl
@[simp] theorem State.poU_sh : (s.poU i f).sh j = s.sh j := rfl
@[simp] theorem State.poU_pk : (s.poU i f).pk j = s.pk j := rfl
@[simp] theorem State.poU_pv : (s.poU i f).pv j = s.pv j := rfl
@[simp] theorem State.poU_pg : (s.poU i f).pg j = s.pg j := rfl
@[simp] theorem State.poU_co : (s.poU i f).co j = s.co j := rfl
@[simp] theorem State.poU_en : (s.poU i f).en j = s.en j := rfl
@[simp] theorem State.poU_ch : (s.poU i f).ch j = s.ch j := rfl
@[simp] theorem State.poU_ln : (s.poU i f).ln j = s.ln j := rfl
@[simp] theorem State.poU_mb : (s.poU i f).mb j = s.mb j := rfl
@[simp] theorem State.poU_ks : (s.poU i f).ks j = s.ks j := rfl
end

section
variable (i j : Nat) (f : KeySlot → KeySlot)
theorem State.ksU_ks : (s.ksU i f).ks j = if j = i then f (s.ks i) else s.ks j := Tab.get_upd _ _ _ _ _
@[simp] theorem State.ksU_ks_same : (s.ksU i f).ks i = f (s.ks i) := Tab.get_upd_same _ _ _ _
@[simp] theorem State.ksU_ks_ne (h : j ≠ i) : (s.ksU i f).ks j = s.ks j := Tab.get_upd_ne _ _ _ _ _ h
@[simp] theorem State.ksU_boot : (s.ksU i f).boot = s.boot := rfl
@[simp] theorem State.ksU_hold : (s.ksU i f).hold = s.hold := rfl
@[simp] theorem State.ksU_stands : (s.ksU i f).stands = s.stands := rfl
@[simp] theorem State.ksU_edge : (s.ksU i f).edge = s.edge := rfl
@[simp] theorem State.ksU_ctr : (s.ksU i f).ctr = s.ctr := rfl
@[simp] theorem State.ksU_win : (s.ksU i f).win = s.win := rfl
@[simp] theorem State.ksU_dec : (s.ksU i f).dec = s.dec := rfl
@[simp] theorem State.ksU_sheaves : (s.ksU i f).sheaves = s.sheaves := rfl
@[simp] theorem State.ksU_rules : (s.ksU i f).rules = s.rules := rfl
@[simp] theorem State.ksU_wake : (s.ksU i f).wake = s.wake := rfl
@[simp] theorem State.ksU_wport : (s.ksU i f).wport = s.wport := rfl
@[simp] theorem State.ksU_verd : (s.ksU i f).verd = s.verd := rfl
@[simp] theorem State.ksU_gran : (s.ksU i f).gran = s.gran := rfl
@[simp] theorem State.ksU_pgran : (s.ksU i f).pgran = s.pgran := rfl
@[simp] theorem State.ksU_cores : (s.ksU i f).cores = s.cores := rfl
@[simp] theorem State.ksU_mems : (s.ksU i f).mems = s.mems := rfl
@[simp] theorem State.ksU_flaws : (s.ksU i f).flaws = s.flaws := rfl
@[simp] theorem State.ksU_engines : (s.ksU i f).engines = s.engines := rfl
@[simp] theorem State.ksU_fuses : (s.ksU i f).fuses = s.fuses := rfl
@[simp] theorem State.ksU_alarms : (s.ksU i f).alarms = s.alarms := rfl
@[simp] theorem State.ksU_backup : (s.ksU i f).backup = s.backup := rfl
@[simp] theorem State.ksU_log : (s.ksU i f).log = s.log := rfl
@[simp] theorem State.ksU_leave : (s.ksU i f).leave = s.leave := rfl
@[simp] theorem State.ksU_chans : (s.ksU i f).chans = s.chans := rfl
@[simp] theorem State.ksU_hand : (s.ksU i f).hand = s.hand := rfl
@[simp] theorem State.ksU_link : (s.ksU i f).link = s.link := rfl
@[simp] theorem State.ksU_mspi : (s.ksU i f).mspi = s.mspi := rfl
@[simp] theorem State.ksU_home : (s.ksU i f).home = s.home := rfl
@[simp] theorem State.ksU_linkOut : (s.ksU i f).linkOut = s.linkOut := rfl
@[simp] theorem State.ksU_cyc : (s.ksU i f).cyc = s.cyc := rfl
@[simp] theorem State.ksU_fresh : (s.ksU i f).fresh = s.fresh := rfl
@[simp] theorem State.ksU_pending : (s.ksU i f).pending = s.pending := rfl
@[simp] theorem State.ksU_ph : (s.ksU i f).ph j = s.ph j := rfl
@[simp] theorem State.ksU_st : (s.ksU i f).st j = s.st j := rfl
@[simp] theorem State.ksU_pe : (s.ksU i f).pe j = s.pe j := rfl
@[simp] theorem State.ksU_pw : (s.ksU i f).pw j = s.pw j := rfl
@[simp] theorem State.ksU_pd : (s.ksU i f).pd j = s.pd j := rfl
@[simp] theorem State.ksU_sh : (s.ksU i f).sh j = s.sh j := rfl
@[simp] theorem State.ksU_pk : (s.ksU i f).pk j = s.pk j := rfl
@[simp] theorem State.ksU_pv : (s.ksU i f).pv j = s.pv j := rfl
@[simp] theorem State.ksU_pg : (s.ksU i f).pg j = s.pg j := rfl
@[simp] theorem State.ksU_co : (s.ksU i f).co j = s.co j := rfl
@[simp] theorem State.ksU_en : (s.ksU i f).en j = s.en j := rfl
@[simp] theorem State.ksU_ch : (s.ksU i f).ch j = s.ch j := rfl
@[simp] theorem State.ksU_ln : (s.ksU i f).ln j = s.ln j := rfl
@[simp] theorem State.ksU_mb : (s.ksU i f).mb j = s.mb j := rfl
@[simp] theorem State.ksU_po : (s.ksU i f).po j = s.po j := rfl
end

section
variable (m a : Nat) (bs : List Byte) (j : Nat)
@[simp] theorem State.memPut_boot : (s.memPut m a bs).boot = s.boot := rfl
@[simp] theorem State.memPut_hold : (s.memPut m a bs).hold = s.hold := rfl
@[simp] theorem State.memPut_stands : (s.memPut m a bs).stands = s.stands := rfl
@[simp] theorem State.memPut_edge : (s.memPut m a bs).edge = s.edge := rfl
@[simp] theorem State.memPut_ctr : (s.memPut m a bs).ctr = s.ctr := rfl
@[simp] theorem State.memPut_win : (s.memPut m a bs).win = s.win := rfl
@[simp] theorem State.memPut_dec : (s.memPut m a bs).dec = s.dec := rfl
@[simp] theorem State.memPut_sheaves : (s.memPut m a bs).sheaves = s.sheaves := rfl
@[simp] theorem State.memPut_rules : (s.memPut m a bs).rules = s.rules := rfl
@[simp] theorem State.memPut_wake : (s.memPut m a bs).wake = s.wake := rfl
@[simp] theorem State.memPut_wport : (s.memPut m a bs).wport = s.wport := rfl
@[simp] theorem State.memPut_verd : (s.memPut m a bs).verd = s.verd := rfl
@[simp] theorem State.memPut_gran : (s.memPut m a bs).gran = s.gran := rfl
@[simp] theorem State.memPut_pgran : (s.memPut m a bs).pgran = s.pgran := rfl
@[simp] theorem State.memPut_cores : (s.memPut m a bs).cores = s.cores := rfl
@[simp] theorem State.memPut_engines : (s.memPut m a bs).engines = s.engines := rfl
@[simp] theorem State.memPut_keys : (s.memPut m a bs).keys = s.keys := rfl
@[simp] theorem State.memPut_fuses : (s.memPut m a bs).fuses = s.fuses := rfl
@[simp] theorem State.memPut_alarms : (s.memPut m a bs).alarms = s.alarms := rfl
@[simp] theorem State.memPut_backup : (s.memPut m a bs).backup = s.backup := rfl
@[simp] theorem State.memPut_log : (s.memPut m a bs).log = s.log := rfl
@[simp] theorem State.memPut_leave : (s.memPut m a bs).leave = s.leave := rfl
@[simp] theorem State.memPut_chans : (s.memPut m a bs).chans = s.chans := rfl
@[simp] theorem State.memPut_hand : (s.memPut m a bs).hand = s.hand := rfl
@[simp] theorem State.memPut_link : (s.memPut m a bs).link = s.link := rfl
@[simp] theorem State.memPut_mspi : (s.memPut m a bs).mspi = s.mspi := rfl
@[simp] theorem State.memPut_home : (s.memPut m a bs).home = s.home := rfl
@[simp] theorem State.memPut_linkOut : (s.memPut m a bs).linkOut = s.linkOut := rfl
@[simp] theorem State.memPut_cyc : (s.memPut m a bs).cyc = s.cyc := rfl
@[simp] theorem State.memPut_fresh : (s.memPut m a bs).fresh = s.fresh := rfl
@[simp] theorem State.memPut_pending : (s.memPut m a bs).pending = s.pending := rfl
@[simp] theorem State.memPut_ph : (s.memPut m a bs).ph j = s.ph j := rfl
@[simp] theorem State.memPut_st : (s.memPut m a bs).st j = s.st j := rfl
@[simp] theorem State.memPut_pe : (s.memPut m a bs).pe j = s.pe j := rfl
@[simp] theorem State.memPut_pw : (s.memPut m a bs).pw j = s.pw j := rfl
@[simp] theorem State.memPut_pd : (s.memPut m a bs).pd j = s.pd j := rfl
@[simp] theorem State.memPut_sh : (s.memPut m a bs).sh j = s.sh j := rfl
@[simp] theorem State.memPut_pk : (s.memPut m a bs).pk j = s.pk j := rfl
@[simp] theorem State.memPut_pv : (s.memPut m a bs).pv j = s.pv j := rfl
@[simp] theorem State.memPut_pg : (s.memPut m a bs).pg j = s.pg j := rfl
@[simp] theorem State.memPut_co : (s.memPut m a bs).co j = s.co j := rfl
@[simp] theorem State.memPut_en : (s.memPut m a bs).en j = s.en j := rfl
@[simp] theorem State.memPut_ch : (s.memPut m a bs).ch j = s.ch j := rfl
@[simp] theorem State.memPut_ln : (s.memPut m a bs).ln j = s.ln j := rfl
@[simp] theorem State.memPut_mb : (s.memPut m a bs).mb j = s.mb j := rfl
@[simp] theorem State.memPut_po : (s.memPut m a bs).po j = s.po j := rfl
@[simp] theorem State.memPut_ks : (s.memPut m a bs).ks j = s.ks j := rfl
end

section
variable (m : Nat) (j : Nat)
@[simp] theorem State.memZero_boot : (s.memZero m).boot = s.boot := rfl
@[simp] theorem State.memZero_hold : (s.memZero m).hold = s.hold := rfl
@[simp] theorem State.memZero_stands : (s.memZero m).stands = s.stands := rfl
@[simp] theorem State.memZero_edge : (s.memZero m).edge = s.edge := rfl
@[simp] theorem State.memZero_ctr : (s.memZero m).ctr = s.ctr := rfl
@[simp] theorem State.memZero_win : (s.memZero m).win = s.win := rfl
@[simp] theorem State.memZero_dec : (s.memZero m).dec = s.dec := rfl
@[simp] theorem State.memZero_sheaves : (s.memZero m).sheaves = s.sheaves := rfl
@[simp] theorem State.memZero_rules : (s.memZero m).rules = s.rules := rfl
@[simp] theorem State.memZero_wake : (s.memZero m).wake = s.wake := rfl
@[simp] theorem State.memZero_wport : (s.memZero m).wport = s.wport := rfl
@[simp] theorem State.memZero_verd : (s.memZero m).verd = s.verd := rfl
@[simp] theorem State.memZero_gran : (s.memZero m).gran = s.gran := rfl
@[simp] theorem State.memZero_pgran : (s.memZero m).pgran = s.pgran := rfl
@[simp] theorem State.memZero_cores : (s.memZero m).cores = s.cores := rfl
@[simp] theorem State.memZero_engines : (s.memZero m).engines = s.engines := rfl
@[simp] theorem State.memZero_keys : (s.memZero m).keys = s.keys := rfl
@[simp] theorem State.memZero_fuses : (s.memZero m).fuses = s.fuses := rfl
@[simp] theorem State.memZero_alarms : (s.memZero m).alarms = s.alarms := rfl
@[simp] theorem State.memZero_backup : (s.memZero m).backup = s.backup := rfl
@[simp] theorem State.memZero_log : (s.memZero m).log = s.log := rfl
@[simp] theorem State.memZero_leave : (s.memZero m).leave = s.leave := rfl
@[simp] theorem State.memZero_chans : (s.memZero m).chans = s.chans := rfl
@[simp] theorem State.memZero_hand : (s.memZero m).hand = s.hand := rfl
@[simp] theorem State.memZero_link : (s.memZero m).link = s.link := rfl
@[simp] theorem State.memZero_mspi : (s.memZero m).mspi = s.mspi := rfl
@[simp] theorem State.memZero_home : (s.memZero m).home = s.home := rfl
@[simp] theorem State.memZero_linkOut : (s.memZero m).linkOut = s.linkOut := rfl
@[simp] theorem State.memZero_cyc : (s.memZero m).cyc = s.cyc := rfl
@[simp] theorem State.memZero_fresh : (s.memZero m).fresh = s.fresh := rfl
@[simp] theorem State.memZero_pending : (s.memZero m).pending = s.pending := rfl
@[simp] theorem State.memZero_ph : (s.memZero m).ph j = s.ph j := rfl
@[simp] theorem State.memZero_st : (s.memZero m).st j = s.st j := rfl
@[simp] theorem State.memZero_pe : (s.memZero m).pe j = s.pe j := rfl
@[simp] theorem State.memZero_pw : (s.memZero m).pw j = s.pw j := rfl
@[simp] theorem State.memZero_pd : (s.memZero m).pd j = s.pd j := rfl
@[simp] theorem State.memZero_sh : (s.memZero m).sh j = s.sh j := rfl
@[simp] theorem State.memZero_pk : (s.memZero m).pk j = s.pk j := rfl
@[simp] theorem State.memZero_pv : (s.memZero m).pv j = s.pv j := rfl
@[simp] theorem State.memZero_pg : (s.memZero m).pg j = s.pg j := rfl
@[simp] theorem State.memZero_co : (s.memZero m).co j = s.co j := rfl
@[simp] theorem State.memZero_en : (s.memZero m).en j = s.en j := rfl
@[simp] theorem State.memZero_ch : (s.memZero m).ch j = s.ch j := rfl
@[simp] theorem State.memZero_ln : (s.memZero m).ln j = s.ln j := rfl
@[simp] theorem State.memZero_mb : (s.memZero m).mb j = s.mb j := rfl
@[simp] theorem State.memZero_po : (s.memZero m).po j = s.po j := rfl
@[simp] theorem State.memZero_ks : (s.memZero m).ks j = s.ks j := rfl
end

section
variable (n : Nat) (j : Nat)
@[simp] theorem State.used_boot : (s.used n).boot = s.boot := rfl
@[simp] theorem State.used_hold : (s.used n).hold = s.hold := rfl
@[simp] theorem State.used_stands : (s.used n).stands = s.stands := rfl
@[simp] theorem State.used_edge : (s.used n).edge = s.edge := rfl
@[simp] theorem State.used_ctr : (s.used n).ctr = s.ctr := rfl
@[simp] theorem State.used_win : (s.used n).win = s.win := rfl
@[simp] theorem State.used_dec : (s.used n).dec = s.dec := rfl
@[simp] theorem State.used_sheaves : (s.used n).sheaves = s.sheaves := rfl
@[simp] theorem State.used_rules : (s.used n).rules = s.rules := rfl
@[simp] theorem State.used_wake : (s.used n).wake = s.wake := rfl
@[simp] theorem State.used_wport : (s.used n).wport = s.wport := rfl
@[simp] theorem State.used_verd : (s.used n).verd = s.verd := rfl
@[simp] theorem State.used_gran : (s.used n).gran = s.gran := rfl
@[simp] theorem State.used_pgran : (s.used n).pgran = s.pgran := rfl
@[simp] theorem State.used_cores : (s.used n).cores = s.cores := rfl
@[simp] theorem State.used_mems : (s.used n).mems = s.mems := rfl
@[simp] theorem State.used_flaws : (s.used n).flaws = s.flaws := rfl
@[simp] theorem State.used_engines : (s.used n).engines = s.engines := rfl
@[simp] theorem State.used_keys : (s.used n).keys = s.keys := rfl
@[simp] theorem State.used_fuses : (s.used n).fuses = s.fuses := rfl
@[simp] theorem State.used_alarms : (s.used n).alarms = s.alarms := rfl
@[simp] theorem State.used_backup : (s.used n).backup = s.backup := rfl
@[simp] theorem State.used_log : (s.used n).log = s.log := rfl
@[simp] theorem State.used_leave : (s.used n).leave = s.leave := rfl
@[simp] theorem State.used_chans : (s.used n).chans = s.chans := rfl
@[simp] theorem State.used_hand : (s.used n).hand = s.hand := rfl
@[simp] theorem State.used_link : (s.used n).link = s.link := rfl
@[simp] theorem State.used_mspi : (s.used n).mspi = s.mspi := rfl
@[simp] theorem State.used_home : (s.used n).home = s.home := rfl
@[simp] theorem State.used_linkOut : (s.used n).linkOut = s.linkOut := rfl
@[simp] theorem State.used_cyc : (s.used n).cyc = s.cyc := rfl
@[simp] theorem State.used_pending : (s.used n).pending = s.pending := rfl
@[simp] theorem State.used_ph : (s.used n).ph j = s.ph j := rfl
@[simp] theorem State.used_st : (s.used n).st j = s.st j := rfl
@[simp] theorem State.used_pe : (s.used n).pe j = s.pe j := rfl
@[simp] theorem State.used_pw : (s.used n).pw j = s.pw j := rfl
@[simp] theorem State.used_pd : (s.used n).pd j = s.pd j := rfl
@[simp] theorem State.used_sh : (s.used n).sh j = s.sh j := rfl
@[simp] theorem State.used_pk : (s.used n).pk j = s.pk j := rfl
@[simp] theorem State.used_pv : (s.used n).pv j = s.pv j := rfl
@[simp] theorem State.used_pg : (s.used n).pg j = s.pg j := rfl
@[simp] theorem State.used_co : (s.used n).co j = s.co j := rfl
@[simp] theorem State.used_en : (s.used n).en j = s.en j := rfl
@[simp] theorem State.used_ch : (s.used n).ch j = s.ch j := rfl
@[simp] theorem State.used_ln : (s.used n).ln j = s.ln j := rfl
@[simp] theorem State.used_mb : (s.used n).mb j = s.mb j := rfl
@[simp] theorem State.used_po : (s.used n).po j = s.po j := rfl
@[simp] theorem State.used_ks : (s.used n).ks j = s.ks j := rfl
end

section
variable (kind : Nat) (body : List Byte) (j : Nat)
@[simp] theorem State.logRec_boot : (s.logRec kind body).boot = s.boot := rfl
@[simp] theorem State.logRec_hold : (s.logRec kind body).hold = s.hold := rfl
@[simp] theorem State.logRec_stands : (s.logRec kind body).stands = s.stands := rfl
@[simp] theorem State.logRec_edge : (s.logRec kind body).edge = s.edge := rfl
@[simp] theorem State.logRec_ctr : (s.logRec kind body).ctr = s.ctr := rfl
@[simp] theorem State.logRec_win : (s.logRec kind body).win = s.win := rfl
@[simp] theorem State.logRec_dec : (s.logRec kind body).dec = s.dec := rfl
@[simp] theorem State.logRec_sheaves : (s.logRec kind body).sheaves = s.sheaves := rfl
@[simp] theorem State.logRec_rules : (s.logRec kind body).rules = s.rules := rfl
@[simp] theorem State.logRec_wake : (s.logRec kind body).wake = s.wake := rfl
@[simp] theorem State.logRec_wport : (s.logRec kind body).wport = s.wport := rfl
@[simp] theorem State.logRec_verd : (s.logRec kind body).verd = s.verd := rfl
@[simp] theorem State.logRec_gran : (s.logRec kind body).gran = s.gran := rfl
@[simp] theorem State.logRec_pgran : (s.logRec kind body).pgran = s.pgran := rfl
@[simp] theorem State.logRec_cores : (s.logRec kind body).cores = s.cores := rfl
@[simp] theorem State.logRec_mems : (s.logRec kind body).mems = s.mems := rfl
@[simp] theorem State.logRec_flaws : (s.logRec kind body).flaws = s.flaws := rfl
@[simp] theorem State.logRec_engines : (s.logRec kind body).engines = s.engines := rfl
@[simp] theorem State.logRec_keys : (s.logRec kind body).keys = s.keys := rfl
@[simp] theorem State.logRec_fuses : (s.logRec kind body).fuses = s.fuses := rfl
@[simp] theorem State.logRec_alarms : (s.logRec kind body).alarms = s.alarms := rfl
@[simp] theorem State.logRec_backup : (s.logRec kind body).backup = s.backup := rfl
@[simp] theorem State.logRec_leave : (s.logRec kind body).leave = s.leave := rfl
@[simp] theorem State.logRec_chans : (s.logRec kind body).chans = s.chans := rfl
@[simp] theorem State.logRec_hand : (s.logRec kind body).hand = s.hand := rfl
@[simp] theorem State.logRec_link : (s.logRec kind body).link = s.link := rfl
@[simp] theorem State.logRec_mspi : (s.logRec kind body).mspi = s.mspi := rfl
@[simp] theorem State.logRec_home : (s.logRec kind body).home = s.home := rfl
@[simp] theorem State.logRec_linkOut : (s.logRec kind body).linkOut = s.linkOut := rfl
@[simp] theorem State.logRec_cyc : (s.logRec kind body).cyc = s.cyc := rfl
@[simp] theorem State.logRec_fresh : (s.logRec kind body).fresh = s.fresh := rfl
@[simp] theorem State.logRec_pending : (s.logRec kind body).pending = s.pending := rfl
@[simp] theorem State.logRec_ph : (s.logRec kind body).ph j = s.ph j := rfl
@[simp] theorem State.logRec_st : (s.logRec kind body).st j = s.st j := rfl
@[simp] theorem State.logRec_pe : (s.logRec kind body).pe j = s.pe j := rfl
@[simp] theorem State.logRec_pw : (s.logRec kind body).pw j = s.pw j := rfl
@[simp] theorem State.logRec_pd : (s.logRec kind body).pd j = s.pd j := rfl
@[simp] theorem State.logRec_sh : (s.logRec kind body).sh j = s.sh j := rfl
@[simp] theorem State.logRec_pk : (s.logRec kind body).pk j = s.pk j := rfl
@[simp] theorem State.logRec_pv : (s.logRec kind body).pv j = s.pv j := rfl
@[simp] theorem State.logRec_pg : (s.logRec kind body).pg j = s.pg j := rfl
@[simp] theorem State.logRec_co : (s.logRec kind body).co j = s.co j := rfl
@[simp] theorem State.logRec_en : (s.logRec kind body).en j = s.en j := rfl
@[simp] theorem State.logRec_ch : (s.logRec kind body).ch j = s.ch j := rfl
@[simp] theorem State.logRec_ln : (s.logRec kind body).ln j = s.ln j := rfl
@[simp] theorem State.logRec_mb : (s.logRec kind body).mb j = s.mb j := rfl
@[simp] theorem State.logRec_po : (s.logRec kind body).po j = s.po j := rfl
@[simp] theorem State.logRec_ks : (s.logRec kind body).ks j = s.ks j := rfl
end

section
variable (u : LvUse) (n : Nat) (j : Nat)
@[simp] theorem State.lvAsk_boot : (s.lvAsk u n).boot = s.boot := rfl
@[simp] theorem State.lvAsk_hold : (s.lvAsk u n).hold = s.hold := rfl
@[simp] theorem State.lvAsk_stands : (s.lvAsk u n).stands = s.stands := rfl
@[simp] theorem State.lvAsk_edge : (s.lvAsk u n).edge = s.edge := rfl
@[simp] theorem State.lvAsk_ctr : (s.lvAsk u n).ctr = s.ctr := rfl
@[simp] theorem State.lvAsk_win : (s.lvAsk u n).win = s.win := rfl
@[simp] theorem State.lvAsk_dec : (s.lvAsk u n).dec = s.dec := rfl
@[simp] theorem State.lvAsk_sheaves : (s.lvAsk u n).sheaves = s.sheaves := rfl
@[simp] theorem State.lvAsk_rules : (s.lvAsk u n).rules = s.rules := rfl
@[simp] theorem State.lvAsk_wake : (s.lvAsk u n).wake = s.wake := rfl
@[simp] theorem State.lvAsk_wport : (s.lvAsk u n).wport = s.wport := rfl
@[simp] theorem State.lvAsk_verd : (s.lvAsk u n).verd = s.verd := rfl
@[simp] theorem State.lvAsk_gran : (s.lvAsk u n).gran = s.gran := rfl
@[simp] theorem State.lvAsk_pgran : (s.lvAsk u n).pgran = s.pgran := rfl
@[simp] theorem State.lvAsk_cores : (s.lvAsk u n).cores = s.cores := rfl
@[simp] theorem State.lvAsk_mems : (s.lvAsk u n).mems = s.mems := rfl
@[simp] theorem State.lvAsk_flaws : (s.lvAsk u n).flaws = s.flaws := rfl
@[simp] theorem State.lvAsk_engines : (s.lvAsk u n).engines = s.engines := rfl
@[simp] theorem State.lvAsk_keys : (s.lvAsk u n).keys = s.keys := rfl
@[simp] theorem State.lvAsk_fuses : (s.lvAsk u n).fuses = s.fuses := rfl
@[simp] theorem State.lvAsk_alarms : (s.lvAsk u n).alarms = s.alarms := rfl
@[simp] theorem State.lvAsk_backup : (s.lvAsk u n).backup = s.backup := rfl
@[simp] theorem State.lvAsk_log : (s.lvAsk u n).log = s.log := rfl
@[simp] theorem State.lvAsk_chans : (s.lvAsk u n).chans = s.chans := rfl
@[simp] theorem State.lvAsk_hand : (s.lvAsk u n).hand = s.hand := rfl
@[simp] theorem State.lvAsk_link : (s.lvAsk u n).link = s.link := rfl
@[simp] theorem State.lvAsk_mspi : (s.lvAsk u n).mspi = s.mspi := rfl
@[simp] theorem State.lvAsk_home : (s.lvAsk u n).home = s.home := rfl
@[simp] theorem State.lvAsk_linkOut : (s.lvAsk u n).linkOut = s.linkOut := rfl
@[simp] theorem State.lvAsk_cyc : (s.lvAsk u n).cyc = s.cyc := rfl
@[simp] theorem State.lvAsk_fresh : (s.lvAsk u n).fresh = s.fresh := rfl
@[simp] theorem State.lvAsk_pending : (s.lvAsk u n).pending = s.pending := rfl
@[simp] theorem State.lvAsk_ph : (s.lvAsk u n).ph j = s.ph j := rfl
@[simp] theorem State.lvAsk_st : (s.lvAsk u n).st j = s.st j := rfl
@[simp] theorem State.lvAsk_pe : (s.lvAsk u n).pe j = s.pe j := rfl
@[simp] theorem State.lvAsk_pw : (s.lvAsk u n).pw j = s.pw j := rfl
@[simp] theorem State.lvAsk_pd : (s.lvAsk u n).pd j = s.pd j := rfl
@[simp] theorem State.lvAsk_sh : (s.lvAsk u n).sh j = s.sh j := rfl
@[simp] theorem State.lvAsk_pk : (s.lvAsk u n).pk j = s.pk j := rfl
@[simp] theorem State.lvAsk_pv : (s.lvAsk u n).pv j = s.pv j := rfl
@[simp] theorem State.lvAsk_pg : (s.lvAsk u n).pg j = s.pg j := rfl
@[simp] theorem State.lvAsk_co : (s.lvAsk u n).co j = s.co j := rfl
@[simp] theorem State.lvAsk_en : (s.lvAsk u n).en j = s.en j := rfl
@[simp] theorem State.lvAsk_ch : (s.lvAsk u n).ch j = s.ch j := rfl
@[simp] theorem State.lvAsk_ln : (s.lvAsk u n).ln j = s.ln j := rfl
@[simp] theorem State.lvAsk_mb : (s.lvAsk u n).mb j = s.mb j := rfl
@[simp] theorem State.lvAsk_ks : (s.lvAsk u n).ks j = s.ks j := rfl
end

section
variable (u : LvUse) (j : Nat)
@[simp] theorem State.lvDrop_boot : (s.lvDrop u).boot = s.boot := rfl
@[simp] theorem State.lvDrop_hold : (s.lvDrop u).hold = s.hold := rfl
@[simp] theorem State.lvDrop_stands : (s.lvDrop u).stands = s.stands := rfl
@[simp] theorem State.lvDrop_edge : (s.lvDrop u).edge = s.edge := rfl
@[simp] theorem State.lvDrop_ctr : (s.lvDrop u).ctr = s.ctr := rfl
@[simp] theorem State.lvDrop_win : (s.lvDrop u).win = s.win := rfl
@[simp] theorem State.lvDrop_dec : (s.lvDrop u).dec = s.dec := rfl
@[simp] theorem State.lvDrop_sheaves : (s.lvDrop u).sheaves = s.sheaves := rfl
@[simp] theorem State.lvDrop_rules : (s.lvDrop u).rules = s.rules := rfl
@[simp] theorem State.lvDrop_wake : (s.lvDrop u).wake = s.wake := rfl
@[simp] theorem State.lvDrop_wport : (s.lvDrop u).wport = s.wport := rfl
@[simp] theorem State.lvDrop_verd : (s.lvDrop u).verd = s.verd := rfl
@[simp] theorem State.lvDrop_gran : (s.lvDrop u).gran = s.gran := rfl
@[simp] theorem State.lvDrop_pgran : (s.lvDrop u).pgran = s.pgran := rfl
@[simp] theorem State.lvDrop_cores : (s.lvDrop u).cores = s.cores := rfl
@[simp] theorem State.lvDrop_mems : (s.lvDrop u).mems = s.mems := rfl
@[simp] theorem State.lvDrop_flaws : (s.lvDrop u).flaws = s.flaws := rfl
@[simp] theorem State.lvDrop_engines : (s.lvDrop u).engines = s.engines := rfl
@[simp] theorem State.lvDrop_keys : (s.lvDrop u).keys = s.keys := rfl
@[simp] theorem State.lvDrop_fuses : (s.lvDrop u).fuses = s.fuses := rfl
@[simp] theorem State.lvDrop_alarms : (s.lvDrop u).alarms = s.alarms := rfl
@[simp] theorem State.lvDrop_backup : (s.lvDrop u).backup = s.backup := rfl
@[simp] theorem State.lvDrop_log : (s.lvDrop u).log = s.log := rfl
@[simp] theorem State.lvDrop_chans : (s.lvDrop u).chans = s.chans := rfl
@[simp] theorem State.lvDrop_hand : (s.lvDrop u).hand = s.hand := rfl
@[simp] theorem State.lvDrop_link : (s.lvDrop u).link = s.link := rfl
@[simp] theorem State.lvDrop_mspi : (s.lvDrop u).mspi = s.mspi := rfl
@[simp] theorem State.lvDrop_home : (s.lvDrop u).home = s.home := rfl
@[simp] theorem State.lvDrop_linkOut : (s.lvDrop u).linkOut = s.linkOut := rfl
@[simp] theorem State.lvDrop_cyc : (s.lvDrop u).cyc = s.cyc := rfl
@[simp] theorem State.lvDrop_fresh : (s.lvDrop u).fresh = s.fresh := rfl
@[simp] theorem State.lvDrop_pending : (s.lvDrop u).pending = s.pending := rfl
@[simp] theorem State.lvDrop_ph : (s.lvDrop u).ph j = s.ph j := rfl
@[simp] theorem State.lvDrop_st : (s.lvDrop u).st j = s.st j := rfl
@[simp] theorem State.lvDrop_pe : (s.lvDrop u).pe j = s.pe j := rfl
@[simp] theorem State.lvDrop_pw : (s.lvDrop u).pw j = s.pw j := rfl
@[simp] theorem State.lvDrop_pd : (s.lvDrop u).pd j = s.pd j := rfl
@[simp] theorem State.lvDrop_sh : (s.lvDrop u).sh j = s.sh j := rfl
@[simp] theorem State.lvDrop_pk : (s.lvDrop u).pk j = s.pk j := rfl
@[simp] theorem State.lvDrop_pv : (s.lvDrop u).pv j = s.pv j := rfl
@[simp] theorem State.lvDrop_pg : (s.lvDrop u).pg j = s.pg j := rfl
@[simp] theorem State.lvDrop_co : (s.lvDrop u).co j = s.co j := rfl
@[simp] theorem State.lvDrop_en : (s.lvDrop u).en j = s.en j := rfl
@[simp] theorem State.lvDrop_ch : (s.lvDrop u).ch j = s.ch j := rfl
@[simp] theorem State.lvDrop_ln : (s.lvDrop u).ln j = s.ln j := rfl
@[simp] theorem State.lvDrop_mb : (s.lvDrop u).mb j = s.mb j := rfl
@[simp] theorem State.lvDrop_ks : (s.lvDrop u).ks j = s.ks j := rfl
end

section
variable (a b c d : Nat) (j : Nat)
@[simp] theorem State.backupLog_boot : (s.backupLog a b c d).boot = s.boot := rfl
@[simp] theorem State.backupLog_hold : (s.backupLog a b c d).hold = s.hold := rfl
@[simp] theorem State.backupLog_stands : (s.backupLog a b c d).stands = s.stands := rfl
@[simp] theorem State.backupLog_edge : (s.backupLog a b c d).edge = s.edge := rfl
@[simp] theorem State.backupLog_ctr : (s.backupLog a b c d).ctr = s.ctr := rfl
@[simp] theorem State.backupLog_win : (s.backupLog a b c d).win = s.win := rfl
@[simp] theorem State.backupLog_dec : (s.backupLog a b c d).dec = s.dec := rfl
@[simp] theorem State.backupLog_sheaves : (s.backupLog a b c d).sheaves = s.sheaves := rfl
@[simp] theorem State.backupLog_rules : (s.backupLog a b c d).rules = s.rules := rfl
@[simp] theorem State.backupLog_wake : (s.backupLog a b c d).wake = s.wake := rfl
@[simp] theorem State.backupLog_wport : (s.backupLog a b c d).wport = s.wport := rfl
@[simp] theorem State.backupLog_verd : (s.backupLog a b c d).verd = s.verd := rfl
@[simp] theorem State.backupLog_gran : (s.backupLog a b c d).gran = s.gran := rfl
@[simp] theorem State.backupLog_pgran : (s.backupLog a b c d).pgran = s.pgran := rfl
@[simp] theorem State.backupLog_cores : (s.backupLog a b c d).cores = s.cores := rfl
@[simp] theorem State.backupLog_mems : (s.backupLog a b c d).mems = s.mems := rfl
@[simp] theorem State.backupLog_flaws : (s.backupLog a b c d).flaws = s.flaws := rfl
@[simp] theorem State.backupLog_engines : (s.backupLog a b c d).engines = s.engines := rfl
@[simp] theorem State.backupLog_keys : (s.backupLog a b c d).keys = s.keys := rfl
@[simp] theorem State.backupLog_fuses : (s.backupLog a b c d).fuses = s.fuses := rfl
@[simp] theorem State.backupLog_alarms : (s.backupLog a b c d).alarms = s.alarms := rfl
@[simp] theorem State.backupLog_log : (s.backupLog a b c d).log = s.log := rfl
@[simp] theorem State.backupLog_leave : (s.backupLog a b c d).leave = s.leave := rfl
@[simp] theorem State.backupLog_chans : (s.backupLog a b c d).chans = s.chans := rfl
@[simp] theorem State.backupLog_hand : (s.backupLog a b c d).hand = s.hand := rfl
@[simp] theorem State.backupLog_link : (s.backupLog a b c d).link = s.link := rfl
@[simp] theorem State.backupLog_mspi : (s.backupLog a b c d).mspi = s.mspi := rfl
@[simp] theorem State.backupLog_home : (s.backupLog a b c d).home = s.home := rfl
@[simp] theorem State.backupLog_linkOut : (s.backupLog a b c d).linkOut = s.linkOut := rfl
@[simp] theorem State.backupLog_cyc : (s.backupLog a b c d).cyc = s.cyc := rfl
@[simp] theorem State.backupLog_fresh : (s.backupLog a b c d).fresh = s.fresh := rfl
@[simp] theorem State.backupLog_pending : (s.backupLog a b c d).pending = s.pending := rfl
@[simp] theorem State.backupLog_ph : (s.backupLog a b c d).ph j = s.ph j := rfl
@[simp] theorem State.backupLog_st : (s.backupLog a b c d).st j = s.st j := rfl
@[simp] theorem State.backupLog_pe : (s.backupLog a b c d).pe j = s.pe j := rfl
@[simp] theorem State.backupLog_pw : (s.backupLog a b c d).pw j = s.pw j := rfl
@[simp] theorem State.backupLog_pd : (s.backupLog a b c d).pd j = s.pd j := rfl
@[simp] theorem State.backupLog_sh : (s.backupLog a b c d).sh j = s.sh j := rfl
@[simp] theorem State.backupLog_pk : (s.backupLog a b c d).pk j = s.pk j := rfl
@[simp] theorem State.backupLog_pv : (s.backupLog a b c d).pv j = s.pv j := rfl
@[simp] theorem State.backupLog_pg : (s.backupLog a b c d).pg j = s.pg j := rfl
@[simp] theorem State.backupLog_co : (s.backupLog a b c d).co j = s.co j := rfl
@[simp] theorem State.backupLog_en : (s.backupLog a b c d).en j = s.en j := rfl
@[simp] theorem State.backupLog_ch : (s.backupLog a b c d).ch j = s.ch j := rfl
@[simp] theorem State.backupLog_ln : (s.backupLog a b c d).ln j = s.ln j := rfl
@[simp] theorem State.backupLog_mb : (s.backupLog a b c d).mb j = s.mb j := rfl
@[simp] theorem State.backupLog_po : (s.backupLog a b c d).po j = s.po j := rfl
@[simp] theorem State.backupLog_ks : (s.backupLog a b c d).ks j = s.ks j := rfl
end

section
variable (l : List FlashOp) (c : Tab Byte) (a len : Nat) (bs : List Byte) (j : Nat)
@[simp] theorem State.homeDoes_boot : (s.homeDoes l c).boot = s.boot := by unfold State.homeDoes; split <;> rfl
@[simp] theorem State.homeDoes_hold : (s.homeDoes l c).hold = s.hold := by unfold State.homeDoes; split <;> rfl
@[simp] theorem State.homeDoes_stands : (s.homeDoes l c).stands = s.stands := by unfold State.homeDoes; split <;> rfl
@[simp] theorem State.homeDoes_ctr : (s.homeDoes l c).ctr = s.ctr := by unfold State.homeDoes; split <;> rfl
@[simp] theorem State.homeDoes_win : (s.homeDoes l c).win = s.win := by unfold State.homeDoes; split <;> rfl
@[simp] theorem State.homeDoes_dec : (s.homeDoes l c).dec = s.dec := by unfold State.homeDoes; split <;> rfl
@[simp] theorem State.homeDoes_sheaves : (s.homeDoes l c).sheaves = s.sheaves := by unfold State.homeDoes; split <;> rfl
@[simp] theorem State.homeDoes_rules : (s.homeDoes l c).rules = s.rules := by unfold State.homeDoes; split <;> rfl
@[simp] theorem State.homeDoes_wake : (s.homeDoes l c).wake = s.wake := by unfold State.homeDoes; split <;> rfl
@[simp] theorem State.homeDoes_wport : (s.homeDoes l c).wport = s.wport := by unfold State.homeDoes; split <;> rfl
@[simp] theorem State.homeDoes_verd : (s.homeDoes l c).verd = s.verd := by unfold State.homeDoes; split <;> rfl
@[simp] theorem State.homeDoes_gran : (s.homeDoes l c).gran = s.gran := by unfold State.homeDoes; split <;> rfl
@[simp] theorem State.homeDoes_pgran : (s.homeDoes l c).pgran = s.pgran := by unfold State.homeDoes; split <;> rfl
@[simp] theorem State.homeDoes_cores : (s.homeDoes l c).cores = s.cores := by unfold State.homeDoes; split <;> rfl
@[simp] theorem State.homeDoes_mems : (s.homeDoes l c).mems = s.mems := by unfold State.homeDoes; split <;> rfl
@[simp] theorem State.homeDoes_flaws : (s.homeDoes l c).flaws = s.flaws := by unfold State.homeDoes; split <;> rfl
@[simp] theorem State.homeDoes_engines : (s.homeDoes l c).engines = s.engines := by unfold State.homeDoes; split <;> rfl
@[simp] theorem State.homeDoes_keys : (s.homeDoes l c).keys = s.keys := by unfold State.homeDoes; split <;> rfl
@[simp] theorem State.homeDoes_fuses : (s.homeDoes l c).fuses = s.fuses := by unfold State.homeDoes; split <;> rfl
@[simp] theorem State.homeDoes_alarms : (s.homeDoes l c).alarms = s.alarms := by unfold State.homeDoes; split <;> rfl
@[simp] theorem State.homeDoes_backup : (s.homeDoes l c).backup = s.backup := by unfold State.homeDoes; split <;> rfl
@[simp] theorem State.homeDoes_log : (s.homeDoes l c).log = s.log := by unfold State.homeDoes; split <;> rfl
@[simp] theorem State.homeDoes_leave : (s.homeDoes l c).leave = s.leave := by unfold State.homeDoes; split <;> rfl
@[simp] theorem State.homeDoes_chans : (s.homeDoes l c).chans = s.chans := by unfold State.homeDoes; split <;> rfl
@[simp] theorem State.homeDoes_hand : (s.homeDoes l c).hand = s.hand := by unfold State.homeDoes; split <;> rfl
@[simp] theorem State.homeDoes_link : (s.homeDoes l c).link = s.link := by unfold State.homeDoes; split <;> rfl
@[simp] theorem State.homeDoes_mspi : (s.homeDoes l c).mspi = s.mspi := by unfold State.homeDoes; split <;> rfl
@[simp] theorem State.homeDoes_linkOut : (s.homeDoes l c).linkOut = s.linkOut := by unfold State.homeDoes; split <;> rfl
@[simp] theorem State.homeDoes_cyc : (s.homeDoes l c).cyc = s.cyc := by unfold State.homeDoes; split <;> rfl
@[simp] theorem State.homeDoes_fresh : (s.homeDoes l c).fresh = s.fresh := by unfold State.homeDoes; split <;> rfl
@[simp] theorem State.homeDoes_pending : (s.homeDoes l c).pending = s.pending := by unfold State.homeDoes; split <;> rfl
@[simp] theorem State.homeDoes_ph : (s.homeDoes l c).ph j = s.ph j := by unfold State.homeDoes; split <;> rfl
@[simp] theorem State.homeDoes_st : (s.homeDoes l c).st j = s.st j := by unfold State.homeDoes; split <;> rfl
@[simp] theorem State.homeDoes_pw : (s.homeDoes l c).pw j = s.pw j := by unfold State.homeDoes; split <;> rfl
@[simp] theorem State.homeDoes_pd : (s.homeDoes l c).pd j = s.pd j := by unfold State.homeDoes; split <;> rfl
@[simp] theorem State.homeDoes_sh : (s.homeDoes l c).sh j = s.sh j := by unfold State.homeDoes; split <;> rfl
@[simp] theorem State.homeDoes_pk : (s.homeDoes l c).pk j = s.pk j := by unfold State.homeDoes; split <;> rfl
@[simp] theorem State.homeDoes_pv : (s.homeDoes l c).pv j = s.pv j := by unfold State.homeDoes; split <;> rfl
@[simp] theorem State.homeDoes_pg : (s.homeDoes l c).pg j = s.pg j := by unfold State.homeDoes; split <;> rfl
@[simp] theorem State.homeDoes_co : (s.homeDoes l c).co j = s.co j := by unfold State.homeDoes; split <;> rfl
@[simp] theorem State.homeDoes_en : (s.homeDoes l c).en j = s.en j := by unfold State.homeDoes; split <;> rfl
@[simp] theorem State.homeDoes_ch : (s.homeDoes l c).ch j = s.ch j := by unfold State.homeDoes; split <;> rfl
@[simp] theorem State.homeDoes_ln : (s.homeDoes l c).ln j = s.ln j := by unfold State.homeDoes; split <;> rfl
@[simp] theorem State.homeDoes_mb : (s.homeDoes l c).mb j = s.mb j := by unfold State.homeDoes; split <;> rfl
@[simp] theorem State.homeDoes_po : (s.homeDoes l c).po j = s.po j := by unfold State.homeDoes; split <;> rfl
@[simp] theorem State.homeDoes_ks : (s.homeDoes l c).ks j = s.ks j := by unfold State.homeDoes; split <;> rfl
@[simp] theorem State.homePut_boot : (s.homePut a bs).boot = s.boot := State.homeDoes_boot _ _ _
@[simp] theorem State.homePut_hold : (s.homePut a bs).hold = s.hold := State.homeDoes_hold _ _ _
@[simp] theorem State.homePut_stands : (s.homePut a bs).stands = s.stands := State.homeDoes_stands _ _ _
@[simp] theorem State.homePut_ctr : (s.homePut a bs).ctr = s.ctr := State.homeDoes_ctr _ _ _
@[simp] theorem State.homePut_win : (s.homePut a bs).win = s.win := State.homeDoes_win _ _ _
@[simp] theorem State.homePut_dec : (s.homePut a bs).dec = s.dec := State.homeDoes_dec _ _ _
@[simp] theorem State.homePut_sheaves : (s.homePut a bs).sheaves = s.sheaves := State.homeDoes_sheaves _ _ _
@[simp] theorem State.homePut_rules : (s.homePut a bs).rules = s.rules := State.homeDoes_rules _ _ _
@[simp] theorem State.homePut_wake : (s.homePut a bs).wake = s.wake := State.homeDoes_wake _ _ _
@[simp] theorem State.homePut_wport : (s.homePut a bs).wport = s.wport := State.homeDoes_wport _ _ _
@[simp] theorem State.homePut_verd : (s.homePut a bs).verd = s.verd := State.homeDoes_verd _ _ _
@[simp] theorem State.homePut_gran : (s.homePut a bs).gran = s.gran := State.homeDoes_gran _ _ _
@[simp] theorem State.homePut_pgran : (s.homePut a bs).pgran = s.pgran := State.homeDoes_pgran _ _ _
@[simp] theorem State.homePut_cores : (s.homePut a bs).cores = s.cores := State.homeDoes_cores _ _ _
@[simp] theorem State.homePut_mems : (s.homePut a bs).mems = s.mems := State.homeDoes_mems _ _ _
@[simp] theorem State.homePut_flaws : (s.homePut a bs).flaws = s.flaws := State.homeDoes_flaws _ _ _
@[simp] theorem State.homePut_engines : (s.homePut a bs).engines = s.engines := State.homeDoes_engines _ _ _
@[simp] theorem State.homePut_keys : (s.homePut a bs).keys = s.keys := State.homeDoes_keys _ _ _
@[simp] theorem State.homePut_fuses : (s.homePut a bs).fuses = s.fuses := State.homeDoes_fuses _ _ _
@[simp] theorem State.homePut_alarms : (s.homePut a bs).alarms = s.alarms := State.homeDoes_alarms _ _ _
@[simp] theorem State.homePut_backup : (s.homePut a bs).backup = s.backup := State.homeDoes_backup _ _ _
@[simp] theorem State.homePut_log : (s.homePut a bs).log = s.log := State.homeDoes_log _ _ _
@[simp] theorem State.homePut_leave : (s.homePut a bs).leave = s.leave := State.homeDoes_leave _ _ _
@[simp] theorem State.homePut_chans : (s.homePut a bs).chans = s.chans := State.homeDoes_chans _ _ _
@[simp] theorem State.homePut_hand : (s.homePut a bs).hand = s.hand := State.homeDoes_hand _ _ _
@[simp] theorem State.homePut_link : (s.homePut a bs).link = s.link := State.homeDoes_link _ _ _
@[simp] theorem State.homePut_mspi : (s.homePut a bs).mspi = s.mspi := State.homeDoes_mspi _ _ _
@[simp] theorem State.homePut_linkOut : (s.homePut a bs).linkOut = s.linkOut := State.homeDoes_linkOut _ _ _
@[simp] theorem State.homePut_cyc : (s.homePut a bs).cyc = s.cyc := State.homeDoes_cyc _ _ _
@[simp] theorem State.homePut_fresh : (s.homePut a bs).fresh = s.fresh := State.homeDoes_fresh _ _ _
@[simp] theorem State.homePut_pending : (s.homePut a bs).pending = s.pending := State.homeDoes_pending _ _ _
@[simp] theorem State.homePut_ph : (s.homePut a bs).ph j = s.ph j := State.homeDoes_ph _ _ _ _
@[simp] theorem State.homePut_st : (s.homePut a bs).st j = s.st j := State.homeDoes_st _ _ _ _
@[simp] theorem State.homePut_pw : (s.homePut a bs).pw j = s.pw j := State.homeDoes_pw _ _ _ _
@[simp] theorem State.homePut_pd : (s.homePut a bs).pd j = s.pd j := State.homeDoes_pd _ _ _ _
@[simp] theorem State.homePut_sh : (s.homePut a bs).sh j = s.sh j := State.homeDoes_sh _ _ _ _
@[simp] theorem State.homePut_pk : (s.homePut a bs).pk j = s.pk j := State.homeDoes_pk _ _ _ _
@[simp] theorem State.homePut_pv : (s.homePut a bs).pv j = s.pv j := State.homeDoes_pv _ _ _ _
@[simp] theorem State.homePut_pg : (s.homePut a bs).pg j = s.pg j := State.homeDoes_pg _ _ _ _
@[simp] theorem State.homePut_co : (s.homePut a bs).co j = s.co j := State.homeDoes_co _ _ _ _
@[simp] theorem State.homePut_en : (s.homePut a bs).en j = s.en j := State.homeDoes_en _ _ _ _
@[simp] theorem State.homePut_ch : (s.homePut a bs).ch j = s.ch j := State.homeDoes_ch _ _ _ _
@[simp] theorem State.homePut_ln : (s.homePut a bs).ln j = s.ln j := State.homeDoes_ln _ _ _ _
@[simp] theorem State.homePut_mb : (s.homePut a bs).mb j = s.mb j := State.homeDoes_mb _ _ _ _
@[simp] theorem State.homePut_po : (s.homePut a bs).po j = s.po j := State.homeDoes_po _ _ _ _
@[simp] theorem State.homePut_ks : (s.homePut a bs).ks j = s.ks j := State.homeDoes_ks _ _ _ _
@[simp] theorem State.homeErase_boot : (s.homeErase a len).boot = s.boot := State.homeDoes_boot _ _ _
@[simp] theorem State.homeErase_hold : (s.homeErase a len).hold = s.hold := State.homeDoes_hold _ _ _
@[simp] theorem State.homeErase_stands : (s.homeErase a len).stands = s.stands := State.homeDoes_stands _ _ _
@[simp] theorem State.homeErase_ctr : (s.homeErase a len).ctr = s.ctr := State.homeDoes_ctr _ _ _
@[simp] theorem State.homeErase_win : (s.homeErase a len).win = s.win := State.homeDoes_win _ _ _
@[simp] theorem State.homeErase_dec : (s.homeErase a len).dec = s.dec := State.homeDoes_dec _ _ _
@[simp] theorem State.homeErase_sheaves : (s.homeErase a len).sheaves = s.sheaves := State.homeDoes_sheaves _ _ _
@[simp] theorem State.homeErase_rules : (s.homeErase a len).rules = s.rules := State.homeDoes_rules _ _ _
@[simp] theorem State.homeErase_wake : (s.homeErase a len).wake = s.wake := State.homeDoes_wake _ _ _
@[simp] theorem State.homeErase_wport : (s.homeErase a len).wport = s.wport := State.homeDoes_wport _ _ _
@[simp] theorem State.homeErase_verd : (s.homeErase a len).verd = s.verd := State.homeDoes_verd _ _ _
@[simp] theorem State.homeErase_gran : (s.homeErase a len).gran = s.gran := State.homeDoes_gran _ _ _
@[simp] theorem State.homeErase_pgran : (s.homeErase a len).pgran = s.pgran := State.homeDoes_pgran _ _ _
@[simp] theorem State.homeErase_cores : (s.homeErase a len).cores = s.cores := State.homeDoes_cores _ _ _
@[simp] theorem State.homeErase_mems : (s.homeErase a len).mems = s.mems := State.homeDoes_mems _ _ _
@[simp] theorem State.homeErase_flaws : (s.homeErase a len).flaws = s.flaws := State.homeDoes_flaws _ _ _
@[simp] theorem State.homeErase_engines : (s.homeErase a len).engines = s.engines := State.homeDoes_engines _ _ _
@[simp] theorem State.homeErase_keys : (s.homeErase a len).keys = s.keys := State.homeDoes_keys _ _ _
@[simp] theorem State.homeErase_fuses : (s.homeErase a len).fuses = s.fuses := State.homeDoes_fuses _ _ _
@[simp] theorem State.homeErase_alarms : (s.homeErase a len).alarms = s.alarms := State.homeDoes_alarms _ _ _
@[simp] theorem State.homeErase_backup : (s.homeErase a len).backup = s.backup := State.homeDoes_backup _ _ _
@[simp] theorem State.homeErase_log : (s.homeErase a len).log = s.log := State.homeDoes_log _ _ _
@[simp] theorem State.homeErase_leave : (s.homeErase a len).leave = s.leave := State.homeDoes_leave _ _ _
@[simp] theorem State.homeErase_chans : (s.homeErase a len).chans = s.chans := State.homeDoes_chans _ _ _
@[simp] theorem State.homeErase_hand : (s.homeErase a len).hand = s.hand := State.homeDoes_hand _ _ _
@[simp] theorem State.homeErase_link : (s.homeErase a len).link = s.link := State.homeDoes_link _ _ _
@[simp] theorem State.homeErase_mspi : (s.homeErase a len).mspi = s.mspi := State.homeDoes_mspi _ _ _
@[simp] theorem State.homeErase_linkOut : (s.homeErase a len).linkOut = s.linkOut := State.homeDoes_linkOut _ _ _
@[simp] theorem State.homeErase_cyc : (s.homeErase a len).cyc = s.cyc := State.homeDoes_cyc _ _ _
@[simp] theorem State.homeErase_fresh : (s.homeErase a len).fresh = s.fresh := State.homeDoes_fresh _ _ _
@[simp] theorem State.homeErase_pending : (s.homeErase a len).pending = s.pending := State.homeDoes_pending _ _ _
@[simp] theorem State.homeErase_ph : (s.homeErase a len).ph j = s.ph j := State.homeDoes_ph _ _ _ _
@[simp] theorem State.homeErase_st : (s.homeErase a len).st j = s.st j := State.homeDoes_st _ _ _ _
@[simp] theorem State.homeErase_pw : (s.homeErase a len).pw j = s.pw j := State.homeDoes_pw _ _ _ _
@[simp] theorem State.homeErase_pd : (s.homeErase a len).pd j = s.pd j := State.homeDoes_pd _ _ _ _
@[simp] theorem State.homeErase_sh : (s.homeErase a len).sh j = s.sh j := State.homeDoes_sh _ _ _ _
@[simp] theorem State.homeErase_pk : (s.homeErase a len).pk j = s.pk j := State.homeDoes_pk _ _ _ _
@[simp] theorem State.homeErase_pv : (s.homeErase a len).pv j = s.pv j := State.homeDoes_pv _ _ _ _
@[simp] theorem State.homeErase_pg : (s.homeErase a len).pg j = s.pg j := State.homeDoes_pg _ _ _ _
@[simp] theorem State.homeErase_co : (s.homeErase a len).co j = s.co j := State.homeDoes_co _ _ _ _
@[simp] theorem State.homeErase_en : (s.homeErase a len).en j = s.en j := State.homeDoes_en _ _ _ _
@[simp] theorem State.homeErase_ch : (s.homeErase a len).ch j = s.ch j := State.homeDoes_ch _ _ _ _
@[simp] theorem State.homeErase_ln : (s.homeErase a len).ln j = s.ln j := State.homeDoes_ln _ _ _ _
@[simp] theorem State.homeErase_mb : (s.homeErase a len).mb j = s.mb j := State.homeDoes_mb _ _ _ _
@[simp] theorem State.homeErase_po : (s.homeErase a len).po j = s.po j := State.homeDoes_po _ _ _ _
@[simp] theorem State.homeErase_ks : (s.homeErase a len).ks j = s.ks j := State.homeDoes_ks _ _ _ _
end

end Sys2Proof.Machine
end

