-- ==== Sys2Proof/Laws/Isa.lean ====
section
/-! SUPPORT. What the issue of a Fekiroth-36 word can do, said once: a word that is Ready does its effect on the state that
the issue finds. -/

namespace Sys2Proof.Machine

open Sys2Proof

/-- A Ready word does what its effect says. -/
theorem State.issue_ready (s : State) (c : CoreId) (w : W36) (f : State → Core → Res) (h : s.Ready c w) :
    s.issue c w f = match f (s.atIssue c) (s.coreAt c) with
      | .fault cause ea => (s.atIssue c).faultWord c cause ea (s.coreAt c).pc (s.coreAt c).slot
      | .trap arg => (s.atIssue c).faultWord c 8 (some arg) ((s.coreAt c).pc + 8) ((s.coreAt c).slot + 1)
      | .wait t => t
      | .go t jump => t.coU (coreNo c) fun k => k.advance jump := by
  obtain ⟨h1, h2, hb, h3, h4, h5, h6, h7, h8, h9⟩ := h
  have hb' : ((s.slotTo c (s.co (coreNo c)).slot).co (coreNo c)).badRegs.contains pcReg = false := hb
  have h3' : fetchOk c ((s.slotTo c (s.co (coreNo c)).slot).co (coreNo c)).pc.toNat = true := h3
  have h6' : condHolds (wordCond w) ((s.slotTo c (s.co (coreNo c)).slot).co (coreNo c)).fl = true := h6
  have h7' : (s.slotTo c (s.co (coreNo c)).slot).readBad c ((s.slotTo c (s.co (coreNo c)).slot).co (coreNo c)).pc.toNat 8 = false := h7
  have h8' : ((s.slotTo c (s.co (coreNo c)).slot).co (coreNo c)).readsBad w = false := h8
  have h9' : (decide (wordCond w ≠ 0) && ((s.slotTo c (s.co (coreNo c)).slot).co (coreNo c)).flaws.contains .fl) = false := by
    by_cases hc : wordCond w = 0
    · simp [hc]
    · have : Dest.fl ∉ ((s.slotTo c (s.co (coreNo c)).slot).co (coreNo c)).flaws := h9 hc
      simpa [hc] using this
  have hp' : (isP c && decide (wordCond w ≠ 0)) = false := by
    by_cases hp : isP c = true
    · simp [h5 hp]
    · simp [hp]
  simp only [State.issue, h1, h2, hb', h3', h4, h6', h7', h8', h9', hp']
  rfl

/-- A change of one core leaves everything but the cores, and the other cores, alone. -/
theorem State.left_coU (u : State) (c : CoreId) (f : Core → Core) :
    u.Left (u.coU (coreNo c) f) c (f (u.co (coreNo c))) :=
  ⟨rfl, State.coU_co_same u _ f, fun j hj => State.coU_co_ne u _ j f hj⟩

/-- Two changes of one core. -/
theorem State.left_coU_coU (u : State) (c : CoreId) (f g : Core → Core) :
    u.Left ((u.coU (coreNo c) f).coU (coreNo c) g) c (g (f (u.co (coreNo c)))) := by
  refine ⟨rfl, by simp, fun j hj => by simp [hj]⟩

/-- A Ready word with one register result. -/
theorem State.issue_result (s : State) (c : CoreId) (w : W36) (f : State → Core → Res) (d : Dest) (v : W72) (dist : Nat)
    (h : s.Ready c w) (hf : f (s.atIssue c) (s.coreAt c) = .go ((s.atIssue c).result c d v dist) none) :
    s.Issued c d v dist (s.issue c w f) := by
  rw [s.issue_ready c w f h, hf]
  exact State.left_coU_coU _ _ _ _

end Sys2Proof.Machine
end

