-- ==== Sys2Proof/Laws/Mail.lean ====
section
/-! SUPPORT. Laws of the mailboxes: what a response, and the writing of responses that wait for credits, can do. -/

namespace Sys2Proof.Machine

variable {s : State}

/-- `t` differs from `s` in the mailboxes' words and the census alone. -/
def OnlyMail (s t : State) : Prop := { t with mspi := { t.mspi with boxes := s.mspi.boxes }, leave := s.leave } = s

theorem OnlyMail.refl (s : State) : OnlyMail s s := rfl

theorem OnlyMail.trans {s t u : State} (h : OnlyMail s t) (k : OnlyMail t u) : OnlyMail s u := by
  unfold OnlyMail at *
  rw [← k] at h
  exact h

/-- One response that waits is written, or nothing changes: what the mailbox has to deliver is the same. -/
theorem State.flush_one (q : Nat) (r : List W32) (t : State)
    (ht : t = if (s.mb q).owed.head? = some r ∧ r.length ≤ s.rspRoom q then
      (s.poolMove (24 + q) 0 1 r.length).mbU q fun b => { b with rsp := b.rsp ++ r, owed := b.owed.drop 1 } else s) :
    t.outgoing q = s.outgoing q ∧ OnlyMail s t := by
  subst ht
  split
  · next h =>
    refine ⟨?_, rfl⟩
    have hm : ((s.poolMove (24 + q) 0 1 r.length).mb q) = s.mb q := rfl
    simp only [State.outgoing, State.mbU_mb, if_true, hm]
    cases ho : (s.mb q).owed with
    | nil => rw [ho] at h; simp at h
    | cons x l =>
      rw [ho] at h
      have : x = r := by simpa using h.1
      subst this
      simp
  · exact ⟨rfl, rfl⟩

/-- Writing the responses that wait changes neither their order nor their words. -/
theorem State.boxFlush_outgoing (q : Nat) : (s.boxFlush q).outgoing q = s.outgoing q ∧ OnlyMail s (s.boxFlush q) := by
  unfold State.boxFlush
  generalize (s.mb q).owed = l
  induction l generalizing s with
  | nil => exact ⟨rfl, rfl⟩
  | cons r l ih =>
    rw [List.foldl_cons]
    obtain ⟨h1, h2⟩ := State.flush_one (s := s) q r _ rfl
    obtain ⟨h3, h4⟩ := ih (s := if (s.mb q).owed.head? = some r ∧ r.length ≤ s.rspRoom q then
      (s.poolMove (24 + q) 0 1 r.length).mbU q fun b => { b with rsp := b.rsp ++ r, owed := b.owed.drop 1 } else s)
    exact ⟨h3.trans h1, h2.trans h4⟩

/-- A response stands behind everything that the mailbox had to deliver, unless the mailbox has been aborted, and nothing
but mailbox words and credits changes. -/
theorem State.respond_outgoing (q : Nat) (tag : Byte) (status : Nat) (ws : List W32) (h : (s.mb q).aborted = false) :
    (s.respond q tag status ws).outgoing q = s.outgoing q ++ rspHeader status tag ws.length :: ws
      ∧ OnlyMail s (s.respond q tag status ws) := by
  unfold State.respond
  obtain ⟨h1, h2⟩ := State.boxFlush_outgoing (s := s.mbU q fun b => { b with
    tag := none, call := none, owed := if b.aborted then b.owed else b.owed ++ [rspHeader status tag ws.length :: ws] }) q
  refine ⟨h1.trans ?_, OnlyMail.trans (t := s.mbU q fun b => { b with
    tag := none, call := none, owed := if b.aborted then b.owed else b.owed ++ [rspHeader status tag ws.length :: ws] }) rfl h2⟩
  simp [State.outgoing, h]

end Sys2Proof.Machine
end

