-- ==== Sys2Proof/Laws/Memory.lean ====
section
/-! SUPPORT. Laws of the memories: every memory operation keeps the canonical form, and what a read gives after it. -/

namespace Sys2Proof.Machine

variable {s : State}

/-! ### The canonical form is kept -/

/-- A table of tables in canonical form stays so when one of them changes into a canonical one. -/
theorem Tab.all_put {β : Type} [DecidableEq β] (d : β) (p : β → Bool) (t : Tab β) (n : Nat) (v : β)
    (h : (t.all fun e => p e.2) = true) (hv : p v = true) : ((Tab.put d t n v).all fun e => p e.2) = true := by
  rw [List.all_eq_true] at h ⊢
  intro e he
  unfold Tab.put at he
  split at he
  · exact h e ((Tab.mem_del t n e).1 he).1
  · rcases (Tab.mem_ins _ n v e).1 he with rfl | he
    · exact hv
    · exact h e ((Tab.mem_del t n e).1 he).1

theorem State.memWf_iff : s.memWf = true ↔ Tab.wf 0xFF s.home = true ∧ Tab.wf 0 s.gran.data = true ∧ Tab.wf [] s.mems = true
    ∧ (s.mems.all fun e => Tab.wf 0 e.2) = true := by
  simp [State.memWf, and_assoc]

/-- A local memory's table is canonical. -/
theorem State.memWf_mem (h : s.memWf = true) (m : Nat) : Tab.wf 0 (Tab.get [] s.mems m) = true := by
  have h4 := (State.memWf_iff.1 h).2.2.2
  rw [List.all_eq_true] at h4
  generalize s.mems = t at h4
  induction t with
  | nil => rfl
  | cons e t ih =>
    obtain ⟨k, v⟩ := e
    unfold Tab.get
    split
    · exact h4 (k, v) (by simp)
    · exact ih fun e he => h4 e (by simp [he])

/-- What the home port does keeps the form of a content that has it. -/
theorem State.memWf_homeDoes (l : List FlashOp) (c : Tab Byte) (h : s.memWf = true) (hc : Tab.wf 0xFF c = true) :
    (s.homeDoes l c).memWf = true := by
  have w := State.memWf_iff.1 h
  unfold State.homeDoes
  split
  · exact State.memWf_iff.2 ⟨hc, w.2⟩
  · exact h

theorem State.memWf_homePut (a : Nat) (bs : List Byte) (h : s.memWf = true) : (s.homePut a bs).memWf = true :=
  State.memWf_homeDoes _ _ h (Tab.wf_putList _ _ _ _ (State.memWf_iff.1 h).1)

theorem State.memWf_homeErase (a n : Nat) (h : s.memWf = true) : (s.homeErase a n).memWf = true :=
  State.memWf_homeDoes _ _ h (Tab.wf_clear _ _ _ _ (State.memWf_iff.1 h).1)

theorem State.memWf_granPut (a : Nat) (bs : List Byte) (h : s.memWf = true) : (s.granPut a bs).memWf = true := by
  have w := State.memWf_iff.1 h
  exact State.memWf_iff.2 ⟨w.1, Tab.wf_putList _ _ _ _ w.2.1, w.2.2⟩

theorem State.memWf_memPut (m a : Nat) (bs : List Byte) (h : s.memWf = true) : (s.memPut m a bs).memWf = true := by
  have w := State.memWf_iff.1 h
  have h3 : Tab.wf [] (s.memPut m a bs).mems = true := Tab.wf_upd (α := List (Nat × BitVec 8)) [] s.mems m (fun t => Tab.putList 0 t a bs) w.2.2.1
  have h4 : ((s.memPut m a bs).mems.all fun e => Tab.wf 0 e.2) = true := by
    unfold State.memPut
    exact Tab.all_put [] (fun t => Tab.wf 0 t) _ _ _ w.2.2.2 (Tab.wf_putList _ _ _ _ (State.memWf_mem h m))
  exact State.memWf_iff.2 ⟨w.1, w.2.1, h3, h4⟩

theorem State.memWf_memZero (m : Nat) (h : s.memWf = true) : (s.memZero m).memWf = true := by
  have w := State.memWf_iff.1 h
  have h3 : Tab.wf [] (s.memZero m).mems = true := Tab.wf_put (α := List (Nat × BitVec 8)) [] s.mems m [] w.2.2.1
  have h4 : ((s.memZero m).mems.all fun e => Tab.wf 0 e.2) = true := by
    unfold State.memZero
    exact Tab.all_put (β := List (Nat × BitVec 8)) [] (fun t => Tab.wf 0 t) s.mems m [] w.2.2.2 rfl
  exact State.memWf_iff.2 ⟨w.1, w.2.1, h3, h4⟩

/-- What touches none of the three memories keeps the form. -/
theorem State.memWf_of_same {t : State} (h : s.memWf = true) (h1 : t.home = s.home) (h2 : t.gran.data = s.gran.data)
    (h3 : t.mems = s.mems) : t.memWf = true := by
  unfold State.memWf at h ⊢; rw [h1, h2, h3]; exact h

/-! ### Reads after writes -/

theorem Tab.length_range {β : Type} (d : β) (t : Tab β) (n len : Nat) : (Tab.range d t n len).length = len := by
  induction len generalizing n with
  | zero => rfl
  | succ k ih => simp [Tab.range, ih]

theorem Tab.getElem_range {β : Type} (d : β) (t : Tab β) (n len i : Nat) (h : i < (Tab.range d t n len).length) :
    (Tab.range d t n len)[i] = Tab.get d t (n + i) := by
  induction len generalizing n i with
  | zero => simp [Tab.range] at h
  | succ k ih =>
    cases i with
    | zero => rfl
    | succ i =>
      simp only [Tab.range, List.getElem_cons_succ]
      rw [ih]; congr 1; omega

/-- Reads of a range agree where every byte does. -/
theorem Tab.range_congr {β : Type} (d : β) (t u : Tab β) (n len : Nat)
    (h : ∀ i, i < len → Tab.get d t (n + i) = Tab.get d u (n + i)) : Tab.range d t n len = Tab.range d u n len := by
  apply List.ext_getElem (by simp [Tab.length_range])
  intro i h1 h2
  rw [Tab.getElem_range, Tab.getElem_range]
  exact h i (by rwa [Tab.length_range] at h1)

/-- With its bank up the home port reads what stands there. -/
theorem State.homeGet_up (a n : Nat) (h : s.homeUp = true) : s.homeGet a n = Tab.range 0xFF s.home a n := by
  unfold State.homeGet; rw [if_pos h]

/-- With its bank down no write of the home port reaches the flash (R500). -/
theorem State.homeDoes_down (l : List FlashOp) (c : Tab Byte) (h : s.homeUp = false) : s.homeDoes l c = s := by
  unfold State.homeDoes; rw [if_neg (by simp [h])]

/-- A byte after a program: the new one inside the range where the bank is up, else what stood there. -/
theorem State.homeByte_homePut (a : Nat) (bs : List Byte) (b : Nat) :
    (s.homePut a bs).homeByte b = if s.homeUp = true ∧ a ≤ b ∧ b < a + bs.length then bs.getD (b - a) 0xFF else s.homeByte b := by
  unfold State.homePut State.homeDoes
  by_cases h : s.homeUp = true
  · simp only [h, if_true, true_and]
    exact Tab.get_putList _ _ _ _ _
  · simp [h]

/-- A byte after an erase. -/
theorem State.homeByte_homeErase (a n b : Nat) :
    (s.homeErase a n).homeByte b = if s.homeUp = true ∧ a ≤ b ∧ b < a + n then 0xFF else s.homeByte b := by
  unfold State.homeErase State.homeDoes
  by_cases h : s.homeUp = true
  · simp only [h, if_true, true_and]
    exact Tab.get_clear _ _ _ _ _
  · simp [h]

/-- The bytes programmed are read back. -/
theorem State.homeGet_homePut_same (a : Nat) (bs : List Byte) (h : s.homeUp = true) :
    (s.homePut a bs).homeGet a bs.length = bs := by
  have hu : (s.homePut a bs).homeUp = true := by unfold State.homePut State.homeDoes; rw [if_pos h]; exact h
  rw [State.homeGet_up _ _ hu]
  apply List.ext_getElem (Tab.length_range _ _ _ _)
  intro i h1 h2
  rw [Tab.getElem_range]
  refine (State.homeByte_homePut (s := s) a bs (a + i)).trans ?_
  rw [if_pos ⟨h, by omega, by omega⟩]
  simp [List.getD_eq_getElem?_getD, h2]

/-- Every byte outside the bytes programmed stays. -/
theorem State.homePut_same_but (a : Nat) (bs : List Byte) : HomeSameBut s (s.homePut a bs) a bs.length := fun b hb => by
  rw [State.homeByte_homePut, if_neg fun h => hb h.2]

/-- Every byte outside the erased ones stays. -/
theorem State.homeErase_same_but (a n : Nat) : HomeSameBut s (s.homeErase a n) a n := fun b hb => by
  rw [State.homeByte_homeErase, if_neg fun h => hb h.2]

/-- A byte of the Granary after a write: the scrambler undoes itself. -/
theorem State.granByte_granPut (a : Nat) (bs : List Byte) (b : Nat) :
    (s.granPut a bs).granByte b = if a ≤ b ∧ b < a + bs.length then bs.getD (b - a) 0 else s.granByte b := by
  have hs : (s.granPut a bs).scrambler b = s.scrambler b := rfl
  simp only [State.granByte, hs]
  simp only [State.granPut]
  rw [Tab.get_putList]
  simp only [List.length_map, List.length_zipIdx]
  split
  · next h =>
    obtain ⟨i, rfl⟩ := Nat.exists_eq_add_of_le h.1
    have hi : i < bs.length := by omega
    simp [List.getD_eq_getElem?_getD, hi]
  · rfl

/-- The bytes written to the Granary are read back. -/
theorem State.granGet_granPut_same (a : Nat) (bs : List Byte) : (s.granPut a bs).granGet a bs.length = bs := by
  apply List.ext_getElem (by simp [State.granGet])
  intro i h1 h2
  simp only [State.granGet, List.getElem_map, List.getElem_range]
  rw [State.granByte_granPut, if_pos ⟨by omega, by omega⟩]
  simp [List.getD_eq_getElem?_getD, h2]

/-- A byte of a local memory after a write. -/
theorem State.mem_get_memPut (m a : Nat) (bs : List Byte) (j b : Nat) :
    (s.memPut m a bs).memGet j b
      = if j = m ∧ a ≤ b ∧ b < a + bs.length then bs.getD (b - a) 0 else s.memGet j b := by
  simp only [State.memGet, State.memPut, Tab.get_upd]
  by_cases hj : j = m
  · subst hj
    simp only [if_true, true_and]
    rw [Tab.get_putList]
  · simp [hj]

end Sys2Proof.Machine
end

