-- ==== Sys2Proof/Tests/Slice0.lean ====
section
/-! SUPPORT. Smoke tests of well-formedness, worked values of the spec, and for every statement with hypotheses one
theorem that shows states and operands which meet them, clause by clause. -/

open Sys2Proof Sys2Proof.Machine

set_option Elab.async false

namespace Sys2Proof.Tests


/-- A frame header of the trust link with this TYPE and SENT (R434). -/
abbrev hdr (type sent : Nat) : TrustHeader :=
  ⟨1, BitVec.ofNat 8 type, 1, BitVec.ofNat 16 sent, 64, 0, 0, 7, 0, 0⟩

/-! ### Ill-formed terms are refused -/

theorem test_wf_ports_twice : Instr.wf (.wakeEntryEnd [(3, []), (3, [])] [] []) = false := by decide

theorem test_wf_round_ports_twice : Instr.wf (.wakeRound [(3, []), (3, [])] []) = false := by decide

theorem test_wf_arrivals_out_of_order :
    Instr.wf (.hostFrame 0 ⟨false, [], [], [(9, .dcs 0), (8, .dcs 0)], [], [], []⟩) = false := by decide

theorem test_wf_stall_arrivals :
    Instr.wf (.stallTimeout 0 ⟨false, [], [], [(9, .dcs 0), (8, .dcs 0)], [], [], []⟩) = false := by decide

theorem test_wf_breach_arrivals :
    Instr.wf (.profileBreach 0 ⟨false, [], [], [(9, .dcs 0), (8, .dcs 0)], [], [], []⟩) = false := by decide

theorem test_wf_probe_index : Instr.wf (.probe .lane 24 true) = false := by decide

theorem test_wf_bucket_index : Instr.wf (.bucketDecay .home 1) = false := by decide

theorem test_wf_pool_code : Instr.wf (.reconciliationDone 7) = false := by decide

theorem test_wf_provenance_nonce : Instr.wf (.keyUnitProvenance { agent := .canopyA } 8 []) = false := by decide

theorem test_wf_pulse_count : Instr.wf (.fuseDone [(0, 0, 0)]) = false := by decide

theorem test_wf_certificate_offset : Instr.wf (.spdmGetCertificate 0 (hdr 0x10 0) [] 65536 0) = false := by decide

theorem test_wf_challenge_nonce : Instr.wf (.spdmChallenge 0 (hdr 0x10 0) [] []) = false := by decide

theorem test_wf_measurements_nonce : Instr.wf (.spdmGetMeasurements 0 (hdr 0x10 0) [] 0 true []) = false := by decide

theorem test_wf_leaf_verify : Instr.wf (.leafVerify 0 (2 ^ 32)) = false := by decide

theorem test_wf_leaf_timeout : Instr.wf (.leafTimeout 0 (2 ^ 32)) = false := by decide

theorem test_wf_good : Instr.wf (.probe .lane 23 true) = true := by decide

/-! ### Cores -/

/-- A core with these registers. -/
abbrev onCore (c : CoreId) (k : Core) : State := { State.reset with cores := [(coreNo c, k)] }

/-- A core that runs from address 0. -/
abbrev runs (c : CoreId) : State := onCore c { run := .running }

/-- Registers with values to try: D1, D2, A1, A2. -/
abbrev regs : Core := { run := .running, d := [(1, 5), (2, 1)], a := [(1, 64), (2, 0x1000)], fl := 4, evec := 0x100 }

/-- Ready, as a value. -/
def readyB (s : State) (c : CoreId) (w : W36) : Bool :=
  decide ((s.co (coreNo c)).run = .running) && (!s.xipWaits c && (!(s.coreAt c).badRegs.contains pcReg && (fetchOk c (s.coreAt c).pc.toNat && (wordLegal c w
    && ((!isP c || decide (wordCond w = 0)) && (condHolds (wordCond w) (s.coreAt c).fl
    && (!(s.atIssue c).readBad c (s.coreAt c).pc.toNat 8 && (!(s.coreAt c).readsBad w && !(s.coreAt c).flaws.contains .fl))))))))

theorem ready_all {s : State} {c : CoreId} {l : List W36} (h : l.all (readyB s c) = true) : ∀ w ∈ l, s.Ready c w := by
  intro w hw
  have := List.all_eq_true.mp h w hw
  simp only [readyB, Bool.and_eq_true, decide_eq_true_eq, Bool.or_eq_true, Bool.not_eq_eq_eq_not, Bool.not_true] at this
  obtain ⟨h1, h2, hb, h3, h4, h5, h6, h7, h8, h9⟩ := this
  refine ⟨h1, h2, hb, h3, h4, fun hp => ?_, h6, h7, h8, fun _ => by simpa using h9⟩
  rcases h5 with h5 | h5
  · rw [hp] at h5; cases h5
  · exact h5

/-- The short op beside goes on. -/
theorem goes_of {s u : State} {c : CoreId} {x : BitVec 16} (h : shortOp c (s.coreAt c) x.toNat false (s.atIssue c) = .go u none) :
    s.ShortGoes c x := ⟨u, h⟩

theorem hyp_LongArithmeticResults : ∀ w ∈
    [wordLong 0x01 0 (layR 1 2 3 0x1D), wordLong 0x02 0 (layI 1 2 0x1FFFF), wordLong 0x03 0 (layI 1 2 0), wordLong 0x04 0 (layI 1 2 7),
     wordLong 0x05 0 (layI 0 2 7), wordLong 0x06 0 (layI 1 2 0xFF), wordLong 0x07 0 (layW 1 0x1FFFFF), wordLong 0x08 0 (layW 1 0x7FFF),
     wordLong 0x0F 0 (layI 1 2 (35 * 64 + 36)), wordLong 0x0C 0 (layR 1 2 3 2)], (runs .link).Ready .link w :=
  ready_all (by decide +kernel)

theorem hyp_LongFlagsAccumulatorsAddresses : ∀ w ∈
    [wordLong 0x00 0 0, wordLong 0x09 0 (layR 0 1 2 0), wordLong 0x0A 1 (layI 0 1 0x1FFFF), wordLong 0x0B 0 (layR 0 1 2 0),
     wordLong 0x0D 0 (layR 3 1 2 6 - 2 ^ 17 - 2 ^ 14), wordLong 0x0D 0 (layR 3 1 2 5), wordLong 0x0E 0 (layR 1 2 0 0),
     wordLong 0x0E 0 (layR 1 2 0 1), wordLong 0x0E 0 (layR 1 2 3 2), wordLong 0x10 0 (layI 7 1 1), wordLong 0x11 0 (layR 1 2 0 0),
     wordLong 0x11 0 (layR 1 2 0 1), wordLong 0x11 0 (layR 1 2 3 2), wordLong 0x12 0 (layAW 7 0x3FFFFF)],
    (onCore .link regs).Ready .link w :=
  ready_all (by decide +kernel)

theorem hyp_LongMemoryResults :
    (∀ w ∈ [wordLong 0x14 0 (layM 1 1 1), wordLong 0x15 0 (layM 1 1 0), wordLong 0x16 0 (layM 1 1 0), wordLong 0x17 0 (layM 1 1 0),
      wordLong 0x18 0 (layM 1 1 0), wordLong 0x19 0 (layM 1 1 0), wordLong 0x1A 0 (layM 1 1 0), wordLong 0x1B 0 (layM 1 1 0),
      wordLong 0x1C 0 (layM 1 1 0), wordLong 0x1D 0 (layM 1 1 0), wordLong 0x1E 0 (layM 3 1 0), wordLong 0x1F 0 (layM 1 1 0)],
      (onCore .link regs).Ready .link w)
    ∧ (((onCore .link regs).coreAt .link).ra 1 + (0 : BitVec 18).signExtend 24).toNat = 64
    ∧ (∀ n ∈ [1, 2, 4, 8, 16], Loads ((onCore .link regs).atIssue .link) .link 64 n ((onCore .link regs).atIssue .link)
        (Tab.range 0 (Tab.get [] ((onCore .link regs).atIssue .link).mems 3) 64 n))
    ∧ (onCore .link regs).place .link 0x100000 = .device ∧ (onCore .seed regs).place .seed 0 = .rom 0
    ∧ storeOk .link 64 false = true ∧ storeOk .link 0x100000 true = true := by
  refine ⟨ready_all (by decide +kernel), by decide +kernel, fun n hn => .mem 3 (by decide +kernel) (by revert n; decide +kernel), ?_⟩
  and_intros <;> decide +kernel

theorem hyp_TransferResults :
    (∀ w ∈ [wordLong 0x20 0 (layB 0 0x1FFFFF), wordLong 0x21 0 (layB 0 2), wordLong 0x21 0 (layB 1 2), wordLong 0x22 0 (layB 1 2),
      wordLong 0x22 0 (layB 0 2), wordLong 0x23 0 (layB 0 2), wordLong 0x24 0 (layR 0 1 0 0), wordLong 0x24 0 (layR 7 1 0 1)],
      (onCore .link regs).Ready .link w)
    ∧ (∀ w ∈ [wordLong 0x21 0 (layB 0 2), wordLong 0x22 0 (layB 2 2)], (onCore .canopyA regs).Ready .canopyA w)
    ∧ ((onCore .canopyA regs).coreAt .canopyA).rd 2 = 1 ∧ ((onCore .link regs).coreAt .link).xfer = []
    ∧ ((onCore .link regs).coreAt .link).rd 0 = 0 ∧ ((onCore .link regs).coreAt .link).rd 1 ≠ 0
    ∧ ((onCore .link regs).coreAt .link).ra 1 % 8 = 0 :=
  ⟨ready_all (by decide +kernel), ready_all (by decide +kernel), by and_intros <;> decide +kernel⟩

theorem hyp_ShortResults :
    (runs .link).ShortGoes .link 0
    ∧ (∀ w ∈ [pairWord 0 false (layRR 0x00 0 0 0) 0, pairWord 0 true (layRR 0x01 1 2 0) 0, pairWord 0 false (layRR 0x02 1 2 0) 0,
      pairWord 0 false (layRR 0x03 1 2 0) 0, pairWord 0 false (layRR 0x04 1 2 0) 0, pairWord 0 false (layRR 0x05 1 2 0) 0,
      pairWord 0 false (layRR 0x06 1 2 0) 0, pairWord 0 false (layRI 0x07 1 0x7F) 0, pairWord 0 false (layRI 0x08 1 0x40) 0,
      pairWord 0 false (layRI 0x09 1 0x7F) 0, pairWord 0 false (layRI 0x0A 1 0x3F) 0, pairWord 0 false (layRR 0x0B 1 2 7) 0,
      pairWord 0 false (layRR 0x0C 1 2 0) 0, pairWord 0 false (layRR 0x0D 1 2 0) 0, pairWord 0 false (layRR 0x0E 1 2 0) 0,
      pairWord 0 false (layRR 0x0F 1 2 0) 0, pairWord 0 false (layRI 0x15 7 0x7F) 0, pairWord 0 false (layRR 0x16 7 2 0) 0,
      pairWord 0 false (layRR 0x17 1 7 0) 0, pairWord 0 false (layRR 0x18 1 2 0) 0, pairWord 0 false (layRR 0x19 1 2 0) 0,
      pairWord 0 false (layRR 0x1A 1 2 7) 0, pairWord 0 true (layRR 0x1B 1 3 1) 0], (runs .link).Ready .link w) :=
  ⟨goes_of (u := (runs .link).atIssue .link) (by decide +kernel), ready_all (by decide +kernel)⟩

theorem hyp_ShortMemoryAndDecisionResults :
    (onCore (.sq 0 0) regs).ShortGoes (.sq 0 0) 0
    ∧ (∀ w ∈ [pairWord 0 false (layRR 0x10 3 0 1) 0, pairWord 0 false (layRR 0x11 3 0 1) 0, pairWord 0 false (layRR 0x12 3 0 1) 0,
      pairWord 0 true (layRR 0x13 3 15 1) 0, pairWord 0 false (layRR 0x14 3 15 1) 0, pairWord 0 false (layRR 0x1C 1 0 0) 0],
      (onCore (.sq 0 0) regs).Ready (.sq 0 0) w)
    ∧ (∀ n ∈ [4, 8], Loads ((onCore (.sq 0 0) regs).atIssue (.sq 0 0)) (.sq 0 0) 64 n ((onCore (.sq 0 0) regs).atIssue (.sq 0 0))
        (Tab.range 0 (Tab.get [] ((onCore (.sq 0 0) regs).atIssue (.sq 0 0)).mems 8) 64 n))
    ∧ storeOk (.sq 0 0) (64 + 60) true = true :=
  ⟨goes_of (u := (onCore (.sq 0 0) regs).atIssue (.sq 0 0)) (by decide +kernel), ready_all (by decide +kernel),
    fun n hn => .mem 8 (by decide +kernel) (by revert n; decide +kernel), by decide +kernel⟩

theorem hyp_PortOpResults :
    (∀ w ∈ [wordLong 0x28 0 0, wordLong 0x29 0 (layR 0 1 2 1), wordLong 0x2A 0 (layR 0 1 0 0), wordLong 0x2B 0 (layR 0 1 2 0)],
      (onCore (.sq 0 0) regs).Ready (.sq 0 0) w)
    ∧ (((onCore (.sq 0 0) regs).atIssue (.sq 0 0)).pd 0).events = []
    ∧ (∀ s : State, s = { onCore (.sq 0 0) { regs with run := .waitEvent } with dec := [(0, { events := [7] })] } →
        (s.co 8).run = .waitEvent ∧ (s.pd 0).events = 7 :: [])
    ∧ (∀ s : State, s = onCore (.sq 0 0) { regs with run := .waitEvent } → (s.co 8).run = .waitEvent ∧ (s.pd 0).events = [])
    ∧ bitsOf (512 + 4) 15 9 ≠ 0 ∧ bitsOf 4 15 9 = 0 :=
  ⟨ready_all (by decide +kernel), by decide +kernel, fun _ h => by subst h; decide +kernel, fun _ h => by subst h; decide +kernel, by decide⟩

theorem hyp_SystemOpResults :
    (∀ w ∈ [wordLong 0x30 0 (layS 1 0 1 0), wordLong 0x30 0 (layS 0 1 2 7), wordLong 0x30 0 (layS 0 1 2 0), wordLong 0x30 0 (layS 0 0 3 0),
      wordLong 0x30 0 (layS 0 0 6 0), wordLong 0x30 0 (layS 0 0 7 0)], (onCore .link regs).Ready .link w)
    ∧ ((onCore .watch { run := .waitIrq }).co 4).run = .waitIrq
    ∧ ((onCore .link { run := .waitIrq, lines := 2, iena := 2 }).co 3).lineUp = true
    ∧ ((onCore .link regs).coreAt .link).badRegs.contains 1 = false :=
  ⟨ready_all (by decide +kernel), by and_intros <;> decide +kernel⟩

theorem hyp_ExceptionEntryAndReturn :
    (∀ w ∈ [wordLong 0x30 0 (layS 0 0 4 0xFF), wordLong 0x30 0 (layS 0 0 5 0)], (onCore .link regs).Ready .link w)
    ∧ ((onCore .link regs).coreAt .link).status.getLsbD 2 = false ∧ ((onCore .link regs).coreAt .link).xfer = []
    ∧ ((onCore .link regs).coreAt .link).badRegs = [] ∧ (onCore .link regs).xipWaits .link = false
    ∧ ((onCore .link regs).coreAt .link).entryBad = false
    ∧ ((onCore .link { regs with status := 4 }).coreAt .link).status.getLsbD 2 = true
    ∧ (onCore .link { regs with status := 4 }).Ready .link (wordLong 0x30 0 (layS 0 0 4 0xFF))
    ∧ (∀ k : Core, k = { run := .running, status := 1, lines := 6, iena := 4, badRegs := [4] } →
        k.run = .running ∧ k.status.getLsbD 0 = true ∧ k.xfer = [] ∧ k.badRegs.any (fun n => decide (7 ≤ n ∧ n ≤ 9)) = false
          ∧ k.lowestLine = some 2)
    ∧ (∀ n ∈ ({ regs with badRegs := [6, 0x0C], cause := 7 } : Core).badRegs, n ∉ [0x04, 0x05, 0x08] ∧ (n = 0x0C → (7 : Nat) < 256))
    ∧ fetchOk .link 0x7FFF8 = true ∧ fetchOk .link ((onCore .link regs).co 3).pc.toNat = true
    ∧ ((onCore .link regs).atIssue .link).readBad .link ((onCore .link regs).coreAt .link).pc.toNat 8 = false
    ∧ wordLegal .link (0x26000000 : W36) = false ∧ (2 ^ 36 : W64).toNat / 2 ^ 36 ≠ 0
    ∧ (onCore .link { regs with flaws := [.d 2] }).ReadsFlawed .link (wordLong 0x01 0 (layR 3 1 2 0)) ∧ (onCore .link regs).rankOf 0x0141 ≤ 4 := by
  refine ⟨ready_all (by decide +kernel), ?_⟩
  and_intros
  all_goals first
    | decide +kernel
    | exact ready_all (l := [wordLong 0x30 0 (layS 0 0 4 0xFF)]) (by decide +kernel) _ (List.mem_singleton_self _)
    | (intro _ h; subst h; decide +kernel)

theorem hyp_AluFunctionTable : ∀ w ∈
    [0, 1, 2, 3, 4, 5, 6, 7, 8, 9, 0x0A, 0x0B, 0x0C, 0x0D, 0x0E, 0x18, 0x19, 0x1A, 0x1B, 0x1C, 0x1D].map
      (fun fn => wordLong 0x01 0 (layR 1 2 3 fn)) ++ [wordLong 0x01 0 (layR 1 2 0 0x0F), wordLong 0x01 0 (layR 1 2 0 0x10)],
    (runs .seed).Ready .seed w :=
  ready_all (by decide +kernel)

theorem hyp_CompareFlags : (runs .link).ShortGoes .link 0
    ∧ ∀ w ∈ [wordLong 0x09 0 (layR 0 1 2 0), wordLong 0x0A 0 (layI 0 1 0x10000), wordLong 0x0B 0 (layR 0 1 2 0),
      pairWord 0 true (layRR 0x0F 1 2 0) 0], (runs .link).Ready .link w :=
  ⟨goes_of (u := (runs .link).atIssue .link) (by decide +kernel), ready_all (by decide +kernel)⟩

theorem hyp_CountsOf36OrMore :
    (∀ s : State, s = onCore .link { run := .running, d := [(1, 3), (3, 36)] } →
      36 ≤ (((s.coreAt .link).rd 3).toNat % 64) ∧ s.ShortGoes .link 0
      ∧ ∀ w ∈ [wordLong 0x01 0 (layR 1 1 3 6), wordLong 0x01 0 (layR 1 1 3 7), wordLong 0x01 0 (layR 1 1 3 8), wordLong 0x01 0 (layR 1 1 3 9),
        wordLong 0x01 0 (layR 1 1 3 0x0E), wordLong 0x06 0 (layI 1 1 36), wordLong 0x06 0 (layI 1 1 (64 + 63)),
        wordLong 0x06 0 (layI 1 1 (128 + 36)), wordLong 0x06 0 (layI 1 1 (192 + 63)), pairWord 0 false (layRI 0x09 1 36) 0,
        pairWord 0 false (layRI 0x09 1 (64 + 63)) 0, pairWord 0 false (layRI 0x0A 1 63) 0, pairWord 0 true (layRR 0x18 3 1 0) 0],
        s.Ready .link w) :=
  fun s h => by
    subst h
    exact ⟨by decide +kernel, goes_of (u := (onCore .link { run := .running, d := [(1, 3), (3, 36)] }).atIssue .link)
      (by decide +kernel), ready_all (by decide +kernel)⟩

/-! ### Start-up, policy, wake, release -/

/-- A policy of zeros with one used port of weight 1 on stand 0, one burst of region B, and the stands in order. -/
abbrev polBytes : List Byte :=
  List.replicate 0x28 0 ++ [0, 1, 2, 3, 4, 5] ++ List.replicate (0x311 - 0x2E) 0 ++ [1] ++ List.replicate 10 0 ++ [1, 0, 5, 0]
    ++ List.replicate 20 0 ++ [1, 0, 0, 0] ++ List.replicate 40 0

/-- The device in SERVICE with every supply good, core A in LEAD, this policy in force, nothing running. -/
abbrev svc : State := { State.reset with
  boot := { dev := .service, sup := { core := true, sram := true, aon := true, sd := true, sda := true, vbat := true, io := 0xFFF, ioH := true },
            refPresent := true, coreLock := true, flashLock := true, sensed := true, canopyOut := true, linkOut := true,
            laneSched := true, lead := .a }
  wake := { policy := some { bytes := polBytes }, schedOk := true, firstDone := true, shelf := { decided := true } }
  sheaves := (List.range 12).map fun k => (k, { refused := true })
  keys := { kSlot := true }
  log := { state := .running, reapplied := true }
  leave := { State.reset.leave with pools := (1, { total := 16, free := 16 }) :: State.reset.leave.pools } }

theorem hyp_SupplyAndClockEvents :
    State.reset.mainGood = false ∧ svc.mainGood = true ∧ svc.boot.refPresent = true ∧ svc.boot.coreLock = true
    ∧ svc.boot.flashLock = true ∧ ({ svc.boot with refHoldover := true } : Boot).refHoldover = true := by
  and_intros <;> decide +kernel

/-- Bytes at home-flash addresses from a on. -/
abbrev homeAt (a : Nat) (bs : List Byte) : Tab Byte := (bs.zipIdx a).map fun e => (e.2, e.1)

/-- A container header of this type, body length, signature length, scheme and signer. -/
abbrev frame (type body sig scheme signer : Nat) : List Byte :=
  leBytes 0x4E434657 4 ++ leBytes type 2 ++ leBytes 1 2 ++ leBytes body 4 ++ leBytes sig 4 ++ leBytes scheme 2 ++ leBytes signer 1
    ++ List.replicate 13 0

/-- Main power is good, nothing else has happened. -/
abbrev started : State := { State.reset with boot := { svc.boot with dev := .start, sensed := false, canopyOut := false, linkOut := false } }

/-- The seed core reads candidate A. -/
abbrev reading (b : BundleStep) : State := { started with boot := { started.boot with sensed := true, step := b, cand := some .a, probes := 1 } }

theorem hyp_StartUpAndBundle :
    started.boot.dev = .start ∧ started.boot.sensed = false ∧ started.mainGood = true ∧ started.boot.refPresent = true
    ∧ (∀ s : State, s = { started with boot := { started.boot with sensed := true, coreLock := false } } →
        s.mainGood = true ∧ s.boot.refPresent = true ∧ s.boot.sensed = true ∧ s.boot.seedOut = false
          ∧ ((s.boot.dev = .start ∧ s.boot.coreLock = false) ∨ (s.boot.dev = .ride ∧ s.boot.entryDone = true)))
    ∧ (reading .headers).boot.dev = .start ∧ (reading .headers).bundleCandidate = none
    ∧ ({ reading .headers with home := homeAt 0 (frame 8 208 16 9 0 ++ List.replicate 224 0) } : State).bundleCandidate = some .a
    ∧ ((reading .reading).seedDraw ((reading .reading).bundleHeader .a)).isSome = true ∧ (reading .reading).boot.cand = some .a
    ∧ (reading .verifying).passOk (reading .verifying).boot.head (reading .verifying).boot.digs = false := by
  and_intros
  all_goals first | decide +kernel | (intro _ h; subst h; decide +kernel)

theorem hyp_CoreReleaseAndWarmRestart :
    svc.leaveFor1 2 ∧ svc.leaveFor1 1 ∧ svc.boot.canopyOut = true ∧ svc.boot.dev = .service ∧ svc.leads = true
    ∧ (∀ s : State, s = { svc with boot := { svc.boot with step := .good, bundle := some {}, linkOut := false, laneSched := false } } →
        s.boot.step = .good ∧ s.boot.bundle = some {} ∧ s.boot.linkOut = false ∧ s.boot.linkReload = false ∧ s.boot.laneSched = false
          ∧ s.boot.sup.sd = true ∧ s.boot.sup.sda = true)
    ∧ (∀ s : State, s = { svc with boot := { svc.boot with linkOut := false, linkReload := true } } →
        s.boot.linkReload = true ∧ s.wake.svcJobs.contains .reload = false ∧ s.bundleImage s.boot.running 1 = none)
    ∧ (∀ s : State, s = { svc with boot := { svc.boot with running := { digs := [[], hashSha384 []] } } } →
        s.bundleImage s.boot.running 1 = some [])
    ∧ (∀ s : State, s = svc.poolGrant 0 7 2 → (s.po 0).quiet = true ∧ 0 < s.heldOf 0 7 ∧ s.boot.step ≠ .verifying)
    ∧ (∀ s : State, s = { svc with boot := { svc.boot with dev := .ride, entryDone := false }, stands := [(0, { gate := false })] } →
        s.boot.dev = .ride ∧ s.boot.entryDone = false ∧ (s.st 0).gate = false ∧ s.chanRetired .stand 0 = false) := by
  and_intros
  all_goals first | decide +kernel | (intro _ h; subst h; decide +kernel)

theorem hyp_ContainersAreLoadedOrRefused :
    svc.boot.dev = .service ∧ svc.leads = true ∧ (svc.sh 11).released = false ∧ svc.chanRetired .sequencer 11 = false
    ∧ svc.standingDone = true ∧ svc.wake.policy.isSome = true ∧ svc.wake.stage = .idle ∧ svc.verUnder .shelf = false
    ∧ (∀ s : State, s = { svc with wake := { svc.wake with policy := none, verify := [{ use := .policy }] } } →
        (s.readPolicy.wake.policy.isNone && s.readPolicy.verUnder .policy) = true) := by
  and_intros
  all_goals first | decide +kernel | (intro _ h; subst h; decide +kernel)

/-- A wake in this stage and round, port 0 and lane 3 in it. -/
abbrev waking (st : WakeStage) (r : Nat) : State := { svc with
  wake := { svc.wake with stage := st, round := r, lanes := [3] }
  wport := [(0, { part := true, staging := [1] })] }

theorem hyp_WakeStages :
    svc.wakeReady = true ∧ svc.leads = true ∧ svc.wakeLanes ≠ [] ∧ svc.canGrant 0 svc.laneLeave' = true
    ∧ svc.canGrant 8 svc.wakeLanes.length = true
    ∧ svc.leave.queue = [] ∧ (∀ p, p < 96 → svc.bankUp p = true)
    ∧ ({ svc with wake := { svc.wake with again := [95] } } : State).autoPorts = [95] ∧ svc.heldNow 95 = true
    ∧ ({ svc with sheaves := [(11, { released := true })] } : State).canWake 95 = true
    ∧ (waking .entry 0).wake.stage = .entry ∧ svc.rankOf 0x0141 ≤ 4 ∧ (waking .round 0).wake.endNext = false
    ∧ polUsed (waking .entry 0).pol 0 = true
    ∧ (waking .round 0).masterBarred 0 = false
    ∧ ({ waking .round 0 with chans := [(chanKey .flash 0, { state := .probing })] } : State).masterBarred 0 = true
    ∧ (let w := (waking .round 0).pk 0; w.part = true ∧ w.pgLow = false ∧ w.pgFell = false ∧ w.aborted = false ∧ w.granary = false)
    ∧ 0 < polBursts (waking .round 0).pol 0 ∧ planBurst (planRegions (waking .round 0).pol 0) 0 ≠ none
    ∧ (waking .window 1).wake.stage = .window
    ∧ (waking .drain 1).wake.stage = .drain ∧ (waking .drain 1).wake.endNext = false := by
  and_intros <;> decide +kernel

/-- A wake schedule whose slot table begins with the digest job and the tag job of chunk 0 of port 0 in round 0. -/
abbrev sched : List Byte :=
  List.replicate 0x24 0 ++ leBytes 1 4 ++ List.replicate 8 0 ++ leBytes 0x102 4 ++ leBytes 0x40 4 ++ leBytes 0x20 4 ++ List.replicate 20 0
    ++ leBytes (2 ^ 27) 8 ++ leBytes (2 ^ 28) 8

/-- The bits of KD4 that hold this digest, with its LOCK. -/
abbrev kd4 (digest : Nat) : Tab Bool :=
  ((beBytes digest 48).zipIdx.flatMap fun e => ((List.range 8).filter fun j => e.1.getLsbD j).map fun j => (0x1400 + 8 * e.2 + j, true))
    ++ [(0x1400 + 400, true)]

/-- A signature block of this scheme with these lengths: key material km, the signature all zero. -/
abbrev sigBlock (scheme kl sl : Nat) (km : List Byte) : List Byte :=
  leBytes kl 4 ++ leBytes sl 4 ++ List.replicate 8 0 ++ leBytes scheme 8 ++ padTo km (roundUp kl 16 - 8) ++ List.replicate (roundUp sl 16) 0

/-- A manifest of port 0 with two empty entries, signed by KD4. -/
abbrev manifestOf (scheme : Nat) (block : List Byte) : List Byte :=
  frame 2 400 block.length scheme 4 ++ List.replicate 17 0 ++ [1] ++ List.replicate 191 0 ++ [2] ++ List.replicate 190 0 ++ block

/-- The wake with all 20 lanes, and a manifest of port 0 whose signer KD4 and whose scheme its policy allows. `digest` is
the SHA-384 digest of its key block. -/
abbrev signing (scheme digest : Nat) (block : List Byte) : State := { waking .window 1 with
  wake := { (waking .window 1).wake with
    lanes := List.range 20, sched := sched, deal := [0], dealt := [2], serving := [2]
    policy := some { bytes := ((polBytes.set 0x314 0x10).set 0x316 0xFF).set 0x317 3 } }
  fuses := { svc.fuses with latched := kd4 digest }
  wport := [(0, { part := true, staging := [1], manifest := manifestOf scheme block })] }

theorem hyp_WakeWork :
    (∀ s : State, s = signing 1 0x9c3da2fbf80471d2fc6b4aadf64cd5cb29a9aa37cbba5414702cc4ffa329a6efc4b16cc07abdb6e0b07b6986475b4e59 (sigBlock 1 72 64 []) →
      s.wake.stage = .window ∧ (s.pk 0).part = true ∧ (s.pk 0).staging ≠ []
      ∧ planBurst (planRegions s.pol 0) (s.wake.round - 1) = some (some .b, 0, 0)
      ∧ s.jobLane 0 (s.wake.round - 1) 0 false = some 0 ∧ s.jobLane 0 (s.wake.round - 1) 0 true = some 0
      ∧ s.chanRetired .lane 0 = false ∧ (s.ch (chanKey .lane 0)).state = .inService ∧ (s.ch (chanKey .port 0)).state = .inService
      ∧ s.chainEngine 0 = some 2 ∧ (s.chainQueue 2).head? = some 0 ∧ (s.en 2).state = .idle ∧ (s.en 2).waiting = false
      ∧ (s.ch (chanKey .engine 2)).state = .inService)
    ∧ (∀ s : State, s = signing 10 0xe7b8b3239249cba61392b9e51327be83ab69058b94229c1c782c13762cd30780c4781cccf3f49d9d269df2eb4afb59a3 (sigBlock 10 76 2500 [0, 0, 0, 1]) →
      s.portMode 0 = true ∧ s.manKeyOk 0 = true ∧ hashScheme (cScheme (s.pk 0).manifest) = true ∧ (s.pk 0).sig = .none
      ∧ s.wake.lanes ≠ []) := by
  and_intros <;> (intro _ h; subst h; and_intros <;> decide +kernel)

/-- A signature block of this scheme with these lengths: key material km, signature sg. -/
abbrev signedBlock (scheme kl sl : Nat) (km sg : List Byte) : List Byte :=
  leBytes kl 4 ++ leBytes sl 4 ++ List.replicate 8 0 ++ leBytes scheme 8 ++ padTo km (roundUp kl 16 - 8) ++ padTo sg (roundUp sl 16)

/-- A block whose P-256 key is the base point; as r and s it has that point's x, which makes it the signature of a digest of
zeros. -/
abbrev zeroBlock : List Byte := signedBlock 1 72 64 (beBytes (curveG 0).1 32 ++ beBytes (curveG 0).2 32) (beBytes (curveG 0).1 32 ++ beBytes (curveG 0).1 32)

/-- A verification of that signature, and of one that fails. -/
abbrev goodJob (u : VerUse) : ChainJob := { use := u, scheme := 1, digest := List.replicate 48 0, block := zeroBlock }

abbrev badJob (u : VerUse) : ChainJob := { goodJob u with block := [] }

/-- A policy with an empty body, its signer KD4, and a P-256 signature of it that verifies. -/
abbrev signedPolicy : List Byte := frame 4 0 160 1 4 ++
  signedBlock 1 72 64 
    (beBytes 0x81c33f425ddb687d3600274c41fd034ada7ad2604f44c6a54f80d24fb53308fa 32 ++
      beBytes 0xb657a5ef3111f3326b498d8a9784f69db74793709db36227e30d3fedd71a86a6 32)
    (beBytes 0x26825956c82617dd6feb74cc2f48569a15e4d0994ae80d681942a7e52357bbc4 32 ++
      beBytes 0x26825956c82617dd6feb74cc2f48569a15e4d0994ae80d681942a7e52357bbc4 32)

theorem hyp_signatures :
    sigVerifies 1 (goodJob .policy).digest zeroBlock = true ∧ sigVerifies 1 (badJob .policy).digest (badJob .policy).block = false
    ∧ sigVerifies 1 (cDigest signedPolicy) (cSigBlock signedPolicy) = true := by and_intros <;> decide +kernel

/-- Engine 3 runs the last part of this verification. -/
abbrev verifies (s : State) (j : ChainJob) : State := { s with engines := [(3, { state := .busy, owner := 3, chain := some j })] }

theorem hyp_ChainVerifications :
    (∀ j : ChainJob, j = { goodJob (.port 0) with scheme := 6 } → decide ((hybridParts j.scheme).isNone ∨ j.second = true) = false)
    ∧ (∀ s : State, s = { verifies svc (goodJob (.port 0)) with wport := [(0, { sig := .running 3 })] } →
        (s.en 3).state = .busy ∧ (s.en 3).chain = some (goodJob (.port 0)) ∧ (s.pk 0).sig = .running 3
          ∧ (s.ch (chanKey .engine 3)).state = .inService)
    ∧ (∀ s : State, s = { verifies svc { goodJob .shelf with scheme := 6, second := true } with wake := { svc.wake with shelf := { digest := List.replicate 48 0 } } } →
        decide ((hybridParts 6).isNone ∨ ({ goodJob .shelf with scheme := 6, second := true } : ChainJob).second = true) = true
          ∧ s.verLive { goodJob .shelf with scheme := 6 } = true)
    ∧ (∀ s : State, s = { verifies svc (badJob .policy) with wake := { svc.wake with policy := none } } →
        (s.en 3).chain = some (badJob .policy) ∧ s.verLive (badJob .policy) = true)
    ∧ (∀ s : State, s = { verifies svc (jobOf .policy signedPolicy) with wake := { svc.wake with policy := none }, home := homeAt 0x02010000 signedPolicy } →
        (s.en 3).chain = some (jobOf .policy signedPolicy) ∧ s.verLive (jobOf .policy signedPolicy) = true
          ∧ jobOf .policy s.homePolicy = jobOf .policy signedPolicy) := by
  and_intros <;> (intro _ h; subst h; decide +kernel)

/-- A wake schedule whose handback record of port 0 reads one byte and compares it with 0x55. -/
abbrev handSched : List Byte :=
  List.replicate 0x24 0 ++ leBytes 1 4 ++ List.replicate 8 0 ++ leBytes 0x104 4 ++ leBytes 0x40 4 ++ leBytes 0x100 4 ++ List.replicate 4 0
    ++ List.replicate 0x20 0 ++ [1, 1, 0, 1, 5] ++ List.replicate 7 0 ++ [0x55] ++ List.replicate 3 0 ++ [0xFF] ++ List.replicate 207 0

theorem hyp_VerdictAndHandback :
    (waking .verdict 2).wake.stage = .verdict ∧ (waking .verdict 2).wake.endNext = false ∧ ((waking .verdict 2).pk 0).part = true
    ∧ ∀ s : State, s = { svc with hold := [(0, { handback := true })], sheaves := [(0, { released := true })] } →
      (s.ph 0).handback = true ∧ s.boot.dev = .service ∧ s.portServes 0 = true ∧ s.bankUp 0 = true ∧ (s.sh (sheafOf 0)).released = true
        ∧ (s.ch (chanKey .flash 0)).state = .inService ∧ seqHolds (s.handRecs 0) [] = true
        ∧ seqHolds (({ s with wake := { s.wake with sched := handSched } } : State).handRecs 0) [[[0x54]]] = false
        ∧ seqHolds (({ s with wake := { s.wake with sched := handSched } } : State).handRecs 0) [[[0x55]]] = true :=
  ⟨by decide +kernel, by decide +kernel, by decide +kernel, fun _ h => by subst h; decide +kernel⟩

/-- 64 KiB of zeros whose last 64 bytes are an image header of length 0 and version 1, as a wake read it in chunks. -/
abbrev imageChunks : Tab (List Byte) :=
  (List.range 15).map (fun k => (k, List.replicate 4096 0))
    ++ [(15, List.replicate 4032 0 ++ frame 1 32 0 0 0xFF ++ leBytes 1 4 ++ leBytes 0 4 ++ [1, 0xFF] ++ List.replicate 22 0)]

/-- The entry of slot B for that image, under SHA-256. -/
abbrev imageEntry : List Byte :=
  [1, 2, 0, 0] ++ leBytes 1 4 ++ List.replicate 8 0
    ++ beBytes 0xe3b0c44298fc1c149afbf4c8996fb92427ae41e4649b934ca495991b7852b855 32 ++ List.replicate 144 0

theorem hyp_OnlySoundSlotsAreChosen :
    (∀ s : State, s = { waking .verdict 2 with
        wake := { (waking .verdict 2).wake with
          policy := some { bytes := (polBytes.set 0x311 3).set 0x312 1 }
          shelf := { decided := true, bytes := List.replicate 0x24 0 ++ [1] ++ List.replicate (0x30 + 0xD0 - 0x25) 0 ++ imageEntry } }
        wport := [(0, { part := true, slotB := imageChunks })] } →
      (s.verdictOf 0).chosen ≠ 0 ∧ polShelf s.pol 0 = true) := by
  intro _ h; subst h; decide +kernel

theorem hyp_StandReleases :
    svc.boot.dev = .service ∧ svc.leads = true ∧ svc.wake.firstDone = true ∧ svc.wake.policy.isSome = true ∧ svc.wake.standNext < 6
    ∧ svc.nextRelease 5 = none
    ∧ (∀ s : State, s = { svc with hold := [(0, { token := some 1, pg := true })], stands := [(0, { gateN := false, opened := true })] } →
        s.nextRelease 0 = some 0)
    ∧ (∀ s : State, s = { svc with hold := [(0, { hold := false, holdN := true, settle := some 5 })] }.poolGrant 1 0 1 →
        (s.ph 0).settle.isSome = true ∧ (s.po (1 + standOf 0)).quiet = true) := by
  and_intros
  all_goals first | decide +kernel | (intro _ h; subst h; decide +kernel)

theorem hyp_PowerGoodAndShadowMismatches :
    svc.boot.dev.late = true ∧ State.reset.boot.dev.late = false
    ∧ ({ svc with hold := [(95, { hold := false, holdN := true, pg := true })] } : State).inGlade 95 = true
    ∧ poolCode (1 : BitVec 8).toNat = true ∧ (svc.po 1).st ≠ .frozen ∧ poolCode 32 = false := by and_intros <;> decide +kernel

theorem hyp_HoldResponses :
    95 ∈ svc.holdSet 4 0 0 ∧ 7 ∈ svc.holdSet 2 1 7 ∧ 8 ∉ svc.holdSet 2 1 7 ∧ 13 ∈ svc.holdSet 3 1 7 := by decide +kernel

/-! ### Host frames, filter, Granary, execute in place -/

/-- A trie: a branch on the first C lane, whose two children are one leaf with these upper bits. -/
abbrev trie (n : Nat) : List Byte :=
  let entry := fun (n : Nat) => (List.range 16).map fun i => BitVec.ofNat 8 (n / 256 ^ i)
  entry (2 ^ 126 + 2 ^ 118) ++ entry (2 ^ 127 + n)

/-- Port 0 in the glade in PASS with this trie. -/
abbrev glade (n : Nat) : State := { svc with
  hold := [(0, { hold := false, holdN := true, mode := .pass, pg := true })]
  win := [(0, { tries := trie n })], edge := [(0, { params := { stall := 1 } })] }

theorem hyp_HostFrames :
    (svc.ph 0).mode ≠ .pass ∧ (svc.ph 0).mode ≠ .dark ∧ svc.boot.dev ≠ .off ∧ svc.bankUp 95 = true ∧ State.reset.bankUp 0 = false
    ∧ ((glade 0).ph 0).mode = .pass ∧ ((glade 0).pe 0).params.mode3 = false ∧ ((glade 0).pe 0).cont = false
    ∧ ((glade 0).pw 0).walk 1 [1, 0] 0 0 8 = some (0, leafOf 1 (2 ^ 127))
    ∧ (leafOf 1 (2 ^ 127)).check = false ∧ (leafOf 1 (2 ^ 127)).action = 0 ∧ (leafOf 1 (2 ^ 127)).change = false
    ∧ (leafOf 1 (2 ^ 127)).mPresent = false ∧ ((glade (2 ^ 121)).pw 0).walk 1 [0] 0 0 8 = some (0, leafOf 1 (2 ^ 127 + 2 ^ 121))
    ∧ (leafOf 1 (2 ^ 127 + 2 ^ 121)).action = 1 ∧ (leafOf 1 (2 ^ 127 + 2 ^ 121)).check = false ∧ ((glade 0).pe 0).params.stall ≠ 0
    ∧ (glade 0).flaws = [] ∧ lostEdges ⟨false, [1, 0], [], [(8, .dcs 0)], [], [], []⟩ = [] := by
  and_intros <;> decide +kernel

theorem hyp_OnlyCommittedFramesSetTheModel :
    ∃ t, exec (.hostFrame 0 ⟨false, [], [], [], [], [], []⟩) { svc with hold := [(0, { noted := true })] } = .next t
      ∧ (t.pe 0).out.ended ≠ .committed :=
  ⟨_, rfl, by decide +kernel⟩

theorem hyp_RefusedLookupsDeny :
    (svc.pw 0).gen ≠ (svc.pw 0).genN ∧ bitOf (svc.rule (svc.pw 0).genFrame 0).toNat 127 = false
    ∧ Flaw.rule (svc.pw 0).genFrame 0 ∈ ({ svc with flaws := [.rule false 0] } : State).flaws := by and_intros <;> decide +kernel

/-- A VALID slot with this attribute word, its shares and shadow agreeing with their checks. -/
abbrev validSlot (attr : W32) : KeySlot := (({} : KeySlot).stored 0 0).withAttr attr

theorem sound_validSlot (attr : W32) : (validSlot attr).sound = true := by simp [KeySlot.sound, KeySlot.withAttr, KeySlot.stored]

theorem slot_serves {s : State} {n dest : Nat} {attr : W32} (hk : s.keys.kSlot = true) (hs : s.ks n = validSlot attr)
    (h : (bitOf attr.toNat 31 && bitOf attr.toNat (18 + dest) && !bitOf attr.toNat 27) = true) : s.slotServes n dest = true := by
  simp only [Bool.and_eq_true, Bool.not_eq_true'] at h
  have a : (validSlot attr).attr = attr := rfl
  have b : (validSlot attr).bad = false := rfl
  simp [State.slotServes, hk, hs, sound_validSlot, a, b, h.1.1, h.1.2, h.2]

theorem hyp_FilterAndRebuild :
    (∀ s : State, s = { svc with dec := [(0, { lookups := [⟨0, 0, 0, true⟩] })], hold := [(0, {})], edge := [(0, { cont := true })]
                                 pgran := [(0, { glean := [⟨0, [], 0, false⟩] })] } →
      (s.pd 0).lookups = ⟨0, 0, 0, true⟩ :: [] ∧ s.heldNow 0 = true ∧ (s.pe 0).cont = true ∧ (s.pg 0).glean = ⟨0, [], 0, false⟩ :: []
        ∧ s.rankOf 0x0141 ≤ 4)
    ∧ (∀ s : State, s = { svc with rules := { restart := true } } →
      s.boot.dev = .service ∧ s.rules.restart = true ∧ s.wake.policy.isSome = true ∧ s.rules.state = .idle ∧ ∀ q, q < 96 → (s.pw q).gen ≠ s.rules.staging)
    ∧ (∀ s : State, s = { svc with rules := { state := .rebuilding } } → s.rules.state = .rebuilding ∧ s.svcFree = true
      ∧ sheafFormOk (s.homeContainer (schedBase s.rules.done) 0x100000) s.rules.done = false)
    ∧ (∀ s : State, s = { svc with win := [(0, { flipPend := true, deferred := true })] } →
      (s.pw 0).flipPend = true ∧ (s.pw 0).deferred = true ∧ s.heldNow 0 = true ∧ s.rules.state ≠ .rebuilding ∧ s.svcFree = true) := by
  and_intros
  all_goals first | decide +kernel | (intro _ h; subst h; decide +kernel)

/-- Leaf 0 of port 0 lies in a GLEAN_RANGE and in TAG group 2; its second half is in the slot of a glean lane; KS0 and KS1 serve. -/
abbrev gleaning : State := (({ svc with
  hold := [(1, { hold := false, holdN := true })], pgran := [(0, { glean := [⟨0, [], 0, true⟩] })]
  keys := { kSlot := true, slots := [(0, validSlot 0x80080000), (1, validSlot 0x80400000)] }
  wake := { svc.wake with policy := some { bytes := polBytes.set (0x310 + 0x2E) 1 } }
  gran := { tagDir := [(0, 2)], map := [(16, 0x10000000)] } } : State).poolGrant 8 1 5).poolGrant 0 5 5

theorem gleaning_keys : gleaning.tagsReady = true ∧ gleaning.granReady = true :=
  ⟨slot_serves (attr := 0x80080000) rfl rfl (by decide), slot_serves (attr := 0x80400000) rfl rfl (by decide)⟩

theorem gleaning_runs : gleaning.gleanStopped 0 2 = false := by
  rw [State.gleanStopped, gleaning_keys.1, gleaning_keys.2]
  decide +kernel

theorem leBytes_succ (x : Nat) : leBytes (x + 1) 8 ≠ leBytes x 8 := by
  intro h
  have := congrArg List.head? h
  simp [leBytes] at this
  bv_omega

theorem hyp_gleaned_leaf :
    ((gleaning.pg 0).glean = ⟨0, [], 0, true⟩ :: [] ∧ gleaning.leafGroup 0 0 = some 2 ∧ gleaning.gleanStopped 0 2 = false)
    ∧ (∀ s : State, s = gleaning.granPut (2048 * 2 + 8 * (0 / 256 % 256)) (leBytes (gleaning.gleanTag 0 0 []).toNat 8) →
      leBytes (s.gleanTag 0 0 []).toNat 8 = s.storedTag 2 0)
    ∧ ∀ s : State, s = gleaning.granPut (2048 * 2 + 8 * (0 / 256 % 256)) (leBytes ((gleaning.gleanTag 0 0 []).toNat + 1) 8) →
      leBytes (s.gleanTag 0 0 []).toNat 8 ≠ s.storedTag 2 0 :=
  ⟨⟨by decide +kernel, by decide +kernel, gleaning_runs⟩, fun _ h => by subst h; exact (State.granGet_granPut_same _ _).symm,
    fun _ h => by
      subst h
      intro e
      exact leBytes_succ _ ((State.granGet_granPut_same (s := gleaning) _ _).symm.trans e.symm)⟩

/-- The keys of the tags and of the Granary stand: KS0 and KS1. -/
abbrev tagKeys : Keys := { kSlot := true, slots := [(0, validSlot 0x80080000), (1, validSlot 0x80400000)] }

/-- The leave of the five runtime lanes is drawn. -/
abbrev runtime (s : State) : State := (s.poolGrant 8 1 5).poolGrant 0 5 5

/-- Port 0's serve slots read ahead in a span of an allocated group. -/
abbrev ahead : State := { svc with pgran := [(0, { span := some ⟨1, 0, 15, 0⟩ })], keys := tagKeys
                                   gran := { srvDir := [(setKey 0 0, 4)], map := [(32, 0x20000000)] } }

theorem hyp_serve_slot :
    ahead.bankUp 0 = true ∧ ahead.chanRetired .sequencer (sheafOf 0) = false ∧ (ahead.pg 0).span = some ⟨1, 0, 15, 0⟩
    ∧ (ahead.pg 0).serve.length < 4 ∧ 0 / 16 = (8 : BitVec 28).toNat / 16 ∧ (ahead.serveWord 0 1 0).isSome = true := by
  refine ⟨by decide +kernel, by decide +kernel, by decide +kernel, by decide +kernel, by decide, ?_⟩
  have h : ahead.granReady = true := slot_serves (attr := 0x80400000) rfl rfl (by decide)
  rw [State.serveWord, h, if_neg (by decide +kernel)]
  rfl

theorem hyp_GranaryLaneAndSelfTests :
    svc.gran.uses ≠ 1023
    ∧ (∀ s : State, s = { svc with gran := { map := [(0, 0x20000000)] } } →
      pageUse (s.page (s.gran.scrub / 16)) ≠ 0 ∧ pageUse (s.page (s.gran.scrub / 16)) ≠ 7)
    ∧ (∀ s : State, s = { svc with gran := { relocs := [{ group := 4, target := some 5 }], map := [(32, 0x20000000)] } } →
      s.movable 4 = true ∧ s.gran.relocs = { group := 4, target := some 5 } :: [] ∧ (s.gran.relocs.any fun x => x.target.isSome) = true)
    ∧ (∀ s : State, s = { svc with gran := { relocs := [{ group := 4 }], map := [(24, pageEntry 6 0x7F false false 0 0x1FFFF), (32, 0x20000000)] } } →
      (s.gran.relocs.any fun x => x.target.isSome) = false ∧ s.movable 4 = true ∧ s.spareGroup 4 = some 3)
    ∧ (∀ s : State, s = runtime { svc with hold := [(0, { hold := false, holdN := true })], boot := { svc.boot with linkReload := true }
                                           wake := { svc.wake with svcJobs := [.reload] } } →
      s.serviceLane.isSome = true ∧ s.svcNext = some .reload ∧ s.gleanLane 0 = some 19
        ∧ (s.ch (chanKey .lane 19)).state = .inService)
    ∧ (∀ s : State, s = runtime { svc with hold := [(0, { hold := false, holdN := true })], hand := { state := .loading, new := { digs := [hashSha384 []] } }
                                           wake := { svc.wake with svcJobs := [.image] } } →
      s.svcNext = some .image ∧ (s.bundleImage s.hand.new 0).isSome = true
        ∧ ({ s with hand := { state := .loading } } : State).bundleImage ({ s with hand := { state := .loading } } : State).hand.new 0 = none)
    ∧ (∀ s : State, s = onCore (.sq 11 7) { run := .waitEvent } →
      (s.co 103).run = .waitEvent ∧ (s.ch (chanKey .sequencer 11)).state = .inService)
    ∧ (waking .entry 0).wake.stage = .entry ∧ (waking .entry 0).wake.lanes.contains 3 = true ∧ svc.wake.stage = .idle
    ∧ (svc.ch (chanKey .lane 23)).state = .inService
    ∧ ({ svc.wake with tests := [3] } : Wake).tests.contains 3 = true := by
  and_intros
  all_goals first | decide +kernel | (intro _ h; subst h; and_intros <;> decide +kernel)

theorem hyp_ExecuteInPlaceAndHandover :
    svc.boot.canopyOut = true ∧ svc.xipLine 0x400000 = none ∧ svc.leaveFor1 1
    ∧ ({ fetch := some { core := false, addr := 0x400000 } } : Granary).tagging = false ∧ (svc.ch (chanKey .home 0)).state = .inService
    ∧ ({ fetch := some { core := false, addr := 0x400000 } } : Granary).fetch.any (fun f => decide (f.tries = 0)) = true
    ∧ (∀ d : HoState, ({ svc with hand := { state := d } } : State).hand.state = d)
    ∧ (∀ q, q < 8 → (svc.mb q).tag = none) ∧ svc.svcFree = true
    ∧ (∀ s : State, s = { svc with hand := { state := .waitingReady, old := { digs := [hashSha384 []] } } } →
      (s.bundleImage s.hand.old 0).isSome = true ∧ s.bundleImage s.hand.new 0 = none) := by
  and_intros
  all_goals first | decide +kernel | exact fun _ => rfl | (intro _ h; subst h; decide +kernel)

/-- Line 0 of the execute-in-place region has its tag in CANOPY group 2. -/
abbrev tagged : State := { svc with
  keys := tagKeys
  gran := { tagDir := [(tagKey 0xFF (svc.xipHome 0x400000), 2)], map := [(2 * 8 + svc.xipHome 0x400000 / 8192 % 8, 0x50000000)]
            fetch := some { core := false, addr := 0x400000 } } }

theorem hyp_tagged_line : ∀ s : State,
    s = tagged.granPut (2048 * 2 + 8 * (svc.xipHome 0x400000 / 256 % 256))
      (leBytes (tagged.gleanTag 0xFF (svc.xipHome 0x400000) (tagged.homeGet (svc.xipHome 0x400000) 256)).toNat 8) →
    s.xipChecked 0 = some (tagged.homeGet (svc.xipHome 0x400000) 256) := by
  intro s h
  subst h
  refine if_pos ⟨slot_serves (attr := 0x80080000) rfl rfl (by decide), slot_serves (attr := 0x80400000) rfl rfl (by decide),
    by decide +kernel, by decide +kernel, ?_⟩
  exact (State.granGet_granPut_same (s := tagged) _ _).symm

/-! ### Channels, leave, Kernel, keys, fuses -/

theorem hyp_ChannelProbes :
    (∀ s : State, s = { svc with chans := [(chanKey .engine 3, { state := .probing, bucket := 15, try_ := 3 })] } →
      (s.ch (chanKey .engine 3)).state = .probing ∧ (s.ch (chanKey .engine 3)).bucket < 16 ∧ 3 ≤ (s.ch (chanKey .engine 3)).try_
        ∧ s.probeReady .engine 3 = true ∧ 3 < chanSize .engine)
    ∧ (∀ s : State, s = { svc with log := { state := .running, retires := [[0, 2, 95]] } } →
      s.log.state = .running ∧ s.wake.stage = .idle ∧ s.boot.dev = .service ∧ s.leads = true
        ∧ kindOf (retireOf [0, 2, 95]).1 = some .flash ∧ (retireOf [0, 2, 95]).2 < chanSize .flash) := by
  and_intros <;> (intro _ h; subst h; decide +kernel)

theorem hyp_PoolsConserve :
    (svc.po 0).conserved = true ∧ svc.canGrant 0 48 = true ∧ svc.canGrant 0 49 = false ∧ (svc.po 0).free < 49
    ∧ ((svc.poolGrant 0 4 2).po 0).conserved = true ∧ 2 ≤ (svc.poolGrant 0 4 2).heldOf 0 4
    ∧ (svc.po 0).st = .ok ∧ (svc.po 0).fault = false ∧ svc.heldOf 0 4 < 1 ∧ svc.rankOf 0x0140 < 2
    ∧ ({ st := .frozen } : Pool).st ≠ .ok := by and_intros <;> decide +kernel

/-- LV reconciles: holder 4 counts n units and returns 2 of them. -/
abbrev recounting (n : Nat) : State := svc.poU 0 (fun p => { p with st := .reconciling, holding := [(4, n)], ret := [{ holder := 4, cause := 0, units := some 2 }] })

theorem hyp_LeaveAndCensus :
    (∀ s : State, s = { svc with leave := { svc.leave with queue := [⟨.fuse, 2⟩] } } → s.nextLeave = some ⟨.fuse, 2⟩ ∧ s.rankOf 0x0402 < 2)
    ∧ (LvUse.fuse.holder ≠ 4 ∧ LvUse.fuse.holder ≠ 7)
    ∧ (∀ s : State, s = { svc with leave := { svc.leave with queue := [⟨.canopyB, 1⟩] }, boot := { svc.boot with step := .good, bundle := some {} } } →
        s.nextLeave = some ⟨.canopyB, 1⟩ ∧ s.boot.step = .good ∧ s.boot.bundle = some {})
    ∧ (∀ s : State, s = { svc with leave := { svc.leave with queue := [⟨.linkCore, 1⟩] }, boot := { svc.boot with linkOut := false } } →
        s.nextLeave = some ⟨.linkCore, 1⟩ ∧ s.linkReady = true)
    ∧ (∀ s : State, s = { reading .reading with leave := { svc.leave with queue := [⟨.bundle, (reading .reading).seedTokens ((reading .reading).bundleHeader .a)⟩] } } →
        s.seedReady (s.bundleHeader .a) = true ∧ s.nextLeave = some ⟨.bundle, s.seedTokens (s.bundleHeader .a)⟩)
    ∧ (((recounting 50).po 0).st = .reconciling ∧ ((recounting 50).po 0).late = [] ∧ ((recounting 50).po 0).claims = [] ∧ ((recounting 50).po 0).fault = false
      ∧ Tab.wf 0 ((recounting 50).po 0).holding = true
      ∧ (((recounting 50).po 0).holding.map fun e => e.2 - ((recounting 50).po 0).returned e.1).sum = ((recounting 50).po 0).total)
    ∧ ((recounting 51).po 0).total < (((recounting 51).po 0).holding.map fun e => e.2 - ((recounting 51).po 0).returned e.1).sum
    ∧ (∀ s : State, s = { svc with boot := { svc.boot with laneSched := false } } → s.boot.laneSched = false)
    ∧ (∀ s : State, s = svc.poU 1 (fun p => { p with newTot := some 8 }) →
      (s.po 1).newTot = some 8 ∧ (s.po 1).sumHeld = 0 ∧ (s.po 1).st = .ok) := by
  and_intros
  all_goals first | decide +kernel | (intro _ h; subst h; decide +kernel)

/-- The words that start each operation at its least length. -/
abbrev kernelWords : List W32 :=
  [0x04800000, 0x08800000, 0x0C800000, 0x10040000, 0x14040000, 0x40800000, 0x50800000, 0x60000000, 0x70000000, 0x80040000, 0xC0040000]

theorem hyp_KernelOperations :
    svc.kernelAgent = some .canopyA ∧ (svc.en 3).state = .idle ∧ (svc.en 3).waiting = false ∧ (svc.en 3).chain = none
    ∧ (svc.ch (chanKey .engine 3)).state ≠ .probing ∧ svc.rankOf 0x0402 < 5 ∧ svc.leaveFor1 4
    ∧ kernelWords.map (fun w => kop (opCode w)) = [some .rsaPub, some .rsaPss, some .rsaCrt, some .modmul, some .modexp,
        some (.ecdsaVerify 0), some (.ecdsaSign 0), some (.ecdh 0), some (.ecPubgen 0), some .ed25519, some (.mldsa 0)]
    ∧ (kernelWords.all fun w => !wordRefused w) = true
    ∧ operandWritable 0x5FF = true ∧ operandWritable 0x3D0 = false ∧ operandWritable 0x600 = false
    ∧ (∀ s : State, s = { svc with engines := [(0, { state := .busy, op := 0x10040000 })] } →
        (s.en 0).state = .busy ∧ s.wake.verify = [] ∧ s.keys.tasks = [] ∧ (s.en 0).task = none ∧ (s.en 0).chain = none
          ∧ kop (opCode (s.en 0).op) = some .modmul ∧ (s.po 0).quiet = true)
    ∧ (∀ s : State, s = { svc with engines := [(0, { state := .aborting, gone := true })] } →
        (s.en 0).state = .aborting ∧ (s.ch (chanKey .engine 0)).state = .inService ∧ s.boot.dev ≠ .ride) := by
  and_intros
  all_goals first | decide +kernel | (intro _ h; subst h; decide +kernel)

/-- An engine that runs MODMUL of 3 and 5 modulo 7 on one word. -/
abbrev modmul357 : State := { svc with engines := [(0, { state := .busy, op := 0x10040000, mem := [(0, 7), (0x80, 3), (0x100, 5)] })] }

theorem hyp_KernelArithmetic :
    (modmul357.en 0).state = .busy ∧ (modmul357.en 0).chain = none ∧ (modmul357.en 0).task = none ∧ modmul357.wake.verify = []
    ∧ modmul357.keys.tasks = [] ∧ wordRefused (modmul357.en 0).op = false
    ∧ ∃ t, exec (.kernelOperationDone 0 false) modmul357 = .next t ∧ (t.en 0).result = 0 :=
  ⟨by decide +kernel, by decide +kernel, by decide +kernel, by decide +kernel, by decide +kernel, by decide +kernel, _, rfl, by decide +kernel⟩

/-- PROVISIONED, slots open. -/
abbrev provisioned : State := { svc with fuses := { latched := [(0, true), (1, true)], current := [(0, true), (1, true)], tempOk := true } }

theorem stop_validSlot (attr : W32) : (validSlot attr).stop = 0 := by
  have a : (validSlot attr).sound = true := by simp [KeySlot.sound, KeySlot.withAttr, KeySlot.stored]
  have b : (validSlot attr).bad = false := rfl
  have c : (validSlot attr).reserved = false := rfl
  simp [KeySlot.stop, a, b, c]

/-- PROVISIONED, slots open; KS8 a key that may be read and widened, KS9 a key-derivation key, KS10 a generated key. -/
abbrev slotted : State := { provisioned with
  keys := { kSlot := true, slots := [(8, validSlot 0x84200000), (9, validSlot 0x80200000), (10, validSlot 0x81200000)] } }

theorem hyp_KeyUnitFunctions :
    provisioned.firmware .canopyA = true ∧ provisioned.slotsOpen = true ∧ provisioned.keys.kSlot = true
    ∧ provisioned.placeRefusal 63 0x0C002000 = 0 ∧ provisioned.leadAgent = some .canopyA ∧ curveFits 1 0x0C002000 = true
    ∧ curveFits 0 0 = true ∧ destOk 0 = true
    ∧ (provisioned.ks 4).stop = 0 ∧ provisioned.boot.linkOut = true ∧ (provisioned.ks 7).stop = 0
    ∧ (slotted.ks 8).stop = 0 ∧ (slotted.ks 9).stop = 0 ∧ (slotted.ks 10).stop = 0
    ∧ narrows (slotted.ks 8).attr 0x04200000 = true ∧ bitOf (slotted.ks 8).attr.toNat 31 = true
    ∧ bitOf (slotted.ks 8).attr.toNat 26 = true ∧ (slotted.deriveParent 9).1 = 0
    ∧ slotted.bindOk (slotted.ks 8).attr = true ∧ slotted.bindOk (slotted.ks 10).attr = true
    ∧ bitOf (slotted.ks 10).attr.toNat 31 = true ∧ bitOf (slotted.ks 10).attr.toNat 26 = false
    ∧ bitsOf (slotted.ks 10).attr.toNat 25 24 = 1 ∧ (slotted.ks 8).bad = false
    ∧ provisioned.boot.orderAF = false ∧ provisioned.lcCurrent = 2 ∧ provisioned.keys.lcBad = false
    ∧ ({ redraw := true } : Keys).redraw = true := by
  have h9 : (slotted.deriveParent 9).1 = 0 := by
    have e : slotted.ks 9 = validSlot 0x80200000 := rfl
    simp only [State.deriveParent, e, stop_validSlot]
    decide +kernel
  and_intros
  all_goals first | exact stop_validSlot _ | exact h9 | decide +kernel

theorem hyp_RefusedKeyFunctionsChangeNoSlot :
    svc.noLead .canopyB = true ∧ (svc.ks 8).sound = true
    ∧ ∃ t, exec (.keyUnitClear { agent := .canopyA } 8) svc = .next t ∧ t.keys.result ≠ 0 :=
  ⟨by decide +kernel, by decide +kernel, _, rfl, by decide +kernel⟩

/-- A controller armed with this word by core A 1,200 cycles ago. -/
abbrev armedWith (w : W32) : State := { provisioned with fuses := { provisioned.fuses with state := .armed, arm := some (.canopyA, w, 0) }, cyc := 1200 }

theorem hyp_FuseFunctions :
    fuseCore .canopyA = true ∧ fuseCore .seed = true ∧ (0xA5000000 : W32).toNat / 2 ^ 24 = 0xA5
    ∧ ((otpUnit 0x20).map fun u => (decide ((armedWith 0xA5120000).fuseIssuer 1 u = some .canopyA), (armedWith 0xA5120000).fuseStateOk 1 u,
        (armedWith 0xA5120000).fuseOwn 1 u 0, decide ((armedWith 0xA5120000).fuseOwn 1 u 1 = 0))) = some (true, true, 0, false)
    ∧ fuseFn 0x5A120000 = 1 ∧ fuseUnit 0x5A120000 = 0x20 ∧ fuseArg 0x5A120000 = 0
    ∧ (0x5A120000 : W32).toNat % 2 ^ 24 = (0xA5120000 : W32).toNat % 2 ^ 24
    ∧ 1200 ≤ (armedWith 0).cyc.toNat - 0 ∧ (armedWith 0).fuses.tempOk = true ∧ (armedWith 0).mainGood = true
    ∧ (armedWith 0).fuses.resense = none
    ∧ (∀ f : Fuses, f = { state := .burning, plan := [(0, 3)] } → f.waiting = false ∧ f.resense = none ∧ (0, 3) ∈ f.plan ∧ bitOf 3 0 = true ∧ bitOf 3 1 = true)
    ∧ (∀ f : Fuses, f = { state := .burning, waiting := true } → f.waiting = true ∧ f.resense = none)
    ∧ (∀ f : Fuses, f = { state := .sensing, word := 0x5A600000 } → f.resense = none)
    ∧ (∀ s : State, s = { provisioned with fuses := { provisioned.fuses with lrQueue := [23] } } →
      s.fuses.lrQueue = 23 :: [] ∧ s.leadAgent = some .canopyA ∧ s.fuses.state = .idle ∧ s.boot.canopyOut = true ∧ s.fuses.tempOk = true
        ∧ s.mainGood = true ∧ s.lcLatched = 2 ∧ s.lcCurrent ≠ 5 ∧ s.boot.dev ≠ .sealed) := by
  and_intros
  all_goals first | decide +kernel | (intro _ h; subst h; decide +kernel)

theorem hyp_FuseReady : provisioned.FuseReady .canopyA 1 0x20 0 := ⟨_, rfl, by and_intros <;> decide +kernel⟩

/-! ### Alarms, log, link -/

theorem hyp_MonitorsRaiseTheirAlarms :
    (∀ s : State, s = { svc with backup := { svc.backup with rankFlag := true }, boot := { svc.boot with watchOut := true } } →
      s.boot.dev ≠ .off ∧ s.backupUp = true ∧ s.backup.switches.getLsbD 1 ≠ true ∧ s.armedFor 0x050A ∧ s.armedFor 0x0501
        ∧ s.armedFor 0x0509 ∧ s.armedFor 0x050C)
    ∧ (∀ s : State, s = { svc with sheaves := [(0, { released := true })], dec := [(0, { events := [1] })] } →
      (s.sh 0).released = true ∧ (s.pd (8 * 0 + 0)).events ≠ [] ∧ (s.ch (chanKey .sequencer 0)).state = .inService)
    ∧ (∀ s : State, s = { svc with backup := { svc.backup with rankFlag := true, brank := [(0x050A, 6)] }
                                   boot := { svc.boot with dev := .off, watchOut := true } } →
      s.boot.dev = .off ∧ s.armedFor 0x050A ∧ 5 ≤ s.rankOf 0x050A)
    ∧ (∀ x : Alarm, x = { seq := 3, code := 0x0101, rank := 1, tkind := 0, target := 0, coinc := 0, data := 0, acked := true } →
      [x].find? (fun a => decide (a.seq = (3 : W32).toNat) && levelSource a.code) = some x) := by
  and_intros
  all_goals first
    | decide +kernel
    | (intro _ h; subst h; decide +kernel)
    | (intro _ h; subst h; simp only [State.armedFor]; decide +kernel)

/-- The log runs with one entry waiting. -/
abbrev logging : State := { svc with log := { state := .running, reapplied := true, waiting := [⟨0x40, [], none⟩] } }

/-- Segment 0 begins with a CARRY of epoch 0, and the log is scanned. -/
abbrev carried : State := { svc.logCarry 0 [] 0 0 with log := {} }

theorem hyp_EvidenceLogEvents :
    logging.secondServes = true ∧ logging.log.state = .running ∧ logging.homeUp = true ∧ logging.svcFree = true
    ∧ logging.log.closed = false ∧ 65536 ≤ logging.logFree ∧ logging.nextRecord.isSome = true
    ∧ logKinds.contains (logging.nextRecord.map fun x => x.1.kind).get! = true
    ∧ (∀ s : State, s = { svc with log := { state := .running, waiting := [⟨0x41, [], none⟩] } } →
        s.nextRecord.isSome = true ∧ logKinds.contains (s.nextRecord.map fun x => x.1.kind).get! = false)
    ∧ (∀ s : State, s = { logging with log := { logging.log with closed := true } } → s.log.closed = true ∧ s.segErased 1 = true)
    ∧ (∀ s : State, s = { logging with log := { logging.log with carried := true, epoch := logging.mc3 } } → s.erasable = some 1)
    ∧ (∀ s : State, s = { logging with backup := { logging.backup with log := [7] } } → s.backup.log = 7 :: [] ∧ Flaw.backupLog 7 ∉ s.flaws)
    ∧ (∀ s : State, s = { logging with backup := { logging.backup with log := [7] }, flaws := [.backupLog 7] } →
        s.backup.log = 7 :: [] ∧ Flaw.backupLog 7 ∈ s.flaws)
    ∧ ({ svc with log := {} } : State).log.state = .scanning ∧ ({ svc with log := {} } : State).openSegment = none
    ∧ carried.log.state = .scanning ∧ (carried.openSegment.map fun x => (x.1, x.2.1)) = some (0, 0) ∧ mcCount carried.fuses.latched 3 ≤ 0
    ∧ 0 < mcCount [(0x700, true)] 3 := by
  and_intros
  all_goals first | decide +kernel | (intro _ h; subst h; decide +kernel)

/-- Lane 0 in this state, the core running. -/
abbrev lane (k : LaneLink) : State := { svc with link := { lanes := [(0, k)], xfers := [(7, { kind := 1 })] } }

/-- A SECURED lane with a window of 64 frames. -/
abbrev secured : State := lane { st := .secured, los := false, sak := 1, limit := 64, peerLim := 64, told := 64 }

/-- Lane 0 is UP and KS4 holds the CAK. -/
abbrev laneUp : State := { lane { st := .up, los := false } with keys := { kSlot := true, slots := [(4, validSlot 0x80100000)] } }

theorem hyp_LinkLaneEvents :
    ({ los := false } : LaneLink).st ≠ .retired ∧ (lane {}).boot.linkOut = true ∧ (lane {}).leaveFor1 2
    ∧ ({} : LaneLink).st = .down ∧ ({} : LaneLink).los = true
    ∧ (lane { st := .training, los := false }).common 0 0x3F = some 1 ∧ (lane { st := .training, los := false }).common 0 0x10 = some 5
    ∧ Tab.get 0 ({} : LaneLink).fails 5 = 0 ∧ Tab.get 0 ({ fails := [(5, 1)] } : LaneLink).fails 5 ≠ 0
    ∧ ((lane { st := .up, los := false }).ch (chanKey .link 0)).state = .inService
    ∧ laneUp.slotServes 4 2 = true ∧ (laneUp.ks 5).stop = 0
    ∧ secured.secured 0 = true ∧ (secured.ln 0).changing = false ∧ (secured.ln 1).changing = false ∧ (secured.ks 7).stop = 0
    ∧ (∀ s : State, s = { svc with link := { lanes := [(0, { st := .secured, changing := true, los := false }), (1, { st := .secured, due := true, los := false })] } } →
        (s.ln 0).changing = true ∧ (s.ks 5).bad = false ∧ (s.ln 1).due = true ∧ s.secured 1 = true ∧ (s.ln 1).changing = false
          ∧ (s.ks 7).bad = false ∧ (s.ks 7).reserved = false)
    ∧ (0x88B6 : BitVec 16).toNat ≠ secured.etherType
    ∧ (∀ j, j < 2 → (svc.ln j).los = true ∨ (svc.ln j).st = .retired) := by
  and_intros
  all_goals first
    | exact slot_serves (attr := 0x80100000) rfl rfl (by decide)
    | decide +kernel
    | (intro _ h; subst h; decide +kernel)

/-- The next frame of the peer arrives inside its window. -/
abbrev arrives (s : State) (h : TrustHeader) : Bool :=
  s.secured 0 && decide ((s.po 10).st = .ok) && decide (h.sent.toNat = ((s.ln 0).counted + 1) % 65536)
    && decide (((s.ln 0).limit + 65536 - h.sent.toNat) % 65536 < 32768)

theorem rxNext_of {s : State} {h : TrustHeader} (w : arrives s h = true) : s.RxNext 0 h := by
  simp only [arrives, Bool.and_eq_true, decide_eq_true_eq] at w
  exact ⟨w.1.1.1, w.1.1.2, w.1.2, w.2⟩

/-- A header of XFER 7 with this type, flags, index and length. -/
abbrev head (type flags index len : Nat) : TrustHeader :=
  ⟨1, BitVec.ofNat 8 type, BitVec.ofNat 16 flags, 1, 64, BitVec.ofNat 16 len, 0, 7, BitVec.ofNat 32 index, 0⟩

/-- A slot image whose leaf 0 has been requested. -/
abbrev imaging : State := { svc with
  link := { lanes := [(0, { st := .secured, los := false, sak := 1, limit := 64, peerLim := 64, told := 64 })]
            xfers := [(7, { port := 3, kind := 3, len := 4096, open_ := [(0, [], [])], fails := [(0, 2)] })], notices := [5] } }

/-- Every quarter of that leaf has come; it waits for the service lane. -/
abbrev verifying : State := { imaging with
  wake := { imaging.wake with svcJobs := [.leaf 7 0] }
  link := { imaging.link with xfers := [(7, { port := 3, kind := 3, len := 4096, open_ := [(0, [0, 1, 2, 3], [])], fails := [(0, 2)] })] } }

theorem hyp_LinkFramesAndSpdm :
    (arrives secured (head 1 0 0 0) && !badHeader (head 1 0 0 0) [] && secured.secured 0
    && arrives secured (head 2 0 0 0) && !badHeader (head 2 0 0 0) []
    && badHeader (head 0x99 0 0 0) [] && secured.frameWrong (head 0x23 0 0 0) []
    && arrives secured (head 0x21 1 0 4) && !badHeader (head 0x21 1 0 4) [1, 2, 3, 4] && !objectWrong (head 0x21 1 0 4) [1, 2, 3, 4]
    && secured.xferOpen 7 && decide ((secured.xf 7).kind ≠ 3) && decide ((secured.xf 7).next = 0) && !badHeader (head 0x21 1 9 4) [1, 2, 3, 4]
    && !(secured.xf 7).last && !(secured.xf 7).susp
    && arrives secured (head 0x23 0 0 16) && !badHeader (head 0x23 0 0 16) (List.replicate 16 0)
    && arrives imaging (head 0x22 2 0 1024) && !badHeader (head 0x22 2 0 1024) (List.replicate 1024 0)
    && !imaging.leafWrong (head 0x22 2 0 1024) (List.replicate 1024 0)
    && decide ((imaging.xf 7).open_.find? (fun e => decide (e.1 = 0)) = some (0, [], [])) && decide (2 ≤ Tab.get 0 (imaging.xf 7).fails 0)
    && imaging.xferOpen 7 && decide (imaging.laneUp = some 0) && decide (imaging.link.notices = 5 :: [])
    && decide ((imaging.ln 0).wait = []) && (imaging.ln 0).mayTx
    && !(({ imaging with link := { imaging.link with lanes := [(0, { st := .secured, los := false, sent := 65 })] } } : State).ln 0).mayTx
    && (quarters 4096 0).all [0, 1, 2, 3].contains && decide (verifying.svcNext = some (.leaf 7 0))
    && decide (Tab.get 0 ({ fails := [(0, 1)] } : Xfer).fails 0 < 2)) = true
    ∧ (let s : State := { secured with link := { secured.link with xfers := [(7, { kind := 1, susp := true })] } }
       s.xferOpen 7 = true ∧ (s.xf 7).susp = true) := by and_intros <;> decide +kernel

/-- One SPDM message of four bytes in one segment. -/
abbrev spdmHead : TrustHeader := head 0x10 1 0 4

theorem hyp_SpdmResponses :
    secured.RxNext 0 spdmHead ∧ (secured.po (10 + 0)).quiet = true ∧ spdmHead.type = 0x10 ∧ spdmHead.index = 0 ∧ bitOf spdmHead.flags.toNat 0 = true
    ∧ secured.link.spdmOut = [] ∧ ((secured.ln 0).spdmIn.any fun r => decide (r.xfer = spdmHead.xfer)) = false
    ∧ ([0x84, 0xE1, 0xE3, 0x81, 0x82, 0x83, 0xE0, 0x99].all fun c => !badHeader spdmHead [0x12, c, 0, 0] && decide (spdmCode [0x12, c, 0, 0] = c.toNat)) = true
    ∧ secured.homeUp = true ∧ secured.hand.stale = false ∧ slotZero 0 = true ∧ slotZero 1 = false
    ∧ ({ secured with hand := { stale := true } } : State).hand.stale = true ∧ ¬(secured.engineMayRead 3 0 = true ∧ secured.engineLeft = true)
    ∧ ((0 : Byte).toNat < 98 ∨ (0 : Byte) = 0xFF) ∧ 98 ≤ (98 : Byte).toNat ∧ (98 : Byte) ≠ 0xFF
    ∧ spdmCodes.contains (spdmCode [0x12, 0x99, 0, 0]) = false := by
  refine ⟨rxNext_of (by decide +kernel), ?_⟩
  and_intros <;> decide +kernel

/-- KS3 holds the Alias key, and an engine is left: a signed response can be asked for. -/
theorem hyp_spdm_signs : ∀ s : State, s = { secured with keys := { kSlot := true, slots := [(3, validSlot 0x80040000)] } } →
    s.engineMayRead 3 0 = true ∧ s.engineLeft = true := by
  intro s h
  subst h
  refine ⟨?_, by decide +kernel⟩
  rw [State.engineMayRead, slot_serves (attr := 0x80040000) rfl rfl (by decide)]
  decide +kernel

/-- The waiting leaf of `verifying` with this root. -/
abbrev rooted (root : List Byte) : State := { verifying with link := { verifying.link with
  xfers := [(7, { port := 3, kind := 3, len := 4096, open_ := [(0, [0, 1, 2, 3], [])], fails := [(0, 2)], root := root })] } }

/-- What its path folds to. -/
abbrev folded : List Byte := foldPath 15 0 (ceilDiv 4096 4096) (leafHash 0 (verifying.stageGet 3 0 (leafLen 4096 0))) []

theorem snoc_ne (l : List Byte) : l ++ [0] ≠ l := by simp

theorem rooted_staged (root : List Byte) : (rooted root).stageGet 3 0 (leafLen 4096 0) = verifying.stageGet 3 0 (leafLen 4096 0) := rfl

theorem hyp_leaf_folds :
    ((rooted folded).xf 7).root = foldPath 15 0 (ceilDiv 4096 4096) (leafHash 0 ((rooted folded).stageGet 3 0 (leafLen 4096 0))) []
    ∧ ((rooted (folded ++ [0])).xf 7).root
        ≠ foldPath 15 0 (ceilDiv 4096 4096) (leafHash 0 ((rooted (folded ++ [0])).stageGet 3 0 (leafLen 4096 0))) [] := by
  have x : ∀ root, ((rooted root).xf 7).root = root := fun _ => rfl
  rw [rooted_staged folded, rooted_staged (folded ++ [0]), x, x]
  exact ⟨rfl, snoc_ne _⟩

/-- A flow of port 0 in this step, its transfer 7 complete and empty. -/
abbrev flowing (flow step : Nat) : State := { svc with
  hold := [(0, { pg := true })]
  link := { xfers := [(7, { kind := 1, last := true })], flows := [(0, { st := .pulling, flow := flow, stepNo := step, xfer := 7, token := true })] } }

/-- The flow of the shelf manifest in this step. -/
abbrev shelfFlow (step : Nat) : State := { svc with
  link := { xfers := [(7, { kind := 4, last := true })], flows := [(127, { st := .pulling, flow := 5, stepNo := step, xfer := 7, token := true })] } }

theorem hyp_RecoveryFlows :
    ((flowing 1 0).flowDue 0 1 && ((flowing 1 0).xf 7).last && decide (((flowing 1 0).fl 0).check = none) && !(flowing 1 0).pulledOk 0 .a []
      && (flowing 1 0).xferOpen 7 && decide (((flowing 1 0).xf 7).port = 0)
      && (flowing 1 2).flowDue 0 1 && (flowing 1 2).masterOk 0
      && (flowing 2 8).flowDue 0 2 && (flowing 2 8).masterOk 0
      && (flowing 3 4).flowDue 0 3 && decide (((flowing 3 4).fl 0).total ≤ ((flowing 3 4).xf 7).ok.length)
      && (shelfFlow 0).flowDue 127 5 && (shelfFlow 8).flowDue 127 5 && (shelfFlow 8).homeUp && ((shelfFlow 9).fl 127).active && !((shelfFlow 9).fl 127).cancel
      && decide (((shelfFlow 9).fl 127).man.length ≤ 65536) && decide (readbackOf ((shelfFlow 9).pe 127).flash = none)
      && ((flowing 1 3).fl 0).active && !((flowing 1 3).fl 0).cancel && decide (readbackOf ((flowing 1 3).pe 0).flash = none)
      && decide (((flowing 1 9).ch (chanKey .flash 0)).state = .inService)
      && decide (readbackOf (({ flowing 1 9 with edge := [(0, { flash := [.erase 0, .program 0 [1]] })] } : State).pe 0).flash = some (0, [1]))) = true
    ∧ (∀ s : State, s = { flowing 4 0 with gran := { map := (List.range 24).map fun i => (i, if i < 16 then 0xDFC00000 else 0x60000000) } } →
        s.flowDue 0 4 = true ∧ s.groupSource 2 .a = some 0 ∧ s.canGrant 9 8 = true ∧ s.freeGroup = some 3) :=
  ⟨by decide +kernel, fun _ h => by subst h; decide +kernel⟩

/-- A manifest of port 0 with an empty body, its signer KD4, and a P-256 signature of it that verifies. -/
abbrev signedManifest : List Byte := frame 2 0 160 1 4 ++ signedBlock 1 72 64
    (beBytes 0x52f5654f27a938703eadabb0e6aee659d1974e4f77a0c62ad2561cdc1c7440b1 32 ++
      beBytes 0xc98569e1a9133e96d705f677fb1f8ab21368932f339c200ec853ba22ed5d3e9 32)
    (beBytes 0x29a9d83c18faeb325e60d6d5655d7796c9042ab1eb3488375c138f6e9fe8071a 32 ++
      beBytes 0x14d4ec1e0c7d75992f306b6ab2aebbcb64821558f59a441bae09c7b74ff4038d 32)

/-- The flow of port 0 waits for the verification of the manifest m, which engine 3 runs. -/
abbrev checking (m : List Byte) : State := { flowing 1 0 with
  link := { xfers := [(7, { kind := 1, last := true, bytes := m })]
            flows := [(0, { st := .pulling, flow := 1, xfer := 7, check := some (jobOf (.flow 0) m) })] }
  engines := [(3, { state := .busy, owner := 3, chain := some (jobOf (.flow 0) m) })] }

theorem hyp_pulled_manifest :
    (checking signedManifest).en 3 = { state := .busy, owner := 3, chain := some (jobOf (.flow 0) ((checking signedManifest).xf 7).bytes) }
    ∧ ((checking signedManifest).fl 0).check = some (jobOf (.flow 0) ((checking signedManifest).xf 7).bytes)
    ∧ (hybridParts (cScheme signedManifest)).isNone = true
    ∧ sigVerifies (cScheme signedManifest) (cDigest signedManifest) (cSigBlock signedManifest) = true
    ∧ sigVerifies (cScheme []) (cDigest []) (cSigBlock []) = false ∧ (checking []).xferOpen 7 = true ∧ ((checking []).xf 7).port = 0
    ∧ ((checking []).fl 0).active = true := by and_intros <;> decide +kernel

/-! ### MSPI, register window, aborts -/

/-- Mailbox 7 with one credit on its shelf. -/
abbrev boxed : State := { svc with
  mspi := { boxes := [(7, { ready := true, req := [0x01000000], rsp := [1, 2], delivered := 1 })] }
  leave := { svc.leave with pools := svc.leave.pools.map fun e => if e.1 = 23 then (23, { total := 256, free := 255, held := [(0, 1)], holding := [(0, 1)] }) else e } }

theorem hyp_MspiFrames :
    boxed.mspiDead = false ∧ boxed.hostFrame 0x02 ⟨0x700000, [5], true, false⟩ = .ok [5] ∧ (boxed.mb 7).ready = true
    ∧ [(5 : W32)].length ≤ boxed.holds 23 0 ∧ boxed.holds 23 0 < [(5 : W32), 6].length ∧ (boxed.mb 6).ready = false
    ∧ boxed.hostFrame 0x02 ⟨0x700000, [5], false, false⟩ = .error 1 ∧ (0x700000 + 255 * 2 ^ 8 : W24).toNat = 7 * 2 ^ 20 + 255 * 2 ^ 8
    ∧ (0x780000 + 255 * 2 ^ 8 : W24).toNat = 7 * 2 ^ 20 + 2 ^ 19 + 255 * 2 ^ 8
    ∧ (boxed.mb 7).owed = [] ∧ (boxed.mb 7).frozen = none
    ∧ (0x9E : Byte) ∉ ([0x02, 0x0B, 0x05, 0x9F, 0xAB, 0x3B, 0x32] : List Byte)
    ∧ (boxed.boot.dev = .service ∧ ({ boxed with boot := { boxed.boot with dev := .start } } : State).boot.dev ∉ ([.service, .ride, .headless] : List DevState))
    ∧ Tab.get 0 boxed.mspi.ctrs 4 ≠ 65534 ∧ Tab.get 0 ({ ctrs := [(4, 65534)] } : Mspi).ctrs 4 = 65534
    ∧ bitsOf (byteAt ({ svc with fuses := { latched := [(0x3001, true)] } } : State).cfg 0).toNat 3 1 ≠ 0 := by and_intros <;> decide +kernel

theorem hyp_RegisterWindowAndRegisters :
    svc.boot.dev = .service ∧ svc.mspiDead = false ∧ (svc.windowRead 0x120).isSome = true ∧ svc.windowRead 0xFFFFFC = none
    ∧ svc.hostFrame 0x32 ⟨0x120, [9], true, false⟩ = .ok [9] ∧ svc.windowLive 0xFFFFFC = none ∧ rsUpper 0x24 ≠ []
    ∧ fuseCore .canopyB = true ∧ svc.noLead .canopyA = false ∧ svc.firmware .canopyA = true ∧ svc.noLead .canopyB = true
    ∧ svc.leadAgent = some .canopyA ∧ (svc.st 5).gate = true
    ∧ (∀ s : State, s = { svc with boot := { svc.boot with leadShadowBad := true } } → s.boot.leadShadowBad = true ∧ s.boot.canopyOut = true)
    ∧ ({ svc with stands := [(5, { gate := false })] } : State).st 5 = { gate := false } ∧ boxed.noLead .canopyA = false
    ∧ (boxed.mb 7).ready = true ∧ (boxed.mb 7).aborted = false ∧ 1 ≤ (boxed.poolGrant 31 0 1).rspRoom 7
    ∧ (({ boxed with mspi := { boxes := [(7, { ready := true, aborted := true })] } } : State).mb 7).aborted = true := by
  and_intros
  all_goals first | decide +kernel | (intro _ h; subst h; decide +kernel)

/-- A 0xAB frame that names target i of this FUNCTION. -/
abbrev abortFrame (fn i : Nat) (again : Bool := false) : MspiIn := ⟨BitVec.ofNat 24 (fn * 2 ^ 20 + i * 2 ^ 12), [], true, again⟩

/-- The state answers that frame. -/
abbrev aborts (s : State) (fn i : Nat) (again : Bool := false) : Bool :=
  decide (s.boot.dev = .service) && decide (s.mspiDead = false) && decide ((abortFrame fn i again).addr.toNat = fn * 2 ^ 20 + i * 2 ^ 12)
    && decide (s.hostFrame 0xAB (abortFrame fn i again) = .ok []) && abortIndexOk fn i

theorem abort_of {s : State} {fn i : Nat} {again : Bool} (h : aborts s fn i again = true) : s.AbortOf (abortFrame fn i again) fn i := by
  simp only [aborts, Bool.and_eq_true, decide_eq_true_eq] at h
  exact ⟨h.1.1.1.1, h.1.1.1.2, h.1.1.2, h.1.2, h.2⟩

theorem hyp_AbortsAndTimeLimits :
    (aborts { svc with engines := [(3, { state := .busy })] } 1 3 && aborts (waking .round 1) 2 3 && aborts svc 3 95 && aborts svc 4 95
      && aborts svc 5 1 && aborts svc 5 2 && aborts svc 6 7) = true
    ∧ ([(2, 23), (3, 95), (4, 95), (5, 1), (6, 7)].all fun t => aborts { svc with mspi := { abortOf := [t] } } t.1 t.2 true) = true
    ∧ (waking .round 1).wake.stage ≠ .idle ∧ (waking .round 1).wake.lanes.contains 3 = true
    ∧ (∀ s : State, s = (({ verifying with hold := [(1, { hold := false, holdN := true })] } : State).poolGrant 8 1 5).poolGrant 0 5 5 →
        s.wake.stage = .idle ∧ s.serviceLane = some 23 ∧ s.svcNext = some (.leaf 7 0) ∧ aborts s 2 23 = true
          ∧ Tab.get 0 ({ fails := [(0, 1)] } : Xfer).fails 0 < 2)
    ∧ (({ svc with hold := [(95, { mode := .master })] } : State).ph 95).mode = .master
    ∧ (({ svc with sheaves := [(11, { released := true })] } : State).sh (95 / 8)).released = true
    ∧ ((onCore (.sq 11 7) { run := .running }).co 103).run ≠ .stopped
    ∧ (svc.ln 1).st ≠ .retired ∧ svc.served 7 = true ∧ (svc.po 23).st = .ok ∧ (svc.po 31).st = .ok
    ∧ (let b : Mbox := { req := [0x01000001], ready := true }
       b.request = none ∧ b.tag = none ∧ b.ready = true) := by
  and_intros
  all_goals first | decide +kernel | (intro _ h; subst h; decide +kernel)

/-! ### Commands of the mailboxes -/

/-- A state with this request, of TAG 7, in the FIFO of mailbox q. -/
abbrev mailIn (s : State) (q code : Nat) (ws : List W32) : State :=
  { s with mspi := { s.mspi with boxes := [(q, { ready := true, req := BitVec.ofNat 32 (code * 2 ^ 24 + 7 * 2 ^ 16 + ws.length) :: ws })] } }

/-- Firmware serves that request next. -/
abbrev served (s : State) (q code : Nat) (ws : List W32) : Bool :=
  decide ((mailIn s q code ws).request q (fun c => decide (c = code)) = some (code * 2 ^ 24 + 7 * 2 ^ 16 + ws.length, ws))
    && decide (hdrTag (code * 2 ^ 24 + 7 * 2 ^ 16 + ws.length) = 7)
    && decide ((code * 2 ^ 24 + 7 * 2 ^ 16 + ws.length) / 2 ^ 8 % 2 ^ 8 = 0)

theorem serves_of {s : State} {q code : Nat} {ws : List W32} (h : served s q code ws = true) : (mailIn s q code ws).Serves q code 7 ws := by
  simp only [served, Bool.and_eq_true, decide_eq_true_eq] at h
  refine ⟨_, h.1.1, h.1.2, h.2, ?_⟩
  simp [State.mb, Tab.get]

theorem runs_of {s : State} {q : MailboxId} {code : Nat} {ws : List W32} (hd : s.boot.dev = .service)
    (h : served s q.val code ws = true) : (mailIn s q.val code ws).Runs q code 7 ws := ⟨hd, serves_of h⟩

theorem hyp_HeaderRefusals :
    shentihaOf (.cmdKeyRead 0) = some (0, 0x34, false) ∧ served svc 0 0x34 [8] = true
    ∧ served { svc with boot := { svc.boot with dev := .sealed } } 0 0x34 [8] = true
    ∧ (∀ s : State, s = { svc with mspi := { boxes := [(1, { ready := true, req := [0x01070100] })] } } →
        s.request 1 (fun c => decide (c = 0x01)) = some (0x01070100, []) ∧ 0x01070100 / 2 ^ 8 % 2 ^ 8 ≠ 0 ∧ (s.mb 1).parity = false)
    ∧ (∀ s : State, s = { svc with mspi := { boxes := [(1, { ready := true, parity := true, req := [0x01070000] })] } } →
        s.request 1 (fun c => decide (c = 0x01)) = some (0x01070000, []) ∧ (s.mb 1).parity ≠ false) := by
  and_intros
  all_goals first | decide +kernel | (intro _ h; subst h; decide +kernel)

theorem hyp_GeneralCommands :
    (served svc 0 0x01 [] && served svc 1 0x02 [1] && served svc 1 0x02 [2] && served svc 1 0x03 [0x57535254] && served svc 1 0x03 [0]
      && served { svc with engines := [(3, { state := .busy })] } 1 0x04 [0x103000] && served svc 0 0x05 [2, 16]
      && served svc 7 0x05 [3, 65536]) = true
    ∧ (∀ s : State, s = { svc with mspi := { obj := { owner := some 1, kind := 1, len := 16 } } } →
        s.mspi.obj.owner = some 1 ∧ (0 : W32).toNat + (bytesOf [1, 2, 3, 4]).length ≤ s.mspi.obj.len ∧ served s 1 0x06 [0, 1, 2, 3, 4] = true
          ∧ served s 1 0x07 [] = true ∧ served s 2 0x05 [1, 16] = true ∧ served s 2 0x06 [0, 1] = true ∧ served s 2 0x07 [] = true) :=
  ⟨by decide +kernel, fun _ h => by subst h; decide +kernel⟩

/-- Mailbox 1 owns a complete object of this kind: 16 bytes of zeros. -/
abbrev object (s : State) (kind : Nat) : State :=
  { s with mspi := { obj := { owner := some 1, kind := kind, len := 16, written := (List.range 16).map fun i => (i, true) } } }

/-- Mailbox 1's command, with these words and this object, waits for the verification that engine 3 ends. -/
abbrev calling (s : State) (code : Nat) (ws : List W32) (o : List Byte) (j : ChainJob) : State :=
  { verifies s j with mspi := { s.mspi with boxes := [(1, { ready := true, tag := some 7, call := some { code := code, args := ws, obj := o, sig := some j } })] } }

theorem ends_of (s : State) (code : Nat) (ws : List W32) (o : List Byte) {j : ChainJob} (hj : (hybridParts j.scheme).isNone = true ∧ j.second = false)
    (hu : j.use = .command 1) (ht : s.keys.tasks = []) : (calling s code ws o j).CallEnds 3 1 7 code ws o j := by
  have hs : ({ j with second := false } : ChainJob) = j := by rw [← hj.2]
  refine ⟨rfl, rfl, .inl hj.1, hu, ?_, rfl, rfl, ht⟩
  rw [hs]; rfl

theorem hyp_PolicyWakeAndReleaseCommands :
    (served (object svc 1) 1 0x10 [] && ((object svc 1).mspi.obj.object 1 1).isSome && !svc.verdictBusy
      && !svc.policyOk (objContainer (List.replicate 16 0))
      && decide (svc.rankOf 0x0103 < 5) && served svc 1 0x11 [] && !svc.wakeRunning && svc.wakeReady && decide (svc.wakeLanes ≠ [])
      && served svc 1 0x12 [1, 0, 0] && ((maskPorts [1, 0, 0]).all fun p => !svc.inGlade p)
      && served (object svc 2) 1 0x13 [] && decide (svc.dispensation (objContainer (List.replicate 16 0)) = none)
      && served svc 0 0x14 [0, 96] && served svc 1 0x15 [95] && served svc 1 0x16 [65535] && served svc 0 0x17 [1, 0, 0x80000000]
      && served svc 0 0x18 [95] && served svc 1 0x19 [0x02E00000, 0xFD1FFFFF] && decide ((0xFD1FFFFF : W32) = ~~~ 0x02E00000)
      && served svc 1 0x1A [0x02E0FFFC, 5] && svc.homeUp) = true
    ∧ (∀ j ∈ [goodJob (.command 1), badJob (.command 1)], ∀ code ∈ [0x10, 0x13],
        (calling svc code [] signedPolicy j).CallEnds 3 1 7 code [] signedPolicy j ∧ (calling svc code [] signedPolicy j).verdictBusy = false
          ∧ (calling svc code [] signedPolicy j).homeUp = true ∧ signedPolicy.length ≤ 65536 ∧ (calling svc code [] signedPolicy j).rankOf 0x0140 < 5) := by
  refine ⟨by decide +kernel, fun j hj code hc => ?_⟩
  simp only [List.mem_cons, List.not_mem_nil, or_false] at hj hc
  rcases hj with rfl | rfl <;> rcases hc with rfl | rfl <;>
    exact ⟨ends_of svc _ _ _ (by decide +kernel) rfl (by decide +kernel), by decide +kernel, by decide +kernel, by decide +kernel, by decide +kernel⟩

theorem hyp_AlarmAndLogCommands :
    (served svc 0 0x20 [1] && served svc 0 0x21 [1, 5] && served svc 1 0x22 [0x00040101] && decide (rankStored 0x0101 4 = some 4)
      && served svc 1 0x28 [] && served svc 1 0x29 [0, 252] && served logging 1 0x2A [16, 1, 2, 3, 4] && logging.secondServes
      && decide (65536 ≤ logging.logFree) && logging.homeUp && !logging.log.closed
      && served { svc with hand := { state := .reloading } } 1 0x2A [16, 1, 2, 3, 4]
      && served (object { svc with log := { state := .stopped } } 3) 1 0x2B []
      && !(object svc 3).authOk (List.replicate 16 0) 6 0) = true
    ∧ (∀ j ∈ [goodJob (.command 1), badJob (.command 1)],
        let s := calling { svc with log := { state := .stopped } } 0x2B [] [0x41] j
        s.CallEnds 3 1 7 0x2B [] [0x41] j ∧ s.log.state = .stopped ∧ s.homeUp = true) := by
  refine ⟨by decide +kernel, fun j hj => ?_⟩
  simp only [List.mem_cons, List.not_mem_nil, or_false] at hj
  rcases hj with rfl | rfl <;>
    exact ⟨ends_of { svc with log := { state := .stopped } } _ _ _ (by decide +kernel) rfl (by decide +kernel), rfl, by decide +kernel⟩

/-- A device in DEPLOYED whose keys stand. -/
abbrev deployed : State := { provisioned with fuses := { provisioned.fuses with latched := [(0, true), (1, true), (2, true)], current := [(0, true), (1, true), (2, true)] } }

theorem hyp_KeyCommands :
    (served provisioned 1 0x30 (8 :: 0x0C002000 :: List.replicate 16 0) && attrArgOk 0x0C002000
      && served provisioned 1 0x31 [8, 0x0C002000] && served provisioned 1 0x32 ([0x3F08, 0x0C002000, 1, 0x41] ++ List.replicate 31 0)
      && zeros (bytesOf (((0x41 : W32) :: List.replicate 31 0).take 8)) 1 32 && zeros (bytesOf (((0x41 : W32) :: List.replicate 31 0).drop 8)) 0 96
      && served provisioned 1 0x33 [8, 0] && served provisioned 1 0x34 [8] && served provisioned 1 0x35 [63] && served provisioned 1 0x36 [0]
      && served provisioned 1 0x37 (8 :: List.replicate 8 0) && served provisioned 1 0x38 [] && decide (provisioned.lcCurrent ≠ 3)
      && served provisioned 1 0x39 [0] && served provisioned 1 0x39 [1] && served provisioned 1 0x39 [2]) = true
    ∧ (provisioned.rankOf 0x0402 < 5 ∧ provisioned.engineLeft = true ∧ provisioned.engineMayRead 3 0 = false)
    ∧ (∀ s : State, s = { svc with mspi := { boxes := [(1, { tag := some 7, call := some { code := 0x37, obj := List.replicate 0x60 0 } })] }
                                   engines := [(0, { state := .busy, op := 0x54C03800, task := some (.provSign 1 (List.replicate 256 0)) })] } →
        (s.en 0).state = .busy ∧ (s.en 0).chain = none ∧ (s.en 0).outSlot = none ∧ kop (opCode (s.en 0).op) = some (.ecdsaSign 1)
          ∧ s.keys.tasks = [] ∧ (s.mb 1).tag = some 7 ∧ (s.mb 1).aborted = false
          ∧ (s.mb 1).call = some { code := 0x37, obj := (List.replicate 256 0).take 0x60 })
    ∧ (calling deployed 0x38 [] [0x41] (goodJob (.command 1))).CallEnds 3 1 7 0x38 [] [0x41] (goodJob (.command 1))
    ∧ deployed.lcCurrent = 3 ∧ deployed.boot.orderAF = false ∧ deployed.leads = true ∧ deployed.keys.lcBad = false ∧ deployed.keys.kSlot = true := by
  and_intros
  all_goals first | decide +kernel | (intro _ h; subst h; decide +kernel)

/-- The same with KD0's completeness word burned over a digest of zeros. -/
abbrev burned : State :=
  { deployed with fuses := { deployed.fuses with otp := ((List.range 16).filter fun j => (crc16 (List.replicate 48 0)).testBit j).map fun j => (0xC00 + 384 + j, { c0 := .sound, c1 := .sound }) } }

theorem hyp_FuseCommands :
    (served provisioned 1 0x40 (0x20 :: List.replicate 16 0 ++ [~~~ 0x20]) && !provisioned.kdNeedsAuth 0x20
      && served provisioned 1 0x41 [0x20, ~~~ 0x20] && served provisioned 1 0x42 [0x115, ~~~ 0x115] && served provisioned 1 0x43 [0x2F, ~~~ 0x2F]
      && served provisioned 1 0x44 [127, ~~~ 127] && served provisioned 1 0x45 [] && decide (provisioned.fuses.state = .idle)
      && served provisioned 1 0x46 [0, 0] && served provisioned 1 0x46 [1, 0] && served provisioned 1 0x46 [2, 127] && served provisioned 1 0x46 [3, 15]
      && served provisioned 1 0x47 [2, ~~~ 2] && served (object provisioned 3) 1 0x47 [5, ~~~ 5]
      && !(object provisioned 3).authOk (List.replicate 16 0) 4 5 && decide (provisioned.fuseIssuer 1 { code := 0x20, group := 2, base := 0xC00, bits := 512 } = some provisioned.keyAgent)) = true
    ∧ (deployed.kdNeedsAuth 0x20 = true ∧ served (object deployed 3) 1 0x40 (0x20 :: List.replicate 16 0 ++ [~~~ 0x20]) = true
        ∧ served (object deployed 3) 1 0x41 [0x20, ~~~ 0x20] = true)
    ∧ (∀ j ∈ [goodJob (.command 1), badJob (.command 1)],
        (calling burned 0x41 [0x20, ~~~ 0x20] [0x41] j).CallEnds 3 1 7 0x41 [0x20, ~~~ 0x20] [0x41] j
          ∧ ((calling burned 0x41 [0x20, ~~~ 0x20] [0x41] j).grantFuse 2 0x20).FuseReady .canopyA 2 0x20 0)
    ∧ (calling deployed 0x47 [4, ~~~ 4] [0x41] (goodJob (.command 1))).CallEnds 3 1 7 0x47 [4, ~~~ 4] [0x41] (goodJob (.command 1))
    ∧ ((calling deployed 0x47 [4, ~~~ 4] [0x41] (goodJob (.command 1))).grantFuse 3 4).FuseReady .canopyA 3 0 4 := by
  refine ⟨by decide +kernel, by decide +kernel, fun j hj => ?_, ?_, ?_⟩
  · simp only [List.mem_cons, List.not_mem_nil, or_false] at hj
    rcases hj with rfl | rfl <;>
      exact ⟨ends_of burned _ _ _ (by decide +kernel) rfl (by decide +kernel), _, rfl, by and_intros <;> decide +kernel⟩
  · exact ends_of deployed _ _ _ (by decide +kernel) rfl (by decide +kernel)
  · exact ⟨_, rfl, by and_intros <;> decide +kernel⟩

/-- Port 0 held, its flash retired, its serve-set context of slot A. -/
abbrev serving : State := { svc with
  pgran := [(0, { flashRetired := true })], win := [(0, { ctx := List.replicate 128 0 ++ [4, 1] ++ List.replicate 126 0 })] }

/-- Port 0's SERVE group 4 has a BAD page; slot A is chosen. -/
abbrev holed : State := { svc with
  gran := { map := [(32, 0xE0000000), (33, 0x60000000)] }, verd := [(0, { chosen := 1, lenA := 4096, rootA := [1] })] }

/-- The arguments of a RECOVER: its first word and its page. -/
abbrev rec (w page : W32) : List W32 := w :: page :: List.replicate 16 0

theorem hyp_RecoveryLinkAndContinuityCommands :
    (served svc 1 0x50 [131071, 1] && served svc 1 0x58 (rec 0x10001 0) && recoverArgOk (rec 0x10001 0)
      && ({ svc with hold := [(0, { pg := true })] } : State).mayReprogram (recoverArg (rec 0x10001 0))
      && !svc.mayReprogram (recoverArg (rec 0x10001 0)) && served svc 1 0x58 (rec 5 0)
      && recoverArgOk (rec 5 0) && served svc 1 0x59 [127] && flowKeyOk 127 && served (flowing 1 2) 1 0x5A [0]
      && served svc 1 0x60 [0x201, 1, 0xFFFF] && served svc 1 0x61 (0x2000 :: List.replicate 8 1 ++ List.replicate 8 2)
      && served svc 1 0x62 [] && served svc 1 0x68 [0] && decide (svc.hand.running = .a) && served svc 1 0x68 [1] && served svc 1 0x69 []
      && served svc 1 0x6A [0x403] && decide (channelArg [0x403] = some (.engine, 3)) && served svc 1 0x6B [0x801]
      && served svc 1 0x6B [0x25F] && decide (channelArg [0x25F] = some (.flash, 95))
      && served svc 1 0x70 [1, ~~~ 1] && served svc 1 0x70 [0, ~~~ 0] && served svc 1 0x71 [1, 0x00FFFFFC, 9]) = true
    ∧ (svc.rxRefuses = false ∧ (svc.fl 0).active = false ∧ (svc.fl 127).active = false ∧ Flaw.lastGood 0 ∉ svc.flaws
        ∧ svc.newBundleOk .b = false ∧ svc.verdictBusy = false ∧ svc.hand.state = .idle)
    ∧ (recoverArgOk (rec 0x10003 0) = true ∧ served serving 1 0x58 (rec 0x10003 0) = true
        ∧ serving.mayServe (recoverArg (rec 0x10003 0)) = true ∧ polShelf serving.pol 0 = false
        ∧ (serving.stageRange 0 (polRegion serving.pol 0 0).1 1).isSome = true ∧ svc.mayServe (recoverArg (rec 0x10003 0)) = false)
    ∧ (recoverArgOk (rec 4 32) = true ∧ served holed 1 0x58 (rec 4 32) = true ∧ holed.restageLeaves (recoverArg (rec 4 32)) = some [0])
    ∧ ((flowing 1 2).fl 0).active = true
    ∧ (∀ s : State, s = { flowing 1 3 with link := { (flowing 1 3).link with flows := [(0, { st := .erasing, flow := 1, stepNo := 3, token := true })] } } →
        (s.fl 0).active = true ∧ (s.fl 0).stepNo % 2 = 1 ∧ (s.fl 0).st = .erasing ∧ served s 1 0x5A [0] = true)
    ∧ (∀ j ∈ [goodJob (.handover 1), badJob (.handover 1)],
        ∀ s : State, s = runtime { verifies svc j with hand := { state := .checking }
                                                       mspi := { boxes := [(1, { tag := some 7, call := some { code := 0x68, args := [1], obj := [], sig := none } })] } } →
          (s.en 3).state = .busy ∧ (s.en 3).chain = some j ∧ (hybridParts j.scheme).isNone = true ∧ j.use = .handover 1
            ∧ s.hand.state = .checking ∧ s.keys.tasks = [] ∧ (s.mb 1).tag = some 7 ∧ (s.mb 1).aborted = false
            ∧ (s.mb 1).call.map (·.code) = some 0x68 ∧ s.serviceLane.isSome = true)
    ∧ (∀ s : State, s = { svc with chans := [(chanKey .engine 3, { state := .retired }), (chanKey .sequencer 2, { state := .retired })]
                                   hold := [(16, { hold := false, holdN := true })] } →
        (s.ch (chanKey .engine 3)).state = .retired ∧ served s 1 0x6A [0x403] = true ∧ channelArg [0x602] = some (.sequencer, 2)
          ∧ (s.ch (chanKey .sequencer 2)).state = .retired ∧ ((sheafPorts 2).all fun p => s.heldNow p) = false ∧ served s 1 0x6A [0x602] = true) := by
  and_intros
  all_goals first | decide +kernel | (intro _ h; subst h; decide +kernel) | skip
  intro j hj s hs
  simp only [List.mem_cons, List.not_mem_nil, or_false] at hj
  rcases hj with rfl | rfl <;> (subst hs; decide +kernel)

/-- The seed core serves mailbox 0 in this state. -/
abbrev seedIn (d : DevState) : State := { started with boot := { started.boot with dev := d, seedOut := true, sensed := true } }

theorem hyp_SeedServices :
    (served (seedIn .sealed) 0 0xE0 [127] && decide ((seedIn .sealed).lcLatched ≠ 5) && served (seedIn .sealed) 0 0xE1 [0, ~~~ 0]
      && served (seedIn .fwless) 0 0xE8 [1, ~~~ 1] && !(seedIn .fwless).slotPasses .b && served (seedIn .headless) 0 0xE9 [0, 0x00FFFFFC, 9]
      && served (seedIn .headless) 0 0xEA [0] && served (seedIn .production) 0 0xF0 [] && decide ((seedIn .production).lcLatched ≤ 1)
      && decide (((seedIn .fwless).seedDraw ((seedIn .fwless).bundleHeader .b)).isSome = true) && served (seedIn .fwless) 0 0xEA [1]
      && served (seedIn .fwless) 0 0xEF [] && !commandCodes.contains 0xEF) = true := by decide +kernel

/-! ### The whole machine -/

theorem hyp_StepRunsFrontCommand :
    ({ svc with pending := [.canopyWatchdogExpiry] } : State).pending = .canopyWatchdogExpiry :: []
    ∧ (svc.pending = [] ∧ svc.boot.coreLock = true ∧ svc.hand.state ≠ .switching ∧ svc.engineLeft = true
        ∧ ∀ e ∈ svc.leave.pools, (svc.po e.1).fault = false ∧ svc.holdingBad e.1 = false ∧ ((svc.po e.1).st = .ok → (svc.po e.1).checks = true))
    ∧ (State.reset.pending = [] ∧ State.reset.boot.coreLock = false)
    ∧ (∀ s : State, s = { svc with leave := { pools := [(0, { total := 48, free := 47 })] }, alarms := { ranks := [(0x0140, 1), (0x0141, 1)] } } →
        s.rankOf 0x0140 ≤ 1 ∧ s.rankOf 0x0141 ≤ 1 ∧ (s.po 0).st = .ok ∧ (s.po 0).checks = false) := by
  and_intros
  all_goals first | decide +kernel | (intro _ h; subst h; decide +kernel)

theorem hyp_OnlyReleaseOpensAPort :
    (match step { svc with pending := [.portRelease 0 .nothing], hold := [(0, { token := some 1, pg := true })]
                           stands := [(0, { gateN := false, opened := true })] } with
      | .next t => !(t.ph 0).hold
      | _ => false) = true := by decide +kernel

theorem hyp_StepsKeepMemoriesCanonical : svc.memWf = true ∧ ∃ t, step svc = .next t := ⟨by decide +kernel, _, rfl⟩

theorem hyp_OnlyTheseCommandsWriteTheHomeFlash :
    writesHome .canopyWatchdogExpiry = false ∧ ∃ t, exec .canopyWatchdogExpiry svc = .next t := ⟨by decide +kernel, _, rfl⟩

theorem hyp_OnlyTheseCommandsSetVerdicts :
    setsVerdict .canopyWatchdogExpiry = false ∧ movesEdge .canopyWatchdogExpiry = false
      ∧ sendsFrames .canopyWatchdogExpiry = false ∧ setsCyc .canopyWatchdogExpiry = false := by decide +kernel

/-! ### Worked values of the spec -/

/-- FIPS 180-4's example: SHA-384 of "abc" begins CB 00 75 3F. -/
theorem test_sha384_abc : (hashSha384 [0x61, 0x62, 0x63]).take 4 = [0xCB, 0x00, 0x75, 0x3F] := by decide +kernel

theorem test_no_word_spells_a_command : decodeTableWord 32 0 = none := rfl

/-- R350: GENERATE in DEPLOYED with DEST Kernel engines, EXPORT 0, LC_BIND 1, LOCK 1 and a P-384 key. -/
theorem test_generated_attribute :
    ({ svc with fuses := { current := [(0, true), (1, true), (2, true)] } } : State).placedAttr 0x48044000 1 true false = 0xC905C000 := by
  decide +kernel

/-- The worked example of 18: the census TOTAL word of LV at reset. -/
theorem test_census_total_word : svc.windowRead 0x20000 = some 0x28000030 := by decide +kernel

/-- The worked example of 01: the stands of ports 32 to 39. -/
theorem test_stands_of_bank_4 : (List.range 8).map (fun i => standOf (32 + i)) = [2, 3, 4, 5, 0, 1, 2, 3] := by decide +kernel

/-- The worked examples of 10 and 11: operation words. -/
theorem test_operation_words :
    kop (opCode 0x44C00000) = some (.ecdsaVerify 1) ∧ opLen 0x44C00000 = 48 ∧ kop (opCode 0x74014800) = some (.ecPubgen 1)
    ∧ opSlot 0x74014800 = 20 ∧ opFromSlot 0x74014800 = true ∧ opOutSlot 0x64014D50 = 21 ∧ opToSlot 0x64014D50 = true := by decide +kernel

theorem get_listed {α : Type} (d : α) (l : List α) (a i : Nat) :
    Tab.get d ((l.zipIdx a).map fun e => (e.2, e.1)) (a + i) = l.getD i d := by
  induction l generalizing a i with
  | nil => rfl
  | cons x l ih =>
    rw [List.zipIdx_cons, List.map_cons]
    cases i with
    | zero => simp [Tab.get]
    | succ i =>
      have h : ¬a = a + (i + 1) := by omega
      have e : a + (i + 1) = a + 1 + i := by omega
      simp only [Tab.get, h, if_false]
      rw [e, ih (a + 1) i]; simp

theorem range_listed {α : Type} (d : α) (l : List α) (a n : Nat) :
    Tab.range d ((l.zipIdx a).map fun e => (e.2, e.1)) a (l.length + n) = l ++ List.replicate n d := by
  apply List.ext_getElem (by simp [Tab.length_range])
  intro i h1 h2
  rw [Tab.getElem_range, get_listed, List.getElem_append, List.getD_eq_getElem?_getD]
  split
  · next h => simp [h]
  · next h => simp [List.getElem?_eq_none (Nat.le_of_not_lt h)]

/-- Mailbox 1 owns a complete object of this kind with these bytes. -/
abbrev holding (s : State) (kind : Nat) (o : List Byte) : State :=
  let w := ((List.replicate o.length true).zipIdx 0).map fun e => (e.2, e.1)
  { s with mspi := { s.mspi with obj := { owner := some 1, kind := kind, len := o.length, bytes := homeAt 0 o, written := w } } }

theorem object_holding (s : State) (kind : Nat) (o : List Byte) : (holding s kind o).mspi.obj.object 1 kind = some o := by
  have hd := range_listed (0 : Byte) o 0 0
  simp only [Nat.add_zero, List.replicate_zero, List.append_nil] at hd
  have hf : (holding s kind o).mspi.obj.full = true := by
    simp only [ObjBuf.full, List.all_eq_true, List.mem_range]
    intro i hi
    have := get_listed false (List.replicate o.length true) 0 i
    rw [Nat.zero_add] at this
    rw [this, List.getD_eq_getElem?_getD, List.getElem?_replicate, if_pos hi]; rfl
  unfold ObjBuf.object
  rw [if_pos ⟨rfl, rfl, hf⟩]
  exact congrArg some hd

/-- The signature block of scheme 8 with an all-zero key and signature, which has the form of one. -/
abbrev hybridBlock : List Byte := signedBlock 8 2696 4723 [] []
theorem hybrid_key : keyDigest hybridBlock = beBytes 0x06baad3e05bc69411e43492b42fc4e6395f26d7d3cbd31360ff318b668ad8d69d1d9f5309700dc7257b7327eddaa1b3f 48 := by
  decide +kernel

theorem hybrid_length : hybridBlock.length = 7456 := by decide +kernel
/-- What is cut from behind a prefix of bytes. -/
theorem sub_behind (l b : List Byte) (o n : Nat) (ho : l.length = o) (hn : b.length = n) : sub (l ++ b) o n = b := by
  subst ho hn; simp [sub]

/-- The head of an owner authorisation of KD0 for this function and argument. -/
abbrev authHead (fn arg : Nat) : List Byte :=
  ascii "SV96AUTH" ++ leBytes 1 2 ++ leBytes 8 2 ++ [0, BitVec.ofNat 8 fn, 0, 0] ++ leBytes arg 4 ++ leBytes 1 4 ++ List.replicate 24 0
    ++ sha384 (List.replicate 96 0) ++ leBytes 7456 4 ++ List.replicate 12 0
/-- The whole, with that block; its signature has not been looked at. -/
abbrev authFor (fn arg : Nat) : List Byte := authHead fn arg ++ hybridBlock
/-- The bits of KD0: the digest of that block's key, and LOCK. -/
abbrev kd0 : Tab Bool :=
  ((beBytes 0x06baad3e05bc69411e43492b42fc4e6395f26d7d3cbd31360ff318b668ad8d69d1d9f5309700dc7257b7327eddaa1b3f 48).zipIdx.flatMap fun e =>
      ((List.range 8).filter fun j => e.1.getLsbD j).map fun j => (0xC00 + 8 * e.2 + j, true)) ++ [(0xC00 + 400, true)]
/-- A device in DEPLOYED whose KD0 is that digest, and whose log stands still. -/
abbrev owned : State := { deployed with log := { state := .stopped }, fuses := { deployed.fuses with latched := deployed.fuses.latched ++ kd0, current := deployed.fuses.current ++ kd0 } }

theorem hybrid_form : sbFormOk hybridBlock 7456 = true ∧ keyBlockOk 8 hybridBlock = true
    ∧ kdLock owned.fuses.current 0 = true ∧ kdRevoke owned.fuses.current 0 = false
    ∧ kdDigest owned.fuses.current 0 = beBytes 0x06baad3e05bc69411e43492b42fc4e6395f26d7d3cbd31360ff318b668ad8d69d1d9f5309700dc7257b7327eddaa1b3f 48 := by
  and_intros <;> decide +kernel

theorem auth_owned (fn arg : Nat) (hl : (authHead fn arg).length = 0x70)
    (h : (let a := authFor fn arg
      decide (field a 0x60 4 = 7456 ∧ field a 0x0A 2 = 8 ∧ byteAt a 0x0C = 0) && decide (sub a 0 8 = ascii "SV96AUTH") && decide (field a 8 2 = 1)
      && zeros a 0x0E 2 && zeros a 0x18 8 && zeros a 0x64 12
      && decide ((byteAt a 0x0D).toNat = fn) && decide (field a 0x10 4 = arg) && authArg fn arg
      && decide (field a 0x14 4 = owned.boot.epoch.toNat) && decide (sub a 0x20 16 = padTo owned.boot.nonce 16)
      && decide (sub a 0x30 48 = sha384 (padTo owned.keys.devid 96))) = true) :
    owned.authOk (authFor fn arg) fn arg = true ∧ owned.onEngine (field (authFor fn arg) 0x0A 2) = true := by
  have e : sub (authFor fn arg) 0x70 7456 = hybridBlock := sub_behind _ _ _ _ hl hybrid_length
  obtain ⟨f1, f2, f3, f4, f5⟩ := hybrid_form
  simp only [Bool.and_eq_true, decide_eq_true_eq] at h
  obtain ⟨⟨⟨⟨⟨⟨⟨⟨⟨⟨⟨⟨h1, h2, h3⟩, h4⟩, h5⟩, h6⟩, h7⟩, h8⟩, h9⟩, h10⟩, h11⟩, h12⟩, h13⟩, h14⟩ := h
  constructor
  · have k : owned.authSigner fn 0 hybridBlock = true := by
      unfold State.authSigner; rw [if_pos (by decide), hybrid_key, f3, f4, f5]; decide
    unfold State.authOk
    rw [h1, h2, h3]
    show (_ && sbFormOk (sub (authFor fn arg) 0x70 7456) 7456 && keyBlockOk 8 (sub (authFor fn arg) 0x70 7456)
      && owned.authSigner fn 0 (sub (authFor fn arg) 0x70 7456)) = true
    rw [e, f1, f2, k, h4, h5, h6, h7, h8, h9, h10, h11, h12, h13, h14]
    simp
  · rw [h2]; decide +kernel

/-- An object in the buffer does not change what an authorisation is held to. -/
theorem holding_same (s : State) (o a : List Byte) (code fn arg n : Nat) (ws : List W32) :
    (mailIn (holding s 3 o) 1 code ws).authOk a fn arg = s.authOk a fn arg
      ∧ (mailIn (holding s 3 o) 1 code ws).onEngine n = s.onEngine n
      ∧ (mailIn (holding s 3 o) 1 code ws).mspi.obj = (holding s 3 o).mspi.obj := ⟨rfl, rfl, rfl⟩

theorem auth_served (s : State) (o : List Byte) (code fn arg : Nat) (ws : List W32) (hs : served (holding s 3 o) 1 code ws = true)
    (ha : s.authOk o fn arg = true ∧ s.onEngine (field o 0x0A 2) = true) :
    let s := mailIn (holding s 3 o) 1 code ws
    s.Serves 1 code 7 ws ∧ s.mspi.obj.object 1 3 = some o ∧ s.authOk o fn arg = true ∧ s.onEngine (field o 0x0A 2) = true := by
  obtain ⟨e2, e3, e4⟩ := holding_same s o o code fn arg (field o 0x0A 2) ws
  exact ⟨serves_of hs, (congrArg (fun b => b.object 1 3) e4).trans (object_holding s 3 o), e2.trans ha.1, e3.trans ha.2⟩

/-- The commands of AlarmAndLogCommands, KeyCommands and FuseCommands that ask for an authorisation, with one that is in order. -/
theorem hyp_AuthorisedCommands : ∀ x ∈ [((0x2B, [], 6, 0) : Nat × List W32 × Nat × Nat), (0x38, [], 1, 0),
      (0x40, 0x20 :: List.replicate 16 0 ++ [~~~ 0x20], 5, 0x20 + 256), (0x41, [0x20, ~~~ 0x20], 5, 0x20 + 512), (0x47, [4, ~~~ 4], 3, 4)],
    let o := authFor x.2.2.1 x.2.2.2
    let s := mailIn (holding owned 3 o) 1 x.1 x.2.1
    (s.Serves 1 x.1 7 x.2.1 ∧ s.mspi.obj.object 1 3 = some o ∧ s.authOk o x.2.2.1 x.2.2.2 = true ∧ s.onEngine (field o 0x0A 2) = true)
      ∧ s.boot.dev = .service ∧ s.log.state = .stopped ∧ s.lcCurrent = 3 ∧ s.kdNeedsAuth 0x20 = true ∧ s.fuses.state = .idle := by
  have k : owned.lcCurrent = 3 ∧ owned.kdNeedsAuth 0x20 = true := by decide +kernel
  intro x hx
  refine ⟨?_, rfl, rfl, k.1, k.2, rfl⟩
  simp only [List.mem_cons, List.not_mem_nil, or_false] at hx
  rcases hx with rfl | rfl | rfl | rfl | rfl <;>
    exact auth_served owned _ _ _ _ _ (by decide +kernel) (auth_owned _ _ (by decide +kernel) (by decide +kernel))

end Sys2Proof.Tests
end

section
namespace Sys2Proof.Machine

open Sys2Proof

/-! ## The reset state -/

/-- Settles O58: the reset state is closed, and it lists no port, so every hold bit reads as set. -/
theorem resetState : Obligations.ResetState := by
  have held : ∀ p, State.reset.heldNow p = true := fun _ => rfl
  exact ⟨by decide +kernel, held, rfl, rfl, rfl, by decide +kernel⟩

/-! ## A wake whose lanes get no leave -/

/-- A policy of zeros: no port is used. -/
abbrev zeroPolicy : Policy := { bytes := List.replicate 0x400 0 }

/-- The device in SERVICE with power, clocks and lanes good, core A in LEAD and a policy in force. -/
abbrev inService : State := { State.reset with
  boot := { dev := .service, sup := { core := true, sram := true, aon := true, sd := true, sda := true, vbat := true, io := 0xFFF, ioH := true },
            refPresent := true, coreLock := true, flashLock := true, sensed := true, canopyOut := true, linkOut := true,
            laneSched := true, lead := .a }
  wake := { policy := some zeroPolicy, schedOk := true, firstDone := true, shelf := { decided := true } }
  sheaves := (List.range 12).map fun k => (k, { refused := true })
  keys := { kSlot := true }
  log := { state := .running, reapplied := true } }

/-- The engine pool has granted all its leave, and WAKE_START with TAG 7 waits in mailbox 1. -/
abbrev wakeWithoutLeave : State := { inService with
  leave := { inService.leave with pools := [(8, { total := 24, free := 0 })] }
  mspi := { boxes := [(1, { ready := true, req := [0x11070000] })] } }

theorem wakeWithoutLeave_runs : wakeWithoutLeave.Runs 1 0x11 7 [] :=
  ⟨rfl, 0x11070000, by decide +kernel, by decide +kernel, by decide +kernel, by decide +kernel⟩

/-- The wake is answered, but the pool has no leave for its lanes, so it does not start. -/
theorem wakeWithoutLeave_stays_idle {t : State} (e : exec (.cmdWakeStart 1) wakeWithoutLeave = .next t) :
    t.wakeRunning = false := by
  have idle : (match exec (.cmdWakeStart 1) wakeWithoutLeave with | .next t => t.wakeRunning | _ => false) = false := by
    decide +kernel
  rwa [e] at idle

/-- Refutes O49: WAKE_START on a device that is ready for the wake, but whose lane pool (8) has no leave free, leaves the
wake idle. -/
theorem not_policyWakeAndReleaseCommands : ¬ Obligations.PolicyWakeAndReleaseCommands := by
  intro h
  obtain ⟨-, -, start, -⟩ := h wakeWithoutLeave 1 7 0 0 [] [] 0 0 { use := .shelf }
  obtain ⟨t, e, -, running⟩ := start wakeWithoutLeave_runs (by decide) (by decide +kernel) (by decide +kernel)
    (by decide +kernel) (by decide +kernel)
  rw [wakeWithoutLeave_stays_idle e] at running
  cases running

end Sys2Proof.Machine
end

section
namespace Sys2Proof.Machine

open Sys2Proof

/-! ## A task that clears the keys stops the verification that made room for it -/

variable {s : State}

theorem each_engines {α : Type} {l : List α} {f : State → α → State} (h : ∀ u x, (f u x).engines = u.engines) :
    (s.each l f).engines = s.engines := by
  induction l generalizing s with
  | nil => rfl
  | cons x l ih => exact (ih (s := f s x)).trans (h s x)

theorem ite_engines {c : Prop} [Decidable c] {t u : State} (hs : s.engines = u.engines) (ht : t.engines = u.engines) :
    (if c then s else t).engines = u.engines := by
  split
  · exact hs
  · exact ht

theorem setLine_engines (n : Nat) (v : Bool) : (s.setLine n v).engines = s.engines := each_engines fun _ _ => rfl

theorem pushEvent_engines (p : Nat) (w : W36) : (s.pushEvent p w).engines = s.engines := by
  unfold State.pushEvent
  extract_lets d
  split
  · rfl
  · split <;> rfl

theorem takeFlip_engines (p : Nat) : (s.takeFlip p).engines = s.engines := by
  unfold State.takeFlip
  extract_lets w g s1 s2
  have flips : s2.engines = s.engines := by
    unfold s2 State.flipsEnd
    split
    · exact setLine_engines 7 true
    · rfl
  exact (pushEvent_engines p _).trans flips

theorem runtimeOff_engines : s.runtimeOff.engines = s.engines := by
  unfold State.runtimeOff
  split <;> rfl

theorem holdPort_engines (p : Nat) : (s.holdPort p).engines = s.engines := by
  unfold State.holdPort
  extract_lets was s1 s2 s3 s4
  have flip : s3.engines = s.engines := by
    unfold s3
    split
    · exact takeFlip_engines p
    · rfl
  have event : s4.engines = s.engines := by
    unfold s4
    split
    · exact (pushEvent_engines p _).trans flip
    · exact flip
  split
  · exact runtimeOff_engines.trans event
  · exact event

theorem remask_engines (n : Nat) : (s.remask n).engines = s.engines := rfl

/-- An alarm's holds and its entry change no engine. -/
theorem decided_engines (code rank tkind target data : Nat) : (s.decided code rank tkind target data).engines = s.engines := by
  unfold State.decided
  extract_lets word s1 a mark al held s2 s3 s4
  have used : s1.engines = s.engines := by
    unfold s1 State.dataUsed
    split <;> rfl
  have holds : s3.engines = s2.engines := each_engines fun u p => holdPort_engines (s := u) p
  exact (setLine_engines 6 true).trans (holds.trans used)

/-- At rank ZEROIZE the engines stand as the clearing leaves them. -/
theorem raise_zeroize_engines (code tkind target data : Nat) : ∃ r, (s.raise code 5 tkind target data).engines
    = (((s.dataUsed data).backupLog code 5 0 (s.dataOf data)).zeroize r).engines := by
  unfold State.raise
  extract_lets word s1 s2 s3
  have cleared : s3.engines = s2.engines := decided_engines code 5 tkind target word
  have zeroized : s2 = (s1.backupLog code 5 0 word).zeroize (decide (5 = 5) && !s1.backup.sealLatch) := if_pos (Nat.le_refl 5)
  have ended : ∀ u : State, u.engines = s3.engines →
      (if 5 = 6 then u.enterSealed else u).engines = ((s1.backupLog code 5 0 word).zeroize (decide (5 = 5) && !s1.backup.sealLatch)).engines :=
    fun u h => by rw [← zeroized]; exact (congrArg State.engines (if_neg (by decide))).trans (h.trans cleared)
  exact ⟨_, ended _ (ite_engines rfl rfl)⟩

/-- An operation that reads its key from a slot checks the slot; no other engine moves after that. -/
theorem kernelBegin_other {e i : Nat} (ne : i ≠ e) (hc : (s.en e).chain = none) (hs : opFromSlot (s.en e).op = true) :
    (s.kernelBegin e).en i
      = ((s.enU e fun k => { k with state := .busy, waiting := false }).keyCheck (opSlot (s.en e).op)).en i := by
  unfold State.kernelBegin
  extract_lets k s1 n s2 x a s3
  have reads : ¬ ((s.en e).chain.isSome = true ∨ (!opFromSlot (s.en e).op) = true) := by simp [hc, hs]
  have rest : s3.engines = s2.engines := ite_engines (State.ksU_engines ..) (remask_engines n)
  refine (congrArg (State.en · i) (if_neg reads)).trans ?_
  split
  · rw [State.enU_en_ne (h := ne)]
    exact congrArg (Tab.get {} · i) rest
  · exact State.enU_en_ne (h := ne) ..

/-- Engine 0 runs a verification for the shelf manifest under a hybrid scheme; LEAD waits for an engine to show the public
key of slot 8, whose check bits do not fit its attributes; alarm 0x0402 stands at ZEROIZE. -/
abbrev hybridRuns : State := { State.reset with
  boot := { dev := .service, canopyOut := true, lead := .a }
  engines := [(0, { state := .busy, owner := 3, chain := some { use := .shelf, scheme := 6 } })]
  alarms := { ranks := [(0x0402, 6)] }
  keys := { kSlot := true, tasks := [.provPub 1 8 []], slots := [(8, { attr := 0x2000 })] } }


theorem taskNext_starts {t : KTask} {r : List KTask} {a : Agent} {e : Nat} (ht : s.keys.tasks = t :: r) (ha : s.leadAgent = some a)
    (he : (List.range 4).reverse.find? s.engineFree = some e) :
    s.taskNext = ({ s with keys := { s.keys with tasks := r } } : State).taskStart e a t := by
  unfold State.taskNext
  rw [ht, ha, he]

/-- Engine `e` as an accepted operation word sets it up, with no slot for its output (R305, R310). -/
def State.opLoaded (s : State) (e : Nat) (src : Agent) (w : W32) : State :=
  s.enU e fun k => { k with
    owner := ownerCode src, op := w, key := none, keyAttr := 0, keyFail := false, outSlot := none, lastOp := BitVec.ofNat 6 (opCode w),
    result := 0, by_ := ownerCode src, other := if k.by_ = ownerCode src then k.other else (k.result, k.lastOp) }

/-- A word that is accepted, needs no slot for its output and gets its leave begins at once. -/
theorem kernelStart_begins {e : Nat} {src : Agent} {w : W32} {o : KOp} {t : State} (hsrc : s.kernelAgent = some src)
    (hidle : (s.en e).state = .idle) (hwait : (s.en e).waiting = false) (hch : (s.ch (chanKey .engine e)).state ≠ .probing)
    (hw : wordRefused w = false) (hop : kop (opCode w) = some o) (hout : opToSlot w = false)
    (ht : (s.opLoaded e src w).lvTake (.kernel e) (kopTokens o (opLen w)) = some t) :
    s.kernelStart e src w = t.kernelBegin e := by
  unfold State.kernelStart
  simp only [hsrc, hidle, hwait, hch, hw, hop, hout, ne_eq, not_true_eq_false, decide_false, Bool.false_eq_true, or_self,
    if_false, Bool.false_and]
  unfold State.opLoaded at ht
  rw [ht]

/-- A slot that fails its check where alarm 0x0402 stands at ZEROIZE leaves the engines as the clearing does. -/
theorem keyCheck_zeroize {n i : Nat} (hn : (s.ks n).sound = false) (hb : (s.ks n).bad = false)
    (hr : (s.slotBad n).rankOf 0x0402 = 5) : ∃ r, (s.keyCheck n).en i
      = ((((s.slotBad n).used 1).backupLog 0x0402 5 0 ((s.slotBad n).drawn 0 % 2 ^ 32)).zeroize r).en i := by
  obtain ⟨r, h⟩ := raise_zeroize_engines (s := s.slotBad n) 0x0402 0 0 noData
  refine ⟨r, ?_⟩
  unfold State.keyCheck State.raiseReg
  rw [if_neg (by simp [hn, hb]), hr]
  exact congrArg (Tab.get {} · i) h

/-- The first part of the signature has verified. -/
abbrev secondPart : State := (hybridRuns.enU 0 fun k => { k with
  chain := some { use := .shelf, scheme := 6, second := true }, mem := chainMem 6 [] [] true }).verStart

/-- The operation word of the task. -/
abbrev pubWord : W32 := (KTask.provPub 1 8 []).word 1

/-- Engine 3 is free for the task. -/
abbrev taskReady : State :=
  ({ secondPart with keys := { secondPart.keys with tasks := [] } } : State).enU 3 fun k => { k with mem := memPutInt k.mem 0x380 (leNat []) 6 }

/-- Engine 3 is to read slot 8, which fails its check, and the clearing that follows aborts engine 0. -/
def State.clearsForSlot8 (t : State) : Bool :=
  let u := t.enU 3 fun k => { k with state := .busy, waiting := false }
  let engine := fun r => (((((u.slotBad 8).used 1).backupLog 0x0402 5 0 ((u.slotBad 8).drawn 0 % 2 ^ 32)).zeroize r).en 0).state
  (t.en 3).chain.isNone && opFromSlot (t.en 3).op && decide (opSlot (t.en 3).op = 8) && !(u.ks 8).sound && !(u.ks 8).bad
    && decide ((u.slotBad 8).rankOf 0x0402 = 5) && decide (engine true = .aborting) && decide (engine false = .aborting)

theorem task_clears : ((taskReady.opLoaded 3 .canopyA pubWord).lvTake (.kernel 3) (kopTokens (.ecPubgen 0) (opLen pubWord))).map State.clearsForSlot8 = some true := by decide +kernel

theorem kernelBegin_aborts {t : State} (h : t.clearsForSlot8 = true) : ((t.kernelBegin 3).en 0).state = .aborting := by
  simp only [State.clearsForSlot8, Bool.and_eq_true, Bool.not_eq_true', decide_eq_true_eq, Option.isNone_iff_eq_none] at h
  obtain ⟨⟨⟨⟨⟨⟨⟨hchain, hfrom⟩, hslot⟩, hsound⟩, hbad⟩, hrank⟩, hz1⟩, hz2⟩ := h
  rw [kernelBegin_other (by decide) hchain hfrom, hslot]
  obtain ⟨r, hr⟩ := keyCheck_zeroize (i := 0) hsound hbad hrank
  rw [hr]
  cases r
  · exact hz2
  · exact hz1

theorem task_begins {u : State}
    (granted : (taskReady.opLoaded 3 .canopyA pubWord).lvTake (.kernel 3) (kopTokens (.ecPubgen 0) (opLen pubWord)) = some u) :
    taskReady.kernelStart 3 .canopyA pubWord = u.kernelBegin 3 := by
  refine kernelStart_begins (o := .ecPubgen 0) ?_ ?_ ?_ ?_ ?_ ?_ ?_ granted
  all_goals decide +kernel

/-- The task is the public key of slot 8, whose attributes name P-256. -/
theorem secondPart_starts : secondPart.taskNext
    = (taskReady.kernelStart 3 .canopyA pubWord).enU 3 fun k => { k with task := some (.provPub 1 8 []) } := by
  have curve : bitsOf (secondPart.ks 8).attr.toNat 14 13 = 1 := by decide +kernel
  refine (taskNext_starts (t := .provPub 1 8 []) (r := []) (a := .canopyA) (e := 3) rfl ?_ ?_).trans ?_
  · decide +kernel
  · decide +kernel
  · unfold State.taskStart pubWord
    rw [← curve]
    rfl

/-- Engine 0 has its second part to do, but it aborts. -/
theorem hybridRuns_aborts {t : State} (e : exec (.kernelOperationDone 0 false) hybridRuns = .next t) : (t.en 0).state = .aborting := by
  obtain ⟨u, granted, clears⟩ := Option.map_eq_some_iff.mp task_clears
  have done : exec (.kernelOperationDone 0 false) hybridRuns = .next secondPart.taskNext := rfl
  rw [done, secondPart_starts, task_begins granted] at e
  cases e
  rw [State.enU_en_ne (h := by decide)]
  exact kernelBegin_aborts clears

/-- Refutes O19: after the first part of a hybrid signature has verified, a task that waits for an engine starts; the key
slot it reads fails its check, and alarm 0x0402 at rank ZEROIZE aborts every busy engine, also the one of the signature. -/
theorem not_wakeWork : ¬ Obligations.WakeWork := by
  intro h
  obtain ⟨first, -⟩ := h.2 hybridRuns 0 { use := .shelf, scheme := 6 } rfl rfl
  obtain ⟨t, e, -, busy, -⟩ := first (by decide)
  exact absurd (busy.symm.trans (hybridRuns_aborts e)) (by decide)

end Sys2Proof.Machine
end

section
-- Some hundred short proofs that wait for each other: in parallel they take more threads than the memory limit has room for.
set_option Elab.async false

namespace Sys2Proof.Machine

open Sys2Proof

/-! ### What an operation keeps -/

/-- How much of the state an operation leaves alone: `held`, no held port is let go; `spared`, nor does a token or the home flash
change or a pool freeze; `calm`, nor does a hold state, the start-up state, a local memory or what a core does change. -/
inductive Level | held | spared | calm

/-- From `s` to `t` nothing has happened that the level excludes (R24). -/
def Keeps : Level → State → State → Prop
  | .held, s, t => ∀ p, (s.ph p).hold = true → (t.ph p).hold = true
  | .spared, s, t => t.home = s.home ∧ (∀ p, (t.ph p).token = (s.ph p).token
      ∧ ((s.ph p).hold = true → (t.ph p).hold = true) ∧ (s.heldNow p = true → t.heldNow p = true))
      ∧ ∀ q, (t.po q).st = .frozen → (s.po q).st = .frozen
  | .calm, s, t => t.boot = s.boot ∧ t.home = s.home ∧ t.mems = s.mems
      ∧ (∀ p, (t.ph p).hold = (s.ph p).hold ∧ (t.ph p).holdN = (s.ph p).holdN ∧ (t.ph p).token = (s.ph p).token)
      ∧ (∀ j, (t.co j).run = (s.co j).run ∧ (t.co j).pc = (s.co j).pc)
      ∧ ∀ q, (t.po q).st = .frozen → (s.po q).st = .frozen

variable {L : Level} {s0 s t : State}

theorem Keeps.refl : Keeps L s s := by
  cases L with
  | held => exact fun _ h => h
  | spared => exact ⟨rfl, fun _ => ⟨rfl, id, id⟩, fun _ => id⟩
  | calm => exact ⟨rfl, rfl, rfl, fun _ => ⟨rfl, rfl, rfl⟩, fun _ => ⟨rfl, rfl⟩, fun _ => id⟩

theorem Keeps.trans (h : Keeps L s0 s) (k : Keeps L s t) : Keeps L s0 t := by
  cases L with
  | held => exact fun p e => k p (h p e)
  | spared =>
    obtain ⟨h1, h2, h3⟩ := h
    obtain ⟨k1, k2, k3⟩ := k
    refine ⟨k1.trans h1, fun p => ?_, fun q e => h3 q (k3 q e)⟩
    obtain ⟨a1, a2, a3⟩ := h2 p
    obtain ⟨b1, b2, b3⟩ := k2 p
    exact ⟨b1.trans a1, fun e => b2 (a2 e), fun e => b3 (a3 e)⟩
  | calm =>
    obtain ⟨h1, h2, h3, h4, h5, h6⟩ := h
    obtain ⟨k1, k2, k3, k4, k5, k6⟩ := k
    refine ⟨k1.trans h1, k2.trans h2, k3.trans h3, fun p => ?_, fun j => ?_, fun q e => h6 q (k6 q e)⟩
    · obtain ⟨a1, a2, a3⟩ := h4 p
      obtain ⟨b1, b2, b3⟩ := k4 p
      exact ⟨b1.trans a1, b2.trans a2, b3.trans a3⟩
    · obtain ⟨a1, a2⟩ := h5 j
      obtain ⟨b1, b2⟩ := k5 j
      exact ⟨b1.trans a1, b2.trans a2⟩

/-- What keeps calm keeps every level. -/
theorem Keeps.ofCalm (k : Keeps .calm s t) : Keeps L s t := by
  obtain ⟨-, hh, -, hp, -, hf⟩ := id k
  cases L with
  | held => exact fun p e => by rw [(hp p).1]; exact e
  | spared =>
    refine ⟨hh, fun p => ?_, hf⟩
    obtain ⟨a1, a2, a3⟩ := hp p
    exact ⟨a3, fun e => by rw [a1]; exact e, fun e => by unfold State.heldNow at *; rw [a1, a2]; exact e⟩
  | calm => exact k

/-- What spares lets no port go. -/
theorem Keeps.ofSpared (k : Keeps .spared s t) : Keeps .held s t := fun p => (k.2.1 p).2.1

/-! What the levels say, part by part. -/

theorem Keeps.boot (k : Keeps .calm s t) : t.boot = s.boot := k.1
theorem Keeps.mems (k : Keeps .calm s t) : t.mems = s.mems := k.2.2.1
theorem Keeps.hold (k : Keeps .calm s t) (p : Nat) : (t.ph p).hold = (s.ph p).hold := (k.2.2.2.1 p).1
theorem Keeps.run (k : Keeps .calm s t) (j : Nat) : (t.co j).run = (s.co j).run := (k.2.2.2.2.1 j).1
theorem Keeps.pc (k : Keeps .calm s t) (j : Nat) : (t.co j).pc = (s.co j).pc := (k.2.2.2.2.1 j).2
theorem Keeps.home (k : Keeps .spared s t) : t.home = s.home := k.1
theorem Keeps.token (k : Keeps .spared s t) (p : Nat) : (t.ph p).token = (s.ph p).token := (k.2.1 p).1
theorem Keeps.heldNow (k : Keeps .spared s t) {p : Nat} : s.heldNow p = true → t.heldNow p = true := (k.2.1 p).2.2
theorem Keeps.frozen (k : Keeps .spared s t) {q : Nat} : (t.po q).st = .frozen → (s.po q).st = .frozen := k.2.2 q

theorem Keeps.calm (h : Keeps L s0 s) (k : Keeps .calm s t) : Keeps L s0 t := h.trans k.ofCalm

/-- At a level below calm it is enough to spare. -/
theorem Keeps.spare (hl : L ≠ .calm) (h : Keeps L s0 s) (k : Keeps .spared s t) : Keeps L s0 t := by
  cases L with
  | held => exact h.trans k.ofSpared
  | spared => exact h.trans k
  | calm => exact absurd rfl hl

/-- The parts of the state that the levels speak of. -/
def State.watched (s : State) := (s.boot, s.home, s.mems, s.hold, s.cores, s.leave.pools)

/-- A change of other parts of the state is calm. -/
theorem Keeps.same (h : Keeps L s0 s) (e : t.watched = s.watched := by unfold State.watched; rfl) : Keeps L s0 t := by
  simp only [State.watched, Prod.mk.injEq] at e
  obtain ⟨e1, e2, e3, e4, e5, e6⟩ := e
  have hp : ∀ p, t.ph p = s.ph p := fun p => by unfold State.ph; rw [e4]
  have hc : ∀ j, t.co j = s.co j := fun j => by unfold State.co; rw [e5]
  have hq : ∀ q, t.po q = s.po q := fun q => by unfold State.po; rw [e6]
  exact h.calm ⟨e1, e2, e3, fun p => by rw [hp]; exact ⟨rfl, rfl, rfl⟩, fun j => by rw [hc]; exact ⟨rfl, rfl⟩,
    fun q => by rw [hq]; exact id⟩

/-- A change of neither ports, pools nor home flash spares. -/
theorem Keeps.sameHome (hl : L ≠ .calm) (h : Keeps L s0 s) (e : t.hold = s.hold := by rfl) (eh : t.home = s.home := by rfl)
    (el : t.leave.pools = s.leave.pools := by rfl) : Keeps L s0 t := by
  have hp : ∀ p, t.ph p = s.ph p := fun p => by unfold State.ph; rw [e]
  have hq : ∀ q, t.po q = s.po q := fun q => by unfold State.po; rw [el]
  exact h.spare hl ⟨eh, fun p => by unfold State.heldNow; rw [hp]; exact ⟨rfl, id, id⟩, fun q => by rw [hq]; exact id⟩

/-- A change of other parts of the state than the ports lets none go. -/
theorem Keeps.sameHold (h : Keeps .held s0 s) (e : t.hold = s.hold := by rfl) : Keeps .held s0 t := by
  have hp : ∀ p, t.ph p = s.ph p := fun p => by unfold State.ph; rw [e]
  exact h.trans fun p k => by rw [hp]; exact k

theorem Keeps.ite {c : Prop} [Decidable c] (hs : Keeps L s0 s) (ht : Keeps L s0 t) : Keeps L s0 (if c then s else t) := by
  split
  · exact hs
  · exact ht

theorem Keeps.foldl {α : Type} {l : List α} {f : State → α → State} (h : Keeps L s0 s) (hf : ∀ u x, Keeps L s0 u → Keeps L s0 (f u x)) :
    Keeps L s0 (l.foldl f s) := by
  induction l generalizing s with
  | nil => exact h
  | cons x l ih => exact ih (hf s x h)

theorem Keeps.each {α : Type} {l : List α} {f : State → α → State} (h : Keeps L s0 s) (hf : ∀ u x, Keeps L s0 u → Keeps L s0 (f u x)) :
    Keeps L s0 (s.each l f) := h.foldl hf

/-- A change of a core's registers that moves neither what it does nor its PC. -/
theorem Keeps.coU {i : Nat} {f : Core → Core} (h : Keeps L s0 s)
    (hf : ∀ k, (f k).run = k.run ∧ (f k).pc = k.pc := by exact fun _ => ⟨rfl, rfl⟩) : Keeps L s0 (s.coU i f) := by
  refine h.calm ⟨rfl, rfl, rfl, fun _ => ⟨rfl, rfl, rfl⟩, fun j => ?_, fun _ => id⟩
  rw [State.coU_co]
  split
  · next e => subst e; exact hf _
  · exact ⟨rfl, rfl⟩

/-- A change of a core is none of a port or of the home flash. -/
theorem Keeps.coAny {i : Nat} {f : Core → Core} (h : Keeps L s0 s) (hl : L ≠ .calm) : Keeps L s0 (s.coU i f) := h.sameHome hl

/-- A change of a port that leaves its hold and its token alone. -/
theorem Keeps.phU {i : Nat} {f : PHold → PHold} (h : Keeps L s0 s)
    (hf : ∀ x, (f x).hold = x.hold ∧ (f x).holdN = x.holdN ∧ (f x).token = x.token := by exact fun _ => ⟨rfl, rfl, rfl⟩) :
    Keeps L s0 (s.phU i f) := by
  refine h.calm ⟨rfl, rfl, rfl, fun p => ?_, fun _ => ⟨rfl, rfl⟩, fun _ => id⟩
  rw [State.phU_ph]
  split
  · next e => subst e; exact hf _
  · exact ⟨rfl, rfl, rfl⟩

/-- A change of a pool that does not freeze it. -/
theorem Keeps.poU {i : Nat} {f : Pool → Pool} (h : Keeps L s0 s) (hf : ∀ x, (f x).st = .frozen → x.st = .frozen := by exact fun _ e => e) :
    Keeps L s0 (s.poU i f) := by
  refine h.calm ⟨rfl, rfl, rfl, fun _ => ⟨rfl, rfl, rfl⟩, fun _ => ⟨rfl, rfl⟩, fun q e => ?_⟩
  rw [State.poU_po] at e
  split at e
  · next k => subst k; exact hf _ e
  · exact e

/-- A change of a pool lets no port go. -/
theorem Keeps.poAny {i : Nat} {f : Pool → Pool} (h : Keeps .held s0 s) : Keeps .held s0 (s.poU i f) := h.sameHold

/-- A change of a port that does not let it go. -/
theorem Keeps.phHeld {i : Nat} {f : PHold → PHold} (h : Keeps .held s0 s)
    (hf : ∀ x, x.hold = true → (f x).hold = true := by exact fun _ e => e) : Keeps .held s0 (s.phU i f) := by
  refine h.trans fun p e => ?_
  rw [State.phU_ph]
  split
  · next k => subst k; exact hf _ e
  · exact e

/-- A command ends in a state that keeps the level. -/
def Ends (L : Level) (s0 : State) : Done → Prop
  | .next t => Keeps L s0 t
  | _ => True

theorem Ends.ite {c : Prop} [Decidable c] {a b : Done} (ha : Ends L s0 a) (hb : Ends L s0 b) : Ends L s0 (if c then a else b) := by
  split
  · exact ha
  · exact hb

/-- What a block's own function leaves behind. -/
theorem Keeps.after {o : Done} (h : Keeps L s0 s) (ho : Ends L s0 o) : Keeps L s0 (after o s) := by
  unfold Machine.after
  split
  · exact ho
  · exact h

theorem Keeps.getD {o : Option State} (ho : ∀ u, o = some u → Keeps L s0 u) (h : Keeps L s0 s) : Keeps L s0 (o.getD s) := by
  cases o with
  | none => exact h
  | some u => exact ho u rfl

/-- A word goes on, or waits, in a state that keeps the level. -/
def Goes (L : Level) (s0 : State) : Res → Prop
  | .wait t => Keeps L s0 t
  | .go t _ => Keeps L s0 t
  | _ => True

theorem Goes.ite {c : Prop} [Decidable c] {a b : Res} (ha : Goes L s0 a) (hb : Goes L s0 b) : Goes L s0 (if c then a else b) := by
  split
  · exact ha
  · exact hb

theorem Keeps.bind {o : Option State} {g : State → Option State} (ho : ∀ u, o = some u → Keeps L s0 u)
    (hg : ∀ u v, Keeps L s0 u → g u = some v → Keeps L s0 v) (e : o.bind g = some t) : Keeps L s0 t := by
  obtain ⟨u, first, second⟩ := Option.bind_eq_some_iff.mp e
  exact hg u t (ho u first) second

/-- The state of a frame under way keeps the level. -/
def During (L : Level) (s0 : State) (f : Fr) : Prop := Keeps L s0 f.s

theorem During.kept {f : Fr} (h : During L s0 f) : Keeps L s0 f.s := h

theorem During.ite {c : Prop} [Decidable c] {f g : Fr} (hf : During L s0 f) (hg : During L s0 g) : During L s0 (if c then f else g) := by
  split
  · exact hf
  · exact hg

theorem During.foldl {α : Type} {l : List α} {g : Fr → α → Fr} {f : Fr} (h : During L s0 f)
    (hg : ∀ u x, During L s0 u → During L s0 (g u x)) : During L s0 (l.foldl g f) := by
  induction l generalizing f with
  | nil => exact h
  | cons x l ih => exact ih (hg f x h)

theorem Goes.transfer {k : Core} {c : CoreId} {f : Res} (h : Goes L s0 f) : Goes L s0 (k.transfer c f) := by
  unfold Core.transfer
  split
  · trivial
  · exact h


section
variable {L : Level} {s0 s t : State} {f : Fr}

/-! ### Function by function

One lemma per function of the model that changes the state, in the order of the model: the best level that it keeps. A word
of a command ends (`Ends`), a word of firmware goes on (`Goes`), a frame under way is `During`. -/

theorem Keeps.stU {i : Nat} {f : Stand → Stand} (h : Keeps L s0 s) : Keeps L s0 (s.stU i f) := h.same

theorem Keeps.peU {i : Nat} {f : PEdge → PEdge} (h : Keeps L s0 s) : Keeps L s0 (s.peU i f) := h.same

theorem Keeps.pwU {i : Nat} {f : PWin → PWin} (h : Keeps L s0 s) : Keeps L s0 (s.pwU i f) := h.same

theorem Keeps.pdU {i : Nat} {f : PDec → PDec} (h : Keeps L s0 s) : Keeps L s0 (s.pdU i f) := h.same

theorem Keeps.shU {i : Nat} {f : Sheaf → Sheaf} (h : Keeps L s0 s) : Keeps L s0 (s.shU i f) := h.same

theorem Keeps.pkU {i : Nat} {f : PWake → PWake} (h : Keeps L s0 s) : Keeps L s0 (s.pkU i f) := h.same

theorem Keeps.pvU {i : Nat} {f : PVerd → PVerd} (h : Keeps L s0 s) : Keeps L s0 (s.pvU i f) := h.same

theorem Keeps.pgU {i : Nat} {f : PGran → PGran} (h : Keeps L s0 s) : Keeps L s0 (s.pgU i f) := h.same

theorem Keeps.enU {i : Nat} {f : Engine → Engine} (h : Keeps L s0 s) : Keeps L s0 (s.enU i f) := h.same

theorem Keeps.chU {i : Nat} {f : Chan → Chan} (h : Keeps L s0 s) : Keeps L s0 (s.chU i f) := h.same

theorem Keeps.lnU {i : Nat} {f : LaneLink → LaneLink} (h : Keeps L s0 s) : Keeps L s0 (s.lnU i f) := h.same

theorem Keeps.mbU {i : Nat} {f : Mbox → Mbox} (h : Keeps L s0 s) : Keeps L s0 (s.mbU i f) := h.same

theorem Keeps.ksU {n : Nat} {f : KeySlot → KeySlot} (h : Keeps L s0 s) : Keeps L s0 (s.ksU n f) := h.same

theorem Keeps.storeKey {n : Nat} {key m : BitVec 512} (h : Keeps L s0 s) : Keeps L s0 (s.storeKey n key m) := h.ksU

theorem Keeps.memPut {m a : Nat} {bs : List Byte} (h : Keeps L s0 s) (hl : L ≠ .calm) : Keeps L s0 (s.memPut m a bs) := h.sameHome hl

theorem Keeps.memZero {m : Nat} (h : Keeps L s0 s) (hl : L ≠ .calm) : Keeps L s0 (s.memZero m) := h.sameHome hl

theorem Keeps.mend {p : Flaw → Bool} (h : Keeps L s0 s) : Keeps L s0 (s.mend p) := h.same

theorem Keeps.homeSends {l : List MasterFrame} (h : Keeps L s0 s) : Keeps L s0 (s.homeSends l) := h.peU

theorem Keeps.homeDoes {l : List FlashOp} {content : Tab Byte} (h : Keeps .held s0 s) : Keeps .held s0 (s.homeDoes l content) :=
  Keeps.ite h.sameHold h

theorem Keeps.homePut {a : Nat} {bs : List Byte} (h : Keeps .held s0 s) : Keeps .held s0 (s.homePut a bs) := h.homeDoes

theorem Keeps.homeErase {a len : Nat} (h : Keeps .held s0 s) : Keeps .held s0 (s.homeErase a len) := h.homeDoes

theorem Keeps.used {n : Nat} (h : Keeps L s0 s) : Keeps L s0 (s.used n) := h.same

theorem Keeps.poolGrant {q h' n : Nat} (h : Keeps L s0 s) : Keeps L s0 (s.poolGrant q h' n) := Keeps.ite h.poU h

theorem Keeps.poolClaim {q h' n : Nat} (h : Keeps L s0 s) : Keeps L s0 (s.poolClaim q h' n) := Keeps.ite h.poolGrant h.poU

theorem Keeps.poolBack {q h' n : Nat} (h : Keeps L s0 s) : Keeps L s0 (s.poolBack q h' n) := by
  refine h.poU fun p e => ?_
  split at e
  · split at e <;> exact e
  · split at e
    · exact e
    · unfold Pool.recounts at e
      split at e
      · next frozen => exact frozen
      · cases e

theorem Keeps.reconcileOf {q : Nat} {rets : List PoolRet} (h : Keeps L s0 s) : Keeps L s0 (s.reconcileOf q rets) := by
  refine h.poU fun p e => ?_
  by_contra thawed
  simp [thawed] at e

theorem Keeps.reconcile {q cause : Nat} {holders : List Nat} (h : Keeps L s0 s) : Keeps L s0 (s.reconcile q cause holders) := h.reconcileOf

theorem Keeps.lvAsk {u : LvUse} {n : Nat} (h : Keeps L s0 s) : Keeps L s0 (s.lvAsk u n) := h.same

theorem Keeps.lvDrop {u : LvUse} (h : Keeps L s0 s) : Keeps L s0 (s.lvDrop u) := h.same

theorem Keeps.lvBack {u : LvUse} {n : Nat} (h : Keeps L s0 s) : Keeps L s0 (s.lvBack u n) := h.poolBack

theorem Keeps.lvGrant {u : LvUse} {n : Nat} (h : Keeps L s0 s) : Keeps L s0 (s.lvGrant u n) := by
  unfold State.lvGrant
  extract_lets s2
  have h2 : Keeps L s0 s2 := h.poolGrant
  split
  · exact h2.coU
  · exact h2

theorem Keeps.lvTake {u : LvUse} {n : Nat} (h : Keeps L s0 s) (e : s.lvTake u n = some t) : Keeps L s0 t := by
  unfold State.lvTake at e
  split at e
  · cases e
    exact h.lvGrant
  · cases e

theorem Keeps.boxReady {q : Nat} (h : Keeps L s0 s) : Keeps L s0 (s.boxReady q) := Keeps.ite h.poolGrant.poolGrant.mbU h

theorem Keeps.boxDrop {q : Nat} (h : Keeps L s0 s) : Keeps L s0 (s.boxDrop q) := h.same

theorem Keeps.boxEmpty {q : Nat} (h : Keeps L s0 s) : Keeps L s0 (s.boxEmpty q) := (h.each (fun _ _ h1 => h1.poolBack.poolBack)).boxDrop

theorem Keeps.poolMove {q from_ to_ n : Nat} (h : Keeps L s0 s) : Keeps L s0 (s.poolMove q from_ to_ n) := h.poU

theorem Keeps.boxFlush {q : Nat} (h : Keeps L s0 s) : Keeps L s0 (s.boxFlush q) := h.foldl (fun _ _ h1 => Keeps.ite h1.poolMove.mbU h1)

theorem Keeps.respond {q : Nat} {tag : Byte} {status : Nat} {ws : List W32} (h : Keeps L s0 s) : Keeps L s0 (s.respond q tag status ws) :=
  h.mbU.boxFlush

theorem Keeps.setLine {n : Nat} {v : Bool} (h : Keeps L s0 s) : Keeps L s0 (s.setLine n v) := h.each (fun _ _ h1 => h1.coU)

theorem Keeps.pushEvent {p : Nat} {w : W36} (h : Keeps L s0 s) : Keeps L s0 (s.pushEvent p w) := Keeps.ite h.pdU (Keeps.ite h.same h.pdU)

theorem Keeps.logRec {kind : Nat} {body : List Byte} (h : Keeps L s0 s) : Keeps L s0 (s.logRec kind body) := h.same

theorem Keeps.backupLog {code rank count data : Nat} (h : Keeps L s0 s) : Keeps L s0 (s.backupLog code rank count data) := h.same

theorem Keeps.watchEntry (h : Keeps L s0 s) : Keeps L s0 (s.watchEntry) := Keeps.ite h.same h.backupLog

theorem Keeps.runtimeOff (h : Keeps L s0 s) : Keeps L s0 (s.runtimeOff) := Keeps.ite h h.poolBack.lvDrop.lvBack

theorem Keeps.flipsEnd (h : Keeps L s0 s) : Keeps L s0 (s.flipsEnd) := Keeps.ite h.same.setLine h

theorem Keeps.takeFlip {p : Nat} (h : Keeps L s0 s) : Keeps L s0 (s.takeFlip p) := h.pwU.flipsEnd.pushEvent

/-- A port whose hold is set, with its shadow, stays held and keeps its token (R25, R26). -/
theorem Keeps.phHold {i : Nat} {f : PHold → PHold} (h : Keeps L s0 s) (hl : L ≠ .calm)
    (hf : ∀ x, (f x).hold = true ∧ (f x).token = x.token := by exact fun _ => ⟨rfl, rfl⟩) : Keeps L s0 (s.phU i f) := by
  refine h.spare hl ⟨rfl, fun p => ?_, fun _ => id⟩
  unfold State.heldNow
  rw [State.phU_ph]
  split
  · next e =>
    subst e
    obtain ⟨hold, token⟩ := hf (s.ph p)
    exact ⟨token, fun _ => hold, fun _ => by rw [hold]; rfl⟩
  · exact ⟨rfl, id, id⟩

theorem Keeps.holdPort {p : Nat} (h : Keeps L s0 s) (hl : L ≠ .calm) : Keeps L s0 (s.holdPort p) := by
  unfold State.holdPort
  extract_lets was s1 s2 s3 s4
  have h2 : Keeps L s0 s2 := (h.phHold hl).pwU
  have h3 : Keeps L s0 s3 := Keeps.ite h2.takeFlip h2
  have h4 : Keeps L s0 s4 := Keeps.ite h3.pushEvent h3
  exact Keeps.ite h4.runtimeOff h4

theorem Keeps.setGroup {g : Nat} {w : W32} (h : Keeps L s0 s) : Keeps L s0 (s.setGroup g w) := h.same

theorem Keeps.setPage {n : Nat} {w : W32} (h : Keeps L s0 s) : Keeps L s0 (s.setPage n w) := h.same

theorem Keeps.groupRetired {g : Nat} (h : Keeps L s0 s) : Keeps L s0 (s.groupRetired g) := h.each (fun _ _ h1 => h1.setPage)

theorem Keeps.dropGroup {g : Nat} (h : Keeps L s0 s) : Keeps L s0 (s.dropGroup g) := by
  unfold State.dropGroup
  extract_lets _ _ s2
  have h2 : Keeps L s0 s2 := h.same
  exact Keeps.ite h2.groupRetired.poolClaim h2.setGroup

theorem Keeps.returnGroup {use g : Nat} (h : Keeps L s0 s) : Keeps L s0 (s.returnGroup use g) := h.poolBack.dropGroup

theorem Keeps.returnGroups {use port : Nat} {slot : Option Bool} (h : Keeps L s0 s) : Keeps L s0 (s.returnGroups use port slot) :=
  h.each (fun _ _ h1 => h1.returnGroup)

theorem Keeps.reconcileGroups {cause port : Nat} {uses : List Nat} (h : Keeps L s0 s) : Keeps L s0 (s.reconcileGroups cause port uses) :=
  h.each (fun _ _ h1 => Keeps.ite h1 (h1.reconcileOf.each (fun _ _ h2 => h2.dropGroup)))

theorem Keeps.takeGroup {use g : Nat} {w : W32} (h : Keeps L s0 s) (e : s.takeGroup use w = some (g, t)) : Keeps L s0 t := by
  unfold State.takeGroup at e
  split at e
  · split at e
    · cases e
      exact h.poolGrant.setGroup
    · cases e
  · cases e

theorem Keeps.granPut {a : Nat} {bs : List Byte} (h : Keeps L s0 s) : Keeps L s0 (s.granPut a bs) := h.same

theorem Keeps.abortEngine {e : Nat} (h : Keeps L s0 s) : Keeps L s0 (s.abortEngine e) := Keeps.ite ((Keeps.ite h.lvDrop.lvDrop h).enU) h

theorem Keeps.dataUsed {data : Nat} (h : Keeps L s0 s) : Keeps L s0 (s.dataUsed data) := Keeps.ite h.used h

theorem Keeps.decided {code rank tkind target data : Nat} (h : Keeps L s0 s) (hl : L ≠ .calm) :
    Keeps L s0 (s.decided code rank tkind target data) := by
  unfold State.decided
  extract_lets word s1 a mark al held s2 s3 s4
  have h1 : Keeps L s0 s1 := h.dataUsed
  have h2 : Keeps L s0 s2 := h1.same
  have h3 : Keeps L s0 s3 := h2.each fun _ _ hu => (hu.holdPort hl).phU
  have h4 : Keeps L s0 s4 := h3.same
  exact h4.setLine

/-- A NOTE or SIGNAL holds no port (R374). -/
theorem holdSet_low {rank : Nat} (hr : rank ≤ 1) (tkind target : Nat) : s.holdSet rank tkind target = [] := by
  unfold State.holdSet
  rw [if_neg (by omega), if_neg (by omega), if_neg (by omega), if_neg (by omega)]

theorem Keeps.decidedLow {code rank tkind target data : Nat} (h : Keeps L s0 s) (hr : rank ≤ 1) :
    Keeps L s0 (s.decided code rank tkind target data) := by
  unfold State.decided
  extract_lets word s1 a mark al held s2 s3 s4
  have h1 : Keeps L s0 s1 := h.dataUsed
  have h2 : Keeps L s0 s2 := h1.same
  have h3 : Keeps L s0 s3 := by
    have none : held = [] := holdSet_low hr tkind target
    unfold s3
    rw [none]
    exact h2
  have h4 : Keeps L s0 s4 := h3.same
  exact h4.setLine

theorem Keeps.fuseAlarmLow {rank a : Nat} (h : Keeps L s0 s) (hr : rank ≤ 1) : Keeps L s0 (s.fuseAlarm rank a) := h.decidedLow hr

theorem Keeps.weakAdd {w : W32} (h : Keeps L s0 s) : Keeps L s0 (s.weakAdd w) := by
  unfold State.weakAdd
  extract_lets
  split
  · exact h.same
  · split
    · exact h.same
    · exact Keeps.ite h.same (h.same.fuseAlarmLow (by decide))

theorem Keeps.senseBit {a : Nat} (h : Keeps L s0 s) : Keeps L s0 (s.senseBit a) := by
  unfold State.senseBit
  extract_lets _ s2
  have h2 : Keeps L s0 s2 := Keeps.ite h.weakAdd (Keeps.ite h.weakAdd h)
  exact Keeps.ite (Keeps.ite (h2.fuseAlarmLow (by decide)) h2) (Keeps.ite (h2.fuseAlarmLow (by decide)) h2)

theorem Keeps.burnFound {a : Nat} (h : Keeps L s0 s) : Keeps L s0 (s.burnFound a) := by
  unfold State.burnFound
  extract_lets _ s2
  have h2 : Keeps L s0 s2 := h.weakAdd
  exact Keeps.ite (h2.fuseAlarmLow (by decide)) h2

theorem Keeps.loadRanks {cfg : List Byte} (h : Keeps L s0 s) : Keeps L s0 (s.loadRanks cfg) := by
  unfold State.loadRanks
  extract_lets _ s3
  have h3 : Keeps L s0 s3 := h.each (fun _ _ h4 => Keeps.ite (Keeps.ite h4.same h4) h4.same)
  clear_value s3
  exact h3.same

theorem Keeps.lcMoved {old : Nat} (h : Keeps L s0 s) : Keeps L s0 (s.lcMoved old) :=
  Keeps.ite h (have h2 := h.each (fun _ _ h1 => Keeps.ite h1.ksU h1); Keeps.ite h2.same h2)

theorem Keeps.burnStop (h : Keeps L s0 s) : Keeps L s0 (s.burnStop) := by
  unfold State.burnStop
  extract_lets _ x2 _ _ _ _ _ _ _ s3 s4
  have h3 : Keeps L s0 s3 := h.same.used
  have h4 : Keeps L s0 s4 := Keeps.ite h3 h3.burnFound
  clear_value x2
  split
  · exact h
  · exact h4.lcMoved

theorem Keeps.fuseEnds {code : Nat} (h : Keeps L s0 s) : Keeps L s0 (s.fuseEnds code) := by
  unfold State.fuseEnds
  extract_lets _ s3 s4
  have h3 : Keeps L s0 s3 := h.same
  have h4 : Keeps L s0 s4 := h3.setLine
  split
  · exact h4.respond
  · exact h4

theorem Keeps.burnEnds {code : Nat} (h : Keeps L s0 s) : Keeps L s0 (s.burnEnds code) := h.lvBack.logRec.fuseEnds

theorem Keeps.disarm (h : Keeps L s0 s) : Keeps L s0 (s.disarm) := h.same

theorem Keeps.fuseStop {code : Nat} (h : Keeps L s0 s) : Keeps L s0 (s.fuseStop code) :=
  Keeps.ite ((Keeps.ite h.lvDrop h.burnStop).burnEnds) (Keeps.ite h.disarm h)

theorem Keeps.chanError {k : ChannelKind} {i cause : Nat} (h : Keeps L s0 s) : Keeps L s0 (s.chanError k i cause) := h.chU

theorem Keeps.runtimeDraw (h : Keeps L s0 s) : Keeps L s0 (s.runtimeDraw) := by
  unfold State.runtimeDraw
  extract_lets _ s3
  have h3 : Keeps L s0 s3 := Keeps.ite h.poolGrant h
  split
  · exact h
  · split
    · exact h3
    · split
      · next h4 =>
          exact (h3.lvTake h4)
      · exact h3.lvAsk

theorem Keeps.wakeRelease (h : Keeps L s0 s) : Keeps L s0 (s.wakeRelease) := by
  unfold State.wakeRelease
  extract_lets s4 s5 s6
  have h4 : Keeps L s0 s4 := h.lvDrop
  have h5 : Keeps L s0 s5 := h4.poolBack
  have h6 : Keeps L s0 s6 := h5.lvBack
  clear_value s6
  exact h6.same.runtimeDraw

theorem Keeps.voidTags (h : Keeps L s0 s) : Keeps L s0 (s.voidTags) := h.each (fun _ _ h1 => Keeps.ite h1 h1.returnGroups.pgU)

theorem Keeps.voidServed (h : Keeps L s0 s) : Keeps L s0 (s.voidServed) := h.each (fun _ _ h1 => h1.returnGroups.returnGroups.pgU)

theorem Keeps.zeroize {redraw : Bool} (h : Keeps L s0 s) : Keeps L s0 (s.zeroize redraw) :=
  (h.same.voidTags.voidServed.each (fun _ _ h3 => h3.abortEngine)).fuseStop

theorem Keeps.coresOff {l : List (Nat × Nat)} (h : Keeps L s0 s) (hl : L ≠ .calm) : Keeps L s0 (s.coresOff l) :=
  h.each (fun _ _ h1 => (h1.coAny hl).memZero hl)

theorem Keeps.startCore {c : Nat} {vector : W24} (h : Keeps L s0 s) (hl : L ≠ .calm) : Keeps L s0 (s.startCore c vector) := h.coAny hl

theorem Keeps.restartThread {c : Nat} {vector : W24} (h : Keeps L s0 s) (hl : L ≠ .calm) : Keeps L s0 (s.restartThread c vector) :=
  h.coAny hl

theorem Keeps.passEnds (h : Keeps L s0 s) : Keeps L s0 (s.passEnds) := Keeps.ite h.poolBack.lvBack h

theorem Keeps.enterSealed (h : Keeps L s0 s) (hl : L ≠ .calm) : Keeps L s0 (s.enterSealed) := by
  unfold State.enterSealed
  extract_lets s9 s10 _ s12 s13 s14 _ _ _ _ _ s16
  have h9 : Keeps L s0 s9 := h.passEnds.wakeRelease
  have h10 : Keeps L s0 s10 := h9.each (fun _ _ h11 => (h11.holdPort hl).phU)
  have h12 : Keeps L s0 s12 := h10.coresOff hl
  have h13 : Keeps L s0 s13 := Keeps.ite (h12.startCore hl) h12
  have h14 : Keeps L s0 s14 := h13.each (fun _ _ h15 => h15.boxEmpty)
  clear_value s14
  have h16 : Keeps L s0 s16 := h14.sameHome hl
  exact Keeps.ite h16.boxReady h16

theorem Keeps.raise {code rank tkind target data : Nat} (h : Keeps L s0 s) (hl : L ≠ .calm) :
    Keeps L s0 (s.raise code rank tkind target data) := by
  unfold State.raise
  extract_lets word s1 s2 s3 _ s4
  have h1 : Keeps L s0 s1 := h.dataUsed
  have h2 : Keeps L s0 s2 := Keeps.ite (h1.backupLog.zeroize) h1
  have h3 : Keeps L s0 s3 := h2.decided hl
  have h4 : Keeps L s0 s4 := Keeps.ite h3.same h3
  exact Keeps.ite (h4.enterSealed hl) h4

theorem Keeps.raiseLow {code rank tkind target data : Nat} (h : Keeps L s0 s) (hr : rank ≤ 1) :
    Keeps L s0 (s.raise code rank tkind target data) := by
  unfold State.raise
  extract_lets word s1 s2 s3 _ s4
  have h1 : Keeps L s0 s1 := h.dataUsed
  have h2 : Keeps L s0 s2 := by
    unfold s2
    rw [if_neg (by omega)]
    exact h1
  have h3 : Keeps L s0 s3 := h2.decidedLow hr
  have h4 : Keeps L s0 s4 := Keeps.ite h3.same h3
  rw [if_neg (by omega)]
  exact h4

theorem Keeps.raiseReg {code tkind target data : Nat} (h : Keeps L s0 s) (hl : L ≠ .calm) :
    Keeps L s0 (s.raiseReg code tkind target data) :=
  h.raise hl

theorem Keeps.logFilter {a n : Nat} {run : State → State} (h : Keeps L s0 s) (hl : L ≠ .calm)
    (hrun : ∀ x0, Keeps L s0 x0 → Keeps L s0 (run x0)) :
    Keeps L s0 (s.logFilter a n run) :=
  Keeps.ite (h.raiseReg hl) (hrun _ h)

theorem Keeps.corePut {a : Nat} {bs : List Byte} (h : Keeps .held s0 s) : Keeps .held s0 (s.corePut a bs) :=
  h.logFilter nofun (fun _ h1 => h1.homePut)

theorem Keeps.coreErase {a len : Nat} (h : Keeps .held s0 s) : Keeps .held s0 (s.coreErase a len) :=
  h.logFilter nofun (fun _ h1 => h1.homeErase)

theorem Keeps.parityAlarm (h : Keeps L s0 s) : Keeps L s0 (s.parityAlarm) := h.raiseLow (by decide)

theorem Keeps.lastGoodCheck {p : Nat} (h : Keeps L s0 s) : Keeps L s0 (s.lastGoodCheck p) := Keeps.ite h.same.parityAlarm h

theorem Keeps.gnoby {tkind target : Nat} (h : Keeps L s0 s) (hl : L ≠ .calm) : Keeps L s0 (s.gnoby tkind target) := h.raiseReg hl

theorem Keeps.maxNote {w old new tkind target : Nat} (h : Keeps L s0 s) : Keeps L s0 (s.maxNote w old new tkind target) :=
  Keeps.ite (h.raiseLow (by decide)) h

theorem Keeps.bump {p : Nat} {c : Ctr} {n : Nat} (h : Keeps L s0 s) : Keeps L s0 (s.bump p c n) := by
  unfold State.bump
  extract_lets _ _ s2
  have h2 : Keeps L s0 s2 := h.same
  exact Keeps.ite h2 h2.maxNote

theorem Keeps.censusFault {q : Nat} (h : Keeps L s0 s) (hl : L ≠ .calm) : Keeps L s0 (s.censusFault q) := by
  refine (h.raiseReg hl).poU fun p e => ?_
  unfold Pool.recounts at e
  split at e
  · next frozen => exact frozen
  · cases e

theorem Keeps.censusAlarm {q : Nat} (h : Keeps L s0 s) (hl : L ≠ .calm) : Keeps L s0 (s.censusAlarm q) := Keeps.ite (h.censusFault hl) h

theorem Keeps.poolReturn {q h' n : Nat} (h : Keeps L s0 s) (hl : L ≠ .calm) : Keeps L s0 (s.poolReturn q h' n) := h.poolBack.censusAlarm hl

theorem Keeps.censusCheck (h : Keeps L s0 s) (hl : L ≠ .calm) : Keeps L s0 (s.censusCheck) :=
  h.each (fun _ _ h1 => Keeps.ite (h1.censusFault hl) (Keeps.ite (((h1.raiseReg hl).mend).censusFault hl) (Keeps.ite
    (h1.censusFault hl) h1)))

theorem Keeps.roleAlarm (h : Keeps L s0 s) : Keeps L s0 (s.roleAlarm) := h.raiseLow (by decide)

theorem Keeps.standRefuses {k : Nat} (h : Keeps L s0 s) : Keeps L s0 (s.standRefuses k) := h.stU

theorem Keeps.standFault {k : Nat} (h : Keeps L s0 s) : Keeps L s0 (s.standFault k) := by
  unfold State.standFault
  extract_lets s2
  have h2 : Keeps L s0 s2 := h.stU
  exact Keeps.ite h2.chU.logRec h2

theorem Keeps.placeKey {n : Nat} {key : BitVec 512} {attr : W32} (h : Keeps L s0 s) : Keeps L s0 (s.placeKey n key attr) := by
  unfold State.placeKey
  extract_lets s2
  have h2 : Keeps L s0 s2 := h.used
  exact Keeps.ite h2 h2.storeKey.ksU

theorem Keeps.place' {n key bits : Nat} {attr : W32} (h : Keeps L s0 s) : Keeps L s0 (s.place' n key bits attr) := h.placeKey

theorem Keeps.drawSak {n : Nat} (h : Keeps L s0 s) : Keeps L s0 (s.drawSak n) := h.used.place'

theorem Keeps.remask {n : Nat} (h : Keeps L s0 s) : Keeps L s0 (s.remask n) := h.ksU.storeKey.used

theorem Keeps.slotBad {n : Nat} (h : Keeps L s0 s) : Keeps L s0 (s.slotBad n) := h.ksU

theorem Keeps.keyCheck {n : Nat} (h : Keeps L s0 s) (hl : L ≠ .calm) : Keeps L s0 (s.keyCheck n) := Keeps.ite h (h.slotBad.raiseReg hl)

theorem Keeps.deriveDeviceId {cold : Bool} (h : Keeps L s0 s) : Keeps L s0 (s.deriveDeviceId cold) := by
  unfold State.deriveDeviceId
  extract_lets _ s3 _ s4
  have h3 : Keeps L s0 s3 := h.placeKey
  have h4 : Keeps L s0 s4 := h3.remask
  clear_value s4
  exact Keeps.ite h (Keeps.ite h4.same h3)

theorem Keeps.deriveAlias {digest : List Byte} (h : Keeps L s0 s) (hl : L ≠ .calm) : Keeps L s0 (s.deriveAlias digest) := by
  unfold State.deriveAlias
  extract_lets _ _ _ s4 s5 _ _ _ s6
  have h4 : Keeps L s0 s4 := h.placeKey
  have h5 : Keeps L s0 s5 := (h4.keyCheck hl).keyCheck hl
  have h6 : Keeps L s0 s6 := h5.used.remask.remask
  clear_value s6
  exact Keeps.ite h (Keeps.ite h6.same h5)

theorem Keeps.dropAlias (h : Keeps L s0 s) : Keeps L s0 (s.dropAlias) := by
  unfold State.dropAlias
  extract_lets s2
  have h2 : Keeps L s0 s2 := h.ksU
  clear_value s2
  exact h2.same

theorem Keeps.drawSlotKeys (h : Keeps L s0 s) : Keeps L s0 (s.drawSlotKeys) := h.same.used.placeKey.placeKey

theorem Keeps.laneCount {l i n : Nat} (h : Keeps L s0 s) : Keeps L s0 (s.laneCount l i n) := h.lnU.maxNote

theorem Keeps.emit {f : TxFrame} (h : Keeps L s0 s) : Keeps L s0 (s.emit f) := h.same.laneCount

theorem Keeps.tx {lane type flags xfer index : Nat} {payload : List Byte} (h : Keeps L s0 s) :
    Keeps L s0 (s.tx lane type flags xfer index payload) :=
  Keeps.ite h (Keeps.ite h.emit h.lnU)

theorem Keeps.txDrain {lane : Nat} (h : Keeps L s0 s) : Keeps L s0 (s.txDrain lane) := h.each (fun _ _ h1 => Keeps.ite h1.lnU.emit h1)

theorem Keeps.spdmSend {l x : Nat} {m : List Byte} (h : Keeps L s0 s) : Keeps L s0 (s.spdmSend l x m) := h.each (fun _ _ h1 => h1.tx)

theorem Keeps.spdmFlush (h : Keeps L s0 s) : Keeps L s0 (s.spdmFlush) := h.same.each (fun _ _ h2 => h2.spdmSend)

theorem Keeps.grantRx {l : Nat} (h : Keeps L s0 s) : Keeps L s0 (s.grantRx l) :=
  Keeps.ite h (have h1 := Keeps.ite h h.poolGrant.lnU; Keeps.ite h1.tx h1)

theorem Keeps.pull {x lane op kind first count : Nat} {ref : List Byte} (h : Keeps L s0 s) :
    Keeps L s0 (s.pull x lane op kind first count ref) :=
  h.tx

theorem Keeps.xfU {x : Nat} {f : Xfer → Xfer} (h : Keeps L s0 s) : Keeps L s0 (s.xfU x f) := h.same

theorem Keeps.flU {p : Nat} {f : Flow → Flow} (h : Keeps L s0 s) : Keeps L s0 (s.flU p f) := h.same

theorem Keeps.stageBlock {p a : Nat} (h : Keeps L s0 s) (e : s.stageBlock p a = some t) : Keeps L s0 t := by
  unfold State.stageBlock at e
  split at e
  · cases e
    exact h
  · split at e
    · next g u taken =>
      cases e
      have hu : Keeps L s0 u := h.takeGroup taken
      exact Keeps.granPut hu.same
    · cases e

/-- Steps that may fail keep the level where each does. -/
theorem Keeps.foldlBind {α : Type} {l : List α} {f : State → α → Option State} (h : Keeps L s0 s)
    (hf : ∀ u v x, Keeps L s0 u → f u x = some v → Keeps L s0 v)
    (e : l.foldl (fun o x => o.bind fun s => f s x) (some s) = some t) : Keeps L s0 t := by
  induction l generalizing s with
  | nil =>
    cases e
    exact h
  | cons x l ih =>
    rw [List.foldl_cons, Option.bind_some] at e
    cases first : f s x with
    | none =>
      have stuck : ∀ l : List α, l.foldl (fun o x => o.bind fun s => f s x) none = none := by
        intro l
        induction l with
        | nil => rfl
        | cons y l ih => exact ih
      rw [first, stuck] at e
      cases e
    | some v =>
      rw [first] at e
      exact ih (hf s v x h first) e

theorem Keeps.stageRange {p a n : Nat} (h : Keeps L s0 s) (e : s.stageRange p a n = some t) : Keeps L s0 t :=
  h.foldlBind (fun _ _ _ hu eu => hu.stageBlock eu) e

theorem Keeps.stagePut {p a : Nat} {bs : List Byte} (h : Keeps L s0 s) : Keeps L s0 (s.stagePut p a bs) :=
  h.each (fun _ _ h1 => Keeps.ite h1 h1.granPut)

theorem Keeps.pullMore {x : Nat} (h : Keeps L s0 s) : Keeps L s0 (s.pullMore x) := by
  unfold State.pullMore
  extract_lets _ x2
  clear_value x2
  split
  · exact h
  · extract_lets
    split
    · exact h
    · split
      · exact h
      · next h3 =>
          extract_lets s4
          have h4 : Keeps L s0 s4 := (h.stageRange h3).pull
          exact h4.xfU

theorem Keeps.xferStart {p : Nat} {t' : Xfer} (h : Keeps L s0 s) : Keeps L s0 (s.xferStart p t') := h.same.flU.pull.pullMore

theorem Keeps.xferClose {x : Nat} (h : Keeps L s0 s) : Keeps L s0 (s.xferClose x) := h.pull.same

theorem Keeps.resumeXfer {x lane : Nat} (h : Keeps L s0 s) : Keeps L s0 (s.resumeXfer x lane) := by
  unfold State.resumeXfer
  extract_lets s2
  have h2 : Keeps L s0 s2 := h.xfU
  exact Keeps.ite h2 h2.pull.pullMore

theorem Keeps.abortFrame {lane x reason : Nat} (h : Keeps L s0 s) : Keeps L s0 (s.abortFrame lane x reason) := h.tx

theorem Keeps.sendAbort {x reason : Nat} (h : Keeps L s0 s) : Keeps L s0 (s.sendAbort x reason) := by
  unfold State.sendAbort
  extract_lets
  split
  · exact h.abortFrame
  · exact h.same

theorem Keeps.flowEnd {p : Nat} {st : FlowSt} {reason : Nat} (h : Keeps L s0 s) : Keeps L s0 (s.flowEnd p st reason) := by
  unfold State.flowEnd
  extract_lets _ s6 s7 s8 s9 s10
  have h6 : Keeps L s0 s6 := h.lvDrop
  have h7 : Keeps L s0 s7 := Keeps.ite h6.lvBack h6
  have h8 : Keeps L s0 s8 := h7.returnGroups
  have h9 : Keeps L s0 s9 := Keeps.ite h8.pgU h8
  have h10 : Keeps L s0 s10 := Keeps.ite h9.phU h9
  exact h10.flU

theorem Keeps.xferDrop {x reason : Nat} (h : Keeps L s0 s) : Keeps L s0 (s.xferDrop x reason) := by
  unfold State.xferDrop
  extract_lets _ _ s2
  have h2 : Keeps L s0 s2 := h.same
  exact Keeps.ite h2.flowEnd h2

theorem Keeps.stageShort {x : Nat} (h : Keeps L s0 s) : Keeps L s0 (s.stageShort x) := h.sendAbort.xferDrop.flU

theorem Keeps.xferFail {x reason : Nat} (h : Keeps L s0 s) : Keeps L s0 (s.xferFail x reason) := Keeps.ite h.sendAbort.xferDrop h

theorem Keeps.flowFail {p reason : Nat} (h : Keeps L s0 s) : Keeps L s0 (s.flowFail p reason) :=
  Keeps.ite h (Keeps.ite h.xferFail h.flowEnd)

theorem Keeps.slotEmptied {n : Nat} (h : Keeps L s0 s) : Keeps L s0 (s.slotEmptied n) := h.ksU

theorem Keeps.laneEvent (h : Keeps L s0 s) : Keeps L s0 (s.laneEvent) := h.setLine

theorem Keeps.sakChange {l : Nat} (h : Keeps L s0 s) : Keeps L s0 (s.sakChange l) :=
  Keeps.ite h (Keeps.ite h.lnU (Keeps.ite h h.drawSak.lnU))

theorem Keeps.sakNext {l : Nat} (h : Keeps L s0 s) : Keeps L s0 (s.sakNext l) := Keeps.ite h.sakChange h

theorem Keeps.spdmDiscard {l : Nat} (h : Keeps L s0 s) : Keeps L s0 (s.spdmDiscard l) := (h.same.each (fun _ _ h3 => h3.enU)).spdmFlush

theorem Keeps.waitMoves {l : Nat} {fs : List TxFrame} (h : Keeps L s0 s) : Keeps L s0 (s.waitMoves l fs) :=
  h.each (fun _ _ h1 => Keeps.ite h1 (Keeps.ite h1.tx (Keeps.ite h1.same h1)))

theorem Keeps.laneLeave {l : Nat} {st : LaneSt} (h : Keeps L s0 s) (hl : L ≠ .calm) : Keeps L s0 (s.laneLeave l st) := by
  unfold State.laneLeave
  extract_lets _ s9 s10 s11 s12 s13 _ s14 s15
  have h9 : Keeps L s0 s9 := Keeps.ite h.lvBack h.lvDrop
  have h10 : Keeps L s0 s10 := Keeps.ite (h9.poolReturn hl) h9
  have h11 : Keeps L s0 s11 := Keeps.ite h10.slotEmptied h10
  have h12 : Keeps L s0 s12 := h11.lnU
  have h13 : Keeps L s0 s13 := h12.spdmDiscard.laneEvent
  have h14 : Keeps L s0 s14 := Keeps.ite h13.sakNext h13
  have h15 : Keeps L s0 s15 := h14.waitMoves
  exact Keeps.ite (h15.each (fun _ _ h16 => h16.resumeXfer)) h15

theorem Keeps.laneTrain {l : Nat} (h : Keeps L s0 s) : Keeps L s0 (s.laneTrain l) := by
  unfold State.laneTrain
  extract_lets
  split
  · exact h
  · split
    · next h2 =>
        exact ((h.lvTake h2).lnU).laneEvent
    · exact Keeps.ite h h.lvAsk

theorem Keeps.svcAsk {j : SvcJob} (h : Keeps L s0 s) : Keeps L s0 (s.svcAsk j) := h.same

theorem Keeps.svcDone {j : SvcJob} (h : Keeps L s0 s) : Keeps L s0 (s.svcDone j) := h.same

theorem Keeps.leafFailed {x i : Nat} (h : Keeps L s0 s) : Keeps L s0 (s.leafFailed x i) := by
  unfold State.leafFailed
  extract_lets s3 _ s4
  have h3 : Keeps L s0 s3 := h.svcDone.xfU
  have h4 : Keeps L s0 s4 := h3.xfU
  exact Keeps.ite h3.xferFail h4.pull

theorem Keeps.svcFails (h : Keeps L s0 s) : Keeps L s0 (s.svcFails) := by
  unfold State.svcFails
  split
  · exact h.leafFailed
  · exact h.svcAsk
  · exact h

theorem Keeps.chainStart {e : Nat} {j : ChainJob} (h : Keeps L s0 s) : Keeps L s0 (s.chainStart e j) := by
  unfold State.chainStart
  extract_lets _ s2
  have h2 : Keeps L s0 s2 := h.enU
  exact Keeps.ite h2.poolGrant.enU h2.lvAsk.enU

theorem Keeps.verStart (h : Keeps L s0 s) : Keeps L s0 (s.verStart) := by
  unfold State.verStart
  extract_lets
  split
  · exact h.same.chainStart
  · exact h.same

theorem Keeps.verAgain {j : ChainJob} (h : Keeps L s0 s) : Keeps L s0 (s.verAgain j) := by
  unfold State.verAgain
  extract_lets
  split
  · exact h
  · exact h.same.verStart

theorem Keeps.verify {j : ChainJob} {done : Bool → State → State} (h : Keeps L s0 s)
    (hdone : ∀ x0 x1, Keeps L s0 x1 → Keeps L s0 (done x0 x1)) :
    Keeps L s0 (s.verify j done) :=
  Keeps.ite (hdone _ _ h) (Keeps.ite (hdone _ _ h) h.same.verStart)

theorem Keeps.gleanDropOf {p : Nat} (h : Keeps L s0 s) : Keeps L s0 (s.gleanDropOf p) := by
  unfold State.gleanDropOf
  extract_lets _ _ s2
  have h2 : Keeps L s0 s2 := h.pgU
  exact h2.bump.bump

theorem Keeps.laneFailed {lane : Nat} (h : Keeps L s0 s) : Keeps L s0 (s.laneFailed lane) := Keeps.ite h (h.each (fun _ _ h1 => h1.pkU))

theorem Keeps.hopError {x : HopCheck} {lane p : Nat} (h : Keeps L s0 s) (hl : L ≠ .calm) : Keeps L s0 (s.hopError x lane p) := by
  unfold State.hopError
  split
  · exact h
  · exact h.chanError.gnoby hl
  · exact h.chanError
  · exact h.chanError.gnoby hl
  · exact h.chanError

theorem Keeps.mint {p : Nat} (h : Keeps .held s0 s) : Keeps .held s0 (s.mint p) :=
  Keeps.ite h (have h1 := h.phHeld; Keeps.ite h1 h1.standRefuses)

theorem Keeps.handbackDone {p : Nat} (h : Keeps .held s0 s) : Keeps .held s0 (s.handbackDone p) := h.phHeld.pwU.peU.mint

theorem Keeps.retireLane {l : Nat} (h : Keeps L s0 s) : Keeps L s0 (s.retireLane l) := by
  unfold State.retireLane
  extract_lets s4 x2 s5 s6
  have h4 : Keeps L s0 s4 := h.laneFailed
  have h5 : Keeps L s0 s5 := h4.chU
  have h6 : Keeps L s0 s6 := by
    unfold s6
    clear_value x2
    split
    · exact h5.reconcileOf
    · exact h5
  exact h6.poolClaim.runtimeDraw

theorem Keeps.outRelease {e : Nat} (h : Keeps L s0 s) : Keeps L s0 (s.outRelease e) := by
  unfold State.outRelease
  split
  · exact h.ksU.enU
  · exact h

theorem Keeps.engineGone {e : Nat} (h : Keeps L s0 s) : Keeps L s0 (s.engineGone e) := (Keeps.ite h.reconcile h).enU

theorem Keeps.retireEngine {e : Nat} (h : Keeps L s0 s) : Keeps L s0 (s.retireEngine e) := by
  unfold State.retireEngine
  extract_lets _ s5 s6 s8
  have h5 : Keeps L s0 s5 := h.same
  have h6 : Keeps L s0 s6 := h5.each (fun _ _ h7 => Keeps.ite h7.pkU h7)
  have h8 : Keeps L s0 s8 := h6.abortEngine
  exact Keeps.ite h8.enU h8.engineGone

theorem Keeps.wakeOut {p : Nat} {retired : Bool} (h : Keeps L s0 s) : Keeps L s0 (s.wakeOut p retired) :=
  Keeps.ite h ((Keeps.ite h.reconcileGroups h.returnGroups.returnGroups).phU.pvU.pkU)

theorem Keeps.masterOff {p : Nat} (h : Keeps .held s0 s) : Keeps .held s0 (s.masterOff p) := by
  unfold State.masterOff
  extract_lets s2
  have h2 : Keeps .held s0 s2 := h.phHeld
  exact Keeps.ite h2.pkU h2

theorem Keeps.retireSequencer {k : Nat} (h : Keeps L s0 s) (hl : L ≠ .calm) : Keeps L s0 (s.retireSequencer k) :=
  (h.each (fun _ _ h1 => h1.coAny hl)).shU.each (fun _ _ h4 => have h7 := h4.pwU.pdU.wakeOut; Keeps.ite (h7.holdPort hl) h7)

theorem Keeps.retireLink {l : Nat} (h : Keeps L s0 s) (hl : L ≠ .calm) : Keeps L s0 (s.retireLink l) := by
  unfold State.retireLink
  extract_lets s3 s4
  have h3 : Keeps L s0 s3 := Keeps.ite h.reconcileOf.lnU h
  have h4 : Keeps L s0 s4 := Keeps.ite h3.reconcile h3
  exact (h4.laneLeave hl).lnU

theorem Keeps.portGives {p : Nat} {uses : List Nat} (h : Keeps L s0 s) : Keeps L s0 (s.portGives p uses) := by
  unfold State.portGives
  extract_lets s3 _ s4
  have h3 : Keeps L s0 s3 := Keeps.ite h.reconcileOf.flU h
  have h4 : Keeps L s0 s4 := Keeps.ite h3.reconcile.phU h3
  exact h4.reconcileGroups.flowFail

theorem Keeps.retireActs {k : ChannelKind} {i : Nat} (h : Keeps .held s0 s) : Keeps .held s0 (s.retireActs k i) := by
  unfold State.retireActs
  extract_lets s4 s5 s6
  have h4 : Keeps .held s0 s4 := ((h.chU.holdPort nofun).masterOff).portGives
  have h5 : Keeps .held s0 s5 := ((h.chU.holdPort nofun).masterOff).portGives
  have h6 : Keeps .held s0 s6 := h.chU
  split
  · exact h4.pgU
  · exact h5.pgU
  · exact h.retireLane
  · exact h.chU.retireEngine
  · exact h.chU.retireLink nofun
  · exact h.chU.retireSequencer nofun
  · exact h6.stU
  · exact h.chU

theorem Keeps.retire {k : ChannelKind} {i reason : Nat} (h : Keeps .held s0 s) : Keeps .held s0 (s.retire k i reason) :=
  Keeps.ite h (have h1 := h.retireActs; Keeps.ite h1.same h1.chU.logRec)

theorem Keeps.entryTestFailed {l : Nat} (h : Keeps .held s0 s) : Keeps .held s0 (s.entryTestFailed l) := ((h.gnoby nofun).chU).retire

theorem Keeps.probePassed {k : ChannelKind} {i : Nat} (h : Keeps .held s0 s) : Keeps .held s0 (s.probePassed k i) := by
  unfold State.probePassed
  split
  · exact h.each (fun _ _ h2 => Keeps.ite (h2.restartThread nofun) h2)
  · exact Keeps.ite h.handbackDone h
  · exact h

theorem Keeps.execProbe {k : ChannelKind} {i : Nat} {pass : Bool} (h : Keeps .held s0 s) : Ends .held s0 (execProbe k i pass s) :=
  Ends.ite h (Ends.ite (have h1 := h.probePassed; Ends.ite h1.retire h1.chU.verStart) (Ends.ite h.chU h.retire))

theorem Keeps.execBucketDecay {k : ChannelKind} {i : Nat} (h : Keeps L s0 s) : Ends L s0 (execBucketDecay k i s) := Ends.ite h h.chU

theorem Keeps.execRetirementReapply (h : Keeps .held s0 s) : Ends .held s0 (execRetirementReapply s) := by
  unfold Machine.execRetirementReapply
  extract_lets s3
  have h3 : Keeps .held s0 s3 := h.each (fun _ _ h4 => by
      split
      · exact Keeps.ite h4 h4.retireActs
      · exact h4)
  clear_value s3
  exact Ends.ite h h3.same

theorem Keeps.operandRead {e w : Nat} {src : Agent} (h : Keeps L s0 s) : Keeps L s0 (s.operandRead e src w).2 := by
  unfold State.operandRead
  extract_lets
  split
  · exact h.raiseLow (Nat.le_refl 1)
  · split <;> exact h

theorem Keeps.sendMaster {p : Nat} {l : List MasterFrame} (h : Keeps L s0 s) : Keeps L s0 (s.sendMaster p l) := h.peU

theorem Keeps.contExit {p : Nat} (h : Keeps L s0 s) : Keeps L s0 (s.contExit p) := Keeps.ite h.sendMaster.peU h

/-- Port entries as a main-power reset leaves them read as held (R43, R44). -/
theorem reset_hold {l : List (Nat × PHold)} (p : Nat) :
    (Tab.get {} ((l.map fun e => (e.1, ({ pg := e.2.pg } : PHold))).filter fun e => decide (e.2 ≠ {})) p).hold = true := by
  induction l with
  | nil => rfl
  | cons e l ih =>
    rw [List.map_cons, List.filter_cons]
    split
    · unfold Tab.get
      split
      · rfl
      · exact ih
    · exact ih

theorem Keeps.mainReset {dev : DevState} (_ : Keeps .held s0 s) : Keeps .held s0 (s.mainReset dev) := fun p _ => reset_hold p

theorem Keeps.coldStart (h : Keeps .held s0 s) : Keeps .held s0 (s.coldStart) := by
  unfold State.coldStart
  extract_lets s5 _ s6
  have h5 : Keeps .held s0 s5 := h.mainReset
  clear_value s5
  have h6 : Keeps .held s0 s6 := h5.sameHold.used
  exact h6.each (fun _ _ h7 => by
      split
      · next h8 =>
          exact (h7.takeGroup h8)
      · exact h7)

theorem Keeps.backupCold (h : Keeps L s0 s) (hl : L ≠ .calm) : Keeps L s0 (s.backupCold) :=
  Keeps.ite h (((((h.sameHome hl).used.memZero hl).memZero hl).startCore hl).backupLog)

theorem Keeps.backupLost (h : Keeps L s0 s) (hl : L ≠ .calm) : Keeps L s0 s.backupLost := by
  unfold State.backupLost
  refine Keeps.ite h ?_
  exact Keeps.ite (h.sameHome hl) (h.sameHome hl)

theorem Keeps.execSupplyGood {x : Supply} (h : Keeps .held s0 s) : Ends .held s0 (execSupplyGood x s) := by
  unfold Machine.execSupplyGood
  extract_lets _ _ s3 s4
  have h3 : Keeps .held s0 s3 := h.sameHold.backupCold nofun
  clear_value s3
  have h4 : Keeps .held s0 s4 := h3.coldStart
  clear_value s4
  split
  · exact h4.sameHold
  · split
    · exact h3.sameHold
    · exact h3

theorem Keeps.bankFails {x : Supply} (h : Keeps L s0 s) (hl : L ≠ .calm) : Keeps L s0 (s.bankFails x) := by
  unfold State.bankFails
  extract_lets
  split
  · extract_lets s4 s5
    have h4 : Keeps L s0 s4 := h.sameHome hl
    have h5 : Keeps L s0 s5 := Keeps.ite (h4.each (fun _ _ h6 => h6.gleanDropOf)) h4
    exact Keeps.ite h (h5.raiseReg hl)
  · exact h

theorem Keeps.execSupplyNotGood {x : Supply} (h : Keeps .held s0 s) : Ends .held s0 (execSupplyNotGood x s) := by
  unfold Machine.execSupplyNotGood
  extract_lets _ _ s3 s4
  have h3 : Keeps .held s0 s3 := h.sameHold
  have h4 : Keeps .held s0 s4 := Keeps.ite h3.mainReset (h3.bankFails nofun)
  exact h4.backupLost nofun

theorem Keeps.execBackupDomainSupplied (h : Keeps L s0 s) (hl : L ≠ .calm) : Ends L s0 (execBackupDomainSupplied s) :=
  (h.sameHome hl).backupCold hl

theorem Keeps.clockFail (h : Keeps .held s0 s) : Keeps .held s0 (s.clockFail) := by
  unfold State.clockFail
  extract_lets _ s2
  have h2 : Keeps .held s0 s2 := h.coldStart
  clear_value s2
  exact h2.sameHold

theorem Keeps.execRefclkLoss (h : Keeps L s0 s) (hl : L ≠ .calm) : Ends L s0 (execRefclkLoss s) :=
  Ends.ite h (have h1 := h.sameHome hl; Keeps.ite h1 (h1.raiseReg hl))

theorem Keeps.execRefclkHoldoverExpiry (h : Keeps .held s0 s) : Ends .held s0 (execRefclkHoldoverExpiry s) := Keeps.ite h.clockFail h

theorem Keeps.execPllLockLoss {flashSide : Bool} (h : Keeps .held s0 s) : Ends .held s0 (execPllLockLoss flashSide s) :=
  Ends.ite ((h.raiseReg nofun).clockFail) h

theorem Keeps.execRefclkReturn (h : Keeps L s0 s) (hl : L ≠ .calm) : Ends L s0 (execRefclkReturn s) := h.sameHome hl

theorem Keeps.senseRoot (h : Keeps L s0 s) : Keeps L s0 (s.senseRoot) := by
  unfold State.senseRoot
  extract_lets _ s2
  have h2 : Keeps L s0 s2 := Keeps.ite h.same h.same
  clear_value s2
  exact h2.same

theorem Keeps.execFuseSenseDone (h : Keeps L s0 s) (hl : L ≠ .calm) : Ends L s0 (execFuseSenseDone s) := by
  unfold Machine.execFuseSenseDone
  extract_lets _ _ _ _ _ s15 _ s16 s17 s19 s21 s22 _ s23 s24 s26 _ s27
  have h15 : Keeps L s0 s15 := h.same
  clear_value s15
  have h16 : Keeps L s0 s16 := h15.sameHome hl
  have h17 : Keeps L s0 s17 := h16.each (fun _ _ h18 => h18.senseBit)
  have h19 : Keeps L s0 s19 := h17.each (fun _ _ h20 => h20.fuseAlarmLow (by decide))
  have h21 : Keeps L s0 s21 := Keeps.ite (h19.fuseAlarmLow (by decide)) h19
  have h22 : Keeps L s0 s22 := h21.loadRanks
  clear_value s22
  have h23 : Keeps L s0 s23 := h22.same
  have h24 : Keeps L s0 s24 := h23.each (fun _ _ h25 => h25.chU.poolGrant)
  have h26 : Keeps L s0 s26 := h24.senseRoot
  clear_value s26
  have h27 : Keeps L s0 s27 := h26.each (fun _ _ h28 => h28.backupLog)
  clear_value s27
  exact Ends.ite h (Ends.ite (h27.sameHome hl) (Ends.ite (h26.sameHome hl) (Ends.ite (h26.sameHome hl) h26)))

theorem Keeps.execSeedCoreRelease {probes : BitVec 4} (h : Keeps L s0 s) (hl : L ≠ .calm) : Ends L s0 (execSeedCoreRelease probes s) := by
  unfold Machine.execSeedCoreRelease
  extract_lets _ _ s9 _ s10 _ _ s11 s12 _ s13 s14 s15 _ _ s16
  have h9 : Keeps L s0 s9 := h.startCore hl
  clear_value s9
  have h10 : Keeps L s0 s10 := h9.sameHome hl
  clear_value s10
  have h11 : Keeps L s0 s11 := h10.sameHome hl
  have h12 : Keeps L s0 s12 := h11.zeroize
  clear_value s12
  have h13 : Keeps L s0 s13 := Keeps.ite h12.same h11
  have h14 : Keeps L s0 s14 := Keeps.ite h10 h13.drawSlotKeys
  have h15 : Keeps L s0 s15 := h14.dropAlias
  clear_value s15
  have h16 : Keeps L s0 s16 := h15.same
  clear_value s16
  exact Ends.ite h (Ends.ite (h16.sameHome hl) h16.boxReady)

theorem Keeps.noBundle (h : Keeps L s0 s) (hl : L ≠ .calm) : Keeps L s0 (s.noBundle) := by
  unfold State.noBundle
  extract_lets s4 s5 _ _ s6
  have h4 : Keeps L s0 s4 := h.dropAlias
  have h5 : Keeps L s0 s5 := h4.coresOff hl
  clear_value s5
  have h6 : Keeps L s0 s6 := h5.sameHome hl
  exact Keeps.ite h6 h6.boxReady

theorem Keeps.execBundleHeadersRead (h : Keeps L s0 s) (hl : L ≠ .calm) : Ends L s0 (execBundleHeadersRead s) := by
  unfold Machine.execBundleHeadersRead
  extract_lets _ s2
  have h2 : Keeps L s0 s2 := h.same
  clear_value s2
  split
  · exact h
  · split
    · exact h2.sameHome hl
    · exact h2.noBundle hl

theorem Keeps.tagRegion {x : Slot} {len : Nat} (h : Keeps L s0 s) : Keeps L s0 (s.tagRegion x len) := by
  unfold State.tagRegion
  extract_lets s6 _ s7
  have h6 : Keeps L s0 s6 := h.returnGroups
  have h7 : Keeps L s0 s7 := h6.each (fun _ _ h8 => by
      extract_lets
      split
      · next h9 =>
          extract_lets _ s10
          have h10 : Keeps L s0 s10 := (h8.takeGroup h9).same
          exact h10.granPut
      · exact h8)
  clear_value s7
  exact h7.same

theorem Keeps.loadImages {x : Slot} {h' : List Byte} (h : Keeps L s0 s) (hl : L ≠ .calm) : Keeps L s0 (s.loadImages x h') :=
  (((((h.memZero hl).memZero hl).memZero hl).memPut hl).memPut hl).memPut hl

theorem Keeps.seedHold {h' : List Byte} (h : Keeps L s0 s) : Keeps L s0 (s.seedHold h') := h.poolGrant.foldl (fun _ _ h1 => h1.poolMove.enU)

theorem Keeps.seedDraw {c : List Byte} (h : Keeps L s0 s) (e : s.seedDraw c = some t) : Keeps L s0 t := by
  unfold State.seedDraw at e
  split at e
  · obtain ⟨u, taken, rfl⟩ := Option.map_eq_some_iff.mp e
    exact (h.lvTake taken).seedHold
  · cases e

theorem Keeps.seedReturn {h' : List Byte} (h : Keeps L s0 s) : Keeps L s0 (s.seedReturn h') :=
  h.poolBack.lvBack.foldl (fun _ _ h2 => Keeps.ite h2.poolBack.enU.setLine h2)

theorem Keeps.seedPass {x : Slot} {h' : List Byte} (h : Keeps L s0 s) (hl : L ≠ .calm) : Keeps L s0 (s.seedPass x h') := by
  unfold State.seedPass
  extract_lets _ s4 s5 _ s6
  have h4 : Keeps L s0 s4 := h.sameHome hl
  have h5 : Keeps L s0 s5 := (h4.loadImages hl).tagRegion
  have h6 : Keeps L s0 s6 := h5.deriveDeviceId
  exact Keeps.ite (h6.deriveAlias hl) h6

theorem Keeps.execBundleCandidateRead (h : Keeps L s0 s) (hl : L ≠ .calm) : Ends L s0 (execBundleCandidateRead s) := by
  unfold Machine.execBundleCandidateRead
  split
  · extract_lets
    split
    · exact h
    · split
      · next h2 =>
          exact (h.seedDraw h2).seedPass hl
      · exact h.lvAsk
  · exact h

theorem Keeps.seedGranted {n : Nat} (h : Keeps L s0 s) (hl : L ≠ .calm) : Keeps L s0 (s.seedGranted n) := by
  unfold State.seedGranted
  split
  · extract_lets
    exact Keeps.ite (h.seedHold.seedPass hl) h.lvBack
  · exact h.lvBack

theorem Keeps.execBundleSignatureVerified (h : Keeps L s0 s) (hl : L ≠ .calm) : Ends L s0 (execBundleSignatureVerified s) := by
  unfold Machine.execBundleSignatureVerified
  extract_lets _ _ _ s4 _ s5
  have h4 : Keeps L s0 s4 := h.seedReturn
  clear_value s4
  have h5 : Keeps L s0 s5 := h4.dropAlias.coresOff hl
  clear_value s5
  split
  · extract_lets s6
    have h6 : Keeps L s0 s6 := by
      unfold s6
      split <;> exact h5.sameHome hl
    clear_value s6
    split
    · exact h4.noBundle hl
    · split
      · exact h4.sameHome hl
      · split
        · exact h6.sameHome hl
        · exact h6.noBundle hl
  · exact h

theorem Keeps.openNext (h : Keeps L s0 s) : Keeps L s0 (s.openNext) := by
  unfold State.openNext
  extract_lets _ s2
  have h2 : Keeps L s0 s2 := h.same
  split
  · exact h
  · extract_lets
    exact Keeps.ite (Keeps.ite h2.stU h2.standRefuses) h

theorem Keeps.canopyGo {b : Bundle} (h : Keeps L s0 s) (hl : L ≠ .calm) : Keeps L s0 (s.canopyGo b) := by
  unfold State.canopyGo
  extract_lets _ s12 s13 s14 _ _ _ _ _ s15 s16 s18 s19 _ s22
  have h12 : Keeps L s0 s12 := (h.startCore hl).startCore hl
  have h13 : Keeps L s0 s13 := h12.ksU.memZero hl
  have h14 : Keeps L s0 s14 := h13.coAny hl
  clear_value s14
  have h15 : Keeps L s0 s15 := h14.sameHome hl
  have h16 : Keeps L s0 s16 := h15.each (fun _ _ h17 => (Keeps.ite h17.boxEmpty h17).boxReady)
  have h18 : Keeps L s0 s18 := h16.logRec
  have h19 : Keeps L s0 s19 := h18.each (fun _ _ h20 => Keeps.ite h20 h20.chU.enU.logRec)
  clear_value s19
  have h22 : Keeps L s0 s22 := h19.sameHome hl
  exact Keeps.ite h22.openNext h22

theorem Keeps.execCanopyRelease (h : Keeps L s0 s) (hl : L ≠ .calm) : Ends L s0 (execCanopyRelease s) := by
  unfold Machine.execCanopyRelease
  split
  · split
    · exact h
    · split
      · next t e =>
        have both : Keeps L s0 t := Keeps.bind (fun _ e => h.lvTake e) (fun _ _ hu e => hu.lvTake e) e
        exact both.canopyGo hl
      · exact h.lvAsk.lvAsk
  · exact h

theorem Keeps.canopyGranted {c : Nat} (h : Keeps L s0 s) (hl : L ≠ .calm) : Keeps L s0 (s.canopyGranted c) := by
  unfold State.canopyGranted
  split
  · exact Keeps.ite (h.canopyGo hl) h
  · exact Keeps.ite (h.coAny hl) h.lvBack

theorem Keeps.execCanopyLeaveReturn (h : Keeps L s0 s) : Ends L s0 (execCanopyLeaveReturn s) := Keeps.ite h.lvBack h

theorem Keeps.linkGo (h : Keeps L s0 s) (hl : L ≠ .calm) : Keeps L s0 (s.linkGo) := by
  unfold State.linkGo
  extract_lets x2 s4 _ _ s5
  have h4 : Keeps L s0 s4 := h.startCore hl
  clear_value s4
  have h5 : Keeps L s0 s5 := ((h4.sameHome hl).laneTrain).laneTrain
  clear_value x2
  split
  · exact h5.each (fun _ _ h6 => h6.resumeXfer)
  · exact h5

theorem Keeps.linkAsk (h : Keeps L s0 s) (hl : L ≠ .calm) : Keeps L s0 (s.linkAsk) := by
  unfold State.linkAsk
  split
  · exact h
  · split
    · next h2 =>
        exact (h.lvTake h2).linkGo hl
    · exact h.lvAsk

theorem Keeps.linkGranted (h : Keeps L s0 s) (hl : L ≠ .calm) : Keeps L s0 (s.linkGranted) := Keeps.ite (h.linkGo hl) h.lvBack

theorem Keeps.execLinkCoreRelease (h : Keeps L s0 s) (hl : L ≠ .calm) : Ends L s0 (execLinkCoreRelease s) := Keeps.ite (h.linkAsk hl) h

theorem Keeps.rxDrop (h : Keeps L s0 s) : Keeps L s0 (s.rxDrop) := h.each (fun _ _ h1 => h1.reconcile.same.lnU)

theorem Keeps.gleanDrop (h : Keeps L s0 s) : Keeps L s0 (s.gleanDrop) := h.each (fun _ _ h1 => h1.gleanDropOf)

theorem Keeps.rebuildDrop (h : Keeps L s0 s) : Keeps L s0 (s.rebuildDrop) := Keeps.ite h.same h

theorem Keeps.enginesStop (h : Keeps L s0 s) : Keeps L s0 (s.enginesStop) :=
  h.each (fun _ _ h1 => have h2 := h1.abortEngine; (Keeps.ite h2.setLine h2).enU)

theorem Keeps.recoveryStop (h : Keeps L s0 s) : Keeps L s0 (s.recoveryStop) :=
  (h.each (fun _ _ h1 => h1.xferDrop)).each (fun _ _ h3 => Keeps.ite h3.flowEnd h3)

theorem Keeps.canopyBack (h : Keeps L s0 s) : Keeps L s0 (s.canopyBack) := Keeps.ite (h.reconcile.each (fun _ _ h1 => h1.dropGroup)) h

theorem Keeps.rideStart (h : Keeps L s0 s) (hl : L ≠ .calm) : Keeps L s0 (s.rideStart) := by
  unfold State.rideStart
  extract_lets _ s21 s22 s23 s24 s25 s27 _ s29 _ s30 s31 s32 s33 s34 s36 s37 s39
  have h21 : Keeps L s0 s21 := h.reconcile
  have h22 : Keeps L s0 s22 := h21.reconcile
  have h23 : Keeps L s0 s23 := h22.canopyBack
  have h24 : Keeps L s0 s24 := h23.reconcile
  have h25 : Keeps L s0 s25 := h24.each (fun _ _ h26 => h26.reconcile)
  have h27 : Keeps L s0 s27 := (h25.each (fun _ _ h28 => h28.boxDrop)).setLine
  clear_value s27
  have h29 : Keeps L s0 s29 := h27.same
  clear_value s29
  have h30 : Keeps L s0 s30 := h29.same
  have h31 : Keeps L s0 s31 := h30.fuseStop.gleanDrop.rebuildDrop
  have h32 : Keeps L s0 s32 := h31.enginesStop.recoveryStop
  have h33 : Keeps L s0 s33 := h32.rxDrop
  have h34 : Keeps L s0 s34 := h33.each (fun _ _ h35 => h35.returnGroups)
  have h36 : Keeps L s0 s36 := h34.coresOff hl
  have h37 : Keeps L s0 s37 := h36.each (fun _ _ h38 => h38.stU)
  have h39 : Keeps L s0 s39 := h37.each (fun _ _ h40 => h40.phU)
  clear_value s39
  exact h39.sameHome hl

theorem Keeps.warmRestart {fault : Bool} (h : Keeps L s0 s) (hl : L ≠ .calm) : Keeps L s0 (s.warmRestart fault) :=
  Keeps.ite (h.sameHome hl) (Keeps.ite h ((Keeps.ite h.same h).rideStart hl))

theorem Keeps.linkRestart {counted : Bool} (h : Keeps L s0 s) (hl : L ≠ .calm) : Keeps L s0 (s.linkRestart counted) := by
  unfold State.linkRestart
  extract_lets _ _ _ s6 _ s7 s8 _ s10
  have h6 : Keeps L s0 s6 := h.same
  clear_value s6
  have h7 : Keeps L s0 s7 := (h6.coresOff hl).rxDrop
  have h8 : Keeps L s0 s8 := h7.each (fun _ _ h9 => h9.xfU)
  clear_value s8
  have h10 : Keeps L s0 s10 := h8.sameHome hl
  exact Keeps.ite (h6.same.warmRestart hl) (Keeps.ite h10.svcAsk h10)

theorem Keeps.execCanopyWatchdogExpiry (h : Keeps L s0 s) (hl : L ≠ .calm) : Ends L s0 (execCanopyWatchdogExpiry s) :=
  Keeps.ite (h.warmRestart hl) h

theorem Keeps.execWarmRestartEntryDone {comparators : BitVec 6} (h : Keeps .held s0 s) :
    Ends .held s0 (execWarmRestartEntryDone comparators s) :=
  Ends.ite h ((h.each (fun _ _ h1 => Keeps.ite h1 (Keeps.ite h1.poAny.stU h1.standFault))).sameHold)

theorem Keeps.execLinkCoreReloaded (h : Keeps L s0 s) (hl : L ≠ .calm) : Ends L s0 (execLinkCoreReloaded s) := by
  unfold Machine.execLinkCoreReloaded
  split
  · split
    · exact h.memZero hl
    · exact (h.memPut hl).linkAsk hl
  · exact h

theorem Keeps.execRuntimeLaneScheduleReload (h : Keeps L s0 s) (hl : L ≠ .calm) : Ends L s0 (execRuntimeLaneScheduleReload s) :=
  Ends.ite ((h.sameHome hl).runtimeDraw) h

theorem Keeps.takePolicy {c : List Byte} (h : Keeps L s0 s) : Keeps L s0 (s.takePolicy c) := (h.same.each (fun _ _ h2 => h2.poU)).logRec

theorem Keeps.loadWakeSched (h : Keeps L s0 s) : Keeps L s0 (s.loadWakeSched) := h.same

theorem Keeps.noPolicy (h : Keeps L s0 s) : Keeps L s0 (s.noPolicy) := h.each (fun _ _ h1 => Keeps.ite h1 h1.shU)

theorem Keeps.policyVerified {j : ChainJob} {ok : Bool} (h : Keeps L s0 s) : Keeps L s0 (s.policyVerified j ok) :=
  Keeps.ite (have h1 := h.takePolicy; Keeps.ite h1 h1.loadWakeSched) h.noPolicy

theorem Keeps.readPolicy (h : Keeps L s0 s) : Keeps L s0 (s.readPolicy) :=
  Keeps.ite (Keeps.ite h h.loadWakeSched) (Keeps.ite h (Keeps.ite (h.verify (fun _ _ h1 => h1.policyVerified)) h))

theorem Keeps.takeSlices {p : Nat} {c : List Byte} (h : Keeps L s0 s) : Keeps L s0 (s.takeSlices p c) := h.mend.pwU.peU

theorem Keeps.startThreads {k : Nat} {threads : List Byte} (h : Keeps L s0 s) (hl : L ≠ .calm) : Keeps L s0 (s.startThreads k threads) :=
  h.each (fun _ _ h1 => h1.startCore hl)

theorem Keeps.loadSequencer {k : Nat} {c : List Byte} (h : Keeps L s0 s) (hl : L ≠ .calm) : Keeps L s0 (s.loadSequencer k c) := by
  unfold State.loadSequencer
  extract_lets _ s5 s6 s7
  have h5 : Keeps L s0 s5 := ((h.memZero hl).memPut hl).memPut hl
  have h6 : Keeps L s0 s6 := h5.shU
  have h7 : Keeps L s0 s7 := h6.each (fun _ _ h8 => h8.pdU)
  exact Keeps.ite h5.shU (h7.startThreads hl)

theorem Keeps.takeSheaf {k : Nat} {c : List Byte} (h : Keeps L s0 s) (hl : L ≠ .calm) : Keeps L s0 (s.takeSheaf k c) :=
  (h.same.each (fun _ _ h3 => h3.takeSlices.pwU)).loadSequencer hl

theorem Keeps.execScheduleContainerLoad {k : SheafId} (h : Keeps L s0 s) (hl : L ≠ .calm) : Ends L s0 (execScheduleContainerLoad k s) :=
  Ends.ite h (have h1 := h.readPolicy; Ends.ite h1 (Ends.ite (h1.takeSheaf hl) h1.shU))

theorem Keeps.portReset {p : Nat} (h : Keeps .held s0 s) : Keeps .held s0 (s.portReset p) := by
  unfold State.portReset
  extract_lets s6 s7 s8 s9 s10
  have h6 : Keeps .held s0 s6 := h.returnGroups.returnGroups
  have h7 : Keeps .held s0 s7 := Keeps.ite h6 h6.returnGroups.pgU
  have h8 : Keeps .held s0 s8 := h7.pgU
  have h9 : Keeps .held s0 s9 := h8.phHeld
  have h10 : Keeps .held s0 s10 := h9.pwU
  exact h10.pvU

theorem Keeps.portWake {p : Nat} (h : Keeps L s0 s) : Keeps L s0 (s.portWake p) := (Keeps.ite h.phU.contExit h).pkU

theorem Keeps.wakeGo {ports : List Nat} (h : Keeps .held s0 s) : Keeps .held s0 (s.wakeGo ports) := by
  unfold State.wakeGo
  extract_lets s8 _ s10 s11 s12
  have h8 : Keeps .held s0 s8 := h.each (fun _ _ h9 => Keeps.ite h9 (h9.bankFails nofun))
  have h10 : Keeps .held s0 s10 := h8.poolGrant
  clear_value s10
  have h11 : Keeps .held s0 s11 := h10.same
  have h12 : Keeps .held s0 s12 := h11.each (fun _ _ h13 => have h14 := h13.portReset; Keeps.ite h14.portWake h14)
  clear_value s12
  exact Keeps.ite h8.lvBack h12.same

theorem Keeps.wakeAsk {rewake : Bool} {ports : List Nat} (h : Keeps .held s0 s) : Keeps .held s0 (s.wakeAsk rewake ports) := by
  unfold State.wakeAsk
  extract_lets _ _ s5 s6 s7
  have h5 : Keeps .held s0 s5 := h.same
  clear_value s5
  have h6 : Keeps .held s0 s6 := h5.same
  have h7 : Keeps .held s0 s7 := h6.each (fun _ _ h8 => h8.pkU)
  exact Keeps.ite h5.poolGrant.wakeGo h7.lvAsk

theorem Keeps.wakeGranted (h : Keeps .held s0 s) : Keeps .held s0 (s.wakeGranted) := Keeps.ite h.wakeGo h.lvBack

theorem Keeps.execWakeAutoStart (h : Keeps .held s0 s) : Ends .held s0 (execWakeAutoStart s) := Ends.ite h.wakeAsk h

theorem Keeps.wakeRemap (h : Keeps L s0 s) : Keeps L s0 (s.wakeRemap) :=
  Keeps.ite h (have h3 := (Keeps.ite h h.poolBack).same.runtimeDraw; Keeps.ite h3.poolGrant.same h3)

theorem Keeps.execWakeEntryEnd {ids : List (PortId × List Byte)} {replies : List (PortId × List (List
    (List Byte)))} {badLanes : List LaneId} (h : Keeps .held s0 s) :
    Ends .held s0 (execWakeEntryEnd ids replies badLanes s) := by
  unfold Machine.execWakeEntryEnd
  extract_lets s7 s9 s10
  have h7 : Keeps .held s0 s7 := h.each (fun _ _ h8 => Keeps.ite h8.entryTestFailed h8)
  have h9 : Keeps .held s0 s9 := h7.wakeRemap
  have h10 : Keeps .held s0 s10 := h9.each (fun _ _ h11 => Keeps.ite h11 (Keeps.ite h11.pkU (
    have h12 := h11.sendMaster
    Keeps.ite h12 h12.pkU)))
  clear_value s10
  exact Ends.ite h (Ends.ite h9 h10.same)

theorem Keeps.tagGroup {p a g : Nat} (h : Keeps L s0 s) (e : s.tagGroup p a = some (g, t)) : Keeps L s0 t := by
  unfold State.tagGroup at e
  extract_lets at e
  split at e
  · obtain ⟨-, rfl⟩ := Prod.mk.inj (Option.some.inj e)
    exact h
  · split at e
    · cases e
    · split at e
      · next g u taken =>
        obtain ⟨-, rfl⟩ := Prod.mk.inj (Option.some.inj e)
        have hu : Keeps L s0 u := h.takeGroup taken
        exact hu.same
      · cases e

theorem Keeps.chunkTags {p a : Nat} {bs : List Byte} (h : Keeps L s0 s) : Keeps L s0 (s.chunkTags p a bs) := by
  unfold State.chunkTags
  exact Keeps.ite h (h.each (fun _ _ h3 => by
      extract_lets
      split
      · exact h3
      · split
        · next h4 =>
            exact (h3.tagGroup h4).granPut
        · exact h3))

theorem Keeps.pinGroup {p a g : Nat} {x : Slot} (h : Keeps L s0 s) (e : s.pinGroup p x a = some (g, t)) : Keeps L s0 t := by
  unfold State.pinGroup at e
  extract_lets at e
  split at e
  · obtain ⟨-, rfl⟩ := Prod.mk.inj (Option.some.inj e)
    exact h
  · split at e
    · next g u taken =>
      cases e
      have hu : Keeps L s0 u := h.takeGroup taken
      exact hu.same
    · cases e

theorem Keeps.chunkPins {p a : Nat} {x : Slot} {bs : List Byte} (h : Keeps L s0 s) : Keeps L s0 (s.chunkPins p x a bs) := by
  unfold State.chunkPins
  split
  · exact h
  · refine h.each fun u c hu => hu.each fun v j hv => hv.each fun w i hw => ?_
    extract_lets
    refine Keeps.ite ?_ hw
    split
    · next e => exact (hw.pinGroup e).granPut
    · exact hw

theorem Keeps.wakeCut (h : Keeps L s0 s) : Keeps L s0 (s.wakeCut) := by
  unfold State.wakeCut
  extract_lets s3
  have h3 : Keeps L s0 s3 := h.each (fun _ _ h4 => h4.wakeOut)
  clear_value s3
  exact h3.same.wakeRelease

theorem Keeps.captureBad {p : Nat} (h : Keeps L s0 s) (hl : L ≠ .calm) : Keeps L s0 (s.captureBad p) := h.pkU.chanError.gnoby hl

theorem Keeps.execWakeRound {bursts : List (PortId × List Byte)} {failed : List PortId} (h : Keeps L s0 s) (hl : L ≠ .calm) :
    Ends L s0 (execWakeRound bursts failed s) := by
  unfold Machine.execWakeRound
  extract_lets _ s6 _ _ s9
  have h6 : Keeps L s0 s6 := h.each (fun _ _ h7 => by
      extract_lets _ _ _ s8
      have h8 : Keeps L s0 s8 := by
        unfold s8
        split
        · exact Keeps.ite h7 h7.sendMaster
        · exact h7
      exact Keeps.ite h7.pkU (Keeps.ite h7.pkU h8.pkU))
  clear_value s6
  have h9 : Keeps L s0 s9 := h6.same
  exact Ends.ite h (Ends.ite h.wakeCut (h9.each (fun _ _ h10 => Keeps.ite h10 (h10.captureBad hl))))

theorem Keeps.execSignatureWindowEnd (h : Keeps L s0 s) : Ends L s0 (execSignatureWindowEnd s) := Ends.ite h h.same

theorem Keeps.execWakeLaneJob {p : PortId} {chunk : Fin 16} {tags : Bool} {lane : LaneId} {check : HopCheck} (h : Keeps L s0 s)
    (hl : L ≠ .calm) :
    Ends L s0 (execWakeLaneJob p chunk tags lane check s) := by
  unfold Machine.execWakeLaneJob
  extract_lets
  split
  · exact h
  · split
    · exact h.laneFailed.hopError hl
    · split
      · exact h
      · extract_lets
        split
        · exact h.chunkTags.pkU
        · split
          · exact h
          · extract_lets s2
            have h2 : Keeps L s0 s2 := h.chunkPins
            exact h2.pkU

theorem Keeps.execWakeFrameBoundary (h : Keeps L s0 s) : Ends L s0 (execWakeFrameBoundary s) := Ends.ite h h.wakeRemap

theorem Keeps.shelfVerified {ok : Bool} (h : Keeps L s0 s) : Keeps L s0 (s.shelfVerified ok) := h.same

theorem Keeps.execShelfManifestDecide (h : Keeps L s0 s) : Ends L s0 (execShelfManifestDecide s) :=
  Ends.ite h (have h1 := h.same; Keeps.ite (h1.verify (fun _ _ h2 => h2.shelfVerified)) h1.shelfVerified)

theorem Keeps.execChainVerifyStart {p : PortId} (h : Keeps L s0 s) : Ends L s0 (execChainVerifyStart p s) := by
  unfold Machine.execChainVerifyStart
  split
  · exact h
  · split
    · exact h
    · extract_lets s2
      have h2 : Keeps L s0 s2 := h.pkU
      exact Ends.ite h h2.chainStart

theorem Keeps.execHashSignatureVerify {p : PortId} (h : Keeps L s0 s) : Ends L s0 (execHashSignatureVerify p s) := Ends.ite h h.pkU

theorem Keeps.execDrainEnd (h : Keeps L s0 s) : Ends L s0 (execDrainEnd s) := Ends.ite h (Ends.ite h.wakeCut h.same)

theorem Keeps.writeRecord {p : Nat} (h : Keeps L s0 s) : Keeps L s0 (s.writeRecord p) := h.same

theorem Keeps.notice {p : Nat} (h : Keeps L s0 s) : Keeps L s0 (s.notice p) := Keeps.ite h.same h.pvU

theorem Keeps.keepSlot {p chosen : Nat} (h : Keeps L s0 s) : Keeps L s0 (s.keepSlot p chosen) :=
  Keeps.ite h.returnGroups.returnGroups ((h.each (fun _ _ h1 => Keeps.ite h1.returnGroup h1)).returnGroups)

theorem Keeps.voidPinsOf {p chosen : Nat} (h : Keeps L s0 s) : Keeps L s0 (s.voidPinsOf p chosen) :=
  h.each (fun _ _ h1 => Keeps.ite h1 (h1.pwU.each (fun _ _ h3 => Keeps.ite h3 h3.returnGroup)))

theorem Keeps.setVerdict {p : Nat} {d : Decision} (h : Keeps .held s0 s) : Keeps .held s0 (s.setVerdict p d) :=
  Keeps.ite h.pgU.handbackDone h.returnGroups.pgU

theorem Keeps.decidePort {p : Nat} (h : Keeps .held s0 s) : Keeps .held s0 (s.decidePort p) := by
  unfold State.decidePort
  extract_lets _ s7 _ _ _ _ s8 s9 s10 _ s11 s12
  have h7 : Keeps .held s0 s7 := Keeps.ite h.lastGoodCheck h
  have h8 : Keeps .held s0 s8 := h7.pvU
  have h9 : Keeps .held s0 s9 := Keeps.ite h8.returnGroups h8.keepSlot
  have h10 : Keeps .held s0 s10 := Keeps.ite h9 h9.voidPinsOf
  have h11 : Keeps .held s0 s11 := Keeps.ite h10.setVerdict (Keeps.ite h10.phHeld h10.phHeld)
  have h12 : Keeps .held s0 s12 := h11.writeRecord.notice
  split
  · exact h12.raise nofun
  · exact h12

theorem Keeps.execVerdictStage (h : Keeps .held s0 s) : Ends .held s0 (execVerdictStage s) :=
  Ends.ite h (Ends.ite h.wakeCut (have h4 := (h.each (fun _ _ h1 => h1.decidePort)).wakeRelease.same.runtimeDraw; Keeps.ite h4.openNext h4))

theorem Keeps.execHandback {p : PortId} {replies : List (List (List Byte))} (h : Keeps .held s0 s) :
    Ends .held s0 (execHandback p replies s) :=
  Ends.ite h (have h1 := h.contExit.sendMaster; Ends.ite h1.handbackDone h1.chanError)

theorem Keeps.execStandStaggerExpiry (h : Keeps L s0 s) : Ends L s0 (execStandStaggerExpiry s) := Ends.ite h.openNext h

theorem Keeps.standGnoby {k : Nat} (h : Keeps L s0 s) (hl : L ≠ .calm) : Keeps L s0 (s.standGnoby k) := (h.gnoby hl).standFault

theorem Keeps.standFails {k : Nat} {c : StandCause} (h : Keeps L s0 s) (hl : L ≠ .calm) : Keeps L s0 (s.standFails k c) := by
  unfold State.standFails
  split
  · exact h.standGnoby hl
  · exact (h.raiseReg hl).standFault
  · exact (h.raiseReg hl).standFault
  · exact (h.censusFault hl).standFault

theorem Keeps.execSettleExpiry {p : PortId} (h : Keeps L s0 s) (hl : L ≠ .calm) : Ends L s0 (execSettleExpiry p s) :=
  Ends.ite h (have h1 := h.phU; Keeps.ite (h1.poolReturn hl) h1)

theorem Keeps.pgLost {p : Nat} (h : Keeps L s0 s) : Keeps L s0 (s.pgLost p) := by
  unfold State.pgLost
  extract_lets s3 s4
  have h3 : Keeps L s0 s3 := h.pvU
  have h4 : Keeps L s0 s4 := h3.keepSlot
  exact h4.writeRecord.notice.raiseLow (by decide)

theorem Keeps.execPgFall {p : PortId} (h : Keeps .held s0 s) : Ends .held s0 (execPgFall p s) :=
  Ends.ite h (
    have h1 := h.phHeld
    have h2 := Keeps.ite h1.pkU h1
    Ends.ite (((Keeps.ite (h2.poolReturn nofun) h2).holdPort nofun).pgLost) h2)

theorem Keeps.execPgRise {p : PortId} (h : Keeps L s0 s) : Ends L s0 (execPgRise p s) := Keeps.ite h.phU h

theorem Keeps.execShadowMismatch {r : CriticalReg} (h : Keeps .held s0 s) : Ends .held s0 (execShadowMismatch r s) := by
  unfold Machine.execShadowMismatch
  extract_lets s4 _ _ s5
  have h4 : Keeps .held s0 s4 := h.raiseReg nofun
  clear_value s4
  have h5 : Keeps .held s0 s5 := h4.same
  clear_value s5
  split
  · extract_lets s6
    have h6 : Keeps .held s0 s6 := (h.raiseReg nofun).holdPort nofun
    exact h6.phHeld
  · exact h.standFails nofun
  · exact h.standFails nofun
  · exact (h.raiseReg nofun).phHeld
  · exact (h.raiseReg nofun).pwU
  · exact h4.same
  · exact Ends.ite (h.standFails nofun) (Ends.ite (h.censusFault nofun) h)
  · exact ((h.raiseReg nofun).slotBad).raiseReg nofun
  · exact Keeps.ite h5.same h5
  · exact h4.sameHold

theorem Keeps.leafPart {p a : Nat} (h : Keeps L s0 s) : Keeps L s0 (s.leafPart p a) := Keeps.ite h.bump h.bump

theorem Keeps.leafWhole {p a : Nat} {data : List Byte} {rank : Nat} (h : Keeps L s0 s) : Keeps L s0 (s.leafWhole p a data rank) := by
  unfold State.leafWhole
  split
  · exact h.bump
  · exact Keeps.ite h.bump h.pgU

theorem Keeps.leafCheck {p : Nat} {i : GleanItem} (h : Keeps L s0 s) (hl : L ≠ .calm) : Keeps L s0 (s.leafCheck p i) := by
  unfold State.leafCheck
  extract_lets s2
  have h2 : Keeps L s0 s2 := h.bump.pgU
  split
  · exact h.bump
  · exact Keeps.ite h.bump (Keeps.ite h.bump (Keeps.ite h2 (h2.raise hl)))

theorem Keeps.execGleanHalfLeaf {p : PortId} {check : HopCheck} (h : Keeps L s0 s) (hl : L ≠ .calm) :
    Ends L s0 (execGleanHalfLeaf p check s) := by
  unfold Machine.execGleanHalfLeaf
  split
  · exact h
  · extract_lets s2
    have h2 : Keeps L s0 s2 := h.pgU.leafPart
    exact Ends.ite (h2.hopError hl) (Ends.ite h.pgU (h.pgU.leafCheck hl))

theorem Keeps.storeOut {c : CoreId} {x : StoreIn} (h : Keeps L s0 s) (hl : L ≠ .calm) : Keeps L s0 (s.storeOut c x) := by
  unfold State.storeOut
  split
  · exact h.memPut hl
  · exact h

theorem Keeps.landTo {c : CoreId} {n : Nat} (h : Keeps L s0 s) (hl : L ≠ .calm) : Keeps L s0 (s.landTo c n) :=
  (h.coAny hl).each (fun _ _ h2 => h2.storeOut hl)

theorem Keeps.slotTo {c : CoreId} {n : Nat} (h : Keeps L s0 s) (hl : L ≠ .calm) : Keeps L s0 (s.slotTo c n) := by
  unfold State.slotTo
  extract_lets s5
  have h5 : Keeps L s0 s5 := h.coAny hl
  split
  · extract_lets _ s6
    have h6 : Keeps L s0 s6 := h5.each (fun _ _ h7 => h7.storeOut hl)
    exact h6.each (fun _ _ h8 => h8.coAny hl)
  · exact h.landTo hl

theorem Keeps.slotsPass {c : CoreId} {n : Nat} (h : Keeps L s0 s) (hl : L ≠ .calm) : Keeps L s0 (s.slotsPass c n) := (h.slotTo hl).coAny hl

theorem Keeps.threadStops {c : CoreId} (h : Keeps L s0 s) (hl : L ≠ .calm) : Keeps L s0 (s.threadStops c) := h.coAny hl

theorem Keeps.execRuleLookupResult {p : PortId} (h : Keeps L s0 s) (hl : L ≠ .calm) : Ends L s0 (execRuleLookupResult p s) := by
  unfold Machine.execRuleLookupResult
  split
  · exact h
  · extract_lets _ _ s2
    have h2 : Keeps L s0 s2 := h.pdU
    exact h2.coAny hl

theorem During.flashKill {k : Nat} (h : During L s0 f) : During L s0 (f.flashKill k) := During.ite h (h.kept)

theorem During.die {k : Nat} (h : During L s0 f) : During L s0 (f.die k) := h.flashKill.kept

theorem During.alarm {code rank data k : Nat} (h : During L s0 f) (hl : L ≠ .calm) : During L s0 (f.alarm code rank data k) := by
  unfold Fr.alarm
  extract_lets s2
  have h2 : During L s0 s2 := (h.kept.raise hl)
  exact During.ite h (During.ite h2.die h2)

theorem During.undecided {data k : Nat} (h : During .held s0 f) : During .held s0 (f.undecided data k) := by
  unfold Fr.undecided
  extract_lets s4 s5 s6
  have h4 : During .held s0 s4 := h.die
  have h5 : During .held s0 s5 := h4.kept
  have h6 : During .held s0 s6 := h5.kept.bump
  exact During.ite h5 (h6.alarm nofun)

theorem During.filter {d : Dec} {k : Nat} (h : During L s0 f) (hl : L ≠ .calm) : During L s0 (f.filter d k) :=
  During.ite h (During.alarm h.kept hl)

theorem During.apply {d0 : Dec} {a k : Nat} (h : During .held s0 f) : During .held s0 (f.apply d0 a k) := by
  unfold Fr.apply
  extract_lets _ _ s9 s10 s11 _ s13 s14
  have h9 : During .held s0 s9 := During.ite (h.kept.bump) h
  have h10 : During .held s0 s10 := h9.die
  have h11 : During .held s0 s11 := h10.kept
  have h13 : During .held s0 s13 := h.kept
  have h14 : During .held s0 s14 := During.ite h13.flashKill h13
  exact During.ite h (During.ite h.undecided (During.ite (During.alarm h10.kept nofun) (During.ite (During.ite h11.undecided
    (h11.filter nofun)) (During.ite (h.kept.bump) (During.ite (h14.filter nofun) h14)))))

theorem During.prune {t' k : Nat} (h : During L s0 f) : During L s0 (f.prune t' k) := h.kept

theorem During.ask (h : During L s0 f) : During L s0 (f.ask) := by
  unfold Fr.ask
  split
  · exact h
  · extract_lets
    split
    · exact h
    · split
      · exact h.kept
      · exact h.kept.pushEvent

theorem During.askDue {a : Nat} (h : During L s0 f) : During L s0 (f.askDue a) := by
  unfold Fr.askDue
  split
  · exact h
  · exact During.ite h.ask h

theorem During.turn {a k : Nat} (h : During .held s0 f) : During .held s0 (f.turn a k) := by
  unfold Fr.turn
  extract_lets x2 s2
  have h2 : During .held s0 s2 := During.prune h.kept
  split
  · exact h
  · split
    · clear_value x2
      split
      · exact h2.apply
      · exact h2.undecided
    · exact h

theorem During.orphaned {k : Nat} (h : During .held s0 f) : During .held s0 (f.orphaned k) := by
  unfold Fr.orphaned
  extract_lets s2
  have h2 : During .held s0 s2 := h.kept
  exact During.ite h2.undecided h2

theorem Keeps.midEvent {p : Nat} {x : MidEvent} (h : Keeps .held s0 s) : Keeps .held s0 (midEvent p x s) := by
  unfold Machine.midEvent
  split
  · exact Keeps.ite (h.raiseReg nofun) h
  · exact h.raise nofun
  · exact Keeps.ite (h.raise nofun) h
  · exact Keeps.after h h.execPgFall
  · exact Keeps.after h h.execProbe
  · exact Keeps.after h (h.execGleanHalfLeaf nofun)
  · exact h.chanError.gnoby nofun

theorem During.mid {k : Nat} {x : MidEvent} (h : During .held s0 f) : During .held s0 (f.mid k x) := by
  unfold Fr.mid
  extract_lets _ _ s4 s5 s6
  have h4 : During .held s0 s4 := h.kept.midEvent
  have h5 : During .held s0 s5 := During.ite h4.orphaned h4
  have h6 : During .held s0 s6 := h5.die
  split
  · exact h5
  · split
    · exact h6.kept.gleanDropOf
    · exact h6

theorem During.upTo {k : Nat} (h : During .held s0 f) : During .held s0 (f.upTo k) := During.foldl h.kept (fun _ _ h1 => h1.mid)

theorem During.rest (h : During .held s0 f) : During .held s0 (f.rest) := During.foldl h.kept (fun _ _ h1 => h1.mid)

theorem Keeps.serveSlot {p : Nat} {bad : Nat → Bool} (h : Keeps L s0 s) : Keeps L s0 (s.serveSlot p bad) := by
  unfold State.serveSlot
  extract_lets
  split
  · exact h
  · split
    · exact h
    · split
      · exact h
      · exact h.pgU

theorem Keeps.serveAhead {p : Nat} {bad : Nat → Bool} (h : Keeps L s0 s) : Keeps L s0 (s.serveAhead p bad) :=
  h.foldl (fun _ _ h1 => h1.serveSlot)

theorem Keeps.wordFault {p : Nat} {x : WordFault} (h : Keeps L s0 s) (hl : L ≠ .calm) : Keeps L s0 (s.wordFault p x) := by
  unfold State.wordFault
  split
  · exact h
  · exact h.chanError.gnoby hl
  · exact h.chanError
  · exact h.chanError.holdPort hl

theorem During.newWord {d : Dec} {x k : Nat} (h : During .held s0 f) : During .held s0 (f.newWord d x k) := by
  unfold Fr.newWord
  extract_lets _ s7 s8 s9 _ _ s10 _ s11
  have h7 : During .held s0 s7 := h.kept.pgU.serveAhead
  have h8 : During .held s0 s8 := by
    unfold s8
    split
    · exact (h7.kept.wordFault nofun)
    · exact h7
  have h9 : During .held s0 s9 := During.ite h8.die h8
  have h10 : During .held s0 s10 := h9.kept.bump.pgU
  have h11 : During .held s0 s11 := by
    unfold s11
    split
    · exact h10.kept.bump.pgU
    · exact h10.kept
  split
  · extract_lets s12
    have h12 : During .held s0 s12 := h9.kept.pgU
    exact During.ite h12 (h12.kept.bump)
  · exact During.ite h11 (During.alarm h11.kept nofun)

theorem During.gleanCut (h : During L s0 f) : During L s0 (f.gleanCut) := by
  unfold Fr.gleanCut
  split
  · exact h.kept.leafPart
  · exact h

theorem During.gleanByte {d : Dec} {a : Nat} {b : Byte} {done : Bool} (h : During L s0 f) : During L s0 (f.gleanByte d a b done) := by
  unfold Fr.gleanByte
  extract_lets _ s2
  have h2 : During L s0 s2 := by
    unfold s2
    split
    · exact During.ite h h.gleanCut
    · exact h
  exact During.ite (h2.kept) (During.ite (h2.kept.leafWhole) (h2.kept.leafPart))

theorem During.pastSet {a k : Nat} (h : During .held s0 f) : During .held s0 (f.pastSet a k) := by
  unfold Fr.pastSet
  extract_lets
  split
  · exact h
  · exact During.ite (h.kept.bump) h

theorem During.byte {j : Nat} (h : During .held s0 f) : During .held s0 (f.byte j) := by
  unfold Fr.byte
  extract_lets _ _ s7 s8 s9
  have h7 : During .held s0 s7 := h.upTo
  have h8 : During .held s0 s8 := During.ite h7 h7.turn.pastSet
  have h9 : During .held s0 s9 := h8.askDue
  split
  · exact h8.gleanCut
  · split
    · exact During.ite (h8.kept) h8
    · extract_lets s10 _ s11 _ s12
      have h10 : During .held s0 s10 := During.ite h9 h9.gleanCut
      have h11 : During .held s0 s11 := During.ite h10.newWord h10
      have h12 : During .held s0 s12 := h10.kept
      exact During.ite (h10.kept) (During.ite (h10.kept) (During.ite (During.ite h11 (h11.kept)) (During.ite h12.gleanByte h12)))

theorem During.bytes {f : Fr} {m j : Nat} (h : During .held s0 f) : During .held s0 (f.bytes m j) := by
  induction m generalizing f j with
  | zero => exact h
  | succ m ih =>
    unfold Fr.bytes
    exact During.ite h (During.ite (During.ite (h.turn) h) (ih (h.byte)))

theorem During.plain {k : Nat} (h : During .held s0 f) : During .held s0 (f.plain k) := h.foldl (fun _ _ h1 => h1.byte)

theorem During.mBreach {lanes : List (BitVec 4)} (h : During .held s0 f) : During .held s0 (f.mBreach lanes) := by
  unfold Fr.mBreach
  extract_lets s3
  have h3 : During .held s0 s3 := h.upTo
  exact During.ite h3 (During.ite (During.alarm h3.kept.bump nofun) h3)

theorem During.first {eL : Nat} (h : During .held s0 f) : During .held s0 (f.first eL) := by
  unfold Fr.first
  extract_lets _ _ s2
  have h2 : During .held s0 s2 := h.upTo
  split
  · exact h2
  · split
    · exact During.ite h2 h2.apply
    · split
      · exact h2
      · split
        · exact h2.apply.askDue
        · exact h2.kept.pushEvent

theorem During.rule (h : During .held s0 f) : During .held s0 (f.rule) := by
  unfold Fr.rule
  extract_lets s2 x2
  have h2 : During .held s0 s2 := h.upTo
  split
  · exact h2
  · split
    · clear_value x2
      split
      · exact During.ite h2.apply.askDue (During.ite h2.undecided h2.apply)
      · exact During.ite h2.undecided h2
    · clear_value x2
      split
      · exact During.ite ((During.ite h2.plain h2).apply) h2
      · exact h2

theorem During.rise (h : During .held s0 f) : During .held s0 (f.rise) := by
  unfold Fr.rise
  extract_lets _ _ s4 _ s5
  have h4 : During .held s0 s4 := During.ite (h.kept.bump) h
  have h5 : During .held s0 s5 := by
    unfold s5
    split
    · exact h4
    · split
      · exact h4.apply
      · exact h4.undecided
  exact During.ite (h5.kept.bump) h5

theorem During.stopped {st : Stop} (h : During .held s0 f) : During .held s0 (f.stopped st) := by
  unfold Fr.stopped
  extract_lets
  split
  · exact h
  · exact During.alarm h.kept.bump nofun
  · exact During.alarm h.kept.bump nofun
  · exact h.die

theorem During.contBits {lanes : List (BitVec 4)} (h : During L s0 f) : Keeps L s0 (f.contBits lanes) := Keeps.ite h.kept h.kept.peU

theorem During.commit {lanes : List (BitVec 4)} (h : During L s0 f) : Keeps L s0 (f.commit lanes) := by
  unfold Fr.commit
  extract_lets _ s4 s5 s6
  have h4 : Keeps L s0 s4 := h.contBits
  have h5 : Keeps L s0 s5 := Keeps.ite h4.peU (Keeps.ite h4.peU h4)
  have h6 : Keeps L s0 s6 := Keeps.ite h.kept h5.pwU
  exact Keeps.ite h6.bump h6

theorem Keeps.frameEnd {p cls span : Nat} {out : FrameOut} (h : Keeps L s0 s) : Keeps L s0 (s.frameEnd p cls span out) := by
  unfold State.frameEnd
  extract_lets _ s3 s4
  have h3 : Keeps L s0 s3 := h.peU
  have h4 : Keeps L s0 s4 := h3.pushEvent
  exact Keeps.ite h4.takeFlip h4

theorem Keeps.trieFault {c : CoreId} (h : Keeps L s0 s) (hl : L ≠ .calm) : Keeps L s0 (s.trieFault c) :=
  ((h.threadStops hl).coAny hl).chanError

theorem During.noLeaf {lanes : List (BitVec 4)} {ended : FrameEnd} (h : During .held s0 f) : Keeps .held s0 (f.noLeaf lanes ended) := by
  unfold Fr.noLeaf
  extract_lets s3 s4
  have h3 : During .held s0 s3 := h.rest
  have h4 : Keeps .held s0 s4 := Keeps.ite h3.kept h3.kept.bump
  exact h4.frameEnd

theorem During.run {lanes : List (BitVec 4)} {eL : Nat} {st : Stop} (h : During .held s0 f) : Keeps .held s0 (f.run lanes eL st) := by
  unfold Fr.run
  extract_lets s11 _ s12 s13 s14 s15 s16 s17 _ s18 s19 s20
  have h11 : During .held s0 s11 := h.first
  have h12 : During .held s0 s12 := During.ite h11.rule.mBreach h11.mBreach.rule
  have h13 : During .held s0 s13 := During.ite h12.bytes h12
  have h14 : During .held s0 s14 := h13.upTo
  have h15 : During .held s0 s15 := h14.stopped
  have h16 : During .held s0 s16 := During.ite h15 h15.rise
  have h17 : During .held s0 s17 := h16.rest.gleanCut
  have h18 : Keeps .held s0 s18 := Keeps.ite h17.commit (Keeps.ite h17.contBits h17.kept)
  have h19 : Keeps .held s0 s19 := Keeps.ite h18.bump h18
  have h20 : Keeps .held s0 s20 := Keeps.ite h19 h19.bump
  exact h20.frameEnd

theorem Keeps.heldFrame {p : Nat} {f : FrameIn} {words : Nat} (h : Keeps .held s0 s) : Keeps .held s0 (s.heldFrame p f words) := by
  unfold State.heldFrame
  extract_lets s6 s7 s8 s9
  have h6 : Keeps .held s0 s6 := h.bump
  have h7 : Keeps .held s0 s7 := Keeps.ite h6 h6.bump
  have h8 : Keeps .held s0 s8 := h7.peU
  have h9 : Keeps .held s0 s9 := h8.each (fun _ _ h10 => h10.midEvent)
  exact Keeps.ite h9 (h9.phHeld.raiseLow (by decide))

theorem Keeps.frame {p : Nat} {f : FrameIn} {st : Stop} (h : Keeps .held s0 s) : Keeps .held s0 (s.frame p f st) := by
  unfold State.frame
  extract_lets s16 s17 _ _ s18 _ _ _ _ _ _ s19 s20 _ _ _ s21 _ s23 _ _ _ x2 s24 _ s26
  have h16 : Keeps .held s0 s16 := h.peU
  have h17 : Keeps .held s0 s17 := h16.pwU
  have h18 : Keeps .held s0 s18 := h17.pdU
  have h19 : Keeps .held s0 s19 := Keeps.ite h18 h18.bump
  have h20 : Keeps .held s0 s20 := h19.pgU
  have h21 : During .held s0 s21 := h20
  have h23 : During .held s0 s23 := During.ite (During.alarm h20.bump nofun) h21
  have h24 : During .held s0 s24 := h23.upTo.stopped
  have h26 : During .held s0 s26 := During.ite h24 (h24.kept.bump)
  split
  · exact h
  · split
    · exact h18.heldFrame
    · split
      · exact h23.upTo.stopped.noLeaf
      · clear_value x2
        split
        · exact h26.noLeaf
        · extract_lets s27 _ s28 s29 s30
          have h27 : During .held s0 s27 := h23.upTo
          have h28 : Keeps .held s0 s28 := h27.kept.pushEvent
          have h29 : Keeps .held s0 s29 := Keeps.ite h27.kept (Keeps.ite h28.pwU h28)
          have h30 : During .held s0 s30 := h29
          refine Keeps.ite (During.run ?_) h30.run
          exact During.alarm (h30.kept.trieFault nofun) nofun

theorem Keeps.execHostFrame {p : PortId} {f : FrameIn} (h : Keeps .held s0 s) : Ends .held s0 (execHostFrame p f s) := h.frame

theorem Keeps.execStallTimeout {p : PortId} {f : FrameIn} (h : Keeps .held s0 s) : Ends .held s0 (execStallTimeout p f s) :=
  Keeps.ite h h.frame

theorem Keeps.execProfileBreach {p : PortId} {f : FrameIn} (h : Keeps .held s0 s) : Ends .held s0 (execProfileBreach p f s) := h.frame

theorem Keeps.execBusyTimerExpiry {p : PortId} (h : Keeps L s0 s) : Ends L s0 (execBusyTimerExpiry p s) := h.pwU

theorem Keeps.execContExitFrame {p : PortId} (h : Keeps L s0 s) : Ends L s0 (execContExitFrame p s) := Ends.ite h.contExit h

theorem Keeps.execRebuildStart (h : Keeps L s0 s) : Ends L s0 (execRebuildStart s) :=
  Ends.ite h (Ends.ite h.same.setLine (h.same.setLine.each (fun _ _ h3 => h3.pwU)))

theorem Keeps.newSlices {p : Nat} {c : List Byte} (h : Keeps L s0 s) (hl : L ≠ .calm) : Keeps L s0 (s.newSlices p c) :=
  h.takeSlices.memPut hl

theorem Keeps.compare (h : Keeps L s0 s) (hl : L ≠ .calm) : Keeps L s0 (s.compare) := by
  unfold State.compare
  extract_lets _ s9 s10 _ s14 s15
  have h9 : Keeps L s0 s9 := h.same
  have h10 : Keeps L s0 s10 := h9.each (fun _ _ h11 => have h13 := h11.each (fun _ _ h12 => Keeps.ite h12.pwU (Keeps.ite ((h12.newSlices hl).pwU) h12.pwU)); Keeps.ite (h13.loadSequencer hl) h13)
  clear_value s10
  have h14 : Keeps L s0 s14 := h10.same.setLine
  have h15 : Keeps L s0 s15 := h14.each (fun _ _ h16 => Keeps.ite h16.takeFlip h16)
  exact h15.flipsEnd

theorem Keeps.rebuildStop (h : Keeps L s0 s) : Keeps L s0 (s.rebuildStop) := h.same.setLine

theorem Keeps.execRebuildContainer (h : Keeps L s0 s) (hl : L ≠ .calm) : Ends L s0 (execRebuildContainer s) :=
  Ends.ite h (Ends.ite h.rebuildStop (Ends.ite (h.rebuildStop.raiseLow (by decide)) (have h2 := h.same; Keeps.ite (h2.compare hl) h2)))

theorem Keeps.execGenerationFlip {p : PortId} (h : Keeps L s0 s) : Ends L s0 (execGenerationFlip p s) := Keeps.ite h.takeFlip h

theorem Keeps.catchUp {p : Nat} {c : List Byte} (h : Keeps L s0 s) (hl : L ≠ .calm) : Keeps L s0 (s.catchUp p c) :=
  ((h.newSlices hl).pwU).takeFlip

theorem Keeps.execDeferredPortUpdate {p : PortId} (h : Keeps L s0 s) (hl : L ≠ .calm) : Ends L s0 (execDeferredPortUpdate p s) :=
  Ends.ite h (Ends.ite h (Ends.ite (h.catchUp hl) (Ends.ite ((h.each (fun _ _ h1 => h1.catchUp hl)).loadSequencer hl) h)))

theorem Keeps.granAlarm {w : W32} (h : Keeps L s0 s) (hl : L ≠ .calm) : Keeps L s0 (s.granAlarm w) :=
  Keeps.ite (h.raiseReg hl) (h.raiseReg hl)

theorem Keeps.laneTest {l : Nat} {ok : Bool} (h : Keeps L s0 s) (hl : L ≠ .calm) : Keeps L s0 (s.laneTest l ok) :=
  Keeps.ite h ((h.gnoby hl).chanError)

theorem Keeps.execSelfTestSlot {u : TestUnit} {ok : Bool} (h : Keeps .held s0 s) : Ends .held s0 (execSelfTestSlot u ok s) := by
  unfold Machine.execSelfTestSlot
  split
  · exact h
  · split
    · exact h.gnoby nofun
    · exact h.raiseReg nofun
    · split
      · exact h.laneTest nofun
      · exact h
    · split
      · exact h.laneTest nofun
      · exact h
    · exact Keeps.ite ((h.gnoby nofun).chanError) h
    · exact Keeps.ite h.entryTestFailed.wakeRemap h

theorem Keeps.execLaneTestRequest {l : LaneId} {ok : Bool} (h : Keeps L s0 s) (hl : L ≠ .calm) : Ends L s0 (execLaneTestRequest l ok s) :=
  Ends.ite h.same (h.laneTest hl)

theorem Keeps.execDeferredLaneTest {l : LaneId} {ok : Bool} (h : Keeps L s0 s) (hl : L ≠ .calm) : Ends L s0 (execDeferredLaneTest l ok s) :=
  Ends.ite (h.same.laneTest hl) h

theorem Keeps.refillSpare (h : Keeps L s0 s) : Keeps L s0 (s.refillSpare) := by
  unfold State.refillSpare
  split
  · next h2 =>
      exact (h.takeGroup h2)
  · exact h.raiseLow (by decide)

theorem Keeps.stagingVoid {p : Nat} (h : Keeps L s0 s) : Keeps L s0 (s.stagingVoid p) :=
  (h.each (fun _ _ h1 => h1.xferFail)).returnGroups.pgU

theorem Keeps.pageBad {n : Nat} (h : Keeps L s0 s) (hl : L ≠ .calm) : Keeps L s0 (s.pageBad n) := by
  unfold State.pageBad
  extract_lets _ _ _ _ s3 s4
  have h3 : Keeps L s0 s3 := h.setPage.granAlarm hl
  have h4 : Keeps L s0 s4 := Keeps.ite h3.stagingVoid h3
  exact Keeps.ite h4.poolClaim.groupRetired (Keeps.ite h4.poolBack.poolClaim.groupRetired.refillSpare h4)

theorem Keeps.pageCorrected {n : Nat} (h : Keeps L s0 s) : Keeps L s0 (s.pageCorrected n) :=
  Keeps.ite h (Keeps.ite h.same.setLine h.setPage)

theorem Keeps.execScrubRead {r : ScrubResult} (h : Keeps L s0 s) (hl : L ≠ .calm) : Ends L s0 (execScrubRead r s) := by
  unfold Machine.execScrubRead
  extract_lets _ _ s3 _ _ s4
  have h3 : Keeps L s0 s3 := h.same
  clear_value s3
  have h4 : Keeps L s0 s4 := h3.same
  split
  · exact h
  · split
    · split
      · exact h3.raiseReg hl
      · exact h3
    · split
      · exact h4
      · exact h4.pageCorrected
      · exact Keeps.ite h4 (h4.pageBad hl)

theorem Keeps.markReloc {g : Nat} {v : Bool} (h : Keeps L s0 s) : Keeps L s0 (s.markReloc g v) := h.each (fun _ _ h1 => h1.setPage)

theorem Keeps.relocStart (h : Keeps L s0 s) : Keeps L s0 (s.relocStart) := by
  unfold State.relocStart
  extract_lets
  split
  · exact h
  · split
    · exact h
    · split
      · exact h.same
      · split
        · exact h
        · exact h.same.markReloc

theorem Keeps.execRelocationStart (h : Keeps L s0 s) : Ends L s0 (execRelocationStart s) := h.relocStart

theorem Keeps.execRelocationWaitExpiry (h : Keeps L s0 s) : Ends L s0 (execRelocationWaitExpiry s) := h.same.relocStart

theorem Keeps.relocDone {g new : Nat} (h : Keeps L s0 s) : Keeps L s0 (s.relocDone g new) := by
  unfold State.relocDone
  extract_lets _ s6 s7 _ _ s9 s10
  have h6 : Keeps L s0 s6 := h.granPut
  have h7 : Keeps L s0 s7 := h6.each (fun _ _ h8 => h8.setPage)
  clear_value s7
  have h9 : Keeps L s0 s9 := h7.same
  have h10 : Keeps L s0 s10 := h9.poolBack.poolClaim.groupRetired
  exact h10.refillSpare

theorem Keeps.execRelocationDone (h : Keeps L s0 s) : Ends L s0 (execRelocationDone s) := by
  unfold Machine.execRelocationDone
  extract_lets
  split
  · extract_lets s2
    have h2 : Keeps L s0 s2 := h.same
    exact (Keeps.ite h2.relocDone h2).setLine
  · exact h

theorem Keeps.execServeSlotRead {p : PortId} {addr : BitVec 28} (h : Keeps L s0 s) : Ends L s0 (execServeSlotRead p addr s) :=
  Keeps.ite h.serveSlot h

theorem Keeps.xipTouch {a : Nat} (h : Keeps L s0 s) : Keeps L s0 (s.xipTouch a) := by
  unfold State.xipTouch
  extract_lets
  split
  · exact h.same
  · exact h

theorem Keeps.xipStart {b : Bool} {a : Nat} (h : Keeps L s0 s) : Keeps L s0 (s.xipStart b a) := Keeps.ite h.same (Keeps.ite h h.same)

theorem Keeps.deviceRead {c : CoreId} {a : Nat} (h : Keeps L s0 s) : Keeps L s0 (s.deviceRead c a).2 := by
  unfold State.deviceRead
  split
  · exact h
  · exact h.operandRead
  · exact h.used

theorem Keeps.load {c : CoreId} {a size align : Nat} {f : State → List Byte → Res} (h : Keeps L s0 s)
    (hf : ∀ u bs, Keeps L s0 u → Goes L s0 (f u bs)) : Goes L s0 (s.load c a size align f) := by
  unfold State.load
  split
  · trivial
  · split
    · trivial
    · exact hf _ _ h
    · exact Goes.ite trivial (hf _ _ h)
    · exact Goes.ite trivial (hf _ _ h)
    · exact Goes.ite (hf _ _ h.deviceRead) trivial
    · split
      · exact hf _ _ h.xipTouch
      · exact h.xipStart

theorem Keeps.loadLong {c : CoreId} {a : Nat} {f : State → List Byte → Res} (h : Keeps L s0 s)
    (hf : ∀ x0 x1, Keeps L s0 x0 → Goes L s0 (f x0 x1)) :
    Goes L s0 (s.loadLong c a f) :=
  h.load (fun _ _ h1 => h1.load (fun _ _ h2 => hf _ _ h2))

theorem Keeps.store {c : CoreId} {a align : Nat} {bs : List Byte} (h : Keeps L s0 s) : Goes L s0 (s.store c a align bs) :=
  Goes.ite trivial (Goes.ite trivial (Goes.ite trivial h.coU))

theorem Keeps.doubleFault {c : CoreId} (h : Keeps L s0 s) (hl : L ≠ .calm) : Keeps L s0 (s.doubleFault c) := by
  unfold State.doubleFault
  extract_lets s2
  have h2 : Keeps L s0 s2 := h.coAny hl
  split
  · exact h2.linkRestart hl
  · exact h2.warmRestart hl

theorem Keeps.coreGnoby {c : CoreId} (h : Keeps L s0 s) (hl : L ≠ .calm) : Keeps L s0 (s.coreGnoby c) := by
  unfold State.coreGnoby
  split
  · exact h.gnoby hl
  · exact h
  · exact h.gnoby hl

theorem Keeps.faultTaken {c : CoreId} {cause : Nat} {eaddr : Option Nat} {epc : W24} {from_ : Nat} (h : Keeps L s0 s) (hl : L ≠ .calm) :
    Keeps L s0 (s.faultTaken c cause eaddr epc from_) := by
  unfold State.faultTaken
  extract_lets _ _ s4 s5 _ _ s6
  have h4 : Keeps L s0 s4 := (h.threadStops hl).coAny hl
  have h5 : Keeps L s0 s5 := h.coAny hl
  clear_value s5
  have h6 : Keeps L s0 s6 := Keeps.ite h.used h
  split
  · exact h4.chanError
  · exact h5.same.watchEntry
  · exact Keeps.ite (h.doubleFault hl) (h6.coAny hl)

theorem Keeps.faultWord {c : CoreId} {cause : Nat} {eaddr : Option Nat} {epc : W24} {from_ : Nat} (h : Keeps L s0 s) (hl : L ≠ .calm) :
    Keeps L s0 (s.faultWord c cause eaddr epc from_) :=
  Keeps.ite ((h.faultTaken hl).coreGnoby hl) (h.faultTaken hl)

theorem Keeps.issue {c : CoreId} {w : W36} {f : State → Core → Res} (h : Keeps L s0 s) (hl : L ≠ .calm)
    (hf : ∀ u k, Keeps L s0 u → Goes L s0 (f u k)) : Keeps L s0 (s.issue c w f) := by
  unfold State.issue
  extract_lets i s1 k
  have h1 : Keeps L s0 s1 := h.slotTo hl
  have fault : ∀ cause ea pc slot, Keeps L s0 (s1.faultWord c cause ea pc slot) := fun _ _ _ _ => h1.faultWord hl
  refine Keeps.ite h (Keeps.ite (fault ..) (Keeps.ite (fault ..) (Keeps.ite (fault ..) (Keeps.ite (fault ..) (Keeps.ite (fault ..)
    (Keeps.ite (fault ..) (Keeps.ite (h1.coAny hl) (Keeps.ite (fault ..) ?_))))))))
  have runs := hf s1 k h1
  split
  · exact fault ..
  · exact fault ..
  · next t e =>
    rw [e] at runs
    exact runs
  · next t jump e =>
    rw [e] at runs
    exact Keeps.coAny runs hl

theorem Keeps.result {c : CoreId} {t' : Dest} {v : W72} {dist : Nat} (h : Keeps L s0 s) : Keeps L s0 (s.result c t' v dist) := h.coU

theorem Keeps.toD {c : CoreId} {rd : BitVec 4} {v : W36} (h : Keeps L s0 s) : Goes L s0 (toD c rd v s) := h.result

theorem Keeps.toA {c : CoreId} {ad : BitVec 3} {v : W24} (h : Keeps L s0 s) : Goes L s0 (toA c ad v s) := h.result

theorem Keeps.execNop {c : CoreId} {cc : BitVec 4} (h : Keeps L s0 s) (hl : L ≠ .calm) : Ends L s0 (execNop c cc s) :=
  h.issue hl (fun _ _ h1 => h1)

theorem Keeps.execAlu {c : CoreId} {cc rd rs rt : BitVec 4} {fn : BitVec 13} (h : Keeps L s0 s) (hl : L ≠ .calm) :
    Ends L s0 (execAlu c cc rd rs rt fn s) :=
  h.issue hl (fun _ _ h1 => h1.toD)

theorem Keeps.execAddi {c : CoreId} {cc rd rs : BitVec 4} {imm : BitVec 17} (h : Keeps L s0 s) (hl : L ≠ .calm) :
    Ends L s0 (execAddi c cc rd rs imm s) :=
  h.issue hl (fun _ _ h1 => h1.toD)

theorem Keeps.execAndi {c : CoreId} {cc rd rs : BitVec 4} {imm : BitVec 17} (h : Keeps L s0 s) (hl : L ≠ .calm) :
    Ends L s0 (execAndi c cc rd rs imm s) :=
  h.issue hl (fun _ _ h1 => h1.toD)

theorem Keeps.execOri {c : CoreId} {cc rd rs : BitVec 4} {imm : BitVec 17} (h : Keeps L s0 s) (hl : L ≠ .calm) :
    Ends L s0 (execOri c cc rd rs imm s) :=
  h.issue hl (fun _ _ h1 => h1.toD)

theorem Keeps.execXori {c : CoreId} {cc rd rs : BitVec 4} {imm : BitVec 17} (h : Keeps L s0 s) (hl : L ≠ .calm) :
    Ends L s0 (execXori c cc rd rs imm s) :=
  h.issue hl (fun _ _ h1 => h1.toD)

theorem Keeps.execShfi {c : CoreId} {cc rd rs : BitVec 4} {imm : BitVec 17} (h : Keeps L s0 s) (hl : L ≠ .calm) :
    Ends L s0 (execShfi c cc rd rs imm s) :=
  h.issue hl (fun _ _ h1 => h1.toD)

theorem Keeps.execMovl {c : CoreId} {cc rd : BitVec 4} {imm : BitVec 21} (h : Keeps L s0 s) (hl : L ≠ .calm) :
    Ends L s0 (execMovl c cc rd imm s) :=
  h.issue hl (fun _ _ h1 => h1.toD)

theorem Keeps.execMovh {c : CoreId} {cc rd : BitVec 4} {imm : BitVec 21} (h : Keeps L s0 s) (hl : L ≠ .calm) :
    Ends L s0 (execMovh c cc rd imm s) :=
  h.issue hl (fun _ _ h1 => h1.toD)

theorem Keeps.execCmp {c : CoreId} {cc rs rt : BitVec 4} (h : Keeps L s0 s) (hl : L ≠ .calm) : Ends L s0 (execCmp c cc rs rt s) :=
  h.issue hl (fun _ _ h1 => h1.result)

theorem Keeps.execCmpi {c : CoreId} {cc rs : BitVec 4} {imm : BitVec 17} (h : Keeps L s0 s) (hl : L ≠ .calm) :
    Ends L s0 (execCmpi c cc rs imm s) :=
  h.issue hl (fun _ _ h1 => h1.result)

theorem Keeps.execTst {c : CoreId} {cc rs rt : BitVec 4} (h : Keeps L s0 s) (hl : L ≠ .calm) : Ends L s0 (execTst c cc rs rt s) :=
  h.issue hl (fun _ _ h1 => h1.result)

theorem Keeps.execMul {c : CoreId} {cc rd rs rt : BitVec 4} {fn : BitVec 13} (h : Keeps L s0 s) (hl : L ≠ .calm) :
    Ends L s0 (execMul c cc rd rs rt fn s) :=
  h.issue hl (fun _ _ h1 => h1.result)

theorem Keeps.execMacy {c : CoreId} {cc rd rs rt : BitVec 4} {fn : BitVec 13} (h : Keeps L s0 s) (hl : L ≠ .calm) :
    Ends L s0 (execMacy c cc rd rs rt fn s) :=
  h.issue hl (fun _ _ h1 => h1.result)

theorem Keeps.execMvy {c : CoreId} {cc rd rs rt : BitVec 4} {fn : BitVec 13} (h : Keeps L s0 s) (hl : L ≠ .calm) :
    Ends L s0 (execMvy c cc rd rs rt fn s) :=
  h.issue hl (fun _ _ h1 => Goes.ite h1.result h1.toD)

theorem Keeps.execExti {c : CoreId} {cc rd rs : BitVec 4} {imm : BitVec 17} (h : Keeps L s0 s) (hl : L ≠ .calm) :
    Ends L s0 (execExti c cc rd rs imm s) :=
  h.issue hl (fun _ _ h1 => h1.toD)

theorem Keeps.execAdda {c : CoreId} {cc rd rs : BitVec 4} {imm : BitVec 17} (h : Keeps L s0 s) (hl : L ≠ .calm) :
    Ends L s0 (execAdda c cc rd rs imm s) :=
  h.issue hl (fun _ _ h1 => h1.toA)

theorem Keeps.execMva {c : CoreId} {cc rd rs rt : BitVec 4} {fn : BitVec 13} (h : Keeps L s0 s) (hl : L ≠ .calm) :
    Ends L s0 (execMva c cc rd rs rt fn s) :=
  h.issue hl (fun _ _ h1 => Goes.ite h1.toA (Goes.ite h1.toD h1.toA))

theorem Keeps.execMova {c : CoreId} {cc : BitVec 4} {ad : BitVec 3} {imm : BitVec 22} (h : Keeps L s0 s) (hl : L ≠ .calm) :
    Ends L s0 (execMova c cc ad imm s) :=
  h.issue hl (fun _ _ h1 => h1.toA)

theorem Keeps.loadD {c : CoreId} {rg : BitVec 4} {a size align : Nat} (h : Keeps L s0 s) : Goes L s0 (loadD c rg a size align s) :=
  h.load (fun _ _ h1 => h1.result)

theorem Keeps.execLdb {c : CoreId} {cc rg : BitVec 4} {ab : BitVec 3} {off : BitVec 18} (h : Keeps L s0 s) (hl : L ≠ .calm) :
    Ends L s0 (execLdb c cc rg ab off s) :=
  h.issue hl (fun _ _ h1 => h1.loadD)

theorem Keeps.execLdh {c : CoreId} {cc rg : BitVec 4} {ab : BitVec 3} {off : BitVec 18} (h : Keeps L s0 s) (hl : L ≠ .calm) :
    Ends L s0 (execLdh c cc rg ab off s) :=
  h.issue hl (fun _ _ h1 => h1.loadD)

theorem Keeps.execLdw {c : CoreId} {cc rg : BitVec 4} {ab : BitVec 3} {off : BitVec 18} (h : Keeps L s0 s) (hl : L ≠ .calm) :
    Ends L s0 (execLdw c cc rg ab off s) :=
  h.issue hl (fun _ _ h1 => h1.loadD)

theorem Keeps.execLdf {c : CoreId} {cc rg : BitVec 4} {ab : BitVec 3} {off : BitVec 18} (h : Keeps L s0 s) (hl : L ≠ .calm) :
    Ends L s0 (execLdf c cc rg ab off s) :=
  h.issue hl (fun _ _ h1 => h1.loadD)

theorem Keeps.execLdy {c : CoreId} {cc rg : BitVec 4} {ab : BitVec 3} {off : BitVec 18} (h : Keeps L s0 s) (hl : L ≠ .calm) :
    Ends L s0 (execLdy c cc rg ab off s) :=
  h.issue hl (fun _ _ h1 => h1.loadLong (fun _ _ h2 => h2.result))

theorem Keeps.execLda {c : CoreId} {cc rg : BitVec 4} {ab : BitVec 3} {off : BitVec 18} (h : Keeps L s0 s) (hl : L ≠ .calm) :
    Ends L s0 (execLda c cc rg ab off s) :=
  h.issue hl (fun _ _ h1 => h1.load (fun _ _ h2 => h2.result))

theorem Keeps.execStb {c : CoreId} {cc rg : BitVec 4} {ab : BitVec 3} {off : BitVec 18} (h : Keeps L s0 s) (hl : L ≠ .calm) :
    Ends L s0 (execStb c cc rg ab off s) :=
  h.issue hl (fun _ _ h1 => h1.store)

theorem Keeps.execSth {c : CoreId} {cc rg : BitVec 4} {ab : BitVec 3} {off : BitVec 18} (h : Keeps L s0 s) (hl : L ≠ .calm) :
    Ends L s0 (execSth c cc rg ab off s) :=
  h.issue hl (fun _ _ h1 => h1.store)

theorem Keeps.execStw {c : CoreId} {cc rg : BitVec 4} {ab : BitVec 3} {off : BitVec 18} (h : Keeps L s0 s) (hl : L ≠ .calm) :
    Ends L s0 (execStw c cc rg ab off s) :=
  h.issue hl (fun _ _ h1 => h1.store)

theorem Keeps.execStf {c : CoreId} {cc rg : BitVec 4} {ab : BitVec 3} {off : BitVec 18} (h : Keeps L s0 s) (hl : L ≠ .calm) :
    Ends L s0 (execStf c cc rg ab off s) :=
  h.issue hl (fun _ _ h1 => h1.store)

theorem Keeps.execSty {c : CoreId} {cc rg : BitVec 4} {ab : BitVec 3} {off : BitVec 18} (h : Keeps L s0 s) (hl : L ≠ .calm) :
    Ends L s0 (execSty c cc rg ab off s) :=
  h.issue hl (fun _ _ h1 => h1.store)

theorem Keeps.execSta {c : CoreId} {cc rg : BitVec 4} {ab : BitVec 3} {off : BitVec 18} (h : Keeps L s0 s) (hl : L ≠ .calm) :
    Ends L s0 (execSta c cc rg ab off s) :=
  h.issue hl (fun _ _ h1 => h1.store)

theorem Keeps.execBr {c : CoreId} {cc : BitVec 4} {disp : BitVec 21} (h : Keeps L s0 s) (hl : L ≠ .calm) : Ends L s0 (execBr c cc disp s) :=
  h.issue hl (fun _ _ h1 => Goes.transfer h1)

theorem Keeps.branchOn {c : CoreId} {rs : BitVec 4} {disp : BitVec 21} {zero : Bool} {k : Core} (h : Keeps L s0 s) :
    Goes L s0 (branchOn c rs disp zero s k) :=
  Goes.transfer (Goes.ite trivial h)

theorem Keeps.execBz {c : CoreId} {cc rs : BitVec 4} {disp : BitVec 21} (h : Keeps L s0 s) (hl : L ≠ .calm) :
    Ends L s0 (execBz c cc rs disp s) :=
  h.issue hl (fun _ _ h1 => h1.branchOn)

theorem Keeps.execBnz {c : CoreId} {cc rs : BitVec 4} {disp : BitVec 21} (h : Keeps L s0 s) (hl : L ≠ .calm) :
    Ends L s0 (execBnz c cc rs disp s) :=
  h.issue hl (fun _ _ h1 => h1.branchOn)

theorem Keeps.execBal {c : CoreId} {cc : BitVec 4} {disp : BitVec 21} (h : Keeps L s0 s) (hl : L ≠ .calm) :
    Ends L s0 (execBal c cc disp s) :=
  h.issue hl (fun _ _ h1 => Goes.transfer h1.result)

theorem Keeps.execJr {c : CoreId} {cc rd rs rt : BitVec 4} {fn : BitVec 13} (h : Keeps L s0 s) (hl : L ≠ .calm) :
    Ends L s0 (execJr c cc rd rs rt fn s) :=
  h.issue hl (fun _ _ h1 => Goes.transfer (Goes.ite trivial (Keeps.ite h1.result h1)))

theorem Keeps.execOperandMemoryWrite {e : EngineId} {src : Agent} {word : BitVec 12} {v : W64} (h : Keeps L s0 s) :
    Ends L s0 (execOperandMemoryWrite e src word v s) :=
  Ends.ite (h.raiseLow (by decide)) (Ends.ite h.enU (Ends.ite h.enU h))

theorem Keeps.kernelBegin {e : Nat} (h : Keeps L s0 s) (hl : L ≠ .calm) : Keeps L s0 (s.kernelBegin e) := by
  unfold State.kernelBegin
  extract_lets _ s4 _ s5 _ _ s6
  have h4 : Keeps L s0 s4 := h.enU
  have h5 : Keeps L s0 s5 := h4.keyCheck hl
  have h6 : Keeps L s0 s6 := Keeps.ite h5.ksU h5.remask
  exact Keeps.ite h4 (Keeps.ite h6.enU h5.enU)

theorem Keeps.kernelStart {e : Nat} {src : Agent} {w : W32} (h : Keeps L s0 s) (hl : L ≠ .calm) : Keeps L s0 (s.kernelStart e src w) := by
  unfold State.kernelStart
  extract_lets _ _ _ s5 _ s6 s7
  have h5 : Keeps L s0 s5 := h.enU
  have h6 : Keeps L s0 s6 := Keeps.ite h.ksU h
  have h7 : Keeps L s0 s7 := h6.enU
  split
  · exact Keeps.ite h5.roleAlarm h5
  · split
    · exact h
    · extract_lets
      split
      · next h8 =>
          exact (h7.lvTake h8).kernelBegin hl
      · exact h7.lvAsk.enU

theorem Keeps.startCommand {f : KOp → Bool} {e : EngineId} {src : Agent} {w : W32} (h : Keeps L s0 s) (hl : L ≠ .calm) :
    Ends L s0 (startCommand f e src w s) := by
  unfold Machine.startCommand
  split <;> exact Ends.ite (h.kernelStart hl) h

theorem Keeps.execRsaPub {e : EngineId} {src : Agent} {w : W32} (h : Keeps L s0 s) (hl : L ≠ .calm) : Ends L s0 (execRsaPub e src w s) :=
  h.startCommand hl

theorem Keeps.execRsaPssVerify {e : EngineId} {src : Agent} {w : W32} (h : Keeps L s0 s) (hl : L ≠ .calm) :
    Ends L s0 (execRsaPssVerify e src w s) :=
  h.startCommand hl

theorem Keeps.execRsaCrt {e : EngineId} {src : Agent} {w : W32} (h : Keeps L s0 s) (hl : L ≠ .calm) : Ends L s0 (execRsaCrt e src w s) :=
  h.startCommand hl

theorem Keeps.execModmul {e : EngineId} {src : Agent} {w : W32} (h : Keeps L s0 s) (hl : L ≠ .calm) : Ends L s0 (execModmul e src w s) :=
  h.startCommand hl

theorem Keeps.execModexp {e : EngineId} {src : Agent} {w : W32} (h : Keeps L s0 s) (hl : L ≠ .calm) : Ends L s0 (execModexp e src w s) :=
  h.startCommand hl

theorem Keeps.execEcdsaVerify {e : EngineId} {src : Agent} {w : W32} (h : Keeps L s0 s) (hl : L ≠ .calm) :
    Ends L s0 (execEcdsaVerify e src w s) :=
  h.startCommand hl

theorem Keeps.execEcdsaSign {e : EngineId} {src : Agent} {w : W32} (h : Keeps L s0 s) (hl : L ≠ .calm) :
    Ends L s0 (execEcdsaSign e src w s) :=
  h.startCommand hl

theorem Keeps.execEcdh {e : EngineId} {src : Agent} {w : W32} (h : Keeps L s0 s) (hl : L ≠ .calm) : Ends L s0 (execEcdh e src w s) :=
  h.startCommand hl

theorem Keeps.execEcPubgen {e : EngineId} {src : Agent} {w : W32} (h : Keeps L s0 s) (hl : L ≠ .calm) :
    Ends L s0 (execEcPubgen e src w s) :=
  h.startCommand hl

theorem Keeps.execEd25519Verify {e : EngineId} {src : Agent} {w : W32} (h : Keeps L s0 s) (hl : L ≠ .calm) :
    Ends L s0 (execEd25519Verify e src w s) :=
  h.startCommand hl

theorem Keeps.execMldsaVerify {e : EngineId} {src : Agent} {w : W32} (h : Keeps L s0 s) (hl : L ≠ .calm) :
    Ends L s0 (execMldsaVerify e src w s) :=
  h.startCommand hl

theorem Keeps.kernelEnd {e result : Nat} (h : Keeps L s0 s) : Keeps L s0 (s.kernelEnd e result) := h.poolBack.enU.setLine

theorem Keeps.chainEnd {e : Nat} {j : ChainJob} {integrity : Bool} {done : Bool → State → State} (h : Keeps L s0 s)
    (hdone : ∀ x0 x1, Keeps L s0 x1 → Keeps L s0 (done x0 x1)) :
    Keeps L s0 (s.chainEnd e j integrity done) := by
  unfold State.chainEnd
  extract_lets s5 s6 _ s7 s8
  have h5 : Keeps L s0 s5 := h.poolBack
  have h6 : Keeps L s0 s6 := h5.enU
  clear_value s6
  have h7 : Keeps L s0 s7 := h6.same
  have h8 : Keeps L s0 s8 := by
    unfold s8
    split
    · exact Keeps.ite h7.pkU h7
    · exact h7
  split
  · exact h.enU
  · split
    · exact h8.chanError.verAgain
    · split
      · exact Keeps.ite h6.pkU h6
      · exact Keeps.ite (hdone _ _ h6) h6

theorem Keeps.taskStart {e : Nat} {src : Agent} {t' : KTask} (h : Keeps L s0 s) (hl : L ≠ .calm) : Keeps L s0 (s.taskStart e src t') :=
  (h.enU.kernelStart hl).enU

theorem Keeps.taskNext (h : Keeps L s0 s) (hl : L ≠ .calm) : Keeps L s0 (s.taskNext) := by
  unfold State.taskNext
  extract_lets
  split
  · exact h.same.taskStart hl
  · exact h

theorem Keeps.taskAsk {t' : KTask} (h : Keeps L s0 s) (hl : L ≠ .calm) : Keeps L s0 (s.taskAsk t') := h.same.taskNext hl

theorem Keeps.engineFreed (h : Keeps L s0 s) (hl : L ≠ .calm) : Keeps L s0 (s.engineFreed) := h.verStart.taskNext hl

theorem Keeps.keyResult {r : Nat} (h : Keeps L s0 s) : Keeps L s0 (s.keyResult r) := h.same

theorem Keeps.roleOr {src : KeyIssue} {n : Nat} {mayIssue : Bool} {r : Nat} {f : State} {cut : Bool} (h : Keeps L s0 s)
    (hl : L ≠ .calm) (hf : Keeps L s0 f) :
    Keeps L s0 (s.roleOr src n mayIssue r f cut) := by
  unfold State.roleOr
  split
  · exact h.keyResult.roleAlarm
  · split
    · exact h.keyResult
    · split
      · exact h.keyResult
      · split
        · exact h.keyResult
        · split
          · exact (h.keyCheck hl).keyResult
          · split
            · exact hf.keyResult
            · exact h.keyResult
            · exact h.ksU.keyResult
            · exact Keeps.ite h.keyResult hf.keyResult

theorem Keeps.keyinDone (h : Keeps L s0 s) : Keeps L s0 (s.keyinDone) := h.same

theorem Keeps.mkaRestartLane {l : Nat} (h : Keeps L s0 s) : Keeps L s0 (s.mkaRestartLane l) := (Keeps.ite h.slotEmptied.lnU h).sakChange

theorem Keeps.mkaRestart (h : Keeps L s0 s) : Keeps L s0 (s.mkaRestart) :=
  Keeps.ite h.mkaRestartLane.mkaRestartLane h.mkaRestartLane.mkaRestartLane

theorem Keeps.execKeyUnitWrite {src : KeyIssue} {slot : KeySlotId} {attr : W32} (h : Keeps L s0 s) (hl : L ≠ .calm) :
    Ends L s0 (execKeyUnitWrite src slot attr s) :=
  Ends.ite (h.roleOr hl h.place'.keyinDone.mkaRestart) (h.roleOr hl h.place'.keyinDone)

theorem Keeps.execKeyUnitGenerate {src : KeyIssue} {slot : KeySlotId} {curve : BitVec 2} {attr : W32} (h : Keeps L s0 s) (hl : L ≠ .calm) :
    Ends L s0 (execKeyUnitGenerate src slot curve attr s) :=
  Ends.ite (Keeps.ite (h.roleOr hl h.used.place') h.keyResult) (h.roleOr hl h.used.place')

theorem Keeps.execKeyUnitDerive {src : KeyIssue} {slot : KeySlotId} {parent : BitVec 6} {curve : BitVec 2} {attr : W32} {label context :
    List Byte} (h : Keeps L s0 s) (hl : L ≠ .calm) :
    Ends L s0 (execKeyUnitDerive src slot parent curve attr label context s) :=
  Ends.ite (h.roleOr hl h.place'.mkaRestart) (h.roleOr hl h.place')

theorem Keeps.execKeyUnitSetattr {src : KeyIssue} {slot : KeySlotId} {attr : W32} (h : Keeps L s0 s) (hl : L ≠ .calm) :
    Ends L s0 (execKeyUnitSetattr src slot attr s) :=
  h.roleOr hl h.ksU

theorem Keeps.execKeyUnitRead {src : KeyIssue} {slot : KeySlotId} (h : Keeps L s0 s) (hl : L ≠ .calm) :
    Ends L s0 (execKeyUnitRead src slot s) :=
  h.roleOr hl h.same

theorem Keeps.execKeyUnitClear {src : KeyIssue} {slot : KeySlotId} (h : Keeps L s0 s) (hl : L ≠ .calm) :
    Ends L s0 (execKeyUnitClear src slot s) :=
  h.roleOr hl h.ksU

theorem Keeps.execKeyUnitProvenance {src : KeyIssue} {slot : KeySlotId} {nonce : List Byte} (h : Keeps L s0 s) (hl : L ≠ .calm) :
    Ends L s0 (execKeyUnitProvenance src slot nonce s) :=
  h.roleOr hl h.same

theorem Keeps.rootGenerate {src : KeyIssue} {authorised : Bool} (h : Keeps L s0 s) (hl : L ≠ .calm) :
    Keeps L s0 (s.rootGenerate src authorised) :=
  h.roleOr hl h.same.used

theorem Keeps.rootVerified {src : Agent} {ok : Bool} (h : Keeps L s0 s) (hl : L ≠ .calm) : Keeps L s0 (s.rootVerified src ok) :=
  h.same.rootGenerate hl

theorem Keeps.execRootGenerateFunction {src : KeyIssue} (h : Keeps L s0 s) (hl : L ≠ .calm) : Ends L s0 (execRootGenerateFunction src s) :=
  Keeps.ite (h.same.verify (fun _ _ h1 => h1.rootVerified hl)) (h.rootGenerate hl)

theorem Keeps.execKeyoutExpiry (h : Keeps L s0 s) : Ends L s0 (execKeyoutExpiry s) := h.same

theorem Keeps.execSlotRemask {slot : KeySlotId} {ok : Bool} (h : Keeps L s0 s) (hl : L ≠ .calm) : Ends L s0 (execSlotRemask slot ok s) :=
  Keeps.ite h (Keeps.ite h.remask (h.slotBad.raiseReg hl))

theorem Keeps.execKeyRedraw (h : Keeps L s0 s) : Ends L s0 (execKeyRedraw s) := Keeps.ite h.drawSlotKeys h

theorem Keeps.takeWords {q n : Nat} (h : Keeps L s0 s) : Keeps L s0 (s.takeWords q n) := h.poolMove.mbU

theorem Keeps.fuseFire {src : Agent} {w : W32} (h : Keeps L s0 s) : Keeps L s0 (s.fuseFire src w) := by
  unfold State.fuseFire
  extract_lets _ _ s6
  have h6 : Keeps L s0 s6 := h.same
  clear_value s6
  split
  · exact h6.burnEnds
  · extract_lets _ _ s7 _ s8 s9
    have h7 : Keeps L s0 s7 := Keeps.ite h6.same h6
    clear_value s7
    have h8 : Keeps L s0 s8 := h7.same
    have h9 : Keeps L s0 s9 := h8.lvAsk
    clear_value s9
    split
    · exact h7.burnEnds
    · split
      · exact h7.roleAlarm.burnEnds
      · split
        · exact h7.burnEnds
        · split
          · exact h7.burnEnds
          · split
            · exact h7.burnEnds
            · split
              · exact h7.burnEnds
              · split
                · next h10 =>
                    exact (h8.lvTake h10)
                · exact h9.same

theorem Keeps.fuseDo {src : Agent} {fn unit arg : Nat} (h : Keeps L s0 s) : Keeps L s0 (s.fuseDo src fn unit arg) := h.fuseFire

theorem Keeps.execFuseArm {src : Agent} {w : W32} (h : Keeps L s0 s) : Ends L s0 (execFuseArm src w s) := by
  unfold Machine.execFuseArm
  extract_lets
  split
  · exact h
  · split
    · exact Ends.ite h.same h
    · exact h.disarm
    · exact h

theorem Keeps.execFuseArmWindowExpiry (h : Keeps L s0 s) : Ends L s0 (execFuseArmWindowExpiry s) := Keeps.ite h.disarm h

theorem Keeps.fireWord {fn : Nat} {src : Agent} {w : W32} (h : Keeps L s0 s) : Keeps L s0 (s.fireWord fn src w) := by
  unfold State.fireWord
  split
  · exact h
  · split
    · exact h
    · exact h
    · exact h.disarm
    · split
      · exact h.disarm
      · extract_lets
        exact Keeps.ite h.fuseFire h.disarm

theorem Keeps.execFuseFireBurn {src : Agent} {w : W32} (h : Keeps L s0 s) : Ends L s0 (execFuseFireBurn src w s) := h.fireWord

theorem Keeps.execFuseFireLock {src : Agent} {w : W32} (h : Keeps L s0 s) : Ends L s0 (execFuseFireLock src w s) := h.fireWord

theorem Keeps.execFuseFireAdvance {src : Agent} {w : W32} (h : Keeps L s0 s) : Ends L s0 (execFuseFireAdvance src w s) := h.fireWord

theorem Keeps.execFuseFireRevoke {src : Agent} {w : W32} (h : Keeps L s0 s) : Ends L s0 (execFuseFireRevoke src w s) := h.fireWord

theorem Keeps.execFuseFireReburn {src : Agent} {w : W32} (h : Keeps L s0 s) : Ends L s0 (execFuseFireReburn src w s) := h.fireWord

theorem Keeps.execFuseLeaveTimeout (h : Keeps L s0 s) : Ends L s0 (execFuseLeaveTimeout s) := Keeps.ite h.lvDrop.burnEnds h

theorem Keeps.copyFails {a c : Nat} (h : Keeps L s0 s) : Keeps L s0 (s.copyFails a c) := h.same.used.burnFound

theorem Keeps.burnCopies {l : List (BitVec 14 × Bool × Nat)} {ts : List (Nat × Nat)} (h : Keeps L s0 s) :
    Keeps L s0 (s.burnCopies l ts).1 := by
  induction ts generalizing s with
  | nil => exact h
  | cons t ts ih =>
    unfold State.burnCopies
    extract_lets go r
    have one : ∀ x c, Keeps L s0 x.1 → Keeps L s0 (go x c).1 := by
      intro x c hx
      unfold go
      extract_lets
      split
      · exact hx
      · split
        · exact hx.copyFails
        · exact hx.same
    have both : Keeps L s0 r.1 := one _ _ (one _ _ h)
    split
    · exact ih both
    · exact both

theorem Keeps.execFuseDone {pulses : List (BitVec 14 × Bool × Nat)} (h : Keeps L s0 s) : Ends L s0 (execFuseDone pulses s) :=
  Ends.ite h h.burnCopies.lcMoved.same.burnEnds

theorem Keeps.execLrBurnRetry (h : Keeps L s0 s) : Ends L s0 (execLrBurnRetry s) := by
  unfold Machine.execLrBurnRetry
  extract_lets
  split
  · extract_lets _ s2
    have h2 : Keeps L s0 s2 := h.same
    exact Ends.ite h2.fuseDo h
  · exact h

theorem Keeps.resenseDue {word : W32} (h : Keeps L s0 s) : Keeps L s0 (s.resenseDue word) := by
  unfold State.resenseDue
  extract_lets
  split <;> exact h.same

theorem Keeps.execFuseResense {src : Agent} (h : Keeps L s0 s) : Ends L s0 (execFuseResense src s) :=
  Ends.ite h ((Keeps.ite h.disarm h).resenseDue)

theorem Keeps.execTemperatureThresholdCrossing {inside hot : Bool} (h : Keeps L s0 s) :
    Ends L s0 (execTemperatureThresholdCrossing inside hot s) := by
  unfold Machine.execTemperatureThresholdCrossing
  extract_lets _ s3 s4
  have h3 : Keeps L s0 s3 := h.same
  have h4 : Keeps L s0 s4 := Keeps.ite (Keeps.ite h3.lvDrop.burnEnds h3.burnStop.burnEnds) h3
  exact Keeps.ite h4.resenseDue h4

theorem Keeps.finding {a : Nat} {r : Resensed} (h : Keeps L s0 s) : Keeps L s0 (s.finding a r) := by
  unfold State.finding
  extract_lets new _ s2
  have h2 : Keeps L s0 s2 := h.same
  clear_value s2
  split
  · exact Keeps.fuseAlarmLow h2.same (by decide)
  · exact Keeps.fuseAlarmLow h2.same (by decide)
  · exact Keeps.ite (h2.weakAdd.fuseAlarmLow (by split <;> decide)) h2
  · exact Keeps.ite (h2.weakAdd.fuseAlarmLow (by decide)) h2

theorem Keeps.resenseNext (h : Keeps L s0 s) : Keeps L s0 (s.resenseNext) := h.same

theorem Keeps.execResenseDone {findings : List (BitVec 14 × Resensed)} (h : Keeps L s0 s) : Ends L s0 (execResenseDone findings s) :=
  Ends.ite h (have h2 := h.each (fun _ _ h1 => h1.finding); Ends.ite h2.fuseEnds h2.resenseNext)

theorem Keeps.execLossOfSignal {l : LinkId} (h : Keeps L s0 s) (hl : L ≠ .calm) : Ends L s0 (execLossOfSignal l s) :=
  Ends.ite h ((h.laneLeave hl).lnU)

theorem Keeps.execSignalPresent {l : LinkId} (h : Keeps L s0 s) : Ends L s0 (execSignalPresent l s) := Ends.ite h h.lnU.laneTrain

theorem Keeps.execTrainingTimeout {t' : TrainEnd} (h : Keeps L s0 s) : Ends L s0 (execTrainingTimeout t' s) := by
  unfold Machine.execTrainingTimeout
  extract_lets _ x2 s4 s5 s6
  have h4 : Keeps L s0 s4 := h.lvBack
  have h5 : Keeps L s0 s5 := h4.lnU
  have h6 : Keeps L s0 s6 := by
    unfold s6
    clear_value x2
    split
    · exact h5.lnU
    · exact h5
  exact Ends.ite h h6.laneEvent.laneTrain

theorem Keeps.execBlockLock {l : LinkId} {peerRates : BitVec 6} (h : Keeps L s0 s) : Ends L s0 (execBlockLock l peerRates s) := by
  unfold Machine.execBlockLock
  extract_lets _ s2
  have h2 : Keeps L s0 s2 := h.lvBack
  split
  · exact h
  · split
    · exact h
    · exact h2.lnU.laneEvent

theorem Keeps.execBlockLockLoss {l : LinkId} (h : Keeps L s0 s) (hl : L ≠ .calm) : Ends L s0 (execBlockLockLoss l s) :=
  Ends.ite h ((h.laneLeave hl).chanError)

theorem Keeps.execMkaLive {l : LinkId} (h : Keeps L s0 s) : Ends L s0 (execMkaLive l s) := by
  unfold Machine.execMkaLive
  extract_lets _ s11 s12 s13 _ s14 _ s15 s16 _ s17 s19
  have h11 : Keeps L s0 s11 := Keeps.ite h.ksU h.remask
  have h12 : Keeps L s0 s12 := h11.drawSak
  have h13 : Keeps L s0 s13 := h12.lnU
  clear_value s13
  have h14 : Keeps L s0 s14 := h13.same
  have h15 : Keeps L s0 s15 := h14.poolGrant.lnU
  have h16 : Keeps L s0 s16 := h15.tx.laneEvent
  have h17 : Keeps L s0 s17 := h16.each (fun _ _ h18 => h18.resumeXfer)
  have h19 : Keeps L s0 s19 := h17.each (fun _ _ h20 => h20.abortFrame)
  clear_value s19
  exact Ends.ite h h19.same

theorem Keeps.execSakChangeDue {l : LinkId} (h : Keeps L s0 s) : Ends L s0 (execSakChangeDue l s) := h.sakChange

theorem Keeps.execSakChangeDone {l : LinkId} (h : Keeps L s0 s) : Ends L s0 (execSakChangeDone l s) :=
  Ends.ite h h.placeKey.slotEmptied.lnU.sakNext

theorem Keeps.execMkaLifeExpiry {l : LinkId} (h : Keeps L s0 s) (hl : L ≠ .calm) : Ends L s0 (execMkaLifeExpiry l s) :=
  Ends.ite h (h.laneLeave hl)

theorem Keeps.rxFrame {l : Nat} {h' : TrustHeader} {malformed : Bool} {f : State → State} (h : Keeps L s0 s) (hl : L ≠ .calm)
    (hf : ∀ x0, Keeps L s0 x0 → Keeps L s0 (f x0)) :
    Keeps L s0 (s.rxFrame l h' malformed f) :=
  Keeps.ite h (Keeps.ite h.laneCount (have h2 := (Keeps.ite h ((h.poolReturn hl).laneCount)).lnU;
    Keeps.ite (((h2.poolReturn hl).laneCount).grantRx) (((hf _ h2.poolMove.laneCount.lnU.txDrain).poolReturn hl).grantRx)))

theorem Keeps.rxTyped {type l : Nat} {h' : TrustHeader} {payload : List Byte} {wrong : Bool} {f : State → State} (h : Keeps L s0 s)
    (hl : L ≠ .calm) (hf : ∀ x0, Keeps L s0 x0 → Keeps L s0 (f x0)) :
    Keeps L s0 (s.rxTyped type l h' payload wrong f) :=
  Keeps.ite h (h.rxFrame hl (fun _ h1 => hf _ h1))

theorem Keeps.execHello {l : LinkId} {h' : TrustHeader} (h : Keeps L s0 s) : Ends L s0 (execHello l h' s) :=
  Ends.ite h h.lnU.txDrain.grantRx

theorem Keeps.execCredit {l : LinkId} {h' : TrustHeader} (h : Keeps L s0 s) (hl : L ≠ .calm) : Ends L s0 (execCredit l h' s) :=
  h.rxTyped hl (fun _ h1 => h1)

theorem Keeps.execCreditTimer {l : LinkId} (h : Keeps L s0 s) : Ends L s0 (execCreditTimer l s) := h.tx

theorem Keeps.execMacsecDrop {l : LinkId} {why : LinkDrop} (h : Keeps L s0 s) : Ends L s0 (execMacsecDrop l why s) :=
  Ends.ite h h.laneCount.laneEvent

theorem Keeps.execMalformedFrame {l : LinkId} {h' : TrustHeader} {payload : List Byte} (h : Keeps L s0 s) (hl : L ≠ .calm) :
    Ends L s0 (execMalformedFrame l h' payload s) :=
  Ends.ite (h.rxFrame hl (fun _ h1 => h1)) h

theorem Keeps.execObjectFrame {l : LinkId} {h' : TrustHeader} {payload : List Byte} (h : Keeps L s0 s) (hl : L ≠ .calm) :
    Ends L s0 (execObjectFrame l h' payload s) :=
  h.rxTyped hl (fun _ h1 => Keeps.ite h1 (Keeps.ite h1.xferFail (have h2 := h1.xfU;
    Keeps.ite (Keeps.getD (fun _ e => h2.stageRange e) h2.stageShort) h2)))

theorem Keeps.execObjectTimeout {xfer : W32} (h : Keeps L s0 s) : Ends L s0 (execObjectTimeout xfer s) := Ends.ite h h.xferFail

theorem Keeps.execAbortFrame {l : LinkId} {h' : TrustHeader} {payload : List Byte} (h : Keeps L s0 s) (hl : L ≠ .calm) :
    Ends L s0 (execAbortFrame l h' payload s) :=
  h.rxTyped hl (fun _ h1 => Keeps.ite h1.xferDrop h1)

theorem Keeps.execLeafFrame {l : LinkId} {h' : TrustHeader} {payload : List Byte} (h : Keeps L s0 s) (hl : L ≠ .calm) :
    Ends L s0 (execLeafFrame l h' payload s) := by
  unfold Machine.execLeafFrame
  extract_lets
  exact h.rxTyped hl (fun _ h4 => by
      extract_lets _ _ s5
      have h5 : Keeps L s0 s5 := h4.stagePut
      split
      · exact h4
      · extract_lets _ _ s6
        have h6 : Keeps L s0 s6 := h5.xfU
        exact Keeps.ite h4 (Keeps.ite h6.svcAsk h6))

theorem Keeps.execLeafVerify {xfer : W32} {i : Nat} (h : Keeps L s0 s) : Ends L s0 (execLeafVerify xfer i s) := by
  unfold Machine.execLeafVerify
  extract_lets _ _ s2
  have h2 : Keeps L s0 s2 := h.svcDone
  split
  · exact h
  · exact Ends.ite h (Ends.ite h2.xfU.pullMore h2.leafFailed)

theorem Keeps.execLeafTimeout {xfer : W32} {i : Nat} (h : Keeps L s0 s) : Ends L s0 (execLeafTimeout xfer i s) := Ends.ite h h.leafFailed

theorem Keeps.execAutonomousEntry (h : Keeps L s0 s) : Ends L s0 (execAutonomousEntry s) := Ends.ite h.same h

theorem Keeps.execTransferSuspendExpiry {xfer : W32} (h : Keeps L s0 s) : Ends L s0 (execTransferSuspendExpiry xfer s) :=
  Ends.ite h.xferFail h

theorem Keeps.execNotice (h : Keeps L s0 s) : Ends L s0 (execNotice s) := by
  unfold Machine.execNotice
  extract_lets
  split
  · exact Keeps.ite h.same.tx h
  · exact h

theorem Keeps.startImage {p : Nat} {e : Entry} {want : List Nat} (h : Keeps L s0 s) : Keeps L s0 (s.startImage p e want) := h.xferStart

theorem Keeps.recoveryToken {p : Nat} (h : Keeps L s0 s) : Keeps L s0 (s.recoveryToken p) := by
  unfold State.recoveryToken
  split
  · exact h
  · split
    · next h2 =>
        exact (h.lvTake h2).flU
    · exact h.lvAsk

theorem Keeps.flashStart {p step : Nat} {st : FlowSt} (h : Keeps .held s0 s) : Keeps .held s0 (s.flashStart p step st) := by
  unfold State.flashStart
  extract_lets _ s3 s4
  have h3 : Keeps .held s0 s3 := h.phHeld.contExit.pvU
  have h4 : Keeps .held s0 s4 := by
    unfold s4
    split
    · split
      · extract_lets
        exact h3.sendMaster
      · exact h3
    · exact h
  exact h4.peU.flU

theorem Keeps.flashStep {p step : Nat} {st : FlowSt} (h : Keeps .held s0 s) : Keeps .held s0 (s.flashStep p step st) :=
  Keeps.ite h.recoveryToken (Keeps.ite h h.flashStart)

theorem Keeps.flowRewake {p : Nat} (h : Keeps .held s0 s) : Keeps .held s0 (s.flowRewake p) :=
  Keeps.ite (Keeps.ite h.flU.wakeAsk h) (Keeps.ite h.flowEnd h)

theorem Keeps.leafReturn {p a n : Nat} (h : Keeps L s0 s) : Keeps L s0 (s.leafReturn p a n) :=
  h.each (fun _ _ h1 => Keeps.ite h1 h1.returnGroup)

theorem Keeps.flowVerified {p : Nat} {ok : Bool} (h : Keeps L s0 s) : Keeps L s0 (s.flowVerified p ok) := by
  unfold State.flowVerified
  extract_lets _ _ s4 s5 s6
  have h4 : Keeps L s0 s4 := h.flU
  have h5 : Keeps L s0 s5 := h4.xferClose.flU
  have h6 : Keeps L s0 s6 := Keeps.ite h5.stagePut h5
  exact Keeps.ite h4.xferFail (Keeps.ite h4.xferClose.flU h6.xferStart)

theorem Keeps.flowCheck {p : Nat} (h : Keeps L s0 s) : Keeps L s0 (s.flowCheck p) := by
  unfold State.flowCheck
  extract_lets
  exact h.flU.verify (fun _ _ h2 => h2.flowVerified)

theorem Keeps.flowStep {p : Nat} (h : Keeps .held s0 s) : Keeps .held s0 (s.flowStep p) := by
  unfold State.flowStep
  extract_lets _ _ s5 _ _ _ s6
  have h5 : Keeps .held s0 s5 := h
  have h6 : Keeps .held s0 s6 := h.xferClose.flU
  split
  · exact Keeps.ite h (Keeps.ite h.xferFail h.flowCheck)
  · split
    · exact h
    · split
      · exact h.xferFail
      · split
        · split
          · next h7 =>
              exact (((Keeps.bind (fun _ e => h6.stageRange e) (fun _ _ h8 e => h8.stageRange e) h7)).stagePut).startImage
          · exact h5.stageShort
        · exact h6.startImage
  · exact h.flashStep
  · exact Keeps.ite h.pullMore h.flashStep
  · exact h.flashStep
  · exact h.flashStep
  · exact Keeps.ite h.flowRewake h

theorem Keeps.execFlowReprogram {p : PortId} (h : Keeps .held s0 s) : Ends .held s0 (execFlowReprogram p s) := Keeps.ite h.flowStep h

theorem Keeps.execFlowManifestOnly {p : PortId} (h : Keeps .held s0 s) : Ends .held s0 (execFlowManifestOnly p s) := Keeps.ite h.flowStep h

theorem Keeps.setStaged {p : Nat} {x : Slot} (h : Keeps L s0 s) : Keeps L s0 (s.setStaged p x) := by
  unfold State.setStaged
  extract_lets s7 _ s8 s9 _ _ _ s12
  have h7 : Keeps L s0 s7 := h.returnGroups
  have h8 : Keeps L s0 s8 := h7.poolMove
  have h9 : Keeps L s0 s9 := h8.each (fun _ _ h10 => h10.each (fun _ _ h11 => h11.same))
  clear_value s9
  have h12 : Keeps L s0 s12 := h9.same
  exact h12.pgU.setLine

theorem Keeps.execFlowServeSet {p : PortId} (h : Keeps .held s0 s) : Ends .held s0 (execFlowServeSet p s) :=
  Ends.ite h (Ends.ite (Keeps.ite h.pullMore h.xferClose.setStaged.flU) h.flowStep)

theorem Keeps.restage {p : Nat} (h : Keeps L s0 s) : Keeps L s0 (s.restage p) := by
  unfold State.restage
  extract_lets
  split
  · exact h.flowFail
  · extract_lets
    split
    · exact h
    · next h4 =>
        extract_lets _ s5 _ s6
        have h5 : Keeps L s0 s5 := ((h.takeGroup h4).granPut).returnGroup
        clear_value s5
        have h6 : Keeps L s0 s6 := h5.same
        exact h6.xferClose.flowEnd.setLine

theorem Keeps.execFlowRestage {p : PortId} (h : Keeps L s0 s) : Ends L s0 (execFlowRestage p s) :=
  Ends.ite h (Keeps.ite h.pullMore h.flU.restage)

theorem Keeps.execFlowShelfManifest (h : Keeps .held s0 s) : Ends .held s0 (execFlowShelfManifest s) := by
  unfold Machine.execFlowShelfManifest
  extract_lets
  split
  · exact h
  · split
    · exact Keeps.ite h (Keeps.ite h.flowCheck h.xferFail)
    · exact h.flashStep
    · exact h

theorem Keeps.execFlashProgramDone {p : Option PortId} {back : List Byte} (h : Keeps .held s0 s) :
    Ends .held s0 (execFlashProgramDone p back s) := by
  unfold Machine.execFlashProgramDone
  extract_lets _ _ _ s6 _ s7 s8 s9 _ _ s10
  have h6 : Keeps .held s0 s6 := by
    unfold s6
    split <;> exact h.chanError
  have h7 : Keeps .held s0 s7 := h.leafReturn
  have h8 : Keeps .held s0 s8 := h7.flU
  have h9 : Keeps .held s0 s9 := h.corePut.flowEnd
  clear_value s9
  have h10 : Keeps .held s0 s10 := h.lvBack.phU (fun _ => by split <;> exact ⟨rfl, rfl, rfl⟩)
  split
  · exact h
  · split
    · exact Keeps.ite h6.flowFail h6.flU
    · split
      · exact (Keeps.ite h.flU h).flowFail
      · split
        · exact Keeps.ite h8.xferClose h8.pullMore
        · exact Ends.ite h9.same h10.flU
        · exact h.flU

theorem Keeps.leaveUsed {u : LvUse} {n : Nat} (h : Keeps .held s0 s) : Keeps .held s0 (s.leaveUsed u n) := by
  unfold State.leaveUsed
  extract_lets
  split
  · exact h.kernelBegin nofun
  · exact h.enU
  · exact h.wakeGranted
  · exact h.same
  · exact h.lnU.laneEvent
  · exact h.flU
  · exact h.canopyGranted nofun
  · exact h.canopyGranted nofun
  · exact h.linkGranted nofun
  · exact h.seedGranted nofun
  · exact h

theorem Keeps.execLeaveGrant (h : Keeps .held s0 s) : Ends .held s0 (execLeaveGrant s) := by
  unfold Machine.execLeaveGrant
  extract_lets
  split
  · exact h
  · extract_lets s2
    have h2 : Keeps .held s0 s2 := h.same
    exact h2.lvGrant.leaveUsed

theorem Keeps.boxFrozen {q : Nat} (h : Keeps L s0 s) : Keeps L s0 (s.boxFrozen q) :=
  (h.each (fun _ _ h1 => Keeps.ite h1.poolBack.poolBack h1)).boxDrop.mbU

theorem Keeps.poolFrozen {q : Nat} (h : Keeps L s0 s) (hl : L ≠ .calm) : Keeps L s0 (s.poolFrozen q) :=
  Keeps.ite (h.raiseReg hl) (Keeps.ite h.standFault (Keeps.ite h.boxFrozen h))

theorem Keeps.execReconciliationDone {q : BitVec 8} (h : Keeps .held s0 s) : Ends .held s0 (execReconciliationDone q s) :=
  Ends.ite h (
    have h6 := (((h.poAny.each (fun _ _ h1 => h1.logRec)).each (fun _ _ h3 => h3.poolBack)).censusAlarm nofun).each (fun _ _ h5 => h5.poolClaim)
    have h7 := Keeps.ite (h6.poolFrozen nofun) (Keeps.ite h6.runtimeDraw h6)
    Keeps.ite h7.boxReady h7)

theorem Keeps.execPoolTotalChange {k : StandId} (h : Keeps L s0 s) : Ends L s0 (execPoolTotalChange k s) := by
  unfold Machine.execPoolTotalChange
  extract_lets
  split
  · exact Ends.ite h.poU h
  · exact h

theorem Keeps.canopyLoad {c : Nat} {b : Bundle} (h : Keeps L s0 s) (hl : L ≠ .calm) : Keeps L s0 (s.canopyLoad c b) := by
  unfold State.canopyLoad
  extract_lets s4
  have h4 : Keeps L s0 s4 := h.coresOff hl
  split
  · exact h4
  · extract_lets s5
    have h5 : Keeps L s0 s5 := h4.memPut hl
    split
    · next h6 =>
        exact (h5.lvTake h6).startCore hl
    · exact h5.lvAsk.coAny hl

theorem Keeps.handoverEnd {result : Nat} (h : Keeps L s0 s) : Keeps L s0 (s.handoverEnd result) := h.same

theorem Keeps.handoverLoad (h : Keeps L s0 s) (hl : L ≠ .calm) : Keeps L s0 (s.handoverLoad) :=
  Keeps.ite ((h.canopyLoad hl).same) ((h.canopyLoad hl).handoverEnd)

theorem Keeps.execServiceLaneJob (h : Keeps L s0 s) (hl : L ≠ .calm) : Ends L s0 (execServiceLaneJob s) := by
  unfold Machine.execServiceLaneJob
  split
  · exact Keeps.ite h.svcDone h
  · exact h.svcDone.handoverLoad hl
  · exact h

theorem Keeps.handoverAnswer {q status : Nat} (h : Keeps L s0 s) : Keeps L s0 (s.handoverAnswer q status) := Keeps.ite h.respond h

theorem Keeps.handoverChecked {q : Nat} {ok : Bool} (h : Keeps L s0 s) (hl : L ≠ .calm) : Keeps L s0 (s.handoverChecked q ok) :=
  Keeps.ite h.same.handoverAnswer (have h2 := (h.coresOff hl).same; (Keeps.ite h2.svcAsk (h2.handoverLoad hl)).handoverAnswer)

theorem Keeps.handoverCheck {q : Nat} {x : Slot} (h : Keeps L s0 s) (hl : L ≠ .calm) : Keeps L s0 (s.handoverCheck q x) := by
  unfold State.handoverCheck
  extract_lets _ s4 _ s5
  have h4 : Keeps L s0 s4 := h.mbU
  clear_value s4
  have h5 : Keeps L s0 s5 := h4.same
  exact h5.verify (fun _ _ h6 => h6.handoverChecked hl)

theorem Keeps.handoverFlip (h : Keeps L s0 s) (hl : L ≠ .calm) : Keeps L s0 (s.handoverFlip) := by
  unfold State.handoverFlip
  extract_lets s4 s5
  have h4 : Keeps L s0 s4 := Keeps.ite h.disarm h
  have h5 : Keeps L s0 s5 := h4.each (fun _ _ h6 => Keeps.ite h6.mbU h6)
  clear_value s5
  exact Keeps.ite h ((h5.sameHome hl).setLine)

theorem Keeps.execHandoverReady (h : Keeps L s0 s) (hl : L ≠ .calm) : Ends L s0 (execHandoverReady s) := by
  unfold Machine.execHandoverReady
  extract_lets s3
  have h3 : Keeps L s0 s3 := h.each (fun _ _ h4 => Keeps.ite h4.mbU h4)
  clear_value s3
  split
  · exact h3.same
  · exact h.handoverFlip hl
  · exact h

theorem Keeps.execHandoverReadyTimeout (h : Keeps L s0 s) (hl : L ≠ .calm) : Ends L s0 (execHandoverReadyTimeout s) :=
  Ends.ite h ((h.lvDrop.canopyLoad hl).handoverEnd)

theorem Keeps.execHandoverReload (h : Keeps L s0 s) (hl : L ≠ .calm) : Ends L s0 (execHandoverReload s) :=
  Ends.ite h ((h.canopyLoad hl).same)

theorem Keeps.execTagPass (h : Keeps L s0 s) (hl : L ≠ .calm) : Ends L s0 (execTagPass s) :=
  Ends.ite h (have h2 := h.tagRegion.same; Keeps.ite h2 (h2.linkRestart hl))

theorem Keeps.execSupplyGlitch {x : GlitchSupply} (h : Keeps L s0 s) (hl : L ≠ .calm) : Ends L s0 (execSupplyGlitch x s) :=
  Ends.ite h (h.raiseReg hl)

theorem Keeps.execBankSupplyExcursion {x : BankSupply} (h : Keeps L s0 s) (hl : L ≠ .calm) : Ends L s0 (execBankSupplyExcursion x s) := by
  unfold Machine.execBankSupplyExcursion
  split
  · exact h
  · split
    · exact Keeps.ite (h.raiseReg hl) (h.bankFails hl)
    · exact h

theorem Keeps.execDieTemperatureAlarm {t' : TempAlarm} (h : Keeps L s0 s) (hl : L ≠ .calm) : Ends L s0 (execDieTemperatureAlarm t' s) :=
  Ends.ite h (h.raiseReg hl)

theorem Keeps.execThreadWatchdogExpiry {k : SheafId} {t' : Fin 8} (h : Keeps L s0 s) (hl : L ≠ .calm) :
    Ends L s0 (execThreadWatchdogExpiry k t' s) :=
  Ends.ite (((h.raiseReg hl).threadStops hl).chanError) h

theorem Keeps.execCoincidenceWindowClose (h : Keeps L s0 s) : Ends L s0 (execCoincidenceWindowClose s) := h.same

theorem Keeps.execAlarmNormalTimer {seq : W32} (h : Keeps L s0 s) (hl : L ≠ .calm) : Ends L s0 (execAlarmNormalTimer seq s) := by
  unfold Machine.execAlarmNormalTimer
  extract_lets
  split
  · exact h
  · extract_lets
    exact h.sameHome hl

theorem Keeps.cellClear {rank : Nat} (h : Keeps L s0 s) : Keeps L s0 (s.cellClear rank) := h.same

theorem Keeps.levelBad {code : Nat} {normal : Option Nat} (h : Keeps L s0 s) : Keeps L s0 (s.levelBad code normal) := h.same

theorem Keeps.backupTrip {code data : Nat} {normal : Option Nat} (h : Keeps L s0 s) (hl : L ≠ .calm) :
    Keeps L s0 (s.backupTrip code data normal) := by
  unfold State.backupTrip
  extract_lets _ s5 _ _ s6 _ s7 s8
  have h5 : Keeps L s0 s5 := h.levelBad
  have h6 : Keeps L s0 s6 := h5.dataUsed
  clear_value s6
  have h7 : Keeps L s0 s7 := h6.same
  have h8 : Keeps L s0 s8 := h7.backupLog
  exact Keeps.ite h5 (Keeps.ite (Keeps.ite h8.cellClear h8) (Keeps.ite (h7.raise hl) (h7.backupLog.raise hl)))

theorem Keeps.tickLevel {code data : Nat} {bad : Bool} (h : Keeps L s0 s) (hl : L ≠ .calm) : Keeps L s0 (s.tickLevel code data bad) :=
  Keeps.ite (h.backupTrip hl) h.same

theorem Keeps.execBackupTick {mesh : BitVec 4} {tempBad : Bool} (h : Keeps L s0 s) (hl : L ≠ .calm) :
    Ends L s0 (execBackupTick mesh tempBad s) := by
  unfold Machine.execBackupTick
  extract_lets _ s5 s6 s8
  have h5 : Keeps L s0 s5 := h.same
  have h6 : Keeps L s0 s6 := h5.each (fun _ _ h7 => h7.tickLevel hl)
  have h8 : Keeps L s0 s8 := h6.tickLevel hl
  clear_value s8
  exact Ends.ite h h8.same

theorem Keeps.execCaseSwitchChange {n : Fin 2} {level : Bool} (h : Keeps L s0 s) (hl : L ≠ .calm) :
    Ends L s0 (execCaseSwitchChange n level s) :=
  Ends.ite h (have h1 := h.same; Ends.ite h1.same (h1.backupTrip hl))

theorem Keeps.execVbatGlitch (h : Keeps L s0 s) (hl : L ≠ .calm) : Ends L s0 (execVbatGlitch s) := Ends.ite (h.backupTrip hl) h

theorem Keeps.execClock32Loss (h : Keeps L s0 s) (hl : L ≠ .calm) : Ends L s0 (execClock32Loss s) := Ends.ite (h.backupTrip hl) h

theorem Keeps.logPut {kind : Nat} {body : List Byte} (h : Keeps .held s0 s) : Keeps .held s0 (s.logPut kind body) :=
  Keeps.ite h h.homePut.same

theorem Keeps.logCarry {k : Nat} {prev : List Byte} {epoch flags : Nat} (h : Keeps .held s0 s) :
    Keeps .held s0 (s.logCarry k prev epoch flags) :=
  h.same.logPut

theorem Keeps.segChange (h : Keeps .held s0 s) : Keeps .held s0 (s.segChange) :=
  ((Keeps.ite h h.logPut).logCarry.each (fun _ _ h3 => h3.logPut)).same

theorem Keeps.logRoom (h : Keeps .held s0 s) (e : s.logRoom = some t) : Keeps .held s0 t := by
  unfold State.logRoom at e
  split at e
  · cases e
  · split at e
    · cases e
      exact h
    · split at e
      · cases e
        exact h.segChange
      · cases e

theorem Keeps.execSegmentErase (h : Keeps .held s0 s) : Ends .held s0 (execSegmentErase s) := by
  unfold Machine.execSegmentErase
  split
  · extract_lets s2
    have h2 : Keeps .held s0 s2 := h.homeErase
    clear_value s2
    exact Ends.ite h2.same h
  · exact h

theorem Keeps.nextRecord {r : LogRec} (h : Keeps L s0 s) (e : s.nextRecord = some (r, t)) : Keeps L s0 t := by
  unfold State.nextRecord at e
  split at e
  · cases e
    exact Keeps.ite (Keeps.setLine h.same) h.same
  · cases e
    exact h.same
  · split at e
    · cases e
      exact h.same
    · cases e

theorem Keeps.execLogAppend {ok : Bool} (h : Keeps .held s0 s) : Ends .held s0 (execLogAppend ok s) := by
  unfold Machine.execLogAppend
  split
  · exact h
  · split
    · exact h
    · next h3 =>
        split
        · exact (h.logRoom h3)
        · next h4 =>
            exact (((h.logRoom h3).nextRecord h4)).logPut

theorem Keeps.backupClear {w : W128} {t' : List W128} (h : Keeps L s0 s) : Keeps L s0 (s.backupClear w t') := h.same

theorem Keeps.execBackupLogDrain (h : Keeps .held s0 s) : Ends .held s0 (execBackupLogDrain s) := by
  unfold Machine.execBackupLogDrain
  split
  · exact h
  · split
    · split
      · exact h.mend.backupClear.parityAlarm
      · split
        · exact h
        · next h4 =>
            exact ((h.logRoom h4).logPut).backupClear
    · split
      · exact h
      · split
        · exact h
        · next h5 =>
            extract_lets s6
            have h6 : Keeps .held s0 s6 := (h.logRoom h5).logPut
            clear_value s6
            exact h6.same

theorem Keeps.logTake {k epoch first : Nat} {x : Scan} {stop : Nat} (h : Keeps L s0 s) : Keeps L s0 (s.logTake k epoch first x stop) :=
  h.same

theorem Keeps.execLogScan (h : Keeps .held s0 s) : Ends .held s0 (execLogScan s) := by
  unfold Machine.execLogScan
  extract_lets _ s4
  have h4 : Keeps .held s0 s4 := h.same
  split
  · exact h
  · split
    · exact h4.raiseReg nofun
    · extract_lets _ _ _ _ _ s5 s6
      have h5 : Keeps .held s0 s5 := h.logTake
      have h6 : Keeps .held s0 s6 := Keeps.ite h5.logPut h5
      exact Ends.ite (h4.raiseReg nofun) (Ends.ite h.logTake (h6.raiseReg nofun))

theorem Keeps.rsLatch {a : Nat} (h : Keeps L s0 s) : Keeps L s0 (s.rsLatch a) := h.each (fun _ _ h1 => h1.same)

theorem Keeps.windowTake {a : Nat} (h : Keeps L s0 s) : Keeps L s0 (s.windowTake a).1 := by
  unfold State.windowTake
  split
  · exact h.rsLatch
  · exact h.same

theorem Keeps.windowPut {a : Nat} {v : W32} (h : Keeps L s0 s) : Keeps L s0 (s.windowPut a v) := by
  unfold State.windowPut
  extract_lets
  split
  · exact h.same
  · exact Keeps.ite h.same (Keeps.ite h.pgU h.same)

theorem Keeps.mspiCount {i : Nat} (h : Keeps L s0 s) : Keeps L s0 (s.mspiCount i) := h.same.maxNote

theorem Keeps.lastResult {r : Nat} (h : Keeps L s0 s) : Keeps L s0 (s.lastResult r) := h.same

theorem Keeps.mspiBad {ctr result : Nat} (h : Keeps L s0 s) : Keeps L s0 (s.mspiBad ctr result) := h.mspiCount.lastResult

theorem Keeps.mspiSilent (h : Keeps L s0 s) : Keeps L s0 (s.mspiSilent) := h.same

theorem Keeps.mspiIgnored (h : Keeps L s0 s) : Keeps L s0 (s.mspiIgnored) := h.mspiBad.mspiSilent

theorem Keeps.hostError {e : Nat} (h : Keeps L s0 s) : Keeps L s0 (s.hostError e) := Keeps.ite h.mspiBad h.mspiBad

theorem Keeps.returns {ws : List W32} {crc : W32} {clocked : Nat} (h : Keeps L s0 s) : Keeps L s0 (s.returns ws crc clocked) := h.same

theorem Keeps.execMspiIgnoredFrame {cmd : Byte} (h : Keeps L s0 s) : Ends L s0 (execMspiIgnoredFrame cmd s) := Keeps.ite h h.mspiIgnored

theorem Keeps.execMspiWriteWords {m : MspiIn} (h : Keeps L s0 s) : Ends L s0 (execMspiWriteWords m s) := by
  unfold Machine.execMspiWriteWords
  extract_lets _ _ _ s3
  have h3 : Keeps L s0 s3 := h.same
  split
  · exact h
  · split
    · exact h3.mspiBad
    · split
      · exact h3.hostError
      · extract_lets s4
        have h4 : Keeps L s0 s4 := h3.poolMove.mbU
        exact Ends.ite h3.mspiBad (Ends.ite h3.mspiBad ((Keeps.ite h4.setLine h4).lastResult))

theorem Keeps.mspiAck {q : Nat} (h : Keeps L s0 s) : Keeps L s0 (s.mspiAck q) := Keeps.ite (Keeps.ite h.mbU h) h.poolMove.same.boxFlush

theorem Keeps.crcSettle (h : Keeps L s0 s) : Keeps L s0 (s.crcSettle) := h.same

theorem Keeps.mspiHigh (h : Keeps L s0 s) : Keeps L s0 (s.mspiHigh) := h.mspiCount.mspiSilent

theorem Keeps.mspiDeliver {addr : W24} {q max clocked : Nat} {ended : Bool} (h : Keeps L s0 s) :
    Keeps L s0 (s.mspiDeliver addr q max clocked ended) :=
  h.mbU.returns.crcSettle

theorem Keeps.mspiRead {addr : W24} {clocked : Nat} {ended : Bool} (h : Keeps L s0 s) : Keeps L s0 (s.mspiRead addr clocked ended) :=
  Keeps.ite h.same ((Keeps.ite h.mspiAck h).mspiDeliver)

theorem Keeps.execMspiReadWords {addr : W24} {clocked : Nat} (h : Keeps L s0 s) : Ends L s0 (execMspiReadWords addr clocked s) :=
  Ends.ite h (Ends.ite h.mspiHigh h.mspiRead)

theorem Keeps.execMspiStatus {clocked : Nat} (h : Keeps L s0 s) : Ends L s0 (execMspiStatus clocked s) := Ends.ite h h.returns

theorem Keeps.execMspiIdentityRead {clocked : Nat} (h : Keeps L s0 s) : Ends L s0 (execMspiIdentityRead clocked s) := Ends.ite h h.same

theorem Keeps.windowWords {a n : Nat} {seen zero : Bool} (h : Keeps L s0 s) : Keeps L s0 (s.windowWords a seen zero n).1 := by
  induction n generalizing s a seen zero with
  | zero => exact h
  | succ n ih =>
    unfold State.windowWords
    extract_lets hit r w
    have first : Keeps L s0 r.1 := by
      unfold r
      split
      · exact h
      · exact h.windowTake
    exact ih first

theorem Keeps.windowFrame {addr : W24} {clocked : Nat} (h : Keeps L s0 s) : Keeps L s0 (s.windowFrame addr clocked) := h.windowWords.returns

theorem Keeps.execRegisterWindowRead {addr : W24} {clocked : Nat} (h : Keeps L s0 s) : Ends L s0 (execRegisterWindowRead addr clocked s) :=
  Ends.ite h (Ends.ite h.mspiIgnored (Ends.ite h.mspiHigh h.windowFrame))

theorem Keeps.execRegisterWindowWrite {m : MspiIn} (h : Keeps L s0 s) : Ends L s0 (execRegisterWindowWrite m s) := by
  unfold Machine.execRegisterWindowWrite
  extract_lets
  split
  · exact h
  · split
    · exact h.mspiIgnored
    · split
      · exact h.mspiBad
      · split
        · exact h.hostError
        · exact (h.each (fun _ _ h2 => h2.windowPut)).lastResult

theorem Keeps.execRsLatchRead {addr : W24} (h : Keeps L s0 s) : Ends L s0 (execRsLatchRead addr s) := Ends.ite h.windowTake.returns h

theorem Keeps.mspiCut {cmd : Byte} {addr : W24} {clocked : Nat} (h : Keeps L s0 s) : Keeps L s0 (s.mspiCut cmd addr clocked) :=
  Keeps.ite h.same (Keeps.ite (Keeps.ite h.mspiRead h.mspiSilent) (Keeps.ite (Keeps.ite h.windowFrame h.mspiSilent) h))

theorem Keeps.execMspiStall {x : StallIn} (h : Keeps L s0 s) : Ends L s0 (execMspiStall x s) := by
  unfold Machine.execMspiStall
  extract_lets s2
  have h2 : Keeps L s0 s2 := by
    unfold s2
    split
    · exact h.mspiCut
    · exact h
  exact Ends.ite h (Keeps.ite h2.mspiBad h2.mspiCount)

theorem Keeps.abortMerge (h : Keeps L s0 s) : Keeps L s0 (s.abortMerge) := h.same

theorem Keeps.abortPke {e : Nat} (h : Keeps L s0 s) : Keeps L s0 (s.abortPke e) := Keeps.ite h (Keeps.ite h.abortMerge h.abortEngine)

theorem Keeps.abortLane {l : Nat} (h : Keeps L s0 s) : Keeps L s0 (s.abortLane l) := by
  unfold State.abortLane
  extract_lets _ _ s2
  have h2 : Keeps L s0 s2 := h.used
  split
  · split
    · exact h2.pkU
    · exact h2
  · split
    · exact h.svcFails
    · split
      · exact h
      · extract_lets
        split
        · exact h2.pgU.bump
        · exact h2

theorem Keeps.abortPort {p : Nat} {f : Option FrameIn} (h : Keeps .held s0 s) : Keeps .held s0 (s.abortPort p f) := by
  unfold State.abortPort
  extract_lets s4 _ s5 s6
  have h4 : Keeps .held s0 s4 := by
    unfold s4
    split
    · exact Keeps.ite h.frame h
    · exact h
  have h5 : Keeps .held s0 s5 := Keeps.ite h4.pkU h4
  have h6 : Keeps .held s0 s6 := Keeps.ite h5.phHeld h5
  exact h6.flowFail

theorem Keeps.abortThread {t' : Nat} (h : Keeps L s0 s) (hl : L ≠ .calm) : Keeps L s0 (s.abortThread t') :=
  Keeps.ite h ((h.restartThread hl).pdU)

theorem Keeps.abortLinkLane {l : Nat} (h : Keeps L s0 s) (hl : L ≠ .calm) : Keeps L s0 (s.abortLinkLane l) :=
  Keeps.ite h (have h1 := h.laneLeave hl; (Keeps.ite h1 (h1.each (fun _ _ h2 => h2.xfU))).laneTrain)

theorem Keeps.abortBox {q : Nat} (h : Keeps L s0 s) : Keeps L s0 (s.abortBox q) :=
  Keeps.ite h (have h1 := h.boxEmpty; (Keeps.ite h1.fuseStop h1).boxReady.poolMove.mbU)

theorem Keeps.abortOne {f : Option FrameIn} {x : Nat × Nat} (h : Keeps .held s0 s) : Keeps .held s0 (s.abortOne f x) := by
  unfold State.abortOne
  split
  · exact h.abortPke
  · exact h.abortLane
  · exact h.abortPort
  · exact h.abortThread nofun
  · exact h.abortLinkLane nofun
  · exact h.abortBox
  · exact h

theorem Keeps.abortDo {fn i : Nat} {f : Option FrameIn} {again : Bool} (h : Keeps .held s0 s) : Keeps .held s0 (s.abortDo fn i f again) :=
  (h.each (fun _ _ h1 => Keeps.ite h1.abortMerge h1.abortOne)).same

theorem Keeps.abortFrameIn {m : MspiIn} {f : Option FrameIn} (h : Keeps .held s0 s) : Keeps .held s0 (s.abortFrameIn m f) := by
  unfold State.abortFrameIn
  extract_lets
  split
  · exact h.mspiIgnored
  · split
    · exact h.mspiBad
    · split
      · exact h.hostError
      · exact Keeps.ite h.mspiBad h.abortDo.lastResult

theorem Keeps.abortCommand {mine : Nat → Bool} {m : MspiIn} {f : Option FrameIn} (h : Keeps .held s0 s) :
    Ends .held s0 (abortCommand mine m f s) :=
  Ends.ite h h.abortFrameIn

theorem Keeps.execAbortPke {m : MspiIn} (h : Keeps .held s0 s) : Ends .held s0 (execAbortPke m s) := h.abortCommand

theorem Keeps.execAbortLane {m : MspiIn} (h : Keeps .held s0 s) : Ends .held s0 (execAbortLane m s) := h.abortCommand

theorem Keeps.execAbortPort {m : MspiIn} {f : Option FrameIn} (h : Keeps .held s0 s) : Ends .held s0 (execAbortPort m f s) := h.abortCommand

theorem Keeps.execAbortThread {m : MspiIn} (h : Keeps .held s0 s) : Ends .held s0 (execAbortThread m s) := h.abortCommand

theorem Keeps.execAbortLink {m : MspiIn} (h : Keeps .held s0 s) : Ends .held s0 (execAbortLink m s) := h.abortCommand

theorem Keeps.execAbortMailbox {m : MspiIn} (h : Keeps .held s0 s) : Ends .held s0 (execAbortMailbox m s) := h.abortCommand

theorem Keeps.execRequestTimeout {mb : MailboxId} (h : Keeps L s0 s) : Ends L s0 (execRequestTimeout mb s) := by
  unfold Machine.execRequestTimeout
  extract_lets
  split
  · exact h
  · exact Ends.ite h h.takeWords.mbU.respond

theorem Keeps.execObjectBufferTimeout (h : Keeps L s0 s) : Ends L s0 (execObjectBufferTimeout s) := h.same

theorem Keeps.execHomePortFrameComplete (h : Keeps L s0 s) : Ends L s0 (execHomePortFrameComplete s) := h.setLine

theorem Keeps.messageLine {cores : List Nat} (h : Keeps L s0 s) : Keeps L s0 (s.messageLine cores) := h.each (fun _ _ h1 => h1.coU)

theorem Keeps.execRegisterWrite {src : Agent} {r : DevReg} {v : W32} (h : Keeps L s0 s) (hl : L ≠ .calm) :
    Ends L s0 (execRegisterWrite src r v s) := by
  unfold Machine.execRegisterWrite
  extract_lets _ s4 _ s5
  have h4 : Keeps L s0 s4 := Keeps.ite h.disarm h
  clear_value s4
  have h5 : Keeps L s0 s5 := h4.same
  split
  · extract_lets s6
    have h6 : Keeps L s0 s6 := h.enU
    exact Ends.ite h (Keeps.ite h6.setLine h6)
  · exact Ends.ite h (Keeps.ite h5.setLine h5)
  · exact Ends.ite h h4.same
  · exact Ends.ite h.roleAlarm (Ends.ite h.same h)
  · exact Ends.ite h.roleAlarm (Ends.ite (Keeps.ite h.stU h.standRefuses) h)
  · exact h
  · exact Ends.ite (h4.sameHome hl) h
  · exact Ends.ite h.roleAlarm (Ends.ite h.poolMove.mbU h)
  · split
    · exact h.messageLine
    · exact h.messageLine
    · exact h.messageLine
    · exact h

theorem Keeps.answer {q status : Nat} {ws : List W32} (h : Keeps L s0 s) : Keeps L s0 (s.answer q status ws) := h.respond

theorem Keeps.takeRequest {q h' n : Nat} (h : Keeps L s0 s) : Keeps L s0 (s.takeRequest q h' n) := by
  unfold State.takeRequest
  extract_lets s3 _ s4
  have h3 : Keeps L s0 s3 := h.takeWords.mbU
  clear_value s3
  have h4 : Keeps L s0 s4 := h3.same
  exact Keeps.ite h4 h4.setLine

theorem Keeps.parityBad {q h' n : Nat} (h : Keeps L s0 s) : Keeps L s0 (s.parityBad q h' n) := h.takeRequest.answer.parityAlarm

theorem Keeps.command {mb : MailboxId} {code : Nat} {states : List DevState} {mb0 : Bool} {len : Nat → Bool} {run : Nat → List W32 →
    State → State} (h : Keeps L s0 s) (hrun : ∀ x0 x1 x2, Keeps L s0 x2 → Keeps L s0 (run x0 x1 x2)) :
    Ends L s0 (s.command mb code states mb0 len run) := by
  unfold State.command
  extract_lets
  split
  · exact h
  · extract_lets s2
    have h2 : Keeps L s0 s2 := h.takeRequest
    exact Keeps.ite h.parityBad (Keeps.ite (hrun _ _ _ h2) h2.answer)

theorem Keeps.shentiha {mb : MailboxId} {code : Nat} {mb0 : Bool} {len : Nat → Bool} {run : Nat → List W32 → State → State}
    (h : Keeps L s0 s) (hrun : ∀ x0 x1 x2, Keeps L s0 x2 → Keeps L s0 (run x0 x1 x2)) :
    Ends L s0 (s.shentiha mb code mb0 len run) :=
  h.command (fun _ _ _ h1 => hrun _ _ _ h1)

theorem Keeps.homeFailed {q a n : Nat} (h : Keeps .held s0 s) : Keeps .held s0 (s.homeFailed q a n) :=
  h.corePut.used.chanError.logRec.answer

theorem Keeps.homeProgram {q a i : Nat} {ws : List W32} {ok : Bool} (h : Keeps .held s0 s) : Keeps .held s0 (s.homeProgram q a i ws ok) :=
  Keeps.ite h.corePut.homeSends.answer h.homeFailed

theorem Keeps.execCmdGetInfo {mb : MailboxId} (h : Keeps L s0 s) : Ends L s0 (execCmdGetInfo mb s) := h.shentiha (fun _ _ _ h1 => h1.answer)

theorem Keeps.execCmdSetMspi {mb : MailboxId} (h : Keeps L s0 s) : Ends L s0 (execCmdSetMspi mb s) :=
  h.shentiha (fun _ _ _ h1 => Keeps.ite h1.answer h1.answer.same)

theorem Keeps.execCmdWarmRestart {mb : MailboxId} (h : Keeps L s0 s) (hl : L ≠ .calm) : Ends L s0 (execCmdWarmRestart mb s) :=
  h.shentiha (fun _ _ _ h1 => Keeps.ite (h1.warmRestart hl) h1.answer)

theorem Keeps.execCmdAbort {mb : MailboxId} {x : AbortIn} (h : Keeps .held s0 s) : Ends .held s0 (execCmdAbort mb x s) :=
  h.shentiha (fun _ _ _ h1 => Keeps.ite h1.answer h1.abortDo.answer)

theorem Keeps.execCmdObjectOpen {mb : MailboxId} (h : Keeps L s0 s) : Ends L s0 (execCmdObjectOpen mb s) :=
  h.shentiha (fun _ _ _ h1 => Keeps.ite h1.answer (Keeps.ite h1.answer (Keeps.ite h1.answer h1.same.answer)))

theorem Keeps.execCmdObjectWrite {mb : MailboxId} (h : Keeps L s0 s) : Ends L s0 (execCmdObjectWrite mb s) :=
  h.shentiha (fun _ _ _ h1 => Keeps.ite h1.answer (Keeps.ite h1.answer h1.same.answer))

theorem Keeps.execCmdObjectClose {mb : MailboxId} (h : Keeps L s0 s) : Ends L s0 (execCmdObjectClose mb s) :=
  h.shentiha (fun _ _ _ h1 => Keeps.ite h1.same.answer h1.answer)

theorem Keeps.closeObject {q : Nat} (h : Keeps L s0 s) : Keeps L s0 (s.closeObject q) := Keeps.ite h.same h

theorem Keeps.consume {q kind : Nat} {f : List Byte → State → State} (h : Keeps L s0 s)
    (hf : ∀ x0 x1, Keeps L s0 x1 → Keeps L s0 (f x0 x1)) :
    Keeps L s0 (s.consume q kind f) := by
  unfold State.consume
  split
  · exact hf _ _ h.closeObject
  · exact h.closeObject.answer

theorem Keeps.callVerify {q code : Nat} {ws : List W32} {obj : List Byte} {job : VerUse → ChainJob} {done : Bool → State → State}
    (h : Keeps L s0 s) (hdone : ∀ x0 x1, Keeps L s0 x1 → Keeps L s0 (done x0 x1)) :
    Keeps L s0 (s.callVerify q code ws obj job done) :=
  h.mbU.verify (fun _ _ h1 => hdone _ _ h1)

theorem Keeps.callTaken {q : Nat} (h : Keeps L s0 s) : Keeps L s0 (s.callTaken q) := h.mbU

theorem Keeps.policySubmitted {q : Nat} {ok : Bool} (h : Keeps .held s0 s) : Keeps .held s0 (s.policySubmitted q ok) :=
  Keeps.ite h.answer (Keeps.ite h.answer h.takePolicy.coreErase.corePut.same.answer)

theorem Keeps.execCmdPolicySubmit {mb : MailboxId} (h : Keeps .held s0 s) : Ends .held s0 (execCmdPolicySubmit mb s) :=
  h.shentiha (fun _ _ _ h1 => h1.consume (fun _ _ h2 => Keeps.ite h2.answer (Keeps.ite h2.answer
    (h2.callVerify (fun _ _ h3 => h3.policySubmitted)))))

theorem Keeps.execCmdWakeStart {mb : MailboxId} (h : Keeps .held s0 s) : Ends .held s0 (execCmdWakeStart mb s) :=
  h.shentiha (fun _ _ _ h1 => Keeps.ite h1.answer (Keeps.ite h1.answer h1.wakeAsk.answer))

theorem Keeps.execCmdRewake {mb : MailboxId} (h : Keeps .held s0 s) : Ends .held s0 (execCmdRewake mb s) :=
  h.shentiha (fun _ _ _ h1 => Keeps.ite h1.answer (Keeps.ite h1.answer (Keeps.ite h1.answer h1.wakeAsk.answer)))

theorem Keeps.dispense {p x : Nat} {c : List Byte} (h : Keeps L s0 s) : Keeps L s0 (s.dispense p x c) :=
  h.pvU.keepSlot.voidPinsOf.phU.writeRecord.logRec

theorem Keeps.dispensed {q : Nat} {ok : Bool} (h : Keeps L s0 s) : Keeps L s0 (s.dispensed q ok) := by
  unfold State.dispensed
  extract_lets
  split
  · exact h.dispense.answer
  · exact h.answer

theorem Keeps.execCmdDispensation {mb : MailboxId} (h : Keeps L s0 s) : Ends L s0 (execCmdDispensation mb s) :=
  h.shentiha (fun _ _ _ h1 => h1.consume (fun _ _ h2 => Keeps.ite h2.answer (h2.callVerify (fun _ _ h3 => h3.dispensed))))

theorem Keeps.execCmdGetVerdicts {mb : MailboxId} (h : Keeps L s0 s) : Ends L s0 (execCmdGetVerdicts mb s) :=
  h.shentiha (fun _ _ _ h1 => Keeps.ite h1.answer h1.answer)

theorem Keeps.execCmdGetMeasurement {mb : MailboxId} (h : Keeps L s0 s) : Ends L s0 (execCmdGetMeasurement mb s) :=
  h.shentiha (fun _ _ _ h1 => Keeps.ite h1.answer h1.answer)

theorem Keeps.execCmdRevocationPrecheck {mb : MailboxId} (h : Keeps L s0 s) : Ends L s0 (execCmdRevocationPrecheck mb s) :=
  h.shentiha (fun _ _ _ h1 => Keeps.ite h1.answer h1.same.answer)

theorem Keeps.execCmdClearHold {mb : MailboxId} (h : Keeps L s0 s) : Ends L s0 (execCmdClearHold mb s) :=
  h.shentiha (fun _ _ _ h1 => have h5 := (h1.each (fun _ _ h2 => h2.standRefuses)).each (fun _ _ h4 => h4.phU);
    Keeps.ite h5.answer h5.answer)

theorem Keeps.execCmdPortStatus {mb : MailboxId} (h : Keeps L s0 s) : Ends L s0 (execCmdPortStatus mb s) :=
  h.shentiha (fun _ _ _ h1 => Keeps.ite h1.answer h1.answer)

theorem Keeps.execCmdHomeErase {mb : MailboxId} (h : Keeps .held s0 s) : Ends .held s0 (execCmdHomeErase mb s) :=
  h.shentiha (fun _ _ _ h1 => Keeps.ite h1.answer (Keeps.ite h1.answer h1.coreErase.answer))

theorem Keeps.execCmdHomeWrite {mb : MailboxId} {ok : Bool} (h : Keeps .held s0 s) : Ends .held s0 (execCmdHomeWrite mb ok s) :=
  h.shentiha (fun _ _ _ h1 => Keeps.ite h1.answer h1.homeProgram)

theorem Keeps.execCmdAlarmList {mb : MailboxId} (h : Keeps L s0 s) : Ends L s0 (execCmdAlarmList mb s) :=
  h.shentiha (fun _ _ _ h1 => h1.answer)

theorem Keeps.execCmdAlarmAck {mb : MailboxId} (h : Keeps L s0 s) : Ends L s0 (execCmdAlarmAck mb s) :=
  h.shentiha (fun _ _ _ h1 => Keeps.ite h1.answer (Keeps.ite h1.answer h1.same.answer))

theorem Keeps.execCmdAlarmRank {mb : MailboxId} (h : Keeps L s0 s) : Ends L s0 (execCmdAlarmRank mb s) := by
  unfold Machine.execCmdAlarmRank
  exact h.shentiha (fun _ _ _ h3 => by
      extract_lets
      split
      · exact h3.answer
      · split
        · exact h3.answer
        · extract_lets s4
          have h4 : Keeps L s0 s4 := Keeps.ite h3.same h3.same
          exact h4.answer)

theorem Keeps.execCmdLogStatus {mb : MailboxId} (h : Keeps L s0 s) : Ends L s0 (execCmdLogStatus mb s) :=
  h.shentiha (fun _ _ _ h1 => h1.answer)

theorem Keeps.execCmdLogRead {mb : MailboxId} (h : Keeps L s0 s) : Ends L s0 (execCmdLogRead mb s) :=
  h.shentiha (fun _ _ _ h1 => Keeps.ite h1.answer h1.answer)

theorem Keeps.execCmdLogOwner {mb : MailboxId} (h : Keeps .held s0 s) : Ends .held s0 (execCmdLogOwner mb s) := by
  unfold Machine.execCmdLogOwner
  exact h.shentiha fun _ _ u hu => by
    extract_lets n
    split
    · exact hu.answer
    · split
      · exact hu.answer
      · split
        · exact hu.answer
        · next v e =>
          split at e
          · exact (hu.logRoom e).logPut.answer
          · cases e

theorem Keeps.logRestart (h : Keeps .held s0 s) : Keeps .held s0 (s.logRestart) := h.homeErase.same.logCarry

theorem Keeps.logRestarted {q : Nat} {ok : Bool} (h : Keeps .held s0 s) : Keeps .held s0 (s.logRestarted q ok) :=
  Keeps.ite h.answer (Keeps.ite h.answer h.logRestart.answer)

theorem Keeps.execCmdLogRestart {mb : MailboxId} (h : Keeps .held s0 s) : Ends .held s0 (execCmdLogRestart mb s) :=
  h.shentiha (fun _ _ _ h1 => h1.consume (fun _ _ h2 => Keeps.ite h2.answer (Keeps.ite h2.answer
    (h2.callVerify (fun _ _ h3 => h3.logRestarted)))))

theorem Keeps.keyAnswer {q : Nat} {ws : List W32} (h : Keeps L s0 s) : Keeps L s0 (s.keyAnswer q ws) := h.answer

theorem Keeps.keyinSet {ws : List W32} (h : Keeps L s0 s) : Keeps L s0 (s.keyinSet ws) := h.same

theorem Keeps.execCmdKeyWrite {mb : MailboxId} (h : Keeps L s0 s) (hl : L ≠ .calm) : Ends L s0 (execCmdKeyWrite mb s) :=
  h.shentiha (fun _ _ _ h1 => Keeps.ite h1.answer (have h2 := h1.keyinSet; (Keeps.after h2 (h2.execKeyUnitWrite hl)).keyAnswer))

theorem Keeps.execCmdKeyGenerate {mb : MailboxId} (h : Keeps L s0 s) (hl : L ≠ .calm) : Ends L s0 (execCmdKeyGenerate mb s) :=
  h.shentiha (fun _ _ _ h1 => Keeps.ite h1.answer ((Keeps.after h1 (h1.execKeyUnitGenerate hl)).keyAnswer))

theorem Keeps.execCmdKeyDerive {mb : MailboxId} (h : Keeps L s0 s) (hl : L ≠ .calm) : Ends L s0 (execCmdKeyDerive mb s) :=
  h.shentiha (fun _ _ _ h1 => Keeps.ite h1.answer ((Keeps.after h1 (h1.execKeyUnitDerive hl)).keyAnswer))

theorem Keeps.execCmdKeySetattr {mb : MailboxId} (h : Keeps L s0 s) (hl : L ≠ .calm) : Ends L s0 (execCmdKeySetattr mb s) :=
  h.shentiha (fun _ _ _ h1 => Keeps.ite h1.answer ((Keeps.after h1 (h1.execKeyUnitSetattr hl)).keyAnswer))

theorem Keeps.execCmdKeyRead {mb : MailboxId} (h : Keeps L s0 s) (hl : L ≠ .calm) : Ends L s0 (execCmdKeyRead mb s) :=
  h.shentiha (fun _ _ _ h1 => Keeps.ite h1.answer (have h2 := Keeps.after h1 (h1.execKeyUnitRead hl); (Keeps.ite h2.same h2).keyAnswer))

theorem Keeps.execCmdKeyClear {mb : MailboxId} (h : Keeps L s0 s) (hl : L ≠ .calm) : Ends L s0 (execCmdKeyClear mb s) :=
  h.shentiha (fun _ _ _ h1 => Keeps.ite h1.answer ((Keeps.after h1 (h1.execKeyUnitClear hl)).keyAnswer))

theorem Keeps.execCmdKeyInfo {mb : MailboxId} (h : Keeps L s0 s) : Ends L s0 (execCmdKeyInfo mb s) :=
  h.shentiha (fun _ _ _ h1 => Keeps.ite h1.answer h1.answer)

theorem Keeps.provAnswer {q : Nat} {body : List Byte} {status : Nat} {ws : List W32} (h : Keeps L s0 s) :
    Keeps L s0 (s.provAnswer q body status ws) :=
  Keeps.ite h.answer h

theorem Keeps.provSign {q : Nat} {body pub : List Byte} (h : Keeps L s0 s) (hl : L ≠ .calm) : Keeps L s0 (s.provSign q body pub) :=
  h.taskAsk hl

theorem Keeps.execCmdKeyProvenance {mb : MailboxId} (h : Keeps L s0 s) (hl : L ≠ .calm) : Ends L s0 (execCmdKeyProvenance mb s) :=
  h.shentiha (fun _ _ _ h1 => Keeps.ite h1.answer (
    have h2 := Keeps.after h1 (h1.execKeyUnitProvenance hl)
    Keeps.ite h2.keyAnswer (Keeps.ite h2.answer (Keeps.ite h2.answer (have h3 := h2.mbU; Keeps.ite (h3.taskAsk hl) (h3.provSign hl))))))

theorem Keeps.rootGenerated {q : Nat} {ok : Bool} (h : Keeps L s0 s) (hl : L ≠ .calm) : Keeps L s0 (s.rootGenerated q ok) :=
  Keeps.ite h.answer ((h.rootGenerate hl).keyAnswer)

theorem Keeps.execCmdRootGenerate {mb : MailboxId} (h : Keeps L s0 s) (hl : L ≠ .calm) : Ends L s0 (execCmdRootGenerate mb s) :=
  h.shentiha (fun _ _ _ h1 => Keeps.ite (h1.consume (fun _ _ h2 => Keeps.ite h2.answer
    (h2.callVerify (fun _ _ h3 => h3.rootGenerated hl)))) (h1.rootGenerated hl))

theorem Keeps.execCmdIdentity {mb : MailboxId} (h : Keeps L s0 s) : Ends L s0 (execCmdIdentity mb s) := by
  unfold Machine.execCmdIdentity
  exact h.shentiha (fun _ _ _ h2 => by
      extract_lets
      split
      · exact Keeps.ite h2.answer h2.answer
      · exact Keeps.ite h2.answer h2.answer
      · exact Keeps.ite h2.answer h2.answer
      · exact h2.answer)

theorem Keeps.fuseFor {q code : Nat} (h : Keeps L s0 s) : Keeps L s0 (s.fuseFor q code) := h.same

theorem Keeps.fuseCmd {q code : Nat} {src : Agent} {fn unit a : Nat} (h : Keeps L s0 s) : Keeps L s0 (s.fuseCmd q code src fn unit a) :=
  Keeps.ite h.answer h.fuseFor.fuseDo

theorem Keeps.grantFuse {fn unit : Nat} (h : Keeps L s0 s) : Keeps L s0 (s.grantFuse fn unit) := h.same

theorem Keeps.fuseRun {q code : Nat} {ws : List W32} (h : Keeps L s0 s) : Keeps L s0 (s.fuseRun q code ws) :=
  Keeps.ite ((Keeps.ite h.same h).fuseCmd) (Keeps.ite h.fuseCmd h.fuseCmd)

theorem Keeps.fuseVerified {q : Nat} {ok : Bool} (h : Keeps L s0 s) : Keeps L s0 (s.fuseVerified q ok) := by
  unfold State.fuseVerified
  extract_lets _ _ s2
  have h2 : Keeps L s0 s2 := h.callTaken
  exact Keeps.ite h2.answer (Keeps.ite h2.answer h2.grantFuse.fuseRun)

theorem Keeps.fuseAuthorised {q fn a code : Nat} {ws : List W32} (h : Keeps L s0 s) : Keeps L s0 (s.fuseAuthorised q fn a code ws) :=
  h.consume (fun _ _ h1 => Keeps.ite h1.answer (Keeps.ite h1.answer (h1.callVerify (fun _ _ h2 => h2.fuseVerified))))

theorem Keeps.execCmdFuseBurn {mb : MailboxId} (h : Keeps L s0 s) : Ends L s0 (execCmdFuseBurn mb s) :=
  h.shentiha (fun _ _ _ h1 => Keeps.ite h1.answer (Keeps.ite h1.answer (Keeps.ite h1.answer (Keeps.ite h1.fuseAuthorised h1.fuseRun))))

theorem Keeps.execCmdFuseLock {mb : MailboxId} (h : Keeps L s0 s) : Ends L s0 (execCmdFuseLock mb s) :=
  h.shentiha (fun _ _ _ h1 => Keeps.ite h1.answer (Keeps.ite h1.answer (Keeps.ite h1.fuseAuthorised h1.fuseRun)))

theorem Keeps.execCmdFuseAdvance {mb : MailboxId} (h : Keeps L s0 s) : Ends L s0 (execCmdFuseAdvance mb s) :=
  h.shentiha (fun _ _ _ h1 => Keeps.ite h1.answer (Keeps.ite h1.answer h1.fuseCmd))

theorem Keeps.execCmdFuseRevoke {mb : MailboxId} (h : Keeps L s0 s) : Ends L s0 (execCmdFuseRevoke mb s) :=
  h.shentiha (fun _ _ _ h1 => Keeps.ite h1.answer (Keeps.ite h1.answer (Keeps.ite h1.answer h1.fuseCmd)))

theorem Keeps.execCmdFuseReburn {mb : MailboxId} (h : Keeps L s0 s) : Ends L s0 (execCmdFuseReburn mb s) :=
  h.shentiha (fun _ _ _ h1 => Keeps.ite h1.answer (Keeps.ite h1.answer h1.fuseCmd))

theorem Keeps.execCmdFuseResense {mb : MailboxId} (h : Keeps L s0 s) : Ends L s0 (execCmdFuseResense mb s) :=
  h.shentiha (fun _ _ _ h1 => Keeps.ite h1.answer h1.fuseFor.resenseDue)

theorem Keeps.execCmdFuseRead {mb : MailboxId} (h : Keeps L s0 s) : Ends L s0 (execCmdFuseRead mb s) := by
  unfold Machine.execCmdFuseRead
  exact h.shentiha (fun _ _ _ h2 => by
      extract_lets
      split
      · exact Keeps.ite h2.answer h2.answer
      · exact Keeps.ite h2.answer h2.answer
      · exact Keeps.ite h2.answer h2.answer
      · exact Keeps.ite h2.answer h2.answer
      · exact h2.answer)

theorem Keeps.execCmdLcAdvance {mb : MailboxId} (h : Keeps L s0 s) : Ends L s0 (execCmdLcAdvance mb s) :=
  h.shentiha (fun _ _ _ h1 => Keeps.ite h1.answer (Keeps.ite h1.answer (Keeps.ite h1.fuseAuthorised h1.fuseRun)))

theorem Keeps.execCmdHandoverPrepare {mb : MailboxId} (h : Keeps L s0 s) (hl : L ≠ .calm) : Ends L s0 (execCmdHandoverPrepare mb s) :=
  h.shentiha (fun _ _ _ h1 => Keeps.ite h1.answer (Keeps.ite h1.answer (Keeps.ite h1.answer (Keeps.ite h1.answer (h1.handoverCheck hl)))))

theorem Keeps.execCmdHandoverStatus {mb : MailboxId} (h : Keeps L s0 s) : Ends L s0 (execCmdHandoverStatus mb s) :=
  h.shentiha (fun _ _ _ h1 => h1.answer)

theorem Keeps.reinstated {k : ChannelKind} {i : Nat} (h : Keeps .held s0 s) : Keeps .held s0 (s.reinstated k i) := by
  unfold State.reinstated
  extract_lets _ s2
  have h2 : Keeps .held s0 s2 := h.chU.shU
  split
  · exact h.chU.enU
  · exact h.chU.lnU
  · exact (h.chU.holdPort nofun).phHeld
  · exact ((h.chU.holdPort nofun).phHeld).pgU
  · exact Keeps.ite (Keeps.after h2 (h2.execScheduleContainerLoad nofun)) h.chU
  · exact h.chU

theorem Keeps.execCmdReinstate {mb : MailboxId} {probes : BitVec 3} (h : Keeps .held s0 s) :
    Ends .held s0 (execCmdReinstate mb probes s) := by
  unfold Machine.execCmdReinstate
  exact h.shentiha (fun _ _ _ h3 => by
      split
      · exact h3.answer
      · extract_lets _ _ s4
        have h4 : Keeps .held s0 s4 := h3.reinstated.logRec
        exact Keeps.ite h3.answer (Keeps.ite h3.answer (Keeps.ite h3.answer h4.answer)))

theorem Keeps.execCmdChannelStatus {mb : MailboxId} (h : Keeps L s0 s) : Ends L s0 (execCmdChannelStatus mb s) := by
  unfold Machine.execCmdChannelStatus
  exact h.shentiha (fun _ _ _ h2 => by
      split <;> exact h2.answer)

theorem Keeps.slotErase {q : Nat} {ws : List W32} {guard_ : Slot → Nat} (h : Keeps .held s0 s) : Keeps .held s0 (s.slotErase q ws guard_) :=
  Keeps.ite h.answer (Keeps.ite h.answer (Keeps.ite h.answer h.coreErase.answer))

theorem Keeps.slotWrite {q : Nat} {ws : List W32} {ok : Bool} {guard_ : Slot → Nat} (h : Keeps .held s0 s) :
    Keeps .held s0 (s.slotWrite q ws ok guard_) :=
  Keeps.ite h.answer (Keeps.ite h.answer h.homeProgram)

theorem Keeps.execCmdBundleErase {mb : MailboxId} (h : Keeps .held s0 s) : Ends .held s0 (execCmdBundleErase mb s) :=
  h.shentiha (fun _ _ _ h1 => h1.slotErase)

theorem Keeps.execCmdBundleWrite {mb : MailboxId} {ok : Bool} (h : Keeps .held s0 s) : Ends .held s0 (execCmdBundleWrite mb ok s) :=
  h.shentiha (fun _ _ _ h1 => h1.slotWrite)

theorem Keeps.execCmdRepairList {mb : MailboxId} (h : Keeps L s0 s) : Ends L s0 (execCmdRepairList mb s) :=
  h.command (fun _ _ _ h1 => Keeps.ite h1.answer (Keeps.ite h1.answer h1.answer))

theorem Keeps.execCmdRepairReburn {mb : MailboxId} (h : Keeps L s0 s) : Ends L s0 (execCmdRepairReburn mb s) :=
  h.command (fun _ _ _ h1 => Keeps.ite h1.answer (Keeps.ite h1.answer (Keeps.ite h1.answer h1.fuseCmd)))

theorem Keeps.execCmdLoadErase {mb : MailboxId} (h : Keeps .held s0 s) : Ends .held s0 (execCmdLoadErase mb s) :=
  h.command (fun _ _ _ h1 => h1.slotErase)

theorem Keeps.execCmdLoadWrite {mb : MailboxId} {ok : Bool} (h : Keeps .held s0 s) : Ends .held s0 (execCmdLoadWrite mb ok s) :=
  h.command (fun _ _ _ h1 => h1.slotWrite)

theorem Keeps.loadGood {x : Slot} (h : Keeps L s0 s) (hl : L ≠ .calm) : Keeps L s0 (s.loadGood x) := by
  unfold State.loadGood
  extract_lets s5 _ _ s7 s8
  have h5 : Keeps L s0 s5 := h.each (fun _ _ h6 => h6.boxEmpty)
  clear_value s5
  have h7 : Keeps L s0 s7 := ((h5.loadImages hl).tagRegion).deriveDeviceId
  have h8 : Keeps L s0 s8 := h7.deriveAlias hl
  clear_value s8
  exact Keeps.ite (h5.sameHome hl) (h8.sameHome hl)

theorem Keeps.execCmdLoadCommit {mb : MailboxId} (h : Keeps L s0 s) (hl : L ≠ .calm) : Ends L s0 (execCmdLoadCommit mb s) := by
  unfold Machine.execCmdLoadCommit
  exact h.command (fun _ _ _ h4 => by
      extract_lets
      split
      · exact h4.answer
      · split
        · exact h4.answer
        · next h5 =>
            extract_lets s6
            have h6 : Keeps L s0 s6 := (h4.seedDraw h5).seedReturn
            exact Keeps.ite (h6.loadGood hl) h6.answer)

theorem Keeps.factory {af : Bool} (h : Keeps L s0 s) : Keeps L s0 (s.factory af) := h.same.used.lcMoved

theorem Keeps.execCmdVendorProductionService {mb : MailboxId} (h : Keeps L s0 s) : Ends L s0 (execCmdVendorProductionService mb s) := by
  unfold Machine.execCmdVendorProductionService
  extract_lets
  split
  · exact h
  · extract_lets s3
    have h3 : Keeps L s0 s3 := h.takeRequest
    split
    · exact h.parityBad
    · split
      · exact h3.answer
      · split
        · exact h3.answer
        · split
          · extract_lets s4
            have h4 : Keeps L s0 s4 := by
              unfold s4
              split
              · exact Keeps.ite h3.factory h3
              · exact h3
            exact h4.answer
          · exact h3.answer

theorem Keeps.execUnknownCommandCode {mb : MailboxId} (h : Keeps L s0 s) : Ends L s0 (execUnknownCommandCode mb s) := by
  unfold Machine.execUnknownCommandCode
  extract_lets
  split
  · exact h
  · exact Keeps.ite h.parityBad h.takeRequest.answer

theorem Keeps.execCmdPageMap {mb : MailboxId} (h : Keeps L s0 s) : Ends L s0 (execCmdPageMap mb s) :=
  h.shentiha (fun _ _ _ h1 => Keeps.ite h1.answer h1.answer)

theorem Keeps.flowBegin {key : Nat} {a : RecoverArg} {slot : Slot} {step total : Nat} (h : Keeps L s0 s) :
    Keeps L s0 (s.flowBegin key a slot step total) :=
  h.flU

theorem Keeps.flowStarted {q key : Nat} (h : Keeps L s0 s) : Keeps L s0 (s.flowStarted q key) := h.answer

theorem Keeps.serveStage {a : RecoverArg} (h : Keeps L s0 s) (e : s.serveStage a = some t) : Keeps L s0 t := by
  unfold State.serveStage at e
  extract_lets at e
  split at e
  · exact Keeps.bind (fun _ e => h.stageRange e) (fun _ _ hu e => hu.stageRange e) e
  · exact h.stageRange e

theorem Keeps.recover {q : Nat} {a : RecoverArg} (h : Keeps L s0 s) : Keeps L s0 (s.recover q a) := by
  unfold State.recover
  extract_lets _ _ _ _ s7 s8 _ s9
  have h7 : Keeps L s0 s7 := h.flowBegin
  have h8 : Keeps L s0 s8 := Keeps.ite h7.flU h7
  have h9 : Keeps L s0 s9 := h.lastGoodCheck
  split
  · exact h.answer
  · split
    · exact h.answer
    · split
      · split
        · exact h.answer
        · split
          · exact h.answer
          · next h10 =>
              extract_lets s11
              have h11 : Keeps L s0 s11 := (h8.serveStage h10).pgU
              exact h11.xferStart.flowStarted
      · split
        · exact h.answer
        · extract_lets s12
          have h12 : Keeps L s0 s12 := h.flowBegin
          exact h12.xferStart.flowStarted
      · exact h.flowBegin.xferStart.flowStarted
      · exact Keeps.ite h9.answer h9.flowBegin.xferStart.flowStarted

theorem Keeps.execCmdRecover {mb : MailboxId} (h : Keeps L s0 s) : Ends L s0 (execCmdRecover mb s) :=
  h.shentiha (fun _ _ _ h1 => Keeps.ite h1.recover h1.answer)

theorem Keeps.execCmdRecoverStatus {mb : MailboxId} (h : Keeps L s0 s) : Ends L s0 (execCmdRecoverStatus mb s) :=
  h.shentiha (fun _ _ _ h1 => Keeps.ite h1.answer h1.answer)

theorem Keeps.execCmdRecoverCancel {mb : MailboxId} (h : Keeps L s0 s) : Ends L s0 (execCmdRecoverCancel mb s) :=
  h.shentiha (fun _ _ _ h1 => Keeps.ite h1.answer ((Keeps.ite h1.flU h1.flowFail).answer))

theorem Keeps.execCmdLinkPeer {mb : MailboxId} (h : Keeps L s0 s) : Ends L s0 (execCmdLinkPeer mb s) :=
  h.shentiha (fun _ _ _ h1 => Keeps.ite h1.answer h1.same.answer)

theorem Keeps.execCmdLinkCak {mb : MailboxId} (h : Keeps L s0 s) (hl : L ≠ .calm) : Ends L s0 (execCmdLinkCak mb s) :=
  h.shentiha (fun _ _ _ h1 => Keeps.ite h1.answer (Keeps.ite h1.answer (
    have h3 := Keeps.ite (have h2 := h1.keyinSet; Keeps.after h2 (h2.execKeyUnitWrite hl)) (Keeps.after h1 (h1.execKeyUnitDerive hl))
    Keeps.ite h3.keyAnswer h3.same.answer)))

theorem Keeps.execCmdLinkStatus {mb : MailboxId} (h : Keeps L s0 s) : Ends L s0 (execCmdLinkStatus mb s) :=
  h.shentiha (fun _ _ _ h1 => h1.answer)

theorem Keeps.spdmReply {l x : Nat} {m : List Byte} (h : Keeps L s0 s) : Keeps L s0 (s.spdmReply l x m) := h.same.spdmFlush

theorem Keeps.spdmDone {l x : Nat} {m : List Byte} (h : Keeps L s0 s) : Keeps L s0 (s.spdmDone l x m) := by
  unfold State.spdmDone
  extract_lets
  split
  · exact h.same.spdmFlush
  · exact h

theorem Keeps.spdmSegment {l : Nat} {h' : TrustHeader} {payload : List Byte} {mine : Nat → Bool} {f : State → List Byte → State}
    (h : Keeps L s0 s) (hl : L ≠ .calm) (hf : ∀ x0 x1, Keeps L s0 x0 → Keeps L s0 (f x0 x1)) :
    Keeps L s0 (s.spdmSegment l h' payload mine f) := by
  unfold State.spdmSegment
  extract_lets
  exact Keeps.ite h (h.rxTyped hl (fun _ h2 => by
      extract_lets
      split
      · exact hf _ _ h2.lnU
      · exact h2.lnU))

theorem Keeps.spdmAnswer {l : Nat} {h' : TrustHeader} {payload : List Byte} {code : Nat} {reply : State → List Byte → List Byte} {note :
    LaneLink → List Byte → LaneLink} (h : Keeps L s0 s) (hl : L ≠ .calm) :
    Keeps L s0 (s.spdmAnswer l h' payload code reply note) :=
  h.spdmSegment hl (fun _ _ h1 => h1.lnU.spdmReply)

theorem Keeps.spdmSigned {l x : Nat} {context : String} {transcript msg : List Byte} (h : Keeps L s0 s) (hl : L ≠ .calm) :
    Keeps L s0 (s.spdmSigned l x context transcript msg) :=
  Keeps.ite h.spdmReply (h.same.taskAsk hl)

theorem Keeps.execSpdmGetVersion {l : LinkId} {h' : TrustHeader} {payload : List Byte} (h : Keeps L s0 s) (hl : L ≠ .calm) :
    Ends L s0 (execSpdmGetVersion l h' payload s) :=
  h.spdmAnswer hl

theorem Keeps.execSpdmGetCapabilities {l : LinkId} {h' : TrustHeader} {payload : List Byte} (h : Keeps L s0 s) (hl : L ≠ .calm) :
    Ends L s0 (execSpdmGetCapabilities l h' payload s) :=
  h.spdmAnswer hl

theorem Keeps.execSpdmNegotiateAlgorithms {l : LinkId} {h' : TrustHeader} {payload : List Byte} (h : Keeps L s0 s) (hl : L ≠ .calm) :
    Ends L s0 (execSpdmNegotiateAlgorithms l h' payload s) :=
  h.spdmAnswer hl

theorem Keeps.execSpdmGetDigests {l : LinkId} {h' : TrustHeader} {payload : List Byte} (h : Keeps L s0 s) (hl : L ≠ .calm) :
    Ends L s0 (execSpdmGetDigests l h' payload s) :=
  h.spdmAnswer hl

theorem Keeps.execSpdmGetCertificate {l : LinkId} {h' : TrustHeader} {payload : List Byte} {offset len : Nat} (h : Keeps L s0 s)
    (hl : L ≠ .calm) :
    Ends L s0 (execSpdmGetCertificate l h' payload offset len s) :=
  h.spdmAnswer hl

theorem Keeps.execSpdmChallenge {l : LinkId} {h' : TrustHeader} {payload nonce : List Byte} (h : Keeps L s0 s) (hl : L ≠ .calm) :
    Ends L s0 (execSpdmChallenge l h' payload nonce s) :=
  h.spdmSegment hl (fun _ _ h1 => Keeps.ite h1.spdmReply (Keeps.ite h1.spdmReply (h1.lnU.spdmSigned hl)))

theorem Keeps.execSpdmGetMeasurements {l : LinkId} {h' : TrustHeader} {payload : List Byte} {index : Byte} {signed : Bool} {nonce : List
    Byte} (h : Keeps L s0 s) (hl : L ≠ .calm) :
    Ends L s0 (execSpdmGetMeasurements l h' payload index signed nonce s) :=
  h.spdmSegment hl (fun _ _ h1 => Keeps.ite h1.spdmReply (Keeps.ite h1.spdmReply (Keeps.ite h1.spdmReply (have h2 := h1.lnU;
    Keeps.ite (h2.spdmSigned hl) h2.spdmReply))))

theorem Keeps.execSpdmUnsupportedRequest {l : LinkId} {h' : TrustHeader} {payload : List Byte} (h : Keeps L s0 s) (hl : L ≠ .calm) :
    Ends L s0 (execSpdmUnsupportedRequest l h' payload s) :=
  h.spdmSegment hl (fun _ _ h1 => h1.spdmReply)

theorem Keeps.execSpdmSegmentTimeout {l : LinkId} (h : Keeps L s0 s) : Ends L s0 (execSpdmSegmentTimeout l s) := h.lnU

theorem Keeps.callDone {q : Nat} {ok : Bool} (h : Keeps .held s0 s) : Keeps .held s0 (s.callDone q ok) := by
  unfold State.callDone
  split
  · exact h.policySubmitted
  · exact h.dispensed
  · exact h.logRestarted
  · exact h.rootGenerated nofun
  · exact h.fuseVerified
  · exact h.fuseVerified
  · exact h.fuseVerified
  · exact h

theorem Keeps.verDone {j : ChainJob} {ok : Bool} (h : Keeps .held s0 s) : Keeps .held s0 (s.verDone j ok) := by
  unfold State.verDone
  split
  · exact h
  · exact h.shelfVerified
  · exact h.policyVerified
  · exact h.callDone
  · exact h.flowVerified
  · exact h.handoverChecked nofun
  · exact h.rootVerified nofun

theorem Keeps.taskDone {t' : KTask} {code : Nat} {x : KRun} (h : Keeps L s0 s) (hl : L ≠ .calm) : Keeps L s0 (s.taskDone t' code x) := by
  unfold State.taskDone
  extract_lets
  split
  · extract_lets
    exact Keeps.ite h.provAnswer (h.provSign hl)
  · exact Keeps.ite h.provAnswer h.provAnswer
  · exact h.spdmDone

theorem Keeps.enginesOut (h : Keeps .held s0 s) : Keeps .held s0 (s.enginesOut) :=
  Keeps.ite h ((h.same.each (fun _ _ h2 => Keeps.ite h2.verDone h2)).each (fun _ _ h4 => h4.taskDone nofun))

theorem Keeps.execKernelOperationDone {e : EngineId} {integrity : Bool} (h : Keeps .held s0 s) :
    Ends .held s0 (Machine.execKernelOperationDone e integrity s) := by
  unfold Machine.execKernelOperationDone
  extract_lets k taken s1
  have h1 : Keeps .held s0 s1 := h.used
  split
  · exact h.chanError
  · split
    · exact h
    · split
      · exact (h.chainEnd fun _ _ hu => hu.verDone).engineFreed nofun
      · split
        · exact h
        · extract_lets x code s2 shown s3 s4 s5
          have h2 : Keeps .held s0 s2 := by
            unfold s2
            split
            · exact Keeps.ite h1.placeKey h1
            · exact h1
          have h4 : Keeps .held s0 s4 := h2.outRelease.enU.kernelEnd
          have h5 : Keeps .held s0 s5 := Keeps.ite h4.chanError (Keeps.ite h4.chanError h4)
          show Keeps .held s0 (State.engineFreed _)
          refine Keeps.engineFreed ?_ nofun
          split
          · exact h5.taskDone nofun
          · exact h5

theorem Keeps.rideClear {i : Nat} (h : Keeps L s0 s) : Keeps L s0 (s.rideClear i) := Keeps.ite h.enU.setLine h

theorem Keeps.execKernelAbortDone {e : EngineId} (h : Keeps L s0 s) (hl : L ≠ .calm) : Ends L s0 (execKernelAbortDone e s) := by
  unfold Machine.execKernelAbortDone
  extract_lets _ _ s6 s7 s8 s9 s10
  have h6 : Keeps L s0 s6 := h.outRelease.enU
  have h7 : Keeps L s0 s7 := Keeps.ite h6.engineGone h6.poolBack.enU
  have h8 : Keeps L s0 s8 := Keeps.ite h6.engineGone.enU h6.kernelEnd
  have h9 : Keeps L s0 s9 := Keeps.ite h8.setLine h8
  have h10 : Keeps L s0 s10 := by
    unfold s10
    split
    · split
      · exact Keeps.ite h7.pkU h7
      · exact Keeps.ite h7.verAgain h7
    · split
      · exact Keeps.ite h9 (h9.taskDone hl)
      · exact h9
  exact Ends.ite h (h10.rideClear.engineFreed hl)

theorem Keeps.shortOp {c : CoreId} {k : Core} {x : Nat} {drop : Bool} (h : Keeps L s0 s) : Goes L s0 (shortOp c k x drop s) := by
  unfold Machine.shortOp
  extract_lets x2
  clear_value x2
  split
  · exact h.load (fun _ _ h4 => Keeps.ite h4 h4.result)
  · exact h.load (fun _ _ h5 => Keeps.ite h5 h5.result)
  · exact h.store
  · exact h.load (fun _ _ h6 => Keeps.ite h6 h6.result)
  · exact h.store
  · exact h.pdU
  · split
    · exact Keeps.ite h h.result
    · exact h

theorem Keeps.pairOps {c : CoreId} {x y : BitVec 16} {k : Core} (h : Keeps L s0 s) : Goes L s0 (pairOps c x y s k) := by
  unfold Machine.pairOps
  extract_lets drop
  have first : Goes L s0 (Machine.shortOp c k x.toNat drop s) := h.shortOp
  split
  · next u _ e =>
    rw [e] at first
    have second : Goes L s0 (Machine.shortOp c k y.toNat false u) := Keeps.shortOp first
    split
    · exact h.shortOp
    · exact second
  · exact first

theorem Keeps.issuePair {c : CoreId} {cc : BitVec 3} {slot1 : Bool} {op other : BitVec 16} (h : Keeps L s0 s) (hl : L ≠ .calm) :
    Keeps L s0 (s.issuePair c cc slot1 op other) :=
  h.issue hl (fun _ _ h1 => h1.pairOps)

theorem Keeps.execSnop {c : CoreId} {cc : BitVec 3} {slot1 : Bool} {d x : BitVec 4} {k : BitVec 3} {other : BitVec 16}
    (h : Keeps L s0 s) (hl : L ≠ .calm) :
    Ends L s0 (execSnop c cc slot1 d x k other s) :=
  h.issuePair hl

theorem Keeps.execSAdd {c : CoreId} {cc : BitVec 3} {slot1 : Bool} {d x : BitVec 4} {k : BitVec 3} {other : BitVec 16}
    (h : Keeps L s0 s) (hl : L ≠ .calm) :
    Ends L s0 (execSAdd c cc slot1 d x k other s) :=
  h.issuePair hl

theorem Keeps.execSSub {c : CoreId} {cc : BitVec 3} {slot1 : Bool} {d x : BitVec 4} {k : BitVec 3} {other : BitVec 16}
    (h : Keeps L s0 s) (hl : L ≠ .calm) :
    Ends L s0 (execSSub c cc slot1 d x k other s) :=
  h.issuePair hl

theorem Keeps.execSAnd {c : CoreId} {cc : BitVec 3} {slot1 : Bool} {d x : BitVec 4} {k : BitVec 3} {other : BitVec 16}
    (h : Keeps L s0 s) (hl : L ≠ .calm) :
    Ends L s0 (execSAnd c cc slot1 d x k other s) :=
  h.issuePair hl

theorem Keeps.execSOr {c : CoreId} {cc : BitVec 3} {slot1 : Bool} {d x : BitVec 4} {k : BitVec 3} {other : BitVec 16}
    (h : Keeps L s0 s) (hl : L ≠ .calm) :
    Ends L s0 (execSOr c cc slot1 d x k other s) :=
  h.issuePair hl

theorem Keeps.execSXor {c : CoreId} {cc : BitVec 3} {slot1 : Bool} {d x : BitVec 4} {k : BitVec 3} {other : BitVec 16}
    (h : Keeps L s0 s) (hl : L ≠ .calm) :
    Ends L s0 (execSXor c cc slot1 d x k other s) :=
  h.issuePair hl

theorem Keeps.execSMov {c : CoreId} {cc : BitVec 3} {slot1 : Bool} {d x : BitVec 4} {k : BitVec 3} {other : BitVec 16}
    (h : Keeps L s0 s) (hl : L ≠ .calm) :
    Ends L s0 (execSMov c cc slot1 d x k other s) :=
  h.issuePair hl

theorem Keeps.execSXf {c : CoreId} {cc : BitVec 3} {slot1 : Bool} {d x : BitVec 4} {k : BitVec 3} {other : BitVec 16}
    (h : Keeps L s0 s) (hl : L ≠ .calm) :
    Ends L s0 (execSXf c cc slot1 d x k other s) :=
  h.issuePair hl

theorem Keeps.execSSeq {c : CoreId} {cc : BitVec 3} {slot1 : Bool} {d x : BitVec 4} {k : BitVec 3} {other : BitVec 16}
    (h : Keeps L s0 s) (hl : L ≠ .calm) :
    Ends L s0 (execSSeq c cc slot1 d x k other s) :=
  h.issuePair hl

theorem Keeps.execSSltu {c : CoreId} {cc : BitVec 3} {slot1 : Bool} {d x : BitVec 4} {k : BitVec 3} {other : BitVec 16}
    (h : Keeps L s0 s) (hl : L ≠ .calm) :
    Ends L s0 (execSSltu c cc slot1 d x k other s) :=
  h.issuePair hl

theorem Keeps.execSSlt {c : CoreId} {cc : BitVec 3} {slot1 : Bool} {d x : BitVec 4} {k : BitVec 3} {other : BitVec 16}
    (h : Keeps L s0 s) (hl : L ≠ .calm) :
    Ends L s0 (execSSlt c cc slot1 d x k other s) :=
  h.issuePair hl

theorem Keeps.execSCmp {c : CoreId} {cc : BitVec 3} {slot1 : Bool} {d x : BitVec 4} {k : BitVec 3} {other : BitVec 16}
    (h : Keeps L s0 s) (hl : L ≠ .calm) :
    Ends L s0 (execSCmp c cc slot1 d x k other s) :=
  h.issuePair hl

theorem Keeps.execSLwx {c : CoreId} {cc : BitVec 3} {slot1 : Bool} {d x : BitVec 4} {k : BitVec 3} {other : BitVec 16}
    (h : Keeps L s0 s) (hl : L ≠ .calm) :
    Ends L s0 (execSLwx c cc slot1 d x k other s) :=
  h.issuePair hl

theorem Keeps.execSLfx {c : CoreId} {cc : BitVec 3} {slot1 : Bool} {d x : BitVec 4} {k : BitVec 3} {other : BitVec 16}
    (h : Keeps L s0 s) (hl : L ≠ .calm) :
    Ends L s0 (execSLfx c cc slot1 d x k other s) :=
  h.issuePair hl

theorem Keeps.execSSwx {c : CoreId} {cc : BitVec 3} {slot1 : Bool} {d x : BitVec 4} {k : BitVec 3} {other : BitVec 16}
    (h : Keeps L s0 s) (hl : L ≠ .calm) :
    Ends L s0 (execSSwx c cc slot1 d x k other s) :=
  h.issuePair hl

theorem Keeps.execSLwo {c : CoreId} {cc : BitVec 3} {slot1 : Bool} {d x : BitVec 4} {k : BitVec 3} {other : BitVec 16}
    (h : Keeps L s0 s) (hl : L ≠ .calm) :
    Ends L s0 (execSLwo c cc slot1 d x k other s) :=
  h.issuePair hl

theorem Keeps.execSSwo {c : CoreId} {cc : BitVec 3} {slot1 : Bool} {d x : BitVec 4} {k : BitVec 3} {other : BitVec 16}
    (h : Keeps L s0 s) (hl : L ≠ .calm) :
    Ends L s0 (execSSwo c cc slot1 d x k other s) :=
  h.issuePair hl

theorem Keeps.execSMva {c : CoreId} {cc : BitVec 3} {slot1 : Bool} {d x : BitVec 4} {k : BitVec 3} {other : BitVec 16}
    (h : Keeps L s0 s) (hl : L ≠ .calm) :
    Ends L s0 (execSMva c cc slot1 d x k other s) :=
  h.issuePair hl

theorem Keeps.execSMvd {c : CoreId} {cc : BitVec 3} {slot1 : Bool} {d x : BitVec 4} {k : BitVec 3} {other : BitVec 16}
    (h : Keeps L s0 s) (hl : L ≠ .calm) :
    Ends L s0 (execSMvd c cc slot1 d x k other s) :=
  h.issuePair hl

theorem Keeps.execSRank {c : CoreId} {cc : BitVec 3} {slot1 : Bool} {d x : BitVec 4} {k : BitVec 3} {other : BitVec 16}
    (h : Keeps L s0 s) (hl : L ≠ .calm) :
    Ends L s0 (execSRank c cc slot1 d x k other s) :=
  h.issuePair hl

theorem Keeps.execSPopc {c : CoreId} {cc : BitVec 3} {slot1 : Bool} {d x : BitVec 4} {k : BitVec 3} {other : BitVec 16}
    (h : Keeps L s0 s) (hl : L ≠ .calm) :
    Ends L s0 (execSPopc c cc slot1 d x k other s) :=
  h.issuePair hl

theorem Keeps.execSMac {c : CoreId} {cc : BitVec 3} {slot1 : Bool} {d x : BitVec 4} {k : BitVec 3} {other : BitVec 16}
    (h : Keeps L s0 s) (hl : L ≠ .calm) :
    Ends L s0 (execSMac c cc slot1 d x k other s) :=
  h.issuePair hl

theorem Keeps.execSMvy {c : CoreId} {cc : BitVec 3} {slot1 : Bool} {d x : BitVec 4} {k : BitVec 3} {other : BitVec 16}
    (h : Keeps L s0 s) (hl : L ≠ .calm) :
    Ends L s0 (execSMvy c cc slot1 d x k other s) :=
  h.issuePair hl

theorem Keeps.execSDcs {c : CoreId} {cc : BitVec 3} {slot1 : Bool} {d x : BitVec 4} {k : BitVec 3} {other : BitVec 16}
    (h : Keeps L s0 s) (hl : L ≠ .calm) :
    Ends L s0 (execSDcs c cc slot1 d x k other s) :=
  h.issuePair hl

theorem Keeps.execSAddi {c : CoreId} {cc : BitVec 3} {slot1 : Bool} {d : BitVec 4} {imm : BitVec 7} {other : BitVec 16}
    (h : Keeps L s0 s) (hl : L ≠ .calm) :
    Ends L s0 (execSAddi c cc slot1 d imm other s) :=
  h.issuePair hl

theorem Keeps.execSMovi {c : CoreId} {cc : BitVec 3} {slot1 : Bool} {d : BitVec 4} {imm : BitVec 7} {other : BitVec 16}
    (h : Keeps L s0 s) (hl : L ≠ .calm) :
    Ends L s0 (execSMovi c cc slot1 d imm other s) :=
  h.issuePair hl

theorem Keeps.execSShi {c : CoreId} {cc : BitVec 3} {slot1 : Bool} {d : BitVec 4} {imm : BitVec 7} {other : BitVec 16}
    (h : Keeps L s0 s) (hl : L ≠ .calm) :
    Ends L s0 (execSShi c cc slot1 d imm other s) :=
  h.issuePair hl

theorem Keeps.execSSari {c : CoreId} {cc : BitVec 3} {slot1 : Bool} {d : BitVec 4} {imm : BitVec 7} {other : BitVec 16}
    (h : Keeps L s0 s) (hl : L ≠ .calm) :
    Ends L s0 (execSSari c cc slot1 d imm other s) :=
  h.issuePair hl

theorem Keeps.execSAdda {c : CoreId} {cc : BitVec 3} {slot1 : Bool} {d : BitVec 4} {imm : BitVec 7} {other : BitVec 16}
    (h : Keeps L s0 s) (hl : L ≠ .calm) :
    Ends L s0 (execSAdda c cc slot1 d imm other s) :=
  h.issuePair hl

theorem Keeps.takeEvent {c : CoreId} (h : Keeps L s0 s) : Keeps L s0 (s.takeEvent c) := by
  unfold State.takeEvent
  extract_lets
  split
  · exact h
  · exact h.pdU.coU

theorem Keeps.execWev {c : CoreId} {cc : BitVec 4} (h : Keeps L s0 s) (hl : L ≠ .calm) : Ends L s0 (execWev c cc s) :=
  h.issue hl (fun _ _ h1 => Goes.ite (h1.coAny hl) h1.takeEvent)

theorem Keeps.execWevResume {k : SheafId} {t' : Fin 8} {slots : Nat} (h : Keeps L s0 s) (hl : L ≠ .calm) :
    Ends L s0 (execWevResume k t' slots s) :=
  Ends.ite h (have h1 := h.slotsPass hl; Keeps.ite h1 ((h1.coAny hl).takeEvent))

theorem Keeps.execLkp {c : CoreId} {cc rd rs rt : BitVec 4} {fn : BitVec 13} (h : Keeps L s0 s) (hl : L ≠ .calm) :
    Ends L s0 (execLkp c cc rd rs rt fn s) :=
  h.issue hl (fun _ _ h1 => h1.pdU)

theorem Keeps.decisionIn {c : CoreId} {w : W36} (h : Keeps L s0 s) : Keeps L s0 (s.decisionIn c w) := h.pdU

theorem Keeps.execDcs {c : CoreId} {cc rs : BitVec 4} (h : Keeps L s0 s) (hl : L ≠ .calm) : Ends L s0 (execDcs c cc rs s) :=
  h.issue hl (fun _ _ h1 => h1.decisionIn)

theorem Keeps.execAcw {c : CoreId} {cc rs rt : BitVec 4} (h : Keeps L s0 s) (hl : L ≠ .calm) : Ends L s0 (execAcw c cc rs rt s) :=
  h.issue hl (fun _ _ h1 => Goes.ite h1 h1.pdU)

theorem Keeps.execMfs {c : CoreId} {cc rd : BitVec 4} {arg : BitVec 8} (h : Keeps L s0 s) (hl : L ≠ .calm) :
    Ends L s0 (execMfs c cc rd arg s) :=
  h.issue hl (fun _ _ h1 => Goes.ite trivial ((Keeps.ite (h1.coAny hl) h1).toD))

theorem Keeps.execMts {c : CoreId} {cc rs : BitVec 4} {arg : BitVec 8} (h : Keeps L s0 s) (hl : L ≠ .calm) :
    Ends L s0 (execMts c cc rs arg s) :=
  h.issue hl (fun _ _ h1 => Goes.ite h1.result (h1.coAny hl))

theorem Keeps.execFence {c : CoreId} {cc : BitVec 4} (h : Keeps L s0 s) (hl : L ≠ .calm) : Ends L s0 (execFence c cc s) :=
  h.issue hl (fun _ _ h1 => (h1.coAny hl).each (fun _ _ h2 => h2.storeOut hl))

theorem Keeps.execTrap {c : CoreId} {cc : BitVec 4} {arg : BitVec 8} (h : Keeps L s0 s) (hl : L ≠ .calm) :
    Ends L s0 (execTrap c cc arg s) :=
  h.issue hl (fun _ _ h1 => trivial)

theorem Keeps.execEret {c : CoreId} {cc : BitVec 4} (h : Keeps L s0 s) (hl : L ≠ .calm) : Ends L s0 (execEret c cc s) :=
  h.issue hl (fun _ _ h1 => Goes.transfer (Goes.ite trivial (h1.coAny hl)))

theorem Keeps.execHalt {c : CoreId} {cc : BitVec 4} (h : Keeps L s0 s) (hl : L ≠ .calm) : Ends L s0 (execHalt c cc s) :=
  h.issue hl (fun _ _ h1 => h1.coAny hl)

theorem Keeps.execWfi {c : CoreId} {cc : BitVec 4} (h : Keeps L s0 s) (hl : L ≠ .calm) : Ends L s0 (execWfi c cc s) :=
  h.issue hl (fun _ _ h1 => Keeps.ite h1 (h1.coAny hl))

theorem Keeps.execWfiWake {c : CoreId} (h : Keeps L s0 s) (hl : L ≠ .calm) : Ends L s0 (execWfiWake c s) := Ends.ite (h.coAny hl) h

theorem Keeps.execInterruptTaken {c : CoreId} (h : Keeps L s0 s) (hl : L ≠ .calm) : Ends L s0 (execInterruptTaken c s) := by
  unfold Machine.execInterruptTaken
  extract_lets
  split
  · exact (h.coAny hl).faultWord hl
  · split
    · split
      · exact h
      · exact h.used.coAny hl
    · exact h

theorem Keeps.execIllegalInstruction {c : CoreId} {dw : W64} (h : Keeps L s0 s) (hl : L ≠ .calm) :
    Ends L s0 (execIllegalInstruction c dw s) :=
  Ends.ite (have h1 := h.slotTo hl; Keeps.ite (h1.faultWord hl) (Keeps.ite (h1.faultWord hl) (h1.faultWord hl))) h

theorem Keeps.execXipMiss {b : Bool} {addr : W24} (h : Keeps L s0 s) : Ends L s0 (execXipMiss b addr s) := Ends.ite h.xipStart h

theorem Keeps.xipFill {line : Nat} {data : List Byte} (h : Keeps L s0 s) : Keeps L s0 (s.xipFill line data) := h.same

theorem Keeps.xipNext (h : Keeps L s0 s) : Keeps L s0 (s.xipNext) := by
  unfold State.xipNext
  extract_lets
  split <;> exact h.same

theorem Keeps.execXipFetchDone {ok : Bool} (h : Keeps L s0 s) (hl : L ≠ .calm) : Ends L s0 (execXipFetchDone ok s) := by
  unfold Machine.execXipFetchDone
  extract_lets s6 s7 _ s8
  have h6 : Keeps L s0 s6 := Keeps.ite h (h.chanError.gnoby hl)
  clear_value s6
  have h7 : Keeps L s0 s7 := h6.same
  clear_value s7
  have h8 : Keeps L s0 s8 := h7.chanError.xipNext
  split
  · exact h
  · extract_lets
    split
    · exact h
    · split
      · exact h6
      · split
        · extract_lets s9 s10
          have h9 : Keeps L s0 s9 := h7.xipFill
          have h10 : Keeps L s0 s10 := h9.xipTouch
          clear_value s10
          exact Ends.ite h9.xipNext (Keeps.ite h10.same h10.xipNext)
        · exact Ends.ite h7.same (Ends.ite (h8.faultWord hl) h8)

theorem Keeps.tick (h : Keeps .held s0 s) : Keeps .held s0 (tick s) :=
  Keeps.ite ((((h.censusCheck nofun).handoverFlip nofun).enginesOut).same.each (fun _ _ h3 => Keeps.ite (h3.coAny nofun) h3)) h

end
end Sys2Proof.Machine
end

section
namespace Sys2Proof.Machine
open Sys2Proof

/-! ### O56: what opens a held port -/

theorem Keeps.execPortRelease {s0 s : State} {k : StandId} {meets : Meets} (h : Keeps .held s0 s) (ne : meets ≠ .nothing) :
    Ends .held s0 (execPortRelease k meets s) := by
  unfold Machine.execPortRelease
  split
  · exact h
  · split
    · exact h.standFails nofun
    · exact h
    · exact absurd rfl ne
    · exact h.phU
    · exact (h.poolGrant.standFails nofun).reconcile

/-- No command but a release that nothing meets lets a held port go. -/
theorem exec_ends {s0 s : State} (h : Keeps .held s0 s) (i : Instr) (ne : ∀ k, i ≠ .portRelease k .nothing) :
    Ends .held s0 (exec i s) := by
  cases i with
  | supplyGood => exact h.execSupplyGood
  | supplyNotGood => exact h.execSupplyNotGood
  | fuseSenseDone => exact h.execFuseSenseDone nofun
  | seedCoreRelease => exact h.execSeedCoreRelease nofun
  | refclkLoss => exact h.execRefclkLoss nofun
  | refclkHoldoverExpiry => exact h.execRefclkHoldoverExpiry
  | pllLockLoss => exact h.execPllLockLoss
  | refclkReturn => exact h.execRefclkReturn nofun
  | bundleHeadersRead => exact h.execBundleHeadersRead nofun
  | bundleCandidateRead => exact h.execBundleCandidateRead nofun
  | bundleSignatureVerified => exact h.execBundleSignatureVerified nofun
  | canopyRelease => exact h.execCanopyRelease nofun
  | canopyLeaveReturn => exact h.execCanopyLeaveReturn
  | linkCoreRelease => exact h.execLinkCoreRelease nofun
  | scheduleContainerLoad => exact h.execScheduleContainerLoad nofun
  | canopyWatchdogExpiry => exact h.execCanopyWatchdogExpiry nofun
  | warmRestartEntryDone => exact h.execWarmRestartEntryDone
  | runtimeLaneScheduleReload => exact h.execRuntimeLaneScheduleReload nofun
  | wakeAutoStart => exact h.execWakeAutoStart
  | wakeEntryEnd => exact h.execWakeEntryEnd
  | wakeRound => exact h.execWakeRound nofun
  | wakeLaneJob => exact h.execWakeLaneJob nofun
  | wakeFrameBoundary => exact h.execWakeFrameBoundary
  | shelfManifestDecide => exact h.execShelfManifestDecide
  | chainVerifyStart => exact h.execChainVerifyStart
  | hashSignatureVerify => exact h.execHashSignatureVerify
  | drainEnd => exact h.execDrainEnd
  | verdictStage => exact h.execVerdictStage
  | handback => exact h.execHandback
  | standStaggerExpiry => exact h.execStandStaggerExpiry
  | portRelease k meets => exact h.execPortRelease (fun e => ne k (by rw [e]))
  | settleExpiry => exact h.execSettleExpiry nofun
  | pgFall => exact h.execPgFall
  | pgRise => exact h.execPgRise
  | shadowMismatch => exact h.execShadowMismatch
  | hostFrame => exact h.execHostFrame
  | busyTimerExpiry => exact h.execBusyTimerExpiry
  | stallTimeout => exact h.execStallTimeout
  | profileBreach => exact h.execProfileBreach
  | contExitFrame => exact h.execContExitFrame
  | ruleLookupResult => exact h.execRuleLookupResult nofun
  | rebuildStart => exact h.execRebuildStart
  | rebuildContainer => exact h.execRebuildContainer nofun
  | generationFlip => exact h.execGenerationFlip
  | deferredPortUpdate => exact h.execDeferredPortUpdate nofun
  | gleanHalfLeaf => exact h.execGleanHalfLeaf nofun
  | serviceLaneJob => exact h.execServiceLaneJob nofun
  | selfTestSlot => exact h.execSelfTestSlot
  | laneTestRequest => exact h.execLaneTestRequest nofun
  | deferredLaneTest => exact h.execDeferredLaneTest nofun
  | scrubRead => exact h.execScrubRead nofun
  | relocationStart => exact h.execRelocationStart
  | relocationWaitExpiry => exact h.execRelocationWaitExpiry
  | relocationDone => exact h.execRelocationDone
  | serveSlotRead => exact h.execServeSlotRead
  | xipMiss => exact h.execXipMiss
  | xipFetchDone => exact h.execXipFetchDone nofun
  | tagPass => exact h.execTagPass nofun
  | nop => exact h.execNop nofun
  | alu => exact h.execAlu nofun
  | addi => exact h.execAddi nofun
  | andi => exact h.execAndi nofun
  | ori => exact h.execOri nofun
  | xori => exact h.execXori nofun
  | shfi => exact h.execShfi nofun
  | movl => exact h.execMovl nofun
  | movh => exact h.execMovh nofun
  | cmp => exact h.execCmp nofun
  | cmpi => exact h.execCmpi nofun
  | tst => exact h.execTst nofun
  | mul => exact h.execMul nofun
  | macy => exact h.execMacy nofun
  | mvy => exact h.execMvy nofun
  | exti => exact h.execExti nofun
  | adda => exact h.execAdda nofun
  | mva => exact h.execMva nofun
  | mova => exact h.execMova nofun
  | ldb => exact h.execLdb nofun
  | ldh => exact h.execLdh nofun
  | ldw => exact h.execLdw nofun
  | ldf => exact h.execLdf nofun
  | ldy => exact h.execLdy nofun
  | lda => exact h.execLda nofun
  | stb => exact h.execStb nofun
  | sth => exact h.execSth nofun
  | stw => exact h.execStw nofun
  | stf => exact h.execStf nofun
  | sty => exact h.execSty nofun
  | sta => exact h.execSta nofun
  | br => exact h.execBr nofun
  | bz => exact h.execBz nofun
  | bnz => exact h.execBnz nofun
  | bal => exact h.execBal nofun
  | jr => exact h.execJr nofun
  | wev => exact h.execWev nofun
  | wevResume => exact h.execWevResume nofun
  | lkp => exact h.execLkp nofun
  | dcs => exact h.execDcs nofun
  | acw => exact h.execAcw nofun
  | mfs => exact h.execMfs nofun
  | mts => exact h.execMts nofun
  | fence => exact h.execFence nofun
  | trap => exact h.execTrap nofun
  | eret => exact h.execEret nofun
  | halt => exact h.execHalt nofun
  | wfi => exact h.execWfi nofun
  | wfiWake => exact h.execWfiWake nofun
  | snop => exact h.execSnop nofun
  | sAdd => exact h.execSAdd nofun
  | sSub => exact h.execSSub nofun
  | sAnd => exact h.execSAnd nofun
  | sOr => exact h.execSOr nofun
  | sXor => exact h.execSXor nofun
  | sMov => exact h.execSMov nofun
  | sAddi => exact h.execSAddi nofun
  | sMovi => exact h.execSMovi nofun
  | sShi => exact h.execSShi nofun
  | sSari => exact h.execSSari nofun
  | sXf => exact h.execSXf nofun
  | sSeq => exact h.execSSeq nofun
  | sSltu => exact h.execSSltu nofun
  | sSlt => exact h.execSSlt nofun
  | sCmp => exact h.execSCmp nofun
  | sLwx => exact h.execSLwx nofun
  | sLfx => exact h.execSLfx nofun
  | sSwx => exact h.execSSwx nofun
  | sLwo => exact h.execSLwo nofun
  | sSwo => exact h.execSSwo nofun
  | sAdda => exact h.execSAdda nofun
  | sMva => exact h.execSMva nofun
  | sMvd => exact h.execSMvd nofun
  | sRank => exact h.execSRank nofun
  | sPopc => exact h.execSPopc nofun
  | sMac => exact h.execSMac nofun
  | sMvy => exact h.execSMvy nofun
  | sDcs => exact h.execSDcs nofun
  | interruptTaken => exact h.execInterruptTaken nofun
  | linkCoreReloaded => exact h.execLinkCoreReloaded nofun
  | rsaPub => exact h.execRsaPub nofun
  | rsaPssVerify => exact h.execRsaPssVerify nofun
  | rsaCrt => exact h.execRsaCrt nofun
  | modmul => exact h.execModmul nofun
  | modexp => exact h.execModexp nofun
  | ecdsaVerify => exact h.execEcdsaVerify nofun
  | ecdsaSign => exact h.execEcdsaSign nofun
  | ecdh => exact h.execEcdh nofun
  | ecPubgen => exact h.execEcPubgen nofun
  | ed25519Verify => exact h.execEd25519Verify nofun
  | mldsaVerify => exact h.execMldsaVerify nofun
  | operandMemoryWrite => exact h.execOperandMemoryWrite
  | kernelOperationDone => exact h.execKernelOperationDone
  | kernelAbortDone => exact h.execKernelAbortDone nofun
  | keyUnitWrite => exact h.execKeyUnitWrite nofun
  | keyUnitGenerate => exact h.execKeyUnitGenerate nofun
  | keyUnitDerive => exact h.execKeyUnitDerive nofun
  | keyUnitSetattr => exact h.execKeyUnitSetattr nofun
  | keyUnitRead => exact h.execKeyUnitRead nofun
  | keyUnitClear => exact h.execKeyUnitClear nofun
  | keyUnitProvenance => exact h.execKeyUnitProvenance nofun
  | rootGenerateFunction => exact h.execRootGenerateFunction nofun
  | keyoutExpiry => exact h.execKeyoutExpiry
  | slotRemask => exact h.execSlotRemask nofun
  | fuseArm => exact h.execFuseArm
  | fuseArmWindowExpiry => exact h.execFuseArmWindowExpiry
  | fuseFireBurn => exact h.execFuseFireBurn
  | fuseFireLock => exact h.execFuseFireLock
  | fuseFireAdvance => exact h.execFuseFireAdvance
  | fuseFireRevoke => exact h.execFuseFireRevoke
  | fuseFireReburn => exact h.execFuseFireReburn
  | fuseResense => exact h.execFuseResense
  | fuseLeaveTimeout => exact h.execFuseLeaveTimeout
  | fuseDone => exact h.execFuseDone
  | temperatureThresholdCrossing inside hot => exact h.execTemperatureThresholdCrossing (hot := hot)
  | resenseDone => exact h.execResenseDone
  | supplyGlitch => exact h.execSupplyGlitch nofun
  | bankSupplyExcursion => exact h.execBankSupplyExcursion nofun
  | dieTemperatureAlarm => exact h.execDieTemperatureAlarm nofun
  | threadWatchdogExpiry => exact h.execThreadWatchdogExpiry nofun
  | keyRedraw => exact h.execKeyRedraw
  | coincidenceWindowClose => exact h.execCoincidenceWindowClose
  | alarmNormalTimer => exact h.execAlarmNormalTimer nofun
  | backupTick => exact h.execBackupTick nofun
  | caseSwitchChange => exact h.execCaseSwitchChange nofun
  | vbatGlitch => exact h.execVbatGlitch nofun
  | clock32Loss => exact h.execClock32Loss nofun
  | logAppend => exact h.execLogAppend
  | segmentErase => exact h.execSegmentErase
  | logScan => exact h.execLogScan
  | backupLogDrain => exact h.execBackupLogDrain
  | leaveGrant => exact h.execLeaveGrant
  | reconciliationDone => exact h.execReconciliationDone
  | poolTotalChange => exact h.execPoolTotalChange
  | probe => exact h.execProbe
  | bucketDecay => exact h.execBucketDecay
  | lrBurnRetry => exact h.execLrBurnRetry
  | retirementReapply => exact h.execRetirementReapply
  | handoverReady => exact h.execHandoverReady nofun
  | handoverReadyTimeout => exact h.execHandoverReadyTimeout nofun
  | handoverReload => exact h.execHandoverReload nofun
  | lossOfSignal => exact h.execLossOfSignal nofun
  | signalPresent => exact h.execSignalPresent
  | trainingTimeout => exact h.execTrainingTimeout
  | blockLock => exact h.execBlockLock
  | blockLockLoss => exact h.execBlockLockLoss nofun
  | mkaLive => exact h.execMkaLive
  | sakChangeDue => exact h.execSakChangeDue
  | sakChangeDone => exact h.execSakChangeDone
  | hello => exact h.execHello
  | credit => exact h.execCredit nofun
  | creditTimer => exact h.execCreditTimer
  | objectFrame => exact h.execObjectFrame nofun
  | leafFrame => exact h.execLeafFrame nofun
  | abortFrame => exact h.execAbortFrame nofun
  | notice => exact h.execNotice
  | spdmGetVersion => exact h.execSpdmGetVersion nofun
  | spdmGetCapabilities => exact h.execSpdmGetCapabilities nofun
  | spdmNegotiateAlgorithms => exact h.execSpdmNegotiateAlgorithms nofun
  | spdmGetDigests => exact h.execSpdmGetDigests nofun
  | spdmGetCertificate => exact h.execSpdmGetCertificate nofun
  | spdmChallenge => exact h.execSpdmChallenge nofun
  | spdmGetMeasurements => exact h.execSpdmGetMeasurements nofun
  | spdmSegmentTimeout => exact h.execSpdmSegmentTimeout
  | objectTimeout => exact h.execObjectTimeout
  | leafVerify => exact h.execLeafVerify
  | leafTimeout => exact h.execLeafTimeout
  | autonomousEntry => exact h.execAutonomousEntry
  | transferSuspendExpiry => exact h.execTransferSuspendExpiry
  | flowReprogram => exact h.execFlowReprogram
  | flowManifestOnly => exact h.execFlowManifestOnly
  | flowServeSet => exact h.execFlowServeSet
  | flowRestage => exact h.execFlowRestage
  | flowShelfManifest => exact h.execFlowShelfManifest
  | flashProgramDone => exact h.execFlashProgramDone
  | mspiWriteWords => exact h.execMspiWriteWords
  | mspiReadWords => exact h.execMspiReadWords
  | mspiStatus => exact h.execMspiStatus
  | mspiIdentityRead => exact h.execMspiIdentityRead
  | registerWindowRead => exact h.execRegisterWindowRead
  | registerWindowWrite => exact h.execRegisterWindowWrite
  | rsLatchRead => exact h.execRsLatchRead
  | registerWrite => exact h.execRegisterWrite nofun
  | mspiStall => exact h.execMspiStall
  | abortPke => exact h.execAbortPke
  | abortLane => exact h.execAbortLane
  | abortPort => exact h.execAbortPort
  | abortThread => exact h.execAbortThread
  | abortLink => exact h.execAbortLink
  | abortMailbox => exact h.execAbortMailbox
  | requestTimeout => exact h.execRequestTimeout
  | objectBufferTimeout => exact h.execObjectBufferTimeout
  | cmdGetInfo => exact h.execCmdGetInfo
  | cmdSetMspi => exact h.execCmdSetMspi
  | cmdWarmRestart => exact h.execCmdWarmRestart nofun
  | cmdAbort => exact h.execCmdAbort
  | cmdObjectOpen => exact h.execCmdObjectOpen
  | cmdObjectWrite => exact h.execCmdObjectWrite
  | cmdObjectClose => exact h.execCmdObjectClose
  | cmdPolicySubmit => exact h.execCmdPolicySubmit
  | cmdWakeStart => exact h.execCmdWakeStart
  | cmdRewake => exact h.execCmdRewake
  | cmdDispensation => exact h.execCmdDispensation
  | cmdGetVerdicts => exact h.execCmdGetVerdicts
  | cmdGetMeasurement => exact h.execCmdGetMeasurement
  | cmdRevocationPrecheck => exact h.execCmdRevocationPrecheck
  | cmdClearHold => exact h.execCmdClearHold
  | cmdPortStatus => exact h.execCmdPortStatus
  | cmdHomeErase => exact h.execCmdHomeErase
  | cmdHomeWrite => exact h.execCmdHomeWrite
  | cmdAlarmList => exact h.execCmdAlarmList
  | cmdAlarmAck => exact h.execCmdAlarmAck
  | cmdAlarmRank => exact h.execCmdAlarmRank
  | cmdLogStatus => exact h.execCmdLogStatus
  | cmdLogRead => exact h.execCmdLogRead
  | cmdLogOwner => exact h.execCmdLogOwner
  | cmdLogRestart => exact h.execCmdLogRestart
  | cmdKeyWrite => exact h.execCmdKeyWrite nofun
  | cmdKeyGenerate => exact h.execCmdKeyGenerate nofun
  | cmdKeyDerive => exact h.execCmdKeyDerive nofun
  | cmdKeySetattr => exact h.execCmdKeySetattr nofun
  | cmdKeyRead => exact h.execCmdKeyRead nofun
  | cmdKeyClear => exact h.execCmdKeyClear nofun
  | cmdKeyInfo => exact h.execCmdKeyInfo
  | cmdKeyProvenance => exact h.execCmdKeyProvenance nofun
  | cmdRootGenerate => exact h.execCmdRootGenerate nofun
  | cmdIdentity => exact h.execCmdIdentity
  | cmdFuseBurn => exact h.execCmdFuseBurn
  | cmdFuseLock => exact h.execCmdFuseLock
  | cmdFuseAdvance => exact h.execCmdFuseAdvance
  | cmdFuseRevoke => exact h.execCmdFuseRevoke
  | cmdFuseReburn => exact h.execCmdFuseReburn
  | cmdFuseResense => exact h.execCmdFuseResense
  | cmdFuseRead => exact h.execCmdFuseRead
  | cmdLcAdvance => exact h.execCmdLcAdvance
  | cmdPageMap => exact h.execCmdPageMap
  | cmdRecover => exact h.execCmdRecover
  | cmdRecoverStatus => exact h.execCmdRecoverStatus
  | cmdRecoverCancel => exact h.execCmdRecoverCancel
  | cmdLinkPeer => exact h.execCmdLinkPeer
  | cmdLinkCak => exact h.execCmdLinkCak nofun
  | cmdLinkStatus => exact h.execCmdLinkStatus
  | cmdHandoverPrepare => exact h.execCmdHandoverPrepare nofun
  | cmdHandoverStatus => exact h.execCmdHandoverStatus
  | cmdReinstate => exact h.execCmdReinstate
  | cmdChannelStatus => exact h.execCmdChannelStatus
  | cmdBundleErase => exact h.execCmdBundleErase
  | cmdBundleWrite => exact h.execCmdBundleWrite
  | cmdRepairList => exact h.execCmdRepairList
  | cmdRepairReburn => exact h.execCmdRepairReburn
  | cmdLoadErase => exact h.execCmdLoadErase
  | cmdLoadWrite => exact h.execCmdLoadWrite
  | cmdLoadCommit => exact h.execCmdLoadCommit nofun
  | cmdVendorProductionService => exact h.execCmdVendorProductionService
  | signatureWindowEnd => exact h.execSignatureWindowEnd
  | mkaLifeExpiry => exact h.execMkaLifeExpiry nofun
  | macsecDrop => exact h.execMacsecDrop
  | malformedFrame => exact h.execMalformedFrame nofun
  | spdmUnsupportedRequest => exact h.execSpdmUnsupportedRequest nofun
  | mspiIgnoredFrame => exact h.execMspiIgnoredFrame
  | unknownCommandCode => exact h.execUnknownCommandCode
  | illegalInstruction => exact h.execIllegalInstruction nofun
  | homePortFrameComplete => exact h.execHomePortFrameComplete
  | backupDomainSupplied => exact h.execBackupDomainSupplied nofun

/-! #### What a release changes -/

theorem State.poolGrant_po_ne (s : State) {q h n j : Nat} (ne : j ≠ q) : (s.poolGrant q h n).po j = s.po j := by
  unfold State.poolGrant
  split
  · exact State.poU_po_ne _ _ _ _ ne
  · rfl

theorem State.poolGrant_heldOf {s : State} {q h n : Nat} (can : s.canGrant q n = true) :
    (s.poolGrant q h n).heldOf q h = s.heldOf q h + n := by
  simp [State.poolGrant, State.heldOf, can]

theorem State.lvGrant_po (s : State) (u : LvUse) (n j : Nat) : (s.lvGrant u n).po j = (s.poolGrant 0 u.holder n).po j := by
  unfold State.lvGrant
  extract_lets t
  split <;> rfl

theorem State.lvTake_po_ne {s t : State} {u : LvUse} {n j : Nat} (e : s.lvTake u n = some t) (ne : j ≠ 0) : t.po j = s.po j := by
  unfold State.lvTake at e
  split at e
  · cases e
    exact (s.lvGrant_po u n j).trans (s.poolGrant_po_ne ne)
  · cases e

theorem State.poolGrant_hold (s : State) (q h n : Nat) : (s.poolGrant q h n).hold = s.hold := by
  unfold State.poolGrant
  split <;> rfl

theorem State.lvTake_hold {s t : State} {u : LvUse} {n : Nat} (e : s.lvTake u n = some t) : t.hold = s.hold := by
  unfold State.lvTake at e
  split at e
  · cases e
    unfold State.lvGrant
    extract_lets t
    split <;> exact s.poolGrant_hold ..
  · cases e

theorem State.pushEvent_hold (s : State) (p : Nat) (w : W36) : (s.pushEvent p w).hold = s.hold := by
  unfold State.pushEvent
  extract_lets d
  split_ifs <;> rfl

theorem State.pushEvent_po (s : State) (p : Nat) (w : W36) (j : Nat) : (s.pushEvent p w).po j = s.po j := by
  unfold State.pushEvent
  extract_lets d
  split_ifs <;> rfl

/-- The runtime lanes draw on lane tokens and device leave alone. -/
theorem State.runtimeDraw_po (s : State) {j : Nat} (n0 : j ≠ 0) (n8 : j ≠ 8) : s.runtimeDraw.po j = s.po j := by
  unfold State.runtimeDraw
  split
  · rfl
  · extract_lets n t
    have ht : t.po j = s.po j := by
      unfold t
      split
      · exact s.poolGrant_po_ne n8
      · rfl
    split
    · exact ht
    · split
      · next u e => rw [State.lvTake_po_ne e n0, ht]
      · exact ht

theorem release_heldOf {s : State} {p : Nat} (can : s.canGrant (1 + standOf p) (polWeight s.pol p) = true) :
    (s.release p).heldOf (1 + standOf p) (p / 6) = s.heldOf (1 + standOf p) (p / 6) + polWeight s.pol p := by
  have six : standOf p < 6 := Nat.mod_lt _ (by decide)
  unfold State.release
  extract_lets k w dark s1 s2 _ s4 s5 s6 s7
  have kept : s7.runtimeDraw.po (1 + k) = s1.po (1 + k) := by
    rw [s7.runtimeDraw_po (by omega) (by omega)]
    exact s5.pushEvent_po _ _ _
  have drawn : s1.heldOf (1 + k) (p / 6) = s.heldOf (1 + k) (p / 6) + w := State.poolGrant_heldOf can
  unfold State.heldOf at *
  rw [kept]
  exact drawn

theorem State.runtimeDraw_hold (s : State) : s.runtimeDraw.hold = s.hold := by
  unfold State.runtimeDraw
  split
  · rfl
  · extract_lets n t
    have ht : t.hold = s.hold := by
      unfold t
      split
      · exact s.poolGrant_hold ..
      · rfl
    split
    · exact ht
    · split
      · next u e => rw [State.lvTake_hold e, ht]
      · exact ht

/-- The hold state that a release leaves its port in (R25, R97). -/
def State.letGo (s : State) (p : Nat) : PHold := { s.ph p with
  hold := false, holdN := true, token := none, settle := some (polSettle s.pol p),
  mode := if (s.pg p).flashRetired && decide ((s.pg p).setState = .verified) then .dark else .pass }

theorem release_ph (s : State) (p q : Nat) : (s.release p).ph q = if q = p then s.letGo p else s.ph q := by
  unfold State.release
  extract_lets k w dark s1 s2 _ s4 s5 s6 s7
  have late : s7.runtimeDraw.ph q = s2.ph q := by
    unfold State.ph
    rw [s7.runtimeDraw_hold]
    exact congrArg (Tab.get {} · q) (s5.pushEvent_hold _ _)
  have pol : s1.pol = s.pol := by
    unfold s1 State.poolGrant
    split <;> rfl
  have early : ∀ j, s1.ph j = s.ph j := fun j => by
    unfold State.ph
    rw [show s1.hold = s.hold from s.poolGrant_hold ..]
  rw [late]
  unfold s2
  rw [State.phU_ph, early, early, pol]
  rfl

theorem standOf_of_mem_releaseOrder {s : State} {k p : Nat} (hk : k < 6) (m : p ∈ s.releaseOrder k) : standOf p = k := by
  obtain ⟨i, -, rfl⟩ := List.mem_map.mp m
  unfold standOf
  omega

/-- The port that a stand releases is its own, holds a token of the current epoch, and its pool covers it. -/
theorem nextRelease_spec {s : State} {k p : Nat} (hk : k < 6) (e : s.nextRelease k = some p) :
    standOf p = k ∧ s.eligible p = true ∧ s.canGrant (1 + k) (polWeight s.pol p) = true := by
  unfold State.nextRelease at e
  split at e
  · next q found =>
    split at e
    · next can =>
      cases e
      exact ⟨standOf_of_mem_releaseOrder hk (List.mem_of_find?_eq_some found), List.find?_some found, can⟩
    · cases e
  · cases e

theorem token_of_eligible {s : State} {p : Nat} (e : s.eligible p = true) : (s.ph p).token = some s.boot.epoch := by
  simp only [State.eligible, Bool.and_eq_true, decide_eq_true_eq] at e
  obtain ⟨⟨⟨⟨⟨⟨⟨-, token⟩, -⟩, -⟩, -⟩, -⟩, -⟩, -⟩ := e
  exact token

/-- A command that opens a held port is a release of that port. -/
theorem opens_of_exec {s t : State} {i : Instr} {p : Nat} (run : exec i s = .next t) (held : (s.ph p).hold = true)
    (open' : (t.ph p).hold = false) :
    ∃ k, i = .portRelease k .nothing ∧ s.nextRelease k.val = some p ∧ t = s.release p := by
  by_cases ne : ∀ k, i ≠ .portRelease k .nothing
  · have kept : Ends .held s (exec i s) := exec_ends Keeps.refl i ne
    rw [run] at kept
    exact absurd (kept p held) (by simp [open'])
  · push Not at ne
    obtain ⟨k, rfl⟩ := ne
    refine ⟨k, rfl, ?_⟩
    simp only [exec, execPortRelease] at run
    split at run
    · cases run
      simp_all
    · split at run
      · contradiction
      · cases run
        simp_all
      · next q found _ =>
        cases run
        by_cases same : p = q
        · subst same
          exact ⟨found, rfl⟩
        · rw [release_ph, if_neg same, held] at open'
          cases open'
      all_goals contradiction

/-- Settles O56: every other command keeps what is held (`exec_ends`), and a release opens the one port it names. -/
theorem onlyReleaseOpensAPort : Obligations.OnlyReleaseOpensAPort := by
  unfold Obligations.OnlyReleaseOpensAPort
  intro s t p run held opened
  unfold step at run
  split at run
  · cases run
    exact absurd ((Keeps.refl : Keeps .held s s).tick p held) (by simp [opened])
  · next c rest waiting =>
    obtain ⟨k, rfl, next, rfl⟩ := opens_of_exec (p := p) run held opened
    obtain ⟨own, fit, can⟩ := nextRelease_spec k.isLt next
    refine ⟨token_of_eligible fit, k, rest, waiting, own.symm, next, can, ?_⟩
    rw [← own] at can ⊢
    exact release_heldOf can

end Sys2Proof.Machine
end

section
namespace Sys2Proof.Machine
open Sys2Proof

/-! ### O22: releases of a stand -/

theorem openNext_spec {s : State} (leads : s.leads = true) (pol : s.wake.policy.isSome = true) (left : s.wake.standNext < 6) :
    let t := s.openNext
    let n := (polStandOrder s.pol).getD s.wake.standNext 0
    t.wake.standNext = s.wake.standNext + 1 ∧ t.hold = s.hold ∧ (t.st n).opened = ((s.st n).gate || (s.st n).opened)
      ∧ (t.st n).status = (if (s.st n).gate then 0 else 0x5201) ∧ t.home = s.home := by
  extract_lets t n
  obtain ⟨p, accepted⟩ := Option.isSome_iff_exists.mp pol
  have bytes : s.pol = p.bytes := by simp [State.pol, accepted]
  let u : State := { s with wake := { s.wake with standNext := s.wake.standNext + 1 } }
  have stand : u.st n = s.st n := rfl
  have opens : t = if (u.st n).gate then u.stU n fun t => { t with opened := true, status := 0 } else u.standRefuses n := by
    unfold t State.openNext n
    rw [accepted, bytes]
    exact if_pos ⟨left, leads⟩
  rw [opens, stand]
  cases gate : (s.st n).gate with
  | true => exact ⟨rfl, rfl, by simp, by simp, rfl⟩
  | false =>
    refine ⟨rfl, rfl, ?_, ?_, rfl⟩
    · simp [State.standRefuses, stand]
    · simp [State.standRefuses, standClosed]

/-- What a stand's fault does to its gate, whatever its cause (R36, R38). -/
theorem standFault_gate (s : State) (k : Nat) : ((s.standFault k).st k).gate = false := by
  unfold State.standFault
  extract_lets t
  have gate : (t.st k).gate = false := by simp [t]
  split
  · exact gate
  · exact gate

theorem standFails_gate (s : State) (k : Nat) (c : StandCause) : ((s.standFails k c).st k).gate = false := by
  unfold State.standFails
  split
  · exact standFault_gate ..
  · exact standFault_gate ..
  · exact standFault_gate ..
  · exact standFault_gate ..

/-- A reconciliation that starts on a pool that is not frozen takes a holder in (R400). -/
theorem reconcile_thawed {s : State} {q cause h : Nat} (thawed : (s.po q).st ≠ .frozen) :
    ((s.reconcile q cause [h]).po q).st = .reconciling
      ∧ ({ holder := h, cause := cause } : PoolRet) ∈ ((s.reconcile q cause [h]).po q).ret := by
  unfold State.reconcile State.reconcileOf
  rw [State.poU_po_same]
  refine ⟨by simp [thawed], ?_⟩
  by_cases old : ({ holder := h, cause := cause } : PoolRet) ∈ (s.po q).ret
  · exact List.mem_append_left _ old
  · exact List.mem_append_right _ (by simp [old])

theorem canGrant_ok {s : State} {q n : Nat} (can : s.canGrant q n = true) : (s.po q).st = .ok := by
  unfold State.canGrant at can
  simp only [Bool.and_eq_true, decide_eq_true_eq] at can
  exact can.1

theorem heldNow_of_eligible {s : State} {p : Nat} (e : s.eligible p = true) : s.heldNow p = true := by
  simp only [State.eligible, Bool.and_eq_true] at e
  obtain ⟨⟨⟨⟨⟨⟨⟨held, -⟩, -⟩, -⟩, -⟩, -⟩, -⟩, -⟩ := e
  exact held

theorem release_home (s : State) (p : Nat) : (s.release p).home = s.home := by
  unfold State.release
  extract_lets k w dark s1 s2 _ s4 s5 s6 s7
  have first : Keeps .spared s s1 := Keeps.refl.poolGrant
  have rest : Keeps .spared s2 s7.runtimeDraw := ((((Keeps.refl.same : Keeps .spared s2 s4).mend).pushEvent).logRec).runtimeDraw
  exact rest.home.trans first.home

/-- A controller fault that meets a release (R36, R400). -/
theorem release_faulted {s : State} {k p n : Nat} {c : StandCause} (fit : s.eligible p = true) (can : s.canGrant (1 + k) n = true) :
    let t := ((s.poolGrant (1 + k) (p / 6) n).standFails k c).reconcile (1 + k) 3 [p / 6]
    t.heldNow p = true ∧ (t.ph p).token = some s.boot.epoch ∧ (t.st k).gate = false
      ∧ (t.po (1 + k)).st = .reconciling ∧ ({ holder := p / 6, cause := 3 } : PoolRet) ∈ (t.po (1 + k)).ret := by
  extract_lets t
  have faulted : Keeps .spared s ((s.poolGrant (1 + k) (p / 6) n).standFails k c) := Keeps.refl.poolGrant.standFails nofun
  have thawed := mt faulted.frozen (by rw [canGrant_ok can]; nofun)
  exact ⟨faulted.reconcile.heldNow (heldNow_of_eligible fit), (faulted.reconcile.token p).trans (token_of_eligible fit),
    standFails_gate .., reconcile_thawed thawed⟩

theorem keeps_of_quiet {p : Pool} (quiet : p.quiet = true) (h : Nat) : p.keeps h = Tab.get 0 p.held h := by
  simp only [Pool.quiet, Bool.and_eq_true, List.isEmpty_iff] at quiet
  obtain ⟨⟨⟨-, ret⟩, late⟩, -⟩ := quiet
  simp [Pool.keeps, ret, late]

/-- A return that a quiet pool's holder covers lands at once (R393). -/
theorem poolBack_quiet {s : State} {q h n : Nat} (quiet : (s.po q).quiet = true) (covered : n ≤ s.heldOf q h) :
    (s.poolBack q h n).po q = { s.po q with
      free := (s.po q).free + n, held := Tab.upd 0 (s.po q).held h (· - n), holding := Tab.upd 0 (s.po q).holding h (· - n) } := by
  simp only [Pool.quiet, Bool.and_eq_true, decide_eq_true_eq] at quiet
  obtain ⟨⟨⟨ok, -⟩, -⟩, -⟩ := quiet
  unfold State.poolBack
  rw [State.poU_po_same, if_neg (by rw [ok]; nofun)]
  exact if_pos covered

/-- The census unit then raises nothing (R396). -/
theorem poolReturn_quiet {s : State} {q h n : Nat} (quiet : (s.po q).quiet = true) (covered : n ≤ s.heldOf q h) :
    s.poolReturn q h n = s.poolBack q h n := by
  unfold State.poolReturn State.censusAlarm
  rw [poolBack_quiet quiet covered]
  simp only [Pool.quiet, Bool.and_eq_true, Bool.not_eq_true'] at quiet
  exact if_neg (by simp [quiet.2])

/-- What that return does to the counts. -/
theorem poolBack_counts {s : State} {q h n : Nat} (quiet : (s.po q).quiet = true) (covered : n ≤ s.heldOf q h) :
    (s.poolBack q h n).heldOf q h = s.heldOf q h - n ∧ ((s.poolBack q h n).po q).free = (s.po q).free + n := by
  unfold State.heldOf
  rw [poolBack_quiet quiet covered]
  exact ⟨by simp, rfl⟩

theorem settleExpiry_returns {s : State} {p : PortId} (runs : (s.ph p.val).settle.isSome = true)
    (quiet : (s.po (1 + standOf p.val)).quiet = true) :
    Completes (.settleExpiry p) s fun t =>
      (t.ph p.val).settle = none ∧ (t.ph p.val).hold = (s.ph p.val).hold
      ∧ t.heldOf (1 + standOf p.val) (p.val / 6) = 0
      ∧ (t.po (1 + standOf p.val)).free = (s.po (1 + standOf p.val)).free + s.heldOf (1 + standOf p.val) (p.val / 6) := by
  let u := s.phU p.val fun h => { h with settle := none }
  have port : u.ph p.val = { s.ph p.val with settle := none } := State.phU_ph_same ..
  have all : s.holds (1 + standOf p.val) (p.val / 6) = s.heldOf (1 + standOf p.val) (p.val / 6) := keeps_of_quiet quiet _
  have run : exec (.settleExpiry p) s = .next (if 0 < s.heldOf (1 + standOf p.val) (p.val / 6)
      then u.poolReturn (1 + standOf p.val) (p.val / 6) (s.heldOf (1 + standOf p.val) (p.val / 6)) else u) := by
    rw [← all]
    exact if_neg (by simp [Option.isSome_iff_ne_none.mp runs])
  refine ⟨_, run, ?_⟩
  split
  · have covered : s.heldOf (1 + standOf p.val) (p.val / 6) ≤ u.heldOf (1 + standOf p.val) (p.val / 6) := Nat.le_refl _
    obtain ⟨held, free⟩ := poolBack_counts (s := u) quiet covered
    rw [poolReturn_quiet (s := u) quiet covered]
    exact ⟨congrArg PHold.settle port, (congrArg PHold.hold port :), held.trans (Nat.sub_self _), free⟩
  · next none =>
    have zero : s.heldOf (1 + standOf p.val) (p.val / 6) = 0 := Nat.eq_zero_of_not_pos none
    exact ⟨by rw [port], by rw [port], zero, by rw [zero]; rfl⟩

/-- Settles O22: the release itself is `release_ph` and `release_heldOf`, a fault that meets it `release_faulted`. -/
theorem standReleases : Obligations.StandReleases := by
  unfold Obligations.StandReleases
  intro s k p
  refine ⟨fun service leads first pol left => ?_, fun service next => ⟨?_, ?_, fun c => ?_⟩, fun service next c => ?_,
    fun p runs quiet => settleExpiry_returns runs quiet⟩
  · exact ⟨_, if_pos (by simp [service, first]), openNext_spec leads pol left⟩
  · obtain ⟨own, -, can⟩ := nextRelease_spec k.isLt next
    have run : exec (.portRelease k .nothing) s = .next (s.release p) := by
      simp only [exec, execPortRelease, service, next, ne_eq, not_true_eq_false, if_false]
    have port : (s.release p).ph p = s.letGo p := by rw [release_ph, if_pos rfl]
    refine ⟨_, run, by rw [port]; rfl, by rw [port]; rfl, by rw [port]; rfl, by rw [port]; rfl, ?_, release_heldOf
      (by rw [own]; exact can), fun q ne => by rw [release_ph, if_neg ne], release_home ..⟩
    rw [port]
    unfold State.letGo
    split
    · exact .inr rfl
    · exact .inl rfl
  · have run : exec (.portRelease k .hold) s = .next (s.phU p fun h => { h with latch := true }) := by
      simp only [exec, execPortRelease, service, next, ne_eq, not_true_eq_false, if_false]
    obtain ⟨-, fit, -⟩ := nextRelease_spec k.isLt next
    have port : (s.phU p fun h => { h with latch := true }).ph p = { s.ph p with latch := true } := State.phU_ph_same ..
    exact ⟨_, run, by rw [port], by rw [port]; exact token_of_eligible fit, by rw [port], rfl⟩
  · obtain ⟨-, fit, can⟩ := nextRelease_spec k.isLt next
    refine ⟨_, ?_, release_faulted (c := c) fit can⟩
    simp only [exec, execPortRelease, service, next, ne_eq, not_true_eq_false, if_false]
  · have run : exec (.portRelease k (.fault c)) s = .next (s.standFails k.val c) := by
      simp only [exec, execPortRelease, service, next, ne_eq, not_true_eq_false, if_false]
    exact ⟨_, run, standFails_gate .., ((Keeps.refl : Keeps .spared s s).standFails nofun).home⟩

end Sys2Proof.Machine
end

section
namespace Sys2Proof.Machine
open Sys2Proof

/-! ### What an alarm below HOLD-PORT changes (R374, R378) -/

/-- The two states differ in the alarms, in what the cores do and in the free values used at most. -/
def OnlyAlarms (s t : State) : Prop := { t with alarms := s.alarms, cores := s.cores, fresh := s.fresh } = s

theorem OnlyAlarms.keys {s t : State} (h : OnlyAlarms s t) : t.keys = s.keys := by
  unfold OnlyAlarms at h
  have same := congrArg State.keys h
  exact same

theorem OnlyAlarms.mspi {s t : State} (h : OnlyAlarms s t) : t.mspi = s.mspi := by
  unfold OnlyAlarms at h
  have same := congrArg State.mspi h
  exact same

theorem OnlyAlarms.fuses {s t : State} (h : OnlyAlarms s t) : t.fuses = s.fuses := by
  unfold OnlyAlarms at h
  have same := congrArg State.fuses h
  exact same

/-- The alarm of this code and rank is new among the active ones. -/
def Raised (s t : State) (code rank : Nat) : Prop := ∃ a ∈ t.alarms.active, s.alarms.seq < a.seq ∧ a.code = code ∧ a.rank = rank

theorem onlyAlarms_setLine {s t : State} (h : OnlyAlarms s t) (n : Nat) (v : Bool) :
    OnlyAlarms s (t.setLine n v) ∧ (t.setLine n v).alarms = t.alarms := by
  unfold State.setLine State.each
  induction lineCores n generalizing t with
  | nil => exact ⟨h, rfl⟩
  | cons c l ih => exact ih (t := t.coU c _) h

theorem dataUsed_low (s : State) (data : Nat) : OnlyAlarms s (s.dataUsed data) ∧ (s.dataUsed data).alarms = s.alarms := by
  unfold State.dataUsed
  split <;> exact ⟨rfl, rfl⟩

theorem mergeIn_active (a : Alarms) (rank : Nat) : (a.mergeIn rank).active = a.active := by
  unfold Alarms.mergeIn
  split <;> rfl

theorem enqueue_active (a : Alarms) (rank : Nat) (r : LogRec) : (a.enqueue rank r).active = a.active := by
  unfold Alarms.enqueue
  extract_lets low note mid
  split
  · rfl
  split
  · exact mergeIn_active ..
  split
  · exact mergeIn_active ..
  split
  · exact mergeIn_active ..
  split
  · exact mergeIn_active ..
  · exact mergeIn_active ..

theorem decided_low {s u : State} {code rank tkind target data : Nat} (hu : OnlyAlarms s u ∧ u.alarms = s.alarms) (hr : rank ≤ 1) :
    OnlyAlarms s (u.decided code rank tkind target data) ∧ Raised s (u.decided code rank tkind target data) code rank := by
  obtain ⟨only, alarms⟩ := hu
  unfold State.decided
  extract_lets word s1 a mark al held s2 s3 s4
  have used : OnlyAlarms s s1 ∧ s1.alarms = s.alarms := by
    unfold s1 State.dataUsed
    split <;> exact ⟨only, alarms⟩
  have none : held = [] := holdSet_low hr tkind target
  have rest : s3 = s2 := by
    unfold s3
    rw [none]
    rfl
  have new : Raised s s2 code rank := ⟨al, by simp [s2], by simp [al, a, used.2], rfl, rfl⟩
  have queued : Raised s s4 code rank := by
    unfold Raised s4
    rw [enqueue_active, rest]
    exact new
  obtain ⟨last, same⟩ := onlyAlarms_setLine (t := s4) (by unfold s4; rw [rest]; exact used.1) 6 true
  exact ⟨last, by unfold Raised; rw [same]; exact queued⟩

theorem raise_low (s : State) {code rank tkind target data : Nat} (hr : rank ≤ 1) :
    OnlyAlarms s (s.raise code rank tkind target data) ∧ Raised s (s.raise code rank tkind target data) code rank := by
  unfold State.raise
  extract_lets word s1 s2 s3 _ s4
  have same : s2 = s1 := if_neg (by omega)
  have silent : s4 = s3 := if_neg (by omega)
  rw [if_neg (by omega), silent]
  unfold s3
  rw [same]
  exact decided_low (dataUsed_low s data) hr

theorem roleAlarm_spec (s : State) : OnlyAlarms s s.roleAlarm ∧ Raised s s.roleAlarm 0x0302 1 := raise_low s (by decide)

/-! ### O37: a key-unit function that is refused -/

/-- What a function of the key unit may leave behind: RESULT OK, or its slots as they were (R333, R350). -/
def Refuses (s t : State) (src : KeyIssue) (n : Nat) : Prop :=
  (t.keys.result ≠ 0 → (s.ks n).sound = true → src.ended ≠ .restart → t.keys.slots = s.keys.slots)
    ∧ (s.noLead src.agent = true → t.keys.result = 0x1408)

theorem keyCheck_sound {s : State} {n : Nat} (sound : (s.ks n).sound = true) : s.keyCheck n = s := by
  unfold State.keyCheck
  rw [sound]
  rfl

theorem keyResult_refuses {s : State} {src : KeyIssue} {n : Nat} (r : Nat) (lead : s.noLead src.agent = false) :
    Refuses s (s.keyResult r) src n := ⟨fun _ _ _ => rfl, fun no => by rw [lead] at no; cases no⟩

theorem done_refuses {s : State} {src : KeyIssue} {n : Nat} (f : State) (lead : s.noLead src.agent = false) :
    Refuses s (f.keyResult 0) src n := ⟨fun bad => absurd rfl bad, fun no => by rw [lead] at no; cases no⟩

theorem roleOr_refuses (s : State) (src : KeyIssue) (n : Nat) (may : Bool) (r : Nat) (f : State) (cut : Bool) :
    Refuses s (s.roleOr src n may r f cut) src n := by
  unfold State.roleOr
  cases lead : s.noLead src.agent with
  | true =>
    obtain ⟨only, -⟩ := roleAlarm_spec (s.keyResult 0x1408)
    have keys := only.keys
    rw [if_pos rfl]
    exact ⟨fun _ _ _ => by rw [keys]; rfl, fun _ => by rw [keys]; rfl⟩
  | false =>
    simp only [Bool.false_eq_true, if_false]
    split
    · exact keyResult_refuses _ lead
    split
    · exact keyResult_refuses _ lead
    split
    · exact keyResult_refuses _ lead
    split
    · exact ⟨fun _ sound _ => by rw [keyCheck_sound sound]; rfl, fun no => by rw [lead] at no; cases no⟩
    split
    · exact done_refuses f lead
    · exact keyResult_refuses _ lead
    · next restart => exact ⟨fun _ _ ends => absurd restart ends, fun no => by rw [lead] at no; cases no⟩
    · split
      · exact keyResult_refuses _ lead
      · exact done_refuses f lead

/-- A function that places no key ends like one that does, but for a warm restart. -/
theorem plain_refuses {s t : State} {src : KeyIssue} {n : Nat} (h : Refuses s t (keyPlain src) n) : Refuses s t src n := by
  refine ⟨fun bad sound _ => h.1 bad sound ?_, h.2⟩
  unfold keyPlain
  dsimp only
  split
  · nofun
  · assumption

theorem refuses_of_write {s t : State} {src : KeyIssue} {slot : KeySlotId} {attr : W32}
    (e : execKeyUnitWrite src slot attr s = .next t) : Refuses s t src slot.val := by
  unfold execKeyUnitWrite at e
  extract_lets n at e
  split at e <;> (cases e; exact roleOr_refuses ..)

theorem refuses_of_generate {s t : State} {src : KeyIssue} {slot : KeySlotId} {curve : BitVec 2} {attr : W32}
    (e : execKeyUnitGenerate src slot curve attr s = .next t) : Refuses s t src slot.val := by
  unfold execKeyUnitGenerate at e
  extract_lets n v at e
  split at e
  · next link =>
    cases e
    split
    · exact roleOr_refuses ..
    · exact keyResult_refuses _ (by rw [link]; rfl)
  · cases e
    exact roleOr_refuses ..

theorem refuses_of_derive {s t : State} {src : KeyIssue} {slot : KeySlotId} {parent : BitVec 6} {curve : BitVec 2} {attr : W32}
    {label context : List Byte} (e : execKeyUnitDerive src slot parent curve attr label context s = .next t) :
    Refuses s t src slot.val := by
  unfold execKeyUnitDerive at e
  extract_lets n pk root owner rights bits out key args at e
  split at e <;> (cases e; exact roleOr_refuses ..)

/-- Settles O37: each function ends through `State.roleOr`, whose refusals are `roleOr_refuses`. -/
theorem refusedKeyFunctionsChangeNoSlot : Obligations.RefusedKeyFunctionsChangeNoSlot := by
  unfold Obligations.RefusedKeyFunctionsChangeNoSlot
  intro s t src slot attr curve parent label context i listed run
  show Refuses s t src slot.val
  simp only [List.mem_cons, List.not_mem_nil, or_false] at listed
  obtain rfl | rfl | rfl | rfl | rfl | rfl := listed
  · exact refuses_of_write run
  · exact refuses_of_generate run
  · exact refuses_of_derive run
  · cases run
    exact plain_refuses (roleOr_refuses ..)
  · cases run
    exact plain_refuses (roleOr_refuses ..)
  · cases run
    exact plain_refuses (roleOr_refuses ..)

end Sys2Proof.Machine
end

section
namespace Sys2Proof.Machine
open Sys2Proof

/-! ### O45: the register window -/

/-- A frame returns its words from the first on (R455). -/
theorem returns_head (s : State) (w : W32) (ws : List W32) (crc : W32) {clocked : Nat} (some' : 0 < clocked) :
    (s.returns (w :: ws) crc clocked).mspi.out.head? = some w := by
  obtain ⟨n, rfl⟩ := Nat.exists_eq_succ_of_ne_zero some'.ne'
  unfold State.returns
  dsimp only
  cases s.mspi.crcOn <;> rfl

/-- The first word of a frame is the one at its address (R479). -/
theorem windowWords_first (s : State) (a n : Nat) : ∃ ws, (s.windowWords a false false (n + 1)).2 = (s.windowTake a).2 :: ws :=
  ⟨_, rfl⟩

theorem windowTake_word (s : State) (a : Nat) : (s.windowTake a).2 = (s.windowRead a).getD 0 := by
  unfold State.windowTake
  cases s.windowRead a <;> rfl

theorem windowFrame_head (s : State) (addr : W24) {clocked : Nat} (some' : 0 < clocked) :
    (s.windowFrame addr clocked).mspi.out.head? = some ((s.windowRead addr.toNat).getD 0) := by
  obtain ⟨n, len⟩ : ∃ n, (if s.mspi.crcOn then min 1 clocked else clocked) = n + 1 := by
    refine Nat.exists_eq_succ_of_ne_zero ?_
    split <;> omega
  obtain ⟨ws, first⟩ := windowWords_first s addr.toNat n
  unfold State.windowFrame
  rw [len]
  dsimp only
  rw [first, windowTake_word]
  exact returns_head _ _ _ _ some'

theorem windowRead_completes {s : State} {addr : W24} {clocked : Nat} {w : W32} (live : s.mspiDead = false)
    (service : s.boot.dev = .service)
    (aligned : addr.toNat % 4 = 0) (some' : 0 < clocked) (word : (s.windowRead addr.toNat).getD 0 = w) :
    Completes (.registerWindowRead addr clocked) s fun t => t.mspi.out.head? = some w := by
  subst word
  refine ⟨s.windowFrame addr clocked, ?_, windowFrame_head s addr some'⟩
  simp [exec, execRegisterWindowRead, live, service, aligned]

/-- A frame of one word puts it at its address (R479). -/
theorem windowWrite_run {s : State} {m : MspiIn} {v : W32} (live : s.mspiDead = false) (service : s.boot.dev = .service)
    (aligned : m.addr.toNat % 4 = 0) (one : s.hostFrame 0x32 m = .ok [v]) :
    exec (.registerWindowWrite m) s = .next ((s.windowPut m.addr.toNat v).lastResult 0) := by
  simp only [exec, execRegisterWindowWrite, live, service, aligned, one, Bool.false_eq_true, ne_eq, not_true_eq_false, if_false]
  rfl

theorem windowPut_unmapped {s : State} {a : Nat} (none' : s.windowLive a = none) (v : W32) :
    s.windowPut a v = { s with mspi := { s.mspi with unmapped := BitVec.ofNat 16 (satAdd 16 s.mspi.unmapped.toNat 1) } } := by
  unfold State.windowPut
  rw [none']

theorem satAdd_lt (w n k : Nat) : satAdd w n k < 2 ^ w := by
  have pos : 0 < 2 ^ w := Nat.two_pow_pos w
  unfold satAdd
  omega

/-! #### The latch of a wide register (R482) -/

/-- The state with an upper word latched. -/
def State.latchWord (s : State) (u : Nat) : State :=
  { s with mspi := { s.mspi with latch := Tab.put none s.mspi.latch u (s.windowLive u) } }

theorem latchWord_deviceWord (s : State) (u a : Nat) : (s.latchWord u).deviceWord a = s.deviceWord a := (rfl)
theorem latchWord_portWord (s : State) (u p a : Nat) : (s.latchWord u).portWord p a = s.portWord p a := (rfl)
theorem latchWord_censusWord (s : State) (u q i : Nat) : (s.latchWord u).censusWord q i = s.censusWord q i := (rfl)
theorem latchWord_channelWord (s : State) (u k : Nat) : (s.latchWord u).channelWord k = s.channelWord k := (rfl)

theorem latchWord_live (s : State) (u a : Nat) : (s.latchWord u).windowLive a = s.windowLive a := by
  unfold State.windowLive
  simp only [latchWord_deviceWord, latchWord_portWord, latchWord_censusWord, latchWord_channelWord]

/-- Latching a list of words keeps the live ones, the words latched before and gives each its live value. -/
theorem latchWords_spec (l : List Nat) (s : State) :
    (∀ a, (s.each l State.latchWord).windowLive a = s.windowLive a)
    ∧ ∀ u, Tab.get none (s.each l State.latchWord).mspi.latch u = if u ∈ l then s.windowLive u else Tab.get none s.mspi.latch u := by
  induction l generalizing s with
  | nil => exact ⟨fun _ => rfl, fun _ => rfl⟩
  | cons x l ih =>
    obtain ⟨live, latch⟩ := ih (s.latchWord x)
    refine ⟨fun a => (live a).trans (latchWord_live s x a), fun u => (latch u).trans ?_⟩
    rw [latchWord_live]
    by_cases rest : u ∈ l
    · simp [rest]
    · by_cases same : u = x
      · subst same
        simp [rest, State.latchWord]
      · simp [rest, same, State.latchWord]

/-- A register with upper words has a lowest word (R482 to R486). -/
theorem windowRead_lowest {s : State} {a : Nat} (wide : rsUpper a ≠ []) : (s.windowRead a).isSome = true := by
  have live : (s.windowLive a).isSome = true := by
    unfold rsUpper at wide
    split at wide
    · next small => obtain rfl | rfl | rfl := small <;> rfl
    split at wide
    · next port =>
      obtain ⟨low, high, start⟩ := port
      unfold State.windowLive
      rw [if_neg (by omega), if_pos ⟨low, high⟩, start]
      rfl
    split at wide
    · next pool =>
      obtain ⟨low, high, start⟩ := pool
      have some' : poolHolders ((a - 0x20000) / 128) ≠ 0 := fun zero => wide (by rw [zero]; rfl)
      unfold State.windowLive
      rw [if_neg (by omega), if_neg (by omega), if_pos ⟨low, high⟩]
      dsimp only
      rw [start, if_neg (by omega)]
      rfl
    · exact absurd rfl wide
  obtain ⟨w, word⟩ := Option.isSome_iff_exists.mp live
  unfold State.windowRead
  rw [word]
  cases rsLowest a <;> rfl

theorem latchRead_completes {s : State} {addr : W24} (live : s.mspiDead = false) (service : s.boot.dev = .service)
    (wide : rsUpper addr.toNat ≠ []) :
    Completes (.rsLatchRead addr) s fun t => ∀ u ∈ rsUpper addr.toNat, Tab.get none t.mspi.latch u = s.windowLive u := by
  obtain ⟨w, word⟩ := Option.isSome_iff_exists.mp (windowRead_lowest (s := s) wide)
  have take : s.windowTake addr.toNat = (s.each (rsUpper addr.toNat) State.latchWord, w) := by
    unfold State.windowTake
    rw [word]
    rfl
  refine ⟨_, if_pos ⟨live, service, wide⟩, fun u mem => ?_⟩
  obtain ⟨-, latch⟩ := latchWords_spec (rsUpper addr.toNat) s
  rw [take]
  exact (latch u).trans (if_pos mem)

/-! #### Device registers -/

theorem getD_setAt {α : Type} (l : List α) (i : Nat) (v d : α) (h : i < l.length) : (setAt l i v).getD i d = v := by
  induction l generalizing i with
  | nil => exact absurd h (Nat.not_lt_zero _)
  | cons x l ih =>
    cases i with
    | zero => rfl
    | succ i => exact ih i (Nat.lt_of_succ_lt_succ h)

theorem disarm_spec (s : State) : s.disarm.fuses.done = s.fuses.done ∧ s.disarm.fuses.state ≠ .armed := by
  refine ⟨rfl, ?_⟩
  unfold State.disarm
  dsimp only
  split <;> nofun

/-- A write of the fuse controller ends an arming (R364). -/
theorem disarmed_spec (s : State) : let t := if s.fuses.state = .armed then s.disarm else s
    t.fuses.done = s.fuses.done ∧ t.fuses.state ≠ .armed := by
  extract_lets t
  by_cases armed : s.fuses.state = .armed
  · rw [show t = s.disarm from if_pos armed]
    exact disarm_spec s
  · rw [show t = s from if_neg armed]
    exact ⟨rfl, armed⟩

theorem setLine_fuses (s : State) (n : Nat) (v : Bool) : (s.setLine n v).fuses = s.fuses := by
  obtain ⟨only, -⟩ := onlyAlarms_setLine (s := s) (t := s) rfl n v
  exact only.fuses

theorem engineStatus_write {s : State} {src : Agent} (e : EngineId) (v : W32) (core : fuseCore src = true) :
    Completes (.registerWrite src (.engineStatus e) v) s fun t => (t.en e.val).done = ((s.en e.val).done && !bitOf v.toNat 27) := by
  refine ⟨_, if_neg (by rw [core]; nofun), ?_⟩
  split
  · unfold State.en
    rw [setLine_engines]
    exact congrArg Engine.done (State.enU_en_same ..)
  · exact congrArg Engine.done (State.enU_en_same ..)

theorem fuseStatus_write {s : State} {src : Agent} (v : W32) (core : fuseCore src = true) :
    Completes (.registerWrite src .fuseStatus v) s fun t =>
      t.fuses.done = (s.fuses.done && !bitOf v.toNat 29) ∧ t.fuses.state ≠ .armed := by
  obtain ⟨done, idle⟩ := disarmed_spec s
  refine ⟨_, if_neg (by rw [core]; nofun), ?_⟩
  rw [← done]
  split
  · rw [setLine_fuses]
    exact ⟨rfl, idle⟩
  · exact ⟨rfl, idle⟩

theorem image_write {s : State} {src : Agent} (i : Fin 16) (v : W32) (core : fuseCore src = true) :
    Completes (.registerWrite src (.image i) v) s fun t => t.fuses.image.getD i.val 0 = v ∧ t.fuses.state ≠ .armed :=
  ⟨_, if_neg (by rw [core]; nofun), getD_setAt _ _ _ _ (by simp), (disarmed_spec s).2⟩

/-- A core that lacks LEAD gets the alarm of R28 alone. -/
theorem roleAlarm_completes {s : State} {i : Instr} (run : exec i s = .next s.roleAlarm) :
    Completes i s fun t => OnlyAlarms s t ∧ Raised s t 0x0302 1 := ⟨_, run, roleAlarm_spec s⟩

theorem Completes.mono {i : Instr} {s : State} {P Q : State → Prop} (h : Completes i s P) (imp : ∀ t, P t → Q t) : Completes i s Q := by
  obtain ⟨t, run, holds⟩ := h
  exact ⟨t, run, imp t holds⟩

theorem standRefuses_st (s : State) (k : Nat) : (s.standRefuses k).st k = { s.st k with status := standClosed } := State.stU_st_same ..

theorem standOpen_write {s : State} {src : Agent} (k : StandId) (v : W32) (may : s.noLead src = false) (lead : s.leadAgent = some src)
    (service : s.boot.dev = .service) :
    exec (.registerWrite src (.standOpen k) v) s = .next (if (s.st k.val).gate then
      s.stU k.val fun t => { t with opened := true, status := 0 } else s.standRefuses k.val) :=
  (if_neg (by rw [may]; nofun)).trans (if_pos ⟨lead, service⟩)

theorem response_write {s : State} {src : Agent} {q : MailboxId} (v : W32) (may : s.noLead src = false) (fw : s.firmware src = true)
    (ready : (s.mb q.val).ready = true) (room : 1 ≤ s.rspRoom q.val) :
    ((s.mb q.val).aborted = false → Completes (.registerWrite src (.response q) v) s fun t => (t.mb q.val).rsp = (s.mb q.val).rsp ++ [v])
      ∧ ((s.mb q.val).aborted = true → Completes (.registerWrite src (.response q) v) s fun t => t = s) := by
  have lead : ¬ s.noLead src = true := by rw [may]; nofun
  refine ⟨fun runs => ?_, fun aborted => ?_⟩
  · refine ⟨_, (if_neg lead).trans (if_pos ⟨fw, ready, by rw [runs]; rfl, room⟩), ?_⟩
    exact congrArg Mbox.rsp (State.mbU_mb_same ..)
  · exact ⟨_, (if_neg lead).trans (if_neg (by simp [aborted])), rfl⟩

/-- Settles O45: frames by their first word, the latch by `latchWords_spec`, registers one by one. -/
theorem registerWindowAndRegisters : Obligations.RegisterWindowAndRegisters := by
  unfold Obligations.RegisterWindowAndRegisters
  intro s m addr clocked v src e i k q
  refine ⟨fun service live => ⟨fun aligned some' => ⟨fun w word => ?_, fun none' => ?_⟩, fun one => ⟨fun scratch => ?_,
    fun aligned none' => ?_⟩,
      fun wide => latchRead_completes live service wide⟩,
    fun core => ⟨engineStatus_write e v core, fuseStatus_write v core, image_write i v core⟩, fun may fw => ?_, fun no => ?_,
    fun may lead service => ⟨fun gate => ?_, fun gate => ?_⟩, fun no => ?_,
    fun may fw ready room => response_write v may fw ready room, fun shadow out => ⟨_, if_pos ⟨rfl, shadow, out⟩, rfl, rfl⟩⟩
  · exact windowRead_completes live service aligned some' (by rw [word]; rfl)
  · exact windowRead_completes live service aligned some' (by rw [none']; rfl)
  · have run := windowWrite_run live service (by rw [scratch]; rfl) one
    rw [scratch] at run
    exact ⟨_, run, rfl, rfl, rfl⟩
  · refine ⟨_, windowWrite_run live service aligned one, ?_⟩
    rw [windowPut_unmapped none']
    exact ⟨Nat.mod_eq_of_lt (satAdd_lt 16 _ _), rfl⟩
  · exact ⟨_, (if_neg (by rw [may]; nofun)).trans (if_pos fw), getD_setAt _ _ _ _ (by simp), rfl⟩
  · have run : exec (.registerWrite src (.keyin i) v) s = .next s.roleAlarm := if_pos no
    exact (roleAlarm_completes run).mono fun t ⟨only, new⟩ => ⟨only.keys, new⟩
  · refine ⟨_, (standOpen_write k v may lead service).trans (congrArg _ (if_pos gate)), ?_, rfl⟩
    rw [State.stU_st_same]
  · refine ⟨_, (standOpen_write k v may lead service).trans (congrArg _ (if_neg (by rw [gate]; nofun))), ?_, ?_, rfl⟩
    · rw [standRefuses_st]
      rfl
    · rw [standRefuses_st]
  · have run : exec (.registerWrite src (.response q) v) s = .next s.roleAlarm := if_pos no
    exact (roleAlarm_completes run).mono fun t ⟨only, new⟩ => ⟨only.mspi, new⟩

end Sys2Proof.Machine
end

section
namespace Sys2Proof.Machine
open Sys2Proof

/-! ### O16: leave of the cores -/

theorem roomFor1_mono {s : State} {m n : Nat} (le : m ≤ n) (room : s.roomFor1 n = true) : s.roomFor1 m = true := by
  simp only [State.roomFor1, State.canGrant, Bool.and_eq_true, decide_eq_true_eq] at room ⊢
  obtain ⟨⟨ok, free⟩, reserve⟩ := room
  exact ⟨⟨ok, le.trans free⟩, by omega⟩

theorem lvTake_of_leaveFor1 {s : State} {m n : Nat} (u : LvUse) (le : m ≤ n) (leave : s.leaveFor1 n) :
    s.lvTake u m = some (s.lvGrant u m) := by
  obtain ⟨empty, room⟩ := leave
  exact if_pos (by rw [empty, roomFor1_mono le room]; rfl)

theorem lvWaits_of_leaveFor1 {s : State} {n : Nat} (u : LvUse) (leave : s.leaveFor1 n) : s.lvWaits u = false := by
  unfold State.lvWaits
  rw [leave.1]
  rfl

theorem lvGrant_leave (s : State) (u : LvUse) (n : Nat) :
    (s.lvGrant u n).leave = (s.poolGrant 0 u.holder n).leave ∧ (s.lvGrant u n).engines = s.engines := by
  have engines : (s.poolGrant 0 u.holder n).engines = s.engines := by
    unfold State.poolGrant
    split <;> rfl
  unfold State.lvGrant
  extract_lets t
  split
  · exact ⟨rfl, engines⟩
  · exact ⟨rfl, engines⟩

theorem holds_poolGrant {s : State} {q h j n : Nat} (ne : j ≠ h) : (s.poolGrant q h n).holds q j = s.holds q j := by
  unfold State.poolGrant
  split
  · unfold State.holds Pool.keeps
    rw [State.poU_po_same]
    simp only [Tab.get_upd_ne _ _ _ _ _ ne]
  · rfl

/-- A grant to a core takes its own tokens from what is there for the next (R394, R395). -/
theorem leaveFor1_lvGrant {s : State} {u : LvUse} {m n : Nat} (core : 4 < u.holder) (leave : s.leaveFor1 (m + n)) :
    (s.lvGrant u m).leaveFor1 n := by
  obtain ⟨empty, room⟩ := leave
  obtain ⟨same, engines⟩ := lvGrant_leave s u m
  have first := roomFor1_mono (Nat.le_add_right m n) room
  simp only [State.roomFor1, Bool.and_eq_true, decide_eq_true_eq] at room first
  have pool : (s.lvGrant u m).po 0 = (s.poolGrant 0 u.holder m).po 0 := by
    unfold State.po
    rw [same]
  have drawn : (s.poolGrant 0 u.holder m).po 0 = { s.po 0 with
      free := (s.po 0).free - m, held := Tab.upd 0 (s.po 0).held u.holder (· + m)
      holding := Tab.upd 0 (s.po 0).holding u.holder (· + m) } := by
    unfold State.poolGrant
    rw [if_pos first.1, State.poU_po_same]
  have holds : ∀ j, j ≤ 4 → (s.lvGrant u m).holds 0 j = s.holds 0 j := fun j small => by
    rw [← holds_poolGrant (s := s) (q := 0) (n := m) (show j ≠ u.holder by omega)]
    unfold State.holds
    rw [pool]
  have urgent : (s.lvGrant u m).urgentHeld = s.urgentHeld := by
    have chains : ∀ e, (s.lvGrant u m).en e = s.en e := fun e => by
      unfold State.en
      rw [engines]
    unfold State.urgentHeld
    rw [holds 4 (Nat.le_refl _)]
    congr 2
    simp only [chains]
    refine List.map_congr_left fun e mem => holds e ?_
    have four := List.mem_range.mp (List.mem_of_mem_filter mem)
    omega
  constructor
  · rw [same]
    unfold State.poolGrant
    split <;> exact empty
  · simp only [State.roomFor1, State.canGrant, Bool.and_eq_true, decide_eq_true_eq] at room ⊢
    obtain ⟨⟨ok, free⟩, reserve⟩ := room
    rw [urgent, pool, drawn]
    dsimp only
    exact ⟨⟨ok, by omega⟩, by omega⟩

/-- Both Canopy tokens are there (R57, R394). -/
theorem canopyTokens {s : State} (leave : s.leaveFor1 2) :
    ((s.lvTake .canopyA 1).bind fun t => t.lvTake .canopyB 1) = some ((s.lvGrant .canopyA 1).lvGrant .canopyB 1) := by
  rw [lvTake_of_leaveFor1 .canopyA (by decide) leave]
  exact lvTake_of_leaveFor1 .canopyB (Nat.le_refl 1) (leaveFor1_lvGrant (by decide) leave)

/-! #### The release of the Canopy cores -/

theorem startCore_co (s : State) (c j : Nat) (v : W24) : (s.startCore c v).co j
    = if j = c then { run := .running, pc := vectorPc v, lines := (s.co c).lines &&& 0xF7FF } else s.co j := State.coU_co ..

theorem canopyGo_spec (s : State) (b : Bundle) :
    let t := s.canopyGo b
    t.boot.dev = .service ∧ t.boot.lead = .a ∧ t.boot.canopyOut = true ∧ t.boot.seedOut = false ∧ (t.co 0).run = .halted
      ∧ (t.co 1).run = .running ∧ (t.co 1).pc = vectorPc b.canopy ∧ (t.co 2).run = .running ∧ (t.co 2).pc = vectorPc b.canopy
      ∧ t.boot.running = b ∧ t.home = s.home := by
  have home : (s.canopyGo b).home = s.home := ((Keeps.refl : Keeps .spared s s).canopyGo nofun).home
  revert home
  unfold State.canopyGo
  extract_lets _ s1 s2 s3 _ _ _ _ _ s4 s5 s6 s7 _ s8 t
  intro home
  have seed : (s3.co 0).run = .halted := by rw [show s3.co 0 = { s2.co 0 with run := .halted } from State.coU_co_same ..]
  have canopy : ∀ j, j = 1 ∨ j = 2 → (s3.co j).run = .running ∧ (s3.co j).pc = vectorPc b.canopy := fun j two => by
    have kept : s3.co j = s1.co j := State.coU_co_ne _ _ _ _ (by omega)
    rw [kept]
    unfold s1
    obtain rfl | rfl := two
    · rw [startCore_co, if_neg (by decide), startCore_co, if_pos rfl]
      exact ⟨rfl, rfl⟩
    · rw [startCore_co, if_pos rfl]
      exact ⟨rfl, rfl⟩
  have boxes : Keeps .calm s4 s5 := Keeps.refl.each fun _ _ h => (Keeps.ite h.boxEmpty h).boxReady
  have late : Keeps .calm s4 s7 := boxes.logRec.each fun _ _ h => Keeps.ite h h.chU.enU.logRec
  have last : Keeps .calm s8 t := Keeps.ite Keeps.refl.openNext Keeps.refl
  have boot : t.boot = { s4.boot with seedOut := false } :=
    last.boot.trans (congrArg (fun x : Boot => { x with seedOut := false }) late.boot)
  have run : ∀ j, (t.co j).run = (s3.co j).run := fun j => (last.run j).trans (late.run j)
  have pc : ∀ j, (t.co j).pc = (s3.co j).pc := fun j => (last.pc j).trans (late.pc j)
  obtain ⟨run1, pc1⟩ := canopy 1 (.inl rfl)
  obtain ⟨run2, pc2⟩ := canopy 2 (.inr rfl)
  rw [boot, run, run, run, pc, pc]
  exact ⟨rfl, rfl, rfl, rfl, seed, run1, pc1, run2, pc2, rfl, home⟩

theorem canopyRelease_completes {s : State} {b : Bundle} (good : s.boot.step = .good) (bundle : s.boot.bundle = some b)
    (open' : s.boot.dev ≠ .sealed) (leave : s.leaveFor1 2) :
    Completes .canopyRelease s fun t =>
      t.boot.dev = .service ∧ t.boot.lead = .a ∧ t.boot.canopyOut = true ∧ t.boot.seedOut = false ∧ (t.co 0).run = .halted
      ∧ (t.co 1).run = .running ∧ (t.co 1).pc = vectorPc b.canopy ∧ (t.co 2).run = .running ∧ (t.co 2).pc = vectorPc b.canopy
      ∧ t.boot.running = b ∧ t.home = s.home := by
  let u := (s.lvGrant .canopyA 1).lvGrant .canopyB 1
  have run : exec .canopyRelease s = .next (u.canopyGo b) := by
    simp only [exec, execCanopyRelease, good, bundle, canopyTokens leave, open', lvWaits_of_leaveFor1 .canopyB leave, Bool.false_eq_true,
      or_self, if_false]
    rfl
  have granted : Keeps .spared s u := Keeps.refl.lvGrant.lvGrant
  obtain ⟨dev, lead, out, seed, run0, run1, pc1, run2, pc2, running, home⟩ := canopyGo_spec u b
  exact ⟨_, run, dev, lead, out, seed, run0, run1, pc1, run2, pc2, running, home.trans granted.home⟩

theorem canopyLeaveReturn_completes {s : State} (quiet : (s.po 0).quiet = true) (some' : 0 < s.heldOf 0 7)
    (idle : s.boot.step ≠ .verifying) :
    Completes .canopyLeaveReturn s fun t =>
      t.heldOf 0 7 + 1 = s.heldOf 0 7 ∧ (t.po 0).free = (s.po 0).free + 1 ∧ { t with leave := s.leave } = s := by
  obtain ⟨held, free⟩ := poolBack_counts (q := 0) (h := 7) (n := 1) quiet some'
  refine ⟨s.poolBack 0 7 1, ?_, by omega, free, rfl⟩
  have all : s.holds 0 7 = s.heldOf 0 7 := keeps_of_quiet quiet _
  exact congrArg _ (if_pos ⟨by omega, idle⟩)

/-! #### The link core -/

/-- The link core starts at LINK_ENTRY, whether it is released or reloaded (R56, R418). -/
theorem linkGo_spec (s : State) :
    let t := s.linkGo
    t.boot.linkOut = true ∧ (t.co 3).run = .running ∧ (t.co 3).pc = vectorPc s.boot.running.link ∧ t.home = s.home
      ∧ t.mems = s.mems := by
  have home : s.linkGo.home = s.home := ((Keeps.refl : Keeps .spared s s).linkGo nofun).home
  revert home
  unfold State.linkGo
  extract_lets reload s1 _ _ s2 t
  intro home
  have core : s1.co 3 = { run := .running, pc := vectorPc s.boot.running.link, lines := (s.co 3).lines &&& 0xF7FF } := by
    unfold s1
    rw [startCore_co, if_pos rfl]
  let u : State := { s1 with boot := { s1.boot with linkOut := true, linkReload := false }
                             hand := { s1.hand with linkSlot := s1.boot.running.slot } }
  have lanes : Keeps .calm u s2 := Keeps.refl.laneTrain.laneTrain
  have rest : Keeps .calm u t := by
    unfold t
    clear_value reload
    split
    · exact lanes.each fun _ _ h => h.resumeXfer
    · exact lanes
  rw [rest.boot, rest.run, rest.pc, rest.mems, show u.co 3 = s1.co 3 from rfl, core]
  exact ⟨rfl, rfl, rfl, home, rfl⟩

theorem linkAsk_spec {s : State} (leave : s.leaveFor1 1) :
    let t := s.linkAsk
    t.boot.linkOut = true ∧ (t.co 3).run = .running ∧ (t.co 3).pc = vectorPc s.boot.running.link ∧ t.home = s.home
      ∧ t.mems = s.mems := by
  have granted : Keeps .calm s (s.lvGrant .linkCore 1) := Keeps.refl.lvGrant
  have spared : Keeps .spared s (s.lvGrant .linkCore 1) := Keeps.refl.lvGrant
  have asks : s.linkAsk = (s.lvGrant .linkCore 1).linkGo := by
    unfold State.linkAsk
    rw [lvWaits_of_leaveFor1 .linkCore leave, lvTake_of_leaveFor1 .linkCore (Nat.le_refl 1) leave]
    rfl
  obtain ⟨out, run, pc, home, mems⟩ := linkGo_spec (s.lvGrant .linkCore 1)
  rw [asks]
  rw [granted.boot] at pc
  exact ⟨out, run, pc, home.trans spared.home, mems.trans granted.mems⟩

theorem linkReady_of {s : State} (service : s.boot.dev = .service) (sd : s.boot.sup.sd = true) (sda : s.boot.sup.sda = true)
    (off : s.boot.linkOut = false) : s.linkReady = true := by
  simp [State.linkReady, service, sd, sda, off]

theorem linkRelease_completes {s : State} (ready : s.linkReady = true) (reload : s.boot.linkReload = false) (leave : s.leaveFor1 1) :
    Completes .linkCoreRelease s fun t =>
      t.boot.linkOut = true ∧ (t.co 3).run = .running ∧ (t.co 3).pc = vectorPc s.boot.running.link ∧ t.home = s.home := by
  obtain ⟨out, run, pc, home, -⟩ := linkAsk_spec leave
  have go : exec .linkCoreRelease s = .next s.linkAsk := congrArg Host.Outcome.next (if_pos (by rw [ready, reload]; rfl))
  exact ⟨_, go, out, run, pc, home⟩

theorem linkReload_completes {s : State} (ready : s.linkReady = true) (leads : s.leads = true) (reload : s.boot.linkReload = true)
    (done : s.wake.svcJobs.contains .reload = false) :
    (∀ part, s.bundleImage s.boot.running 1 = some part → s.leaveFor1 1 → Completes .linkCoreReloaded s fun t =>
        t.boot.linkOut = true ∧ (t.co 3).run = .running ∧ (t.co 3).pc = vectorPc s.boot.running.link ∧ t.home = s.home
          ∧ ∀ a, a < part.length → t.memGet 3 a = byteAt part a)
      ∧ (s.bundleImage s.boot.running 1 = none → Completes .linkCoreReloaded s fun t =>
        t.boot.linkOut = false ∧ t.cores = s.cores ∧ (∀ a, t.memGet 3 a = 0) ∧ t.home = s.home) := by
  refine ⟨fun part image leave => ?_, fun image => ?_⟩
  · have run : exec .linkCoreReloaded s = .next (s.memPut 3 0 part).linkAsk := by
      simp only [exec, execLinkCoreReloaded, ready, leads, reload, done, image, Bool.not_false, Bool.and_self, if_true]
    obtain ⟨out, run3, pc, home, mems⟩ := linkAsk_spec (s := s.memPut 3 0 part) leave
    refine ⟨_, run, out, run3, pc, home, fun a small => ?_⟩
    have byte : (s.memPut 3 0 part).memGet 3 a = byteAt part a := by
      rw [State.mem_get_memPut, if_pos ⟨rfl, Nat.zero_le _, by omega⟩]
      rfl
    rw [← byte]
    unfold State.memGet
    rw [mems]
  · have run : exec .linkCoreReloaded s = .next (s.memZero 3) := by
      simp only [exec, execLinkCoreReloaded, ready, leads, reload, done, image, Bool.not_false, Bool.and_self, if_true]
    have off : s.boot.linkOut = false := by
      simp only [State.linkReady, Bool.and_eq_true, Bool.not_eq_true'] at ready
      exact ready.2
    refine ⟨_, run, off, rfl, fun a => ?_, rfl⟩
    simp [State.memGet, State.memZero]

theorem runtimeReload_completes {s : State} (service : s.boot.dev = .service) (leads : s.leads = true) (off : s.boot.laneSched = false) :
    Completes .runtimeLaneScheduleReload s fun t => t.boot.laneSched = true ∧ t.hold = s.hold ∧ t.home = s.home := by
  let u : State := { s with boot := { s.boot with laneSched := true } }
  have drawn : Keeps .calm u u.runtimeDraw := Keeps.refl.runtimeDraw
  have spared : Keeps .spared u u.runtimeDraw := Keeps.refl.runtimeDraw
  exact ⟨u.runtimeDraw, if_pos (by simp [service, leads, off]), by rw [drawn.boot], u.runtimeDraw_hold, spared.home⟩

/-! #### The warm restart -/

theorem coresOff_frame (l : List (Nat × Nat)) (s : State) :
    (s.coresOff l).boot = s.boot ∧ (s.coresOff l).hold = s.hold := by
  unfold State.coresOff State.each
  induction l generalizing s with
  | nil => exact ⟨rfl, rfl⟩
  | cons c l ih => exact ih _

theorem coresOff_run (l : List (Nat × Nat)) (s : State) (j : Nat) (off : j ∈ l.map Prod.fst ∨ (s.co j).run = .reset) :
    ((s.coresOff l).co j).run = .reset := by
  unfold State.coresOff State.each
  induction l generalizing s with
  | nil => exact off.resolve_left (by simp)
  | cons c l ih =>
    refine ih _ ?_
    rw [State.memZero_co, State.coU_co]
    split
    · exact .inr rfl
    · next ne =>
      refine off.imp_left fun mem => ?_
      exact (List.mem_cons.mp mem).resolve_left ne

theorem nextEpoch (e : W32) : BitVec.ofNat 32 (satAdd 32 e.toNat 1) = if e = BitVec.allOnes 32 then e else e + 1 := by
  unfold satAdd
  split
  · next full =>
    subst full
    rfl
  · next more =>
    have lt : e.toNat ≠ 2 ^ 32 - 1 := fun top => more (BitVec.eq_of_toNat_eq top)
    have bound := e.isLt
    refine BitVec.eq_of_toNat_eq ?_
    rw [BitVec.toNat_ofNat, BitVec.toNat_add]
    rw [Nat.min_eq_left (by omega)]
    rfl

/-- The first cycle of a warm restart (R62). -/
theorem rideStart_spec (s : State) :
    let t := s.rideStart
    t.boot.dev = .ride ∧ t.boot.epoch = BitVec.ofNat 32 (satAdd 32 s.boot.epoch.toNat 1) ∧ t.boot.canopyOut = false
      ∧ t.boot.linkOut = false ∧ (∀ j, j < 4 → (t.co j).run = .reset) ∧ (∀ p, (t.ph p).hold = (s.ph p).hold) ∧ t.home = s.home := by
  have home : s.rideStart.home = s.home := ((Keeps.refl : Keeps .spared s s).rideStart nofun).home
  revert home
  unfold State.rideStart
  extract_lets _ s1 s2 s3 s4 s5 s6 _ s7 _ s8 s9 s10 s11 s12 s13 s14 s15 t
  intro home
  have pools : Keeps .calm s s5 := (Keeps.refl.reconcile.reconcile.canopyBack.reconcile).each fun _ _ h => h.reconcile
  have boxes : Keeps .calm s s6 := (pools.each fun _ _ h => h.boxDrop).setLine
  clear_value s6
  have leave : Keeps .calm s s7 := boxes.same
  clear_value s7
  have grant : Keeps .calm s s8 := leave.same
  clear_value s8
  have first : Keeps .calm s s9 := grant.fuseStop.gleanDrop.rebuildDrop
  have second : Keeps .calm s s12 := (first.enginesStop.recoveryStop.rxDrop).each fun _ _ h => h.returnGroups
  clear_value s12
  have rest : Keeps .calm s13 s15 := ((Keeps.refl.each fun _ _ h => h.stU : Keeps .calm s13 s14)).each fun _ _ h => h.phU
  obtain ⟨boot, hold⟩ := coresOff_frame [(0, 0), (1, 1), (2, 2), (3, 3)] s12
  have epoch : s15.boot.epoch = s.boot.epoch := by rw [rest.boot, show s13.boot = s12.boot from boot, second.boot]
  have off : ∀ j, j < 4 → (s15.co j).run = .reset := fun j small => by
    refine (rest.run j).trans (coresOff_run _ s12 j (.inl ?_))
    simp only [List.map_cons, List.map_nil, List.mem_cons, List.not_mem_nil, or_false]
    omega
  have ports : ∀ p, (s15.ph p).hold = (s.ph p).hold := fun p => by
    have same : s13.ph p = s12.ph p := by
      unfold State.ph
      rw [show s13.hold = s12.hold from hold]
    rw [rest.hold, same, second.hold]
  clear_value s15
  exact ⟨rfl, by rw [← epoch], rfl, rfl, off, ports, home⟩

theorem warmRestart_starts {s : State} (service : s.boot.dev = .service) :
    s.warmRestart true = ({ s with backup := s.backup.restartFault s.hand.running } : State).rideStart := by
  unfold State.warmRestart
  rw [if_neg (by simp [service]), if_neg (by simp [service]), if_pos rfl]

theorem watchdog_restarts {s : State} (out : s.boot.canopyOut = true) (service : s.boot.dev = .service) :
    Completes .canopyWatchdogExpiry s fun t =>
      t.boot.dev = .ride ∧ t.boot.epoch = (if s.boot.epoch = BitVec.allOnes 32 then s.boot.epoch else s.boot.epoch + 1)
      ∧ t.boot.canopyOut = false ∧ t.boot.linkOut = false ∧ (∀ j, j < 4 → (t.co j).run = .reset)
      ∧ (∀ p, (t.ph p).hold = (s.ph p).hold) ∧ t.home = s.home := by
  let u : State := { s with backup := s.backup.restartFault s.hand.running }
  have run : exec .canopyWatchdogExpiry s = .next u.rideStart := by
    simp only [exec, execCanopyWatchdogExpiry, warmRestart_starts service, out, Bool.true_or, if_true]
    rfl
  rw [← nextEpoch]
  exact ⟨_, run, rideStart_spec u⟩

theorem watchdog_merges {s : State} (ride : s.boot.dev = .ride) :
    Completes .canopyWatchdogExpiry s fun t =>
      t.boot.restartMerged.toNat = min 255 (s.boot.restartMerged.toNat + 1) ∧ { t with boot := s.boot } = s := by
  have run : exec .canopyWatchdogExpiry s = .next { s with boot := { s.boot with
      restartMerged := BitVec.ofNat 8 (satAdd 8 s.boot.restartMerged.toNat 1) } } := by
    simp [exec, execCanopyWatchdogExpiry, State.warmRestart, ride]
  refine ⟨_, run, ?_, rfl⟩
  rw [min_comm]
  exact Nat.mod_eq_of_lt (satAdd_lt 8 _ _)

/-! #### The gates after the entry stage -/

/-- What the self-test of one stand does (R38). -/
def State.gateTest (c : BitVec 6) (s : State) (k : Nat) : State :=
  if (s.st k).gate || s.chanRetired .stand k then s
  else if s.standTest k (c.getLsbD k) then
    (s.poU (1 + k) fun p => { p with held := p.holding, free := p.total - (p.holding.map (·.2)).sum, st := .ok }).stU k
      fun t => { t with gate := true, gateN := false, fire := true, fireN := false }
  else s.standFault k

/-- What a stand's self-test looks at. -/
def State.standView (s : State) (k : Nat) := (s.st k, s.hold, s.po (1 + k), s.ch (chanKey .stand k))

theorem standFault_frame (s : State) (j : Nat) :
    (s.standFault j).boot = s.boot ∧ (s.standFault j).hold = s.hold ∧ (s.standFault j).home = s.home
      ∧ ∀ k, k ≠ j → (s.standFault j).standView k = s.standView k := by
  unfold State.standFault
  extract_lets t
  have stands : ∀ k, k ≠ j → t.standView k = s.standView k := fun k ne => by
    unfold State.standView
    rw [show t.st k = s.st k from State.stU_st_ne _ _ _ _ ne]
    rfl
  split
  · refine ⟨rfl, rfl, rfl, fun k ne => ?_⟩
    rw [← stands k ne]
    unfold State.standView
    have key : chanKey .stand k ≠ chanKey .stand j := by
      unfold chanKey
      omega
    rw [show ((t.chU (chanKey .stand j) fun c => { c with state := .retired }).logRec 0x31 (t.retireBody 0 .stand j 2 0)).ch
      (chanKey .stand k) = t.ch (chanKey .stand k) from State.chU_ch_ne t _ _ (fun c => { c with state := .retired }) key]
    rfl
  · exact ⟨rfl, rfl, rfl, stands⟩

theorem gateTest_frame (c : BitVec 6) (s : State) (j : Nat) :
    (s.gateTest c j).boot = s.boot ∧ (s.gateTest c j).hold = s.hold ∧ (s.gateTest c j).home = s.home
      ∧ ∀ k, k ≠ j → (s.gateTest c j).standView k = s.standView k := by
  unfold State.gateTest
  split
  · exact ⟨rfl, rfl, rfl, fun _ _ => rfl⟩
  split
  · refine ⟨rfl, rfl, rfl, fun k ne => ?_⟩
    simp [State.standView, ne]
  · exact standFault_frame s j

/-- A faulted stand's gate afterwards stands as its self-test has it. -/
theorem gateTest_gate {c : BitVec 6} {s : State} {k : Nat} (shut : (s.st k).gate = false) (kept : s.chanRetired .stand k = false) :
    ((s.gateTest c k).st k).gate = s.standTest k (c.getLsbD k) := by
  unfold State.gateTest
  rw [if_neg (by rw [shut, kept]; nofun)]
  split
  · next passed => rw [State.stU_st_same, passed]
  · next failed => rw [standFault_gate, Bool.eq_false_iff.mpr failed]

theorem standTest_congr {s t : State} {k : Nat} (same : t.standView k = s.standView k) (b : Bool) : t.standTest k b = s.standTest k b := by
  simp only [State.standView, Prod.mk.injEq] at same
  obtain ⟨st, hold, po, -⟩ := same
  unfold State.standTest State.ph
  rw [st, hold, po]

/-- The self-tests of several stands do not meet. -/
theorem gateTests_spec (c : BitVec 6) (l : List Nat) (s : State) (once : l.Nodup) :
    let t := s.each l (State.gateTest c)
    t.boot = s.boot ∧ t.hold = s.hold ∧ t.home = s.home
      ∧ (∀ k, k ∉ l → t.standView k = s.standView k)
      ∧ ∀ k ∈ l, (s.st k).gate = false → s.chanRetired .stand k = false → (t.st k).gate = s.standTest k (c.getLsbD k) := by
  induction l generalizing s with
  | nil => exact ⟨rfl, rfl, rfl, fun _ _ => rfl, nofun⟩
  | cons j l ih =>
    obtain ⟨fresh, rest⟩ := List.nodup_cons.mp once
    obtain ⟨boot, hold, home, other⟩ := gateTest_frame c s j
    obtain ⟨boot', hold', home', kept', gates'⟩ := ih (s.gateTest c j) rest
    refine ⟨boot'.trans boot, hold'.trans hold, home'.trans home, fun k out => ?_, fun k mem shut kept => ?_⟩
    · rw [List.mem_cons, not_or] at out
      exact (kept' k out.2).trans (other k out.1)
    · by_cases same : k = j
      · subst same
        have view := kept' k fresh
        simp only [State.standView, Prod.mk.injEq] at view
        rw [← gateTest_gate shut kept]
        exact congrArg Stand.gate view.1
      · have view := other k same
        have test := standTest_congr view (c.getLsbD k)
        simp only [State.standView, Prod.mk.injEq] at view
        obtain ⟨st, -, -, chan⟩ := view
        rw [← test]
        refine gates' k ((List.mem_cons.mp mem).resolve_left same) (by rw [st, shut]) ?_
        unfold State.chanRetired at kept ⊢
        rw [chan, kept]

theorem gateTests_run {s : State} (c : BitVec 6) (ride : s.boot.dev = .ride) (more : s.boot.entryDone = false) :
    exec (.warmRestartEntryDone c) s = .next { s.each (List.range 6) (State.gateTest c) with
      boot := { (s.each (List.range 6) (State.gateTest c)).boot with entryDone := true } } := by
  simp only [exec, execWarmRestartEntryDone]
  rw [if_neg (by simp [ride, more])]
  rfl

theorem entryDone_completes {s : State} (c : BitVec 6) (ride : s.boot.dev = .ride) (more : s.boot.entryDone = false) :
    Completes (.warmRestartEntryDone c) s fun t =>
      t.boot.entryDone = true ∧ t.boot.dev = .ride ∧ t.hold = s.hold ∧ t.home = s.home
      ∧ ∀ k, k < 6 → (s.st k).gate = false → s.chanRetired .stand k = false → (t.st k).gate = s.standTest k (c.getLsbD k) := by
  obtain ⟨boot, hold, home, -, gates⟩ := gateTests_spec c (List.range 6) s List.nodup_range
  have run := gateTests_run c ride more
  generalize s.each (List.range 6) (State.gateTest c) = u at *
  exact ⟨_, run, rfl, (congrArg Boot.dev boot).trans ride, hold, home, fun k six => gates k (List.mem_range.mpr six)⟩

/-- Settles O16: the releases by the leave that is there, the restart by `rideStart_spec`, the gates by `gateTests_spec`. -/
theorem coreReleaseAndWarmRestart : Obligations.CoreReleaseAndWarmRestart := by
  unfold Obligations.CoreReleaseAndWarmRestart
  refine ⟨fun s b => ⟨canopyRelease_completes, canopyLeaveReturn_completes, fun service sd sda off reload leave => ?_,
    fun service leads off sd sda reload done => ?_, runtimeReload_completes⟩, fun s c => ⟨watchdog_restarts, watchdog_merges,
      entryDone_completes c⟩⟩
  · exact linkRelease_completes (linkReady_of service sd sda off) reload leave
  · exact linkReload_completes (linkReady_of service sd sda off) leads reload done

end Sys2Proof.Machine
end

section
namespace Sys2Proof.Machine
open Sys2Proof

/-! ### Start-up and release (02): what loops and alarms leave as it is -/

/-- What every step of a loop leaves as it is, the loop leaves as it is. -/
theorem each_same {α β : Type} (view : State → β) {l : List α} {f : State → α → State} (h : ∀ u x, view (f u x) = view u) (s : State) :
    view (s.each l f) = view s := by
  unfold State.each
  induction l generalizing s with
  | nil => rfl
  | cons x l ih => exact (ih _).trans (h s x)

/-- An execution completes in a state with P. -/
def EndsIn (P : State → Prop) : Done → Prop
  | .next t => P t
  | _ => False

theorem Completes.ofEndsIn {i : Instr} {s : State} {P : State → Prop} {o : Done} (run : exec i s = o) (h : EndsIn P o) : Completes i s P := by
  cases o with
  | next t => exact ⟨t, run, h⟩
  | _ => exact h.elim

theorem startCore_boot (s : State) (c : Nat) (v : W24) : (s.startCore c v).boot = s.boot := (rfl)

theorem holdPort_boot (s : State) (p : Nat) : (s.holdPort p).boot = s.boot := by
  unfold State.holdPort
  extract_lets _ s1 s2 s3 s4
  have window : Keeps .calm s1 s2 := Keeps.refl.pwU
  have flip : Keeps .calm s1 s3 := Keeps.ite window.takeFlip window
  have event : Keeps .calm s1 s4 := Keeps.ite flip.pushEvent flip
  exact (Keeps.ite event.runtimeOff event : Keeps .calm s1 _).boot

theorem decided_boot (s : State) (code rank tkind target data : Nat) : (s.decided code rank tkind target data).boot = s.boot := by
  unfold State.decided
  extract_lets _ s1 _ _ _ held s2 s3 s4
  have used : Keeps .calm s s2 := Keeps.refl.dataUsed.same
  have ports : s3.boot = s2.boot := by
    refine each_same State.boot (fun u p => ?_) s2
    exact holdPort_boot u p
  have line : Keeps .calm s3 (s4.setLine 6 true) := (Keeps.refl.same : Keeps .calm s3 s4).setLine
  exact line.boot.trans (ports.trans used.boot)

/-! ### O14: supplies and clocks -/

/-- The supplies and the reference clock as the start-up unit has them (R39, R531). -/
def Boot.inputs (b : Boot) := (b.sup, b.refPresent, b.refHoldover)

theorem enterSealed_inputs (s : State) : s.enterSealed.boot.inputs = s.boot.inputs := by
  unfold State.enterSealed
  extract_lets s1 s2 up s3 s4 s5 _ _ _ _ _ s6
  have ends : s1.boot = s.boot := (Keeps.refl.passEnds.wakeRelease : Keeps .calm s s1).boot
  have ports : s2.boot = s1.boot := by
    refine each_same State.boot (fun u p => ?_) s1
    exact holdPort_boot u p
  clear_value s1 s2
  have off : s3.boot = s2.boot := (coresOff_frame _ s2).1
  clear_value s3
  have seed : s4.boot = s3.boot := by
    unfold s4
    split
    · exact startCore_boot s3 0 0
    · rfl
  have boxes : s5.boot = s4.boot := (Keeps.refl.each fun _ _ h => h.boxEmpty : Keeps .calm s4 s5).boot
  clear_value s4 s5
  have last : s6.boot.inputs = s.boot.inputs := by rw [← ends, ← ports, ← off, ← seed, ← boxes]; rfl
  clear_value s6
  rw [← last]
  split
  · rw [(Keeps.refl.boxReady : Keeps .calm s6 _).boot]
  · rfl

/-- An alarm stops no supply and no clock, whatever its rank. -/
theorem raise_inputs (s : State) (code rank tkind target data : Nat) : (s.raise code rank tkind target data).boot.inputs = s.boot.inputs := by
  unfold State.raise
  extract_lets word s1 s2 s3 _ s4
  have used : Keeps .calm s s1 := Keeps.refl.dataUsed
  have clear : Keeps .calm s s2 := Keeps.ite used.backupLog.zeroize used
  have decided : s3.boot = s2.boot := decided_boot ..
  have alarm : Keeps .calm s3 s4 := Keeps.ite Keeps.refl.same Keeps.refl
  have same : s4.boot = s.boot := alarm.boot.trans (decided.trans clear.boot)
  rw [← same]
  split
  · exact enterSealed_inputs s4
  · rfl

/-! #### Supplies -/

/-- A reset of the main domain holds every port and keeps what stands outside it (R41, R43). -/
theorem mainReset_spec (s : State) (dev : DevState) :
    let t := s.mainReset dev
    t.boot = { sup := s.boot.sup, refPresent := s.boot.refPresent, vselPins := s.boot.vselPins, watchOut := s.boot.watchOut, dev := dev }
      ∧ t.home = s.home ∧ ∀ p, (t.ph p).hold = true := by
  have cut : Keeps .calm s (if s.fuses.state = .burning && !s.fuses.waiting then s.burnStop else s) := Keeps.ite Keeps.refl.burnStop Keeps.refl
  unfold State.mainReset
  extract_lets u _ _ t
  change Keeps .calm s u at cut
  have boot : t.boot = { sup := u.boot.sup, refPresent := u.boot.refPresent, vselPins := u.boot.vselPins, watchOut := u.boot.watchOut, dev := dev } := rfl
  refine ⟨?_, (cut.ofCalm : Keeps .spared s u).home, fun p => reset_hold p⟩
  rw [boot, cut.boot]

theorem coldStart_spec {s t : State} (e : s.coldStart = t) :
    t.boot.sup = s.boot.sup ∧ t.boot.vselPins = s.boot.vselPins ∧ t.boot.dev = .start ∧ t.boot.epoch = 1
      ∧ t.boot.coreLock = false ∧ t.boot.flashLock = false ∧ t.home = s.home ∧ ∀ p, t.heldNow p = true := by
  unfold State.coldStart at e
  extract_lets s1 _ s2 at e
  obtain ⟨boot, home, held⟩ := mainReset_spec s .start
  have spare : Keeps .calm s2 t := by
    rw [← e]
    refine Keeps.refl.each fun _ _ h => ?_
    split
    · next taken => exact h.takeGroup taken
    · exact h
  have started : s2.boot = { s1.boot with epoch := 1, nonce := s2.boot.nonce } := rfl
  have ports : ∀ p, s2.ph p = s1.ph p := fun _ => rfl
  rw [spare.boot, started, show s1.boot = _ from boot]
  refine ⟨rfl, rfl, rfl, rfl, rfl, rfl, (spare.ofCalm : Keeps .spared s2 t).home.trans home, fun p => ?_⟩
  unfold State.heldNow
  rw [spare.hold, ports, held p]
  rfl

/-- The watch core runs from the first backup supply on (R42). -/
theorem backupCold_boot (s : State) :
    s.backupCold.boot = { s.boot with watchOut := s.boot.watchOut || (s.boot.sup.aon || s.boot.sup.vbat) } := by
  unfold State.backupCold
  split
  · next runs =>
    have same : (s.boot.watchOut || (s.boot.sup.aon || s.boot.sup.vbat)) = s.boot.watchOut := by
      revert runs
      cases s.boot.watchOut <;> simp +contextual
    rw [same]
  · next runs =>
    have supplied : (s.boot.sup.aon || s.boot.sup.vbat) = true := by
      revert runs
      cases (s.boot.sup.aon || s.boot.sup.vbat) <;> simp
    extract_lets s1 _ s2 s3
    have started : s3.boot = { s.boot with watchOut := true } := startCore_boot (((s2.used 1).memZero 4).memZero 5) 4 0
    have entry : Keeps .calm s3 (s3.backupLog 0x0580 0 0 0) := Keeps.refl.backupLog
    rw [entry.boot, started, supplied, Bool.or_true]

theorem backupLost_spec (s : State) :
    s.backupLost.boot = { s.boot with watchOut := s.boot.watchOut && (s.boot.sup.aon || s.boot.sup.vbat) } ∧ s.backupLost.hold = s.hold := by
  unfold State.backupLost
  split
  · next supplied =>
    rw [supplied, Bool.and_true]
    exact ⟨rfl, rfl⟩
  · next lost =>
    rw [Bool.eq_false_iff.mpr lost, Bool.and_false]
    extract_lets _ s1 s2
    split <;> exact ⟨rfl, rfl⟩

theorem bankFails_inputs (s : State) (x : Supply) : (s.bankFails x).boot.inputs = s.boot.inputs := by
  unfold State.bankFails
  split
  · extract_lets _ s1 s2
    have gleans : Keeps .calm s1 s2 := Keeps.ite (Keeps.refl.each fun _ _ h => h.gleanDropOf) Keeps.refl
    split
    · rfl
    · have first : s1.boot.inputs = s.boot.inputs := rfl
      exact (raise_inputs s2 ..).trans ((congrArg Boot.inputs gleans.boot).trans first)
  · rfl

/-- A supply's detector reports (R40). -/
def State.supplySet (s : State) (x : Supply) (v : Bool) : State := { s with boot := { s.boot with sup := s.boot.sup.set x v } }

theorem backupCold_supplySet (s : State) (x : Supply) (v : Bool) :
    let t := (s.supplySet x v).backupCold
    t.boot.sup = s.boot.sup.set x v ∧ t.boot.vselPins = s.boot.vselPins ∧ t.home = s.home := by
  have start : Keeps .spared s (s.supplySet x v) := Keeps.refl.sameHome nofun
  have home := (start.backupCold nofun).home
  have boot := backupCold_boot (s.supplySet x v)
  exact ⟨by rw [boot]; rfl, by rw [boot]; rfl, home⟩

/-- SUPPLY_GOOD (R40 to R42, R499). -/
theorem supplyGood_completes (s : State) (x : Supply) :
    Completes (.supplyGood x) s fun t =>
      t.boot.sup = s.boot.sup.set x true ∧ t.home = s.home
      ∧ (s.mainGood = false → t.mainGood = true →
          t.boot.dev = .start ∧ t.boot.epoch = 1 ∧ t.boot.vsel = s.boot.vselPins ∧ ∀ p, t.heldNow p = true) := by
  refine .ofEndsIn (o := execSupplyGood x s) rfl ?_
  unfold execSupplyGood
  extract_lets was _ u v
  obtain ⟨sup, pins, home⟩ : u.boot.sup = _ ∧ u.boot.vselPins = _ ∧ u.home = _ := backupCold_supplySet s x true
  clear_value u
  obtain ⟨same, vsel, dev, epoch, -, -, spared, held⟩ := coldStart_spec (s := u) (t := v) rfl
  clear_value v
  split
  · exact ⟨same.trans sup, spared.trans home, fun _ _ => ⟨dev, epoch, vsel.trans pins, held⟩⟩
  · next stays =>
    have late : s.mainGood = false → u.mainGood = true → False := fun off on => stays (by rw [on, show was = false from off]; rfl)
    split
    · exact ⟨sup, home, fun off on => (late off on).elim⟩
    · exact ⟨sup, home, fun off on => (late off on).elim⟩

/-- SUPPLY_NOT_GOOD (R36, R40 to R43). -/
theorem supplyNotGood_completes (s : State) (x : Supply) :
    Completes (.supplyNotGood x) s fun t =>
      t.boot.sup = s.boot.sup.set x false ∧ t.home = s.home
      ∧ (s.mainGood = true → t.mainGood = false → t.boot.dev = .off ∧ ∀ p, t.heldNow p = true) := by
  refine .ofEndsIn (o := execSupplyNotGood x s) rfl ?_
  unfold execSupplyNotGood
  extract_lets was _ u v
  have set : u.boot.sup = s.boot.sup.set x false := rfl
  have stays : u.home = s.home := rfl
  have goes : was = s.mainGood := rfl
  clear_value u was
  obtain ⟨reset, kept, held⟩ := mainReset_spec u .off
  have sup : v.boot.sup = u.boot.sup := by
    unfold v
    split
    · rw [reset]
    · exact congrArg Prod.fst (bankFails_inputs u x)
  have home : v.home = u.home := by
    unfold v
    split
    · exact kept
    · exact ((Keeps.refl : Keeps .spared u u).bankFails nofun).home
  obtain ⟨lost, hold⟩ := backupLost_spec v
  have same : v.backupLost.boot.sup = u.boot.sup := by rw [lost, ← sup]
  refine ⟨same.trans set, ?_, fun on off => ?_⟩
  · exact ((Keeps.refl : Keeps .spared v v).backupLost nofun).home.trans (home.trans stays)
  · have down : v = u.mainReset .off := by
      refine if_pos ?_
      have low : u.mainGood = false := by
        unfold State.mainGood at off ⊢
        rwa [same] at off
      rw [goes, on, low]
      rfl
    rw [lost]
    rw [down] at hold ⊢
    rw [reset]
    refine ⟨rfl, fun p => ?_⟩
    unfold State.heldNow State.ph
    rw [hold]
    exact Bool.or_eq_true_iff.mpr (.inl (held p))

/-- BACKUP_DOMAIN_SUPPLIED (R42, R56). -/
theorem backupSupplied_completes (s : State) :
    Completes .backupDomainSupplied s fun t =>
      t.boot.sup = s.boot.sup.set .vbat true ∧ t.boot.watchOut = true ∧ t.home = s.home := by
  obtain ⟨sup, -, home⟩ := backupCold_supplySet s .vbat true
  have fitted : (s.supplySet .vbat true).boot.sup.vbat = true := rfl
  refine ⟨(s.supplySet .vbat true).backupCold, rfl, sup, ?_, home⟩
  rw [backupCold_boot, fitted, Bool.or_true, Bool.or_true]

/-! #### Clocks -/

/-- The clock-failure path waits in START with every port held (R531). -/
theorem clockFail_spec {s t : State} (e : s.clockFail = t) :
    t.boot.dev = .start ∧ t.boot.epoch = 1 ∧ t.boot.coreLock = false ∧ t.boot.flashLock = false ∧ ∀ p, t.heldNow p = true := by
  unfold State.clockFail at e
  extract_lets _ u at e
  obtain ⟨-, -, dev, epoch, core, flash, -, held⟩ := coldStart_spec (s := s) (t := u) rfl
  clear_value u
  subst e
  exact ⟨dev, epoch, core, flash, held⟩

theorem refclkLoss_completes {s : State} (present : s.boot.refPresent = true) :
    Completes .refclkLoss s fun t => t.boot.refPresent = false ∧ t.boot.refHoldover = s.boot.coreLock ∧ t.home = s.home := by
  refine .ofEndsIn (o := execRefclkLoss s) rfl ?_
  unfold execRefclkLoss
  extract_lets _ u
  have home : u.home = s.home := rfl
  have lost : u.boot.refPresent = false := rfl
  have holds : u.boot.refHoldover = s.boot.coreLock := rfl
  clear_value u
  have run : (!s.boot.refPresent) ≠ true := by rw [present]; nofun
  rw [if_neg run]
  change _ ∧ _
  split
  · exact ⟨lost, holds, home⟩
  · have inputs := raise_inputs u 0x0110 (u.rankOf 0x0110) 0 0 noData
    simp only [Boot.inputs, Prod.mk.injEq] at inputs
    obtain ⟨-, present, holdover⟩ := inputs
    exact ⟨present.trans lost, holdover.trans holds, ((Keeps.refl : Keeps .spared u u).raiseReg nofun).home.trans home⟩

/-- Settles O14: the resets by `coldStart_spec` and `mainReset_spec`; an alarm stops no supply and no clock (`raise_inputs`). -/
theorem supplyAndClockEvents : Obligations.SupplyAndClockEvents := by
  unfold Obligations.SupplyAndClockEvents
  refine ⟨fun s x => ⟨supplyGood_completes s x, supplyNotGood_completes s x, backupSupplied_completes s⟩,
    fun s flash => ⟨refclkLoss_completes, fun holdover => ?_, fun locked => ?_, ?_⟩⟩
  · obtain ⟨dev, epoch, core, -, held⟩ := clockFail_spec (s := s) rfl
    exact ⟨s.clockFail, congrArg Host.Outcome.next (if_pos holdover), dev, epoch, core, held⟩
  · obtain ⟨dev, epoch, -, lock, held⟩ := clockFail_spec (s := s.raiseReg 0x0111 0 0 noData) rfl
    exact ⟨_, if_pos locked, dev, epoch, lock, held⟩
  · exact ⟨_, rfl, rfl, rfl, rfl⟩

end Sys2Proof.Machine
end

section
namespace Sys2Proof.Machine
open Sys2Proof

/-! ### O15: fuse sense, seed core and bundle pass -/

/-! #### The fuse sense (R45 to R50) -/

theorem fuseAlarm_latched {s : State} {rank a : Nat} (low : rank ≤ 1) : (s.fuseAlarm rank a).fuses.latched = s.fuses.latched := by
  obtain ⟨only, -⟩ := decided_low (s := s) (u := s) (code := 0x0404) (tkind := 0) (target := 0) ⟨rfl, rfl⟩ low
  exact congrArg Fuses.latched only.fuses

theorem weakAdd_latched (s : State) (w : W32) : (s.weakAdd w).fuses.latched = s.fuses.latched := by
  unfold State.weakAdd
  extract_lets
  split
  · rfl
  split
  · rfl
  split
  · rfl
  · exact fuseAlarm_latched (by decide)

theorem senseBit_latched (s : State) (a : Nat) : (s.senseBit a).fuses.latched = s.fuses.latched := by
  unfold State.senseBit
  extract_lets b u
  have map : u.fuses.latched = s.fuses.latched := by
    unfold u
    split
    · exact weakAdd_latched ..
    split
    · exact weakAdd_latched ..
    · rfl
  have note : (u.fuseAlarm 0 a).fuses.latched = u.fuses.latched := fuseAlarm_latched (by decide)
  rw [← map]
  split
  · split
    · exact note
    · rfl
  · split
    · exact note
    · rfl

theorem loadRanks_fuses (s : State) (cfg : List Byte) : (s.loadRanks cfg).fuses = s.fuses := by
  unfold State.loadRanks
  extract_lets n u
  have ranks : u.fuses = s.fuses := by
    refine each_same State.fuses (fun v i => ?_) s
    dsimp only
    split
    · split <;> rfl
    · rfl
  exact ranks

theorem poolGrant_fuses (s : State) (q h n : Nat) : (s.poolGrant q h n).fuses = s.fuses := by
  unfold State.poolGrant
  split <;> rfl

theorem senseRoot_fuses (s : State) : s.senseRoot.fuses = s.fuses := by
  unfold State.senseRoot
  extract_lets k u
  have root : u.fuses = s.fuses := by
    unfold u
    split <;> rfl
  exact root

/-- The sense latches the bits that both references read, and a failing group of class K seals the part (R46, R49). -/
theorem fuseSense_completes {s : State} (early : s.boot.dev = .start ∨ s.boot.dev = .sealed) (more : s.boot.sensed = false) :
    Completes .fuseSenseDone s fun t =>
      t.boot.sensed = true ∧ t.fuses.latched = s.fuses.otp.filterMap (fun e => if e.2.value then some (e.1, true) else none)
        ∧ (t.boot.failing ≠ [] → t.boot.dev = .sealed) := by
  refine .ofEndsIn (o := execFuseSenseDone s) rfl ?_
  unfold execFuseSenseDone
  extract_lets otp lat fails fb _ s1 _ s2 s3 s4 s5 s6 _ s7 s8 s9 bad s10
  have starts : ¬ ((s.boot.dev ≠ .start ∧ s.boot.dev ≠ .sealed) ∨ s.boot.sensed = true) := by
    rw [more]
    rintro (⟨a, b⟩ | c)
    · exact early.elim a b
    · exact absurd c (by decide)
  rw [if_neg starts]
  have sensed : s2.boot.sensed = true := rfl
  have failing : s2.boot.failing = bad := rfl
  have l2 : s2.fuses.latched = lat := rfl
  clear_value s2 bad
  have k3 : Keeps .calm s2 s3 := Keeps.refl.each fun _ _ h => h.senseBit
  have l3 : s3.fuses.latched = lat := (each_same (fun u => u.fuses.latched) senseBit_latched s2).trans l2
  have k4 : Keeps .calm s2 s4 := k3.each fun _ _ h => h.fuseAlarmLow (by decide)
  have l4 : s4.fuses.latched = lat := (each_same (fun u => u.fuses.latched) (fun _ _ => fuseAlarm_latched (by decide)) s3).trans l3
  clear_value s3 s4
  have k5 : Keeps .calm s2 s5 := Keeps.ite (k4.fuseAlarmLow (by decide)) k4
  have l5 : s5.fuses.latched = lat := by
    unfold s5
    split
    · exact (fuseAlarm_latched (by decide)).trans l4
    · exact l4
  have k6 : Keeps .calm s2 s6 := k5.loadRanks
  have l6 : s6.fuses.latched = lat := (congrArg Fuses.latched (loadRanks_fuses s5 _)).trans l5
  clear_value s5 s6
  have k7 : Keeps .calm s2 s7 := k6.same
  have l7 : s7.fuses.latched = lat := l6
  clear_value s7
  have k8 : Keeps .calm s2 s8 := k7.each fun _ _ h => h.chU.poolGrant
  have l8 : s8.fuses.latched = lat := by
    refine (each_same (fun u => u.fuses.latched) (fun _ _ => ?_) s7).trans l7
    exact congrArg Fuses.latched (poolGrant_fuses ..)
  clear_value s8
  have k9 : Keeps .calm s2 s9 := k8.senseRoot
  have l9 : s9.fuses.latched = lat := (congrArg Fuses.latched (senseRoot_fuses s8)).trans l8
  clear_value s9
  have k10 : Keeps .calm s2 s10 := k9.each fun _ _ h => h.backupLog
  have l10 : s10.fuses.latched = lat := by
    refine (each_same (fun u => u.fuses.latched) (fun _ _ => ?_) s9).trans l9
    rfl
  clear_value s10
  have done9 : s9.boot.sensed = true := by rw [k9.boot, sensed]
  have done10 : s10.boot.sensed = true := by rw [k10.boot, sensed]
  have none' : bad = [] → s9.boot.failing = [] := fun good => by rw [k9.boot, failing, good]
  split
  · exact ⟨done10, l10, fun _ => rfl⟩
  · next good =>
    rw [not_not] at good
    split
    · exact ⟨done9, l9, fun _ => rfl⟩
    split
    · exact ⟨done9, l9, fun no => absurd (none' good) no⟩
    · exact ⟨done9, l9, fun no => absurd (none' good) no⟩

/-! #### The seed core and the headers (R52, R56) -/

theorem seedCoreRelease_completes {s : State} (probes : BitVec 4) (main : s.mainGood = true) (clock : s.boot.refPresent = true)
    (sensed : s.boot.sensed = true) (off : s.boot.seedOut = false)
    (due : (s.boot.dev = .start ∧ s.boot.coreLock = false) ∨ (s.boot.dev = .ride ∧ s.boot.entryDone = true)) :
    Completes (.seedCoreRelease probes) s fun t =>
      t.boot.seedOut = true ∧ t.boot.step = .headers ∧ (t.co 0).run = .running ∧ (t.co 0).pc = 0 ∧ t.boot.dev = s.boot.dev
        ∧ t.home = s.home := by
  refine .ofEndsIn (o := execSeedCoreRelease probes s) rfl ?_
  unfold execSeedCoreRelease
  extract_lets cold warm s1 _ s2 _ _ s3 s4 _ s5 s6 s7 _ _ s8
  have dev : s.boot.dev = .start ∨ s.boot.dev = .ride := due.imp And.left And.left
  have goes : (!(s.mainGood && s.boot.refPresent && s.boot.sensed && !s.boot.seedOut && (cold || warm))) ≠ true := by
    unfold cold warm
    obtain ⟨start, unlocked⟩ | ⟨ride, entry⟩ := due
    · simp [main, clock, sensed, off, start, unlocked]
    · simp [main, clock, sensed, off, ride, entry]
  rw [if_neg goes]
  have core : s1.co 0 = { run := .running, pc := 0, lines := (s.co 0).lines &&& 0xF7FF } := by
    unfold s1
    rw [startCore_co, if_pos rfl]
    rfl
  have boot : s1.boot = s.boot := startCore_boot s 0 0
  have home : s1.home = s.home := rfl
  clear_value s1
  have out2 : s2.boot.seedOut = true := rfl
  have dev2 : s2.boot.dev = s1.boot.dev := rfl
  have core2 : s2.co 0 = s1.co 0 := rfl
  have home2 : s2.home = s1.home := rfl
  have out3 : s3.boot.seedOut = true := rfl
  have dev3 : s3.boot.dev = s1.boot.dev := rfl
  have core3 : s3.co 0 = s1.co 0 := rfl
  have home3 : s3.home = s1.home := rfl
  clear_value s2 s3
  have k4 : Keeps .calm s3 s4 := Keeps.refl.zeroize
  clear_value s4
  have k5 : Keeps .calm s3 s5 := Keeps.ite k4.same Keeps.refl
  clear_value s5
  have k7 : Keeps .calm s3 s5.drawSlotKeys := k5.drawSlotKeys
  have out : s6.boot.seedOut = true ∧ s6.boot.dev = s.boot.dev ∧ (s6.co 0).run = .running ∧ (s6.co 0).pc = 0 ∧ s6.home = s.home := by
    unfold s6
    split
    · rw [out2, dev2, core2, home2, core, boot]
      exact ⟨rfl, rfl, rfl, rfl, home⟩
    · rw [k7.boot, out3, dev3, k7.run, k7.pc, core3, core, (k7.ofCalm : Keeps .spared s3 _).home, home3, boot]
      exact ⟨rfl, rfl, rfl, rfl, home⟩
  clear_value s6
  have k7 : Keeps .calm s6 s7 := Keeps.refl.dropAlias
  clear_value s7
  have k8 : Keeps .calm s6 s8 := k7.same
  clear_value s8
  obtain ⟨seed, same, run, pc, spared⟩ := out
  have same8 : s8.boot.dev = s.boot.dev := by rw [k8.boot, same]
  rw [if_pos (by rw [same8]; exact dev)]
  have seed8 : s8.boot.seedOut = true := by rw [k8.boot, seed]
  exact ⟨seed8, rfl, (k8.run 0).trans run, (k8.pc 0).trans pc, same8, (k8.ofCalm : Keeps .spared s6 s8).home.trans spared⟩

/-- Where no slot yields a bundle, the device waits in FWLESS, after a warm restart in HEADLESS (R55, R66). -/
theorem noBundle_boot (s : State) :
    s.noBundle.boot = { s.boot with
      dev := if s.boot.dev = .start ∨ s.boot.dev = .fwless then .fwless else .headless, step := .none, cand := none, bundle := none } := by
  unfold State.noBundle
  extract_lets s1 s2 dev _ s3
  have k1 : Keeps .calm s s1 := Keeps.refl.dropAlias
  have off : s2.boot = s1.boot := (coresOff_frame _ s1).1
  have last : Keeps .calm s3 (if (s3.mb 0).ready = true then s3 else s3.boxReady 0) := Keeps.ite Keeps.refl Keeps.refl.boxReady
  have taken : s3.boot = { s2.boot with
      dev := if s2.boot.dev = .start ∨ s2.boot.dev = .fwless then .fwless else .headless, step := .none, cand := none, bundle := none } := rfl
  rw [last.boot, taken, off.trans k1.boot]

theorem bundleHeadersRead_takes {s : State} {x : Slot} (headers : s.boot.step = .headers) (candidate : s.bundleCandidate = some x) :
    Completes .bundleHeadersRead s fun t => t.boot.step = .reading ∧ t.boot.cand = some x ∧ t.home = s.home := by
  refine .ofEndsIn (o := execBundleHeadersRead s) rfl ?_
  unfold execBundleHeadersRead
  rw [if_neg (not_not.mpr headers)]
  extract_lets _ u
  have same : u.bundleCandidate = some x := candidate
  rw [same]
  exact ⟨rfl, rfl, rfl⟩

theorem bundleHeadersRead_none {s : State} (headers : s.boot.step = .headers) (candidate : s.bundleCandidate = none)
    (due : s.boot.dev = .start ∨ s.boot.dev = .ride) :
    Completes .bundleHeadersRead s fun t =>
      t.boot.step = .none ∧ t.boot.dev = (if s.boot.dev = .start then .fwless else .headless) := by
  refine .ofEndsIn (o := execBundleHeadersRead s) rfl ?_
  unfold execBundleHeadersRead
  rw [if_neg (not_not.mpr headers)]
  extract_lets _ u
  have same : u.bundleCandidate = none := candidate
  have boot : u.boot = s.boot := rfl
  clear_value u
  rw [same]
  change _ ∧ _
  rw [noBundle_boot, boot]
  obtain start | ride := due
  · rw [start]
    exact ⟨rfl, rfl⟩
  · rw [ride]
    exact ⟨rfl, rfl⟩

end Sys2Proof.Machine
end

section
namespace Sys2Proof.Machine
open Sys2Proof

/-! #### What a look at the bundle slots reads -/

/-- The parts of the state that a look at a bundle slot reads (R52 to R55). -/
def State.slotView (s : State) := (s.boot, s.home, s.fresh, s.fuses.latched, s.backup)

section
variable {s t : State} (same : t.slotView = s.slotView)
include same

theorem homeGet_of_slotView : t.homeGet = s.homeGet := by
  simp only [State.slotView, Prod.mk.injEq] at same
  obtain ⟨boot, home, fresh, -, -⟩ := same
  funext a n
  unfold State.homeGet State.homeUp
  rw [boot, home, fresh]

theorem bundleHeader_of_slotView : t.bundleHeader = s.bundleHeader := by
  unfold State.bundleHeader
  rw [homeGet_of_slotView same]

theorem partBytes_of_slotView : t.partBytes = s.partBytes := by
  unfold State.partBytes
  rw [homeGet_of_slotView same]

theorem partDigests_of_slotView : t.partDigests = s.partDigests := by
  unfold State.partDigests
  rw [partBytes_of_slotView same]

theorem passOk_of_slotView : t.passOk = s.passOk := by
  have latched : t.fuses.latched = s.fuses.latched := congrArg (fun v => v.2.2.2.1) same
  have lc : t.lcLatched = s.lcLatched := by
    unfold State.lcLatched
    rw [latched]
  have signs : t.kdSigns = s.kdSigns := by
    funext n
    unfold State.kdSigns
    rw [latched]
  have signer : t.bundleSigner = s.bundleSigner := by
    funext h
    unfold State.bundleSigner
    rw [lc, signs, latched]
  funext h digs
  unfold State.passOk State.headOk State.headForm
  rw [signer]

theorem bundleOk_of_slotView : t.bundleOk = s.bundleOk := by
  have stumbled : t.stumbled = s.stumbled := by
    funext x
    unfold State.stumbled
    rw [show t.backup = s.backup from congrArg (fun v => v.2.2.2.2) same]
  funext x
  unfold State.bundleOk
  rw [bundleHeader_of_slotView same, passOk_of_slotView same, partDigests_of_slotView same, stumbled]

theorem slotPasses_of_slotView : t.slotPasses = s.slotPasses := by
  have latched : t.fuses.latched = s.fuses.latched := congrArg (fun v => v.2.2.2.1) same
  have boot : t.boot = s.boot := congrArg Prod.fst same
  funext x
  unfold State.slotPasses State.bundleConflict
  rw [bundleHeader_of_slotView same, bundleOk_of_slotView same, latched, boot]

end

theorem poolGrant_slotView (s : State) (q h n : Nat) : (s.poolGrant q h n).slotView = s.slotView := by
  unfold State.poolGrant
  split <;> rfl

theorem lvGrant_slotView (s : State) (u : LvUse) (n : Nat) : (s.lvGrant u n).slotView = s.slotView := by
  unfold State.lvGrant
  extract_lets t
  have pool : t.slotView = s.slotView := poolGrant_slotView ..
  rw [← pool]
  split <;> rfl

theorem setLine_slotView (s : State) (n : Nat) (v : Bool) : (s.setLine n v).slotView = s.slotView :=
  each_same State.slotView (fun _ _ => by rfl) s

theorem poolBack_slotView (s : State) (q h n : Nat) : (s.poolBack q h n).slotView = s.slotView := (rfl)

theorem boxEmpty_slotView (s : State) (q : Nat) : (s.boxEmpty q).slotView = s.slotView := by
  unfold State.boxEmpty
  extract_lets u
  have pools : u.slotView = s.slotView :=
    each_same State.slotView (fun _ _ => by exact (poolBack_slotView ..).trans (poolBack_slotView ..)) s
  clear_value u
  have drop : (u.boxDrop q).slotView = u.slotView := rfl
  exact drop.trans pools

theorem seedHold_slotView (s : State) (h : List Byte) : (s.seedHold h).slotView = s.slotView :=
  (each_same State.slotView (fun _ _ => by rfl) _).trans (poolGrant_slotView s 8 2 1)

theorem seedReturn_slotView (s : State) (h : List Byte) : (s.seedReturn h).slotView = s.slotView := by
  unfold State.seedReturn
  extract_lets u
  have back : u.slotView = s.slotView := (poolBack_slotView ..).trans (poolBack_slotView ..)
  rw [← back]
  refine each_same State.slotView (fun v j => ?_) u
  split
  · exact setLine_slotView ..
  · rfl

/-! #### The pass draws its leave (R54, R394) -/

theorem seedDraw_spec {s t : State} {h : List Byte} (draw : s.seedDraw h = some t) :
    s.seedReady h = true ∧ s.leave.queue = [] ∧ t = (s.lvGrant .bundle (s.seedTokens h)).seedHold h := by
  unfold State.seedDraw at draw
  split at draw
  · next ready =>
    refine ⟨ready, ?_⟩
    unfold State.lvTake at draw
    split at draw
    · next leave =>
      rw [Bool.and_eq_true, decide_eq_true_eq] at leave
      exact ⟨leave.1, (Option.some.inj draw).symm⟩
    · exact nomatch draw
  · exact nomatch draw

theorem seedHold_held {s : State} {h : List Byte} (can : s.canGrant 8 1 = true) : (s.seedHold h).heldOf 8 2 = s.heldOf 8 2 + 1 := by
  have moves : (s.seedHold h).po 8 = (s.poolGrant 8 2 1).po 8 := by
    refine each_same (fun u => u.po 8) (fun u j => ?_) (s.poolGrant 8 2 1)
    exact State.poU_po_ne _ _ _ _ (by decide)
  rw [← State.poolGrant_heldOf can]
  unfold State.heldOf
  rw [moves]

/-- The pass takes one of the wake lanes. -/
theorem seedDraw_held {s t : State} {h : List Byte} (draw : s.seedDraw h = some t) : t.heldOf 8 2 = s.heldOf 8 2 + 1 := by
  obtain ⟨ready, -, rfl⟩ := seedDraw_spec draw
  have lanes : (s.lvGrant .bundle (s.seedTokens h)).po 8 = s.po 8 :=
    (State.lvGrant_po ..).trans (State.poolGrant_po_ne _ (by decide))
  have can : s.canGrant 8 1 = true := (Bool.and_eq_true_iff.mp ready).1
  have same : (s.lvGrant .bundle (s.seedTokens h)).canGrant 8 1 = true := by
    unfold State.canGrant at can ⊢
    rwa [lanes]
  rw [seedHold_held same]
  unfold State.heldOf
  rw [lanes]

theorem seedDraw_slotView {s t : State} {h : List Byte} (draw : s.seedDraw h = some t) : t.slotView = s.slotView := by
  obtain ⟨-, -, rfl⟩ := seedDraw_spec draw
  exact (seedHold_slotView ..).trans (lvGrant_slotView ..)

/-! #### Regions and keys -/

theorem returnGroups_po {s : State} {use port q : Nat} {slot : Option Bool} (other : q ≠ 9) : (s.returnGroups use port slot).po q = s.po q := by
  refine each_same (fun u => u.po q) (fun u g => ?_) s
  unfold State.returnGroup State.dropGroup
  have back : (u.poolBack 9 (useHolder use) 8).po q = u.po q := State.poU_po_ne _ _ _ _ other
  extract_lets v bad w
  have drop : w.po q = u.po q := back
  have retired : (w.groupRetired g).po q = w.po q := each_same (fun x => x.po q) (fun _ _ => by rfl) w
  split
  · unfold State.poolClaim
    split
    · rw [State.poolGrant_po_ne _ other, retired, drop]
    · rw [State.poU_po_ne _ _ _ _ other, retired, drop]
  · exact drop

theorem takeGroup_po {s t : State} {use g q : Nat} {w : W32} (other : q ≠ 9) (take : s.takeGroup use w = some (g, t)) : t.po q = s.po q := by
  unfold State.takeGroup at take
  split at take
  · split at take
    · obtain ⟨-, rfl⟩ := Prod.mk.inj (Option.some.inj take)
      exact State.poolGrant_po_ne _ other
    · exact nomatch take
  · exact nomatch take

theorem tagRegion_po {s : State} {x : Slot} {len q : Nat} (other : q ≠ 9) : (s.tagRegion x len).po q = s.po q := by
  unfold State.tagRegion
  extract_lets u base v
  have first : u.po q = s.po q := returnGroups_po other
  have loop : v.po q = u.po q := by
    refine each_same (fun w => w.po q) (fun w i => ?_) u
    dsimp only
    split
    · next v take =>
      have taken : v.po q = w.po q := takeGroup_po other take
      exact taken
    · rfl
  exact loop.trans first

end Sys2Proof.Machine
end

section
namespace Sys2Proof.Machine
open Sys2Proof

/-- A slot that a check of its key passes over: sound, or known to be bad (R339). -/
def State.settled (s : State) (n : Nat) : Bool := (s.ks n).sound || (s.ks n).bad

theorem keyCheck_settled {s : State} {n : Nat} (good : s.settled n = true) : s.keyCheck n = s := if_pos good

theorem placeKey_settled (s : State) (n : Nat) (key : BitVec 512) (attr : W32) : (s.placeKey n key attr).settled n = true := by
  unfold State.placeKey
  extract_lets u
  split
  · next bad => exact Bool.or_eq_true_iff.mpr (.inr bad)
  · unfold State.settled State.storeKey
    rw [State.ksU_ks_same, State.ksU_ks_same]
    simp [KeySlot.sound, KeySlot.withAttr, KeySlot.stored]

theorem remask_settled {s : State} {n : Nat} (good : s.settled n = true) : (s.remask n).settled n = true := by
  unfold State.remask State.storeKey State.settled at *
  change (((State.ksU _ n _).ks n).sound || ((State.ksU _ n _).ks n).bad) = true
  rw [State.ksU_ks_same, State.ksU_ks_same]
  revert good
  simp only [KeySlot.sound, KeySlot.stored, Bool.or_eq_true, Bool.and_eq_true]
  rintro (⟨shadow, -⟩ | bad)
  · exact .inl ⟨shadow, .inr ⟨decide_eq_true trivial, decide_eq_true trivial⟩⟩
  · exact .inr bad

theorem ksU_canDerive (s : State) (n : Nat) (f : KeySlot → KeySlot) : (s.ksU n f).canDerive = s.canDerive := (rfl)

theorem remask_leave (s : State) (n : Nat) : (s.remask n).leave = s.leave := by
  unfold State.remask State.storeKey
  exact (State.used_leave ..).trans ((State.ksU_leave ..).trans (State.ksU_leave ..))

theorem remask_canDerive (s : State) (n : Nat) : (s.remask n).canDerive = s.canDerive := by
  unfold State.remask State.storeKey
  have used : ∀ u : State, (u.used 1).canDerive = u.canDerive := fun _ => rfl
  rw [used, ksU_canDerive, ksU_canDerive]

theorem placeKey_other {s : State} {n j : Nat} (key : BitVec 512) (attr : W32) (other : j ≠ n) : (s.placeKey n key attr).ks j = s.ks j := by
  unfold State.placeKey
  extract_lets u
  split
  · rfl
  · unfold State.storeKey
    rw [State.ksU_ks_ne _ _ _ _ other, State.ksU_ks_ne _ _ _ _ other]
    rfl

theorem placeKey_leave (s : State) (n : Nat) (key : BitVec 512) (attr : W32) : (s.placeKey n key attr).leave = s.leave := by
  unfold State.placeKey
  extract_lets u
  split <;> rfl

theorem placeKey_canDerive (s : State) (n : Nat) (key : BitVec 512) (attr : W32) : (s.placeKey n key attr).canDerive = s.canDerive := by
  unfold State.placeKey
  extract_lets u
  split <;> rfl

/-- The derivation of KS2 moves no leave and leaves a KS2 that a check passes over (R347). -/
theorem deriveDeviceId_spec {s t : State} {cold : Bool} (e : s.deriveDeviceId cold = t) :
    t.leave = s.leave ∧ t.canDerive = s.canDerive ∧ (s.canDerive = true → t.settled 2 = true) := by
  unfold State.deriveDeviceId at e
  extract_lets d u q v at e
  split at e
  · next no =>
    subst e
    exact ⟨rfl, rfl, fun can => by rw [can] at no; exact absurd no (by decide)⟩
  · have leave : u.leave = s.leave := placeKey_leave ..
    have can : u.canDerive = s.canDerive := placeKey_canDerive ..
    have good : u.settled 2 = true := placeKey_settled ..
    clear_value u
    split at e
    · have masked : v.settled 2 = true := remask_settled good
      have leave : v.leave = s.leave := (remask_leave u 2).trans leave
      have can : v.canDerive = s.canDerive := (remask_canDerive u 2).trans can
      clear_value v
      subst e
      exact ⟨leave, can, fun _ => masked⟩
    · subst e
      exact ⟨leave, can, fun _ => good⟩

/-- The Alias key of a settled KS2 raises no alarm and moves no leave (R339, R348). -/
theorem deriveAlias_calm {s : State} (digest : List Byte) (good : s.canDerive = true → s.settled 2 = true) :
    Keeps .calm s (s.deriveAlias digest) ∧ (s.deriveAlias digest).leave = s.leave := by
  unfold State.deriveAlias
  extract_lets c cdi d u v q tbs sig w
  split
  · exact ⟨Keeps.refl, rfl⟩
  · next can =>
    have two : u.settled 2 = true := by
      have same : u.ks 2 = s.ks 2 := placeKey_other _ _ (by decide)
      unfold State.settled
      rw [same]
      exact good (by simpa using can)
    have three : u.settled 3 = true := placeKey_settled ..
    have same : v = u := by
      unfold v
      rw [keyCheck_settled two, keyCheck_settled three]
    have placed : Keeps .calm s v := by
      rw [same]
      exact Keeps.refl.placeKey
    have leave : v.leave = s.leave := by
      rw [same]
      exact placeKey_leave ..
    clear_value v
    have masked : Keeps .calm s w := placed.used.remask.remask
    have stays : w.leave = v.leave := (remask_leave ((v.used 1).remask 2) 3).trans (remask_leave (v.used 1) 2)
    clear_value w
    split
    · exact ⟨masked.same, stays.trans leave⟩
    · exact ⟨placed, leave⟩

end Sys2Proof.Machine
end

section
namespace Sys2Proof.Machine
open Sys2Proof

/-! #### The pass over a candidate (R52, R110, R264, R348) -/

/-- The link core's part stands in its memory, the rest of it is zero. -/
theorem loadImages_link (s : State) (x : Slot) (h : List Byte) (a : Nat) :
    (s.loadImages x h).memGet 3 a = byteAt (s.partBytes x h 1) a := by
  unfold State.loadImages
  extract_lets r
  rw [State.mem_get_memPut]
  split
  · rfl
  · next outside =>
    have past : (s.partBytes x h 1).length ≤ a := by omega
    rw [State.mem_get_memPut, if_neg (by omega), State.mem_get_memPut, if_neg (by omega)]
    unfold byteAt
    rw [List.getD_eq_default _ _ past]
    simp [State.memGet, State.memZero]

theorem loadImages_po (s : State) (x : Slot) (h : List Byte) (q : Nat) : (s.loadImages x h).po q = s.po q := by
  unfold State.loadImages
  extract_lets r
  simp only [State.memPut_po, State.memZero_po]

theorem loadImages_boot (s : State) (x : Slot) (h : List Byte) : (s.loadImages x h).boot = s.boot := by
  unfold State.loadImages
  extract_lets r
  simp only [State.memPut_boot, State.memZero_boot]

/-- A pass keeps header and digests, loads the parts and tags the region; the keys that it derives raise no alarm. -/
theorem seedPass_spec {s t : State} {x : Slot} {h : List Byte} (e : s.seedPass x h = t) :
    t.boot = { s.boot with step := .verifying, head := h, digs := s.partDigests x h } ∧ t.home = s.home ∧ t.po 8 = s.po 8
      ∧ ∀ a, t.memGet 3 a = byteAt (s.partBytes x h 1) a := by
  have home : t.home = s.home := by rw [← e]; exact ((Keeps.refl : Keeps .spared s s).seedPass nofun).home
  unfold State.seedPass at e
  extract_lets _ s1 s2 on s3 at e
  have boot1 : s1.boot = { s.boot with step := .verifying, head := h, digs := s.partDigests x h } := rfl
  have home1 : s1.partBytes x h 1 = s.partBytes x h 1 := rfl
  have po1 : s1.po 8 = s.po 8 := rfl
  clear_value s1
  have region : Keeps .calm (s1.loadImages x h) s2 := Keeps.refl.tagRegion
  have po2 : s2.po 8 = (s1.loadImages x h).po 8 := tagRegion_po (by decide)
  have boot2 : s2.boot = s1.boot := region.boot.trans (loadImages_boot s1 x h)
  have mem2 : ∀ a, s2.memGet 3 a = byteAt (s1.partBytes x h 1) a := fun a => by
    rw [← loadImages_link s1 x h a]
    unfold State.memGet
    rw [region.mems]
  have same : (s1.loadImages x h).po 8 = s1.po 8 := loadImages_po s1 x h 8
  clear_value s2
  have device : Keeps .calm s2 s3 := Keeps.refl.deriveDeviceId
  obtain ⟨leave3, can, good⟩ := deriveDeviceId_spec (t := s3) rfl
  clear_value s3
  obtain ⟨key, leave4⟩ := deriveAlias_calm (s := s3) (cDigest h) (fun now => good (by rwa [can] at now))
  have last : Keeps .calm s2 t ∧ t.leave = s2.leave := by
    rw [← e]
    split
    · exact ⟨device.trans key, leave4.trans leave3⟩
    · exact ⟨device, leave3⟩
  obtain ⟨calm, leave⟩ := last
  have pool : t.po 8 = s2.po 8 := by
    unfold State.po
    rw [leave]
  have mem : ∀ a, t.memGet 3 a = s2.memGet 3 a := fun a => by
    unfold State.memGet
    rw [calm.mems]
  exact ⟨calm.boot.trans (boot2.trans boot1), home, pool.trans (po2.trans (same.trans po1)),
    fun a => (mem a).trans ((mem2 a).trans (congrArg (byteAt · a) home1))⟩

theorem bundleCandidateRead_completes {s : State} {x : Slot} (reading : s.boot.step = .reading) (cand : s.boot.cand = some x)
    (draws : (s.seedDraw (s.bundleHeader x)).isSome = true) :
    Completes .bundleCandidateRead s fun t =>
      t.boot.step = .verifying ∧ t.heldOf 8 2 = s.heldOf 8 2 + 1 ∧ t.boot.head = s.bundleHeader x
        ∧ t.boot.digs = s.partDigests x (s.bundleHeader x) ∧ t.home = s.home
        ∧ ∀ a, t.memGet 3 a = byteAt (s.partBytes x (s.bundleHeader x) 1) a := by
  obtain ⟨u, draw⟩ := Option.isSome_iff_exists.mp draws
  obtain ⟨ready, queue, -⟩ := seedDraw_spec draw
  have waits : s.lvWaits .bundle = false := by
    unfold State.lvWaits
    rw [queue]
    rfl
  have run : exec .bundleCandidateRead s = .next (u.seedPass x (s.bundleHeader x)) := by
    simp only [exec, execBundleCandidateRead, reading, cand, ready, waits, draw, Bool.not_true, Bool.false_eq_true, or_self, if_false]
  have view := seedDraw_slotView draw
  have held := seedDraw_held draw
  generalize s.bundleHeader x = h at *
  obtain ⟨boot, home, pool, mem⟩ := seedPass_spec (s := u) (x := x) (h := h) rfl
  refine ⟨_, run, by rw [boot], ?_, by rw [boot], by rw [boot, partDigests_of_slotView view], ?_, fun a => ?_⟩
  · rw [← held]
    unfold State.heldOf
    rw [pool]
  · exact home.trans (congrArg (fun v => v.2.1) view)
  · rw [mem, partBytes_of_slotView view]

/-! #### The verdict on a candidate (R52 to R55, R110) -/

theorem bundleVerified_good {s : State} {x : Slot} (verifying : s.boot.step = .verifying) (cand : s.boot.cand = some x)
    (good : s.passOk s.boot.head s.boot.digs = true) (ran : s.seedRan s.boot.head = true)
    (alone : (s.bundleOk (otherSlot x) && headsConflict s.boot.head (s.bundleHeader (otherSlot x))) = false) :
    Completes .bundleSignatureVerified s fun t =>
      t.boot.step = .good ∧ t.boot.bundle = some (bundleFrom x s.boot.head) ∧ t.boot.dev = s.boot.dev ∧ t.home = s.home := by
  have view := seedReturn_slotView s s.boot.head
  refine .ofEndsIn (o := execBundleSignatureVerified s) rfl ?_
  unfold execBundleSignatureVerified
  rw [verifying, cand]
  dsimp only
  generalize s.seedReturn s.boot.head = u at view
  rw [good, ran, bundleOk_of_slotView view, bundleHeader_of_slotView view, Bool.true_and, alone]
  have dev : u.boot.dev = s.boot.dev := congrArg (fun v => v.1.dev) view
  have home : u.home = s.home := congrArg (fun v => v.2.1) view
  exact ⟨rfl, rfl, dev, home⟩

theorem bundleVerified_bad {s : State} {x : Slot} (verifying : s.boot.step = .verifying) (cand : s.boot.cand = some x)
    (bad : s.passOk s.boot.head s.boot.digs = false) :
    Completes .bundleSignatureVerified s fun t => t.boot.step ≠ .good ∧ t.home = s.home := by
  refine .ofEndsIn (o := execBundleSignatureVerified s) rfl ?_
  unfold execBundleSignatureVerified
  rw [verifying, cand]
  dsimp -zeta only
  extract_lets h good ran u _ v _ w
  have fails : good = false := bad
  have back : Keeps .spared s v := Keeps.refl.seedReturn.dropAlias.coresOff nofun
  clear_value good v
  have marked : w.home = v.home := by
    unfold w
    split <;> rfl
  have home : w.home = s.home := marked.trans back.home
  clear_value w
  rw [fails, Bool.false_and, Bool.false_and, Bool.false_and, if_neg Bool.false_ne_true, if_neg Bool.false_ne_true]
  split
  · exact ⟨nofun, home⟩
  · change _ ∧ _
    rw [noBundle_boot]
    exact ⟨nofun, ((Keeps.refl : Keeps .spared w w).noBundle nofun).home.trans home⟩

/-- Settles O15: the sense by `fuseSense_completes`, the pass by `seedPass_spec`, the verdict on what the slots hold. -/
theorem startUpAndBundle : Obligations.StartUpAndBundle := by
  unfold Obligations.StartUpAndBundle
  exact fun s x probes => ⟨fuseSense_completes, seedCoreRelease_completes probes, bundleHeadersRead_takes, bundleHeadersRead_none,
    bundleCandidateRead_completes, bundleVerified_good, bundleVerified_bad⟩

end Sys2Proof.Machine
end

section
namespace Sys2Proof.Machine
open Sys2Proof

/-! ### O17: the policy, the containers and the shelf manifest -/

/-- What the load of a container asks of the sequencers: their channels, and which of them run (R58, R414). -/
def State.seqView (s : State) := (s.chans, fun k => (s.sh k).released)

theorem poolGrant_seqView (s : State) (q h n : Nat) : (s.poolGrant q h n).seqView = s.seqView := by
  unfold State.poolGrant
  split <;> rfl

theorem shU_seqView {s : State} {k : Nat} {f : Sheaf → Sheaf} (keeps : ∀ h, (f h).released = h.released) :
    (s.shU k f).seqView = s.seqView := by
  have released : (fun j => ((s.shU k f).sh j).released) = fun j => (s.sh j).released := by
    funext j
    rw [State.shU_sh]
    split
    · next same => rw [keeps, same]
    · rfl
  exact congrArg (Prod.mk s.chans) released

theorem chainStart_seqView (s : State) (e : Nat) (j : ChainJob) : (s.chainStart e j).seqView = s.seqView := by
  unfold State.chainStart
  extract_lets n u
  have first : u.seqView = s.seqView := rfl
  rw [← first]
  split
  · exact poolGrant_seqView u 0 e n
  · rfl

theorem verStart_seqView (s : State) : s.verStart.seqView = s.seqView := by
  unfold State.verStart
  extract_lets order
  split
  · exact chainStart_seqView ..
  · rfl

theorem takePolicy_seqView (s : State) (c : List Byte) : (s.takePolicy c).seqView = s.seqView := by
  unfold State.takePolicy
  extract_lets p _ _ u v
  have taken : u.seqView = s.seqView := rfl
  have pools : v.seqView = u.seqView := each_same State.seqView (fun _ _ => by rfl) u
  clear_value u v
  have logged : (v.logRec 0x24 (policyBody c)).seqView = v.seqView := rfl
  exact logged.trans (pools.trans taken)

theorem noPolicy_seqView (s : State) : s.noPolicy.seqView = s.seqView := by
  refine each_same State.seqView (fun u k => ?_) s
  split
  · rfl
  · exact shU_seqView fun _ => rfl

theorem loadWakeSched_seqView (s : State) : s.loadWakeSched.seqView = s.seqView := (rfl)

theorem policyVerified_seqView (s : State) (j : ChainJob) (ok : Bool) : (s.policyVerified j ok).seqView = s.seqView := by
  unfold State.policyVerified
  extract_lets c u
  have taken : u.seqView = s.seqView := takePolicy_seqView s c
  clear_value u
  split
  · split
    · exact taken
    · exact (loadWakeSched_seqView u).trans taken
  · exact noPolicy_seqView s

theorem readPolicy_seqView (s : State) : s.readPolicy.seqView = s.seqView := by
  unfold State.readPolicy
  split
  · split
    · rfl
    · exact loadWakeSched_seqView s
  split
  · rfl
  split
  · unfold State.verify
    extract_lets j
    split
    · exact policyVerified_seqView ..
    split
    · exact policyVerified_seqView ..
    · exact verStart_seqView ..
  · rfl

/-! #### A container that matches is loaded (R56, R58) -/

theorem startThreads_co (s : State) (k : Nat) (threads : List Byte) {j : Nat} (small : j < 8) :
    let core := (s.startThreads k threads).co (8 + 8 * k + j)
    core.run = .running ∧ core.pc = vectorPc (BitVec.ofNat 24 (field threads (4 * j) 3)) := by
  have started : ∀ (l : List Nat) (u : State),
      (j ∈ l ∨ ((u.co (8 + 8 * k + j)).run = .running
        ∧ (u.co (8 + 8 * k + j)).pc = vectorPc (BitVec.ofNat 24 (field threads (4 * j) 3)))) →
      ((u.each l fun u t => u.startCore (8 + 8 * k + t) (BitVec.ofNat 24 (field threads (4 * t) 3))).co (8 + 8 * k + j)).run = .running
        ∧ ((u.each l fun u t => u.startCore (8 + 8 * k + t) (BitVec.ofNat 24 (field threads (4 * t) 3))).co (8 + 8 * k + j)).pc
          = vectorPc (BitVec.ofNat 24 (field threads (4 * j) 3)) := by
    intro l
    induction l with
    | nil => exact fun u done => done.resolve_left (by simp)
    | cons t l ih =>
      intro u done
      refine ih _ ?_
      rw [startCore_co]
      split
      · next same =>
        have same : j = t := by omega
        subst same
        exact .inr ⟨rfl, rfl⟩
      · next other =>
        refine done.imp_left fun mem => (List.mem_cons.mp mem).resolve_left fun same => other (by omega)
  exact started (List.range 8) s (.inl (List.mem_range.mpr small))

theorem writeRules_seqView (s : State) (k : Nat) (bank : Bool) (build : Nat) (recs : List (Nat × W128)) :
    (s.writeRules k bank build recs).seqView = s.seqView := (rfl)

theorem takeSlices_seqView (s : State) (p : Nat) (c : List Byte) : (s.takeSlices p c).seqView = s.seqView := (rfl)

theorem loadSequencer_runs {s t : State} {k : Nat} {c : List Byte} (kept : s.chanRetired .sequencer k = false) (e : s.loadSequencer k c = t) :
    (t.sh k).released = true ∧ (t.sh k).matched = true ∧ ∀ j, j < 8 →
      (t.co (8 + 8 * k + j)).run = .running
        ∧ (t.co (8 + 8 * k + j)).pc = vectorPc (BitVec.ofNat 24 (field (sectionOf c 1) (4 * j) 3)) := by
  unfold State.loadSequencer at e
  extract_lets thr u v w at e
  have same : u.chanRetired .sequencer k = false := kept
  rw [if_neg (by rw [same]; exact Bool.false_ne_true)] at e
  have sheaf : v.sh k = { matched := true, released := true, threads := thr } := State.shU_sh_same ..
  have decs : w.sh k = v.sh k := each_same (fun x => x.sh k) (fun _ _ => by rfl) v
  have threads : (w.startThreads k thr).sh k = w.sh k := each_same (fun x => x.sh k) (fun _ _ => by rfl) w
  clear_value w
  rw [← e, threads, decs, sheaf]
  exact ⟨rfl, rfl, fun j small => startThreads_co w k thr small⟩

theorem takeSheaf_runs {s t : State} {k : Nat} {c : List Byte} (kept : s.chanRetired .sequencer k = false) (e : s.takeSheaf k c = t) :
    (t.sh k).released = true ∧ (t.sh k).matched = true ∧ ∀ j, j < 8 →
      (t.co (8 + 8 * k + j)).run = .running
        ∧ (t.co (8 + 8 * k + j)).pc = vectorPc (BitVec.ofNat 24 (field (sectionOf c 1) (4 * j) 3)) := by
  unfold State.takeSheaf at e
  extract_lets w build u _ v x at e
  have rules : u.seqView = s.seqView := writeRules_seqView ..
  have count : v.seqView = u.seqView := rfl
  have slices : x.seqView = v.seqView := each_same State.seqView (fun y p => by exact takeSlices_seqView y p c) v
  clear_value u v x
  have chans : x.chans = s.chans := congrArg Prod.fst (slices.trans (count.trans rules))
  refine loadSequencer_runs ?_ e
  unfold State.chanRetired State.ch at kept ⊢
  rwa [chans]

theorem containerLoad_completes {s : State} {k : SheafId} (service : s.boot.dev = .service) (leads : s.leads = true)
    (reset : (s.sh k.val).released = false) (kept : s.chanRetired .sequencer k.val = false) (standing : s.standingDone = true) :
    let u := s.readPolicy
    let c := u.homeContainer (schedBase k.val) 0x100000
    let waits := u.wake.policy.isNone && u.verUnder .policy
    let good := u.wake.policy.isSome && sheafFormOk c k.val && decide (cDigest c = polSheafDigest u.pol k.val)
      && !u.rulesCollide k.val (u.pw (8 * k.val)).gen (ruleRecords (sectionOf c 4))
    Completes (.scheduleContainerLoad k) s fun t =>
      t.home = s.home
        ∧ (waits = true → t = u)
        ∧ (good = true → (t.sh k.val).released = true ∧ (t.sh k.val).matched = true ∧ ∀ j, j < 8 →
            (t.co (8 + 8 * k.val + j)).run = .running
              ∧ (t.co (8 + 8 * k.val + j)).pc = vectorPc (BitVec.ofNat 24 (field (sectionOf c 1) (4 * j) 3)))
        ∧ (good = false → (t.sh k.val).released = false ∧ (waits = false → (t.sh k.val).refused = true)) := by
  intro u c waits good
  have view : u.seqView = s.seqView := readPolicy_seqView s
  have home : u.home = s.home := ((Keeps.refl.readPolicy : Keeps .calm s u).ofCalm : Keeps .spared s u).home
  have off : (u.sh k.val).released = false := (congrFun (congrArg Prod.snd view) k.val).trans reset
  have chans : u.chans = s.chans := congrArg Prod.fst view
  have stays : u.chanRetired .sequencer k.val = false := by
    unfold State.chanRetired State.ch at kept ⊢
    rwa [chans]
  have clash : waits = true → good = true → False := by
    unfold waits good
    cases u.wake.policy <;> simp
  have run : exec (.scheduleContainerLoad k) s = if waits then .next u
      else if good then .next (u.takeSheaf k.val c) else .next (u.shU k.val fun h => { h with matched := false, refused := true }) := by
    refine if_neg ?_
    rw [service, leads, reset, kept, standing]
    decide
  have loaded := takeSheaf_runs (c := c) (t := u.takeSheaf k.val c) stays rfl
  have spared : (u.takeSheaf k.val c).home = u.home := ((Keeps.refl : Keeps .spared u u).takeSheaf nofun).home
  clear_value waits good u
  refine .ofEndsIn run ?_
  split
  · next wait => exact ⟨home, fun _ => rfl, fun yes => (clash wait yes).elim, fun _ => ⟨off, fun no => absurd (no.symm.trans wait) Bool.false_ne_true⟩⟩
  · next wait =>
    split
    · next yes => exact ⟨spared.trans home, fun no => absurd no wait, fun _ => loaded, fun no => absurd (no.symm.trans yes) Bool.false_ne_true⟩
    · next no =>
      refine ⟨home, fun now => absurd now wait, fun yes => absurd yes no, fun _ => ?_⟩
      rw [State.shU_sh_same]
      exact ⟨off, fun _ => rfl⟩

/-! #### The shelf manifest (R81, R84, R121) -/

theorem poolGrant_wake (s : State) (q h n : Nat) : (s.poolGrant q h n).wake = s.wake ∧ (s.poolGrant q h n).engines = s.engines := by
  unfold State.poolGrant
  split <;> exact ⟨rfl, rfl⟩

/-- An engine that is given a verification keeps it until it answers (R319). -/
theorem chainStart_spec {s t : State} {e : Nat} {j : ChainJob} (start : s.chainStart e j = t) :
    t.wake = s.wake ∧ (t.en e).chain = some j := by
  unfold State.chainStart at start
  extract_lets n u at start
  have given : (u.en e).chain = some j := by
    unfold u
    rw [State.enU_en_same]
  have first : u.wake = s.wake := rfl
  clear_value u
  split at start
  · obtain ⟨wake, engines⟩ := poolGrant_wake u 0 e n
    have same : (u.poolGrant 0 e n).en e = u.en e := by
      unfold State.en
      rw [engines]
    rw [← start, State.enU_en_same, same, State.enU_wake, wake]
    exact ⟨first, given⟩
  · rw [← start, State.enU_en_same, State.enU_wake]
    exact ⟨first, given⟩

/-- A verification that waits and still decides something goes on waiting or is given to an engine. -/
theorem verStart_spec {s t : State} {j : ChainJob} (start : s.verStart = t) (waits : j ∈ s.wake.verify) (live : s.verLive j = true) :
    t.Verifying j ∧ t.wake.shelf = s.wake.shelf := by
  have listed : j ∈ s.wake.verify.filter s.verLive := List.mem_filter.mpr ⟨waits, live⟩
  unfold State.verStart at start
  extract_lets order at start
  split at start
  · next first rest e jobs free =>
    obtain ⟨wake, chain⟩ := chainStart_spec start
    rw [jobs] at listed
    have small : e < 4 := by
      have mem := List.mem_of_find?_eq_some free
      unfold order at mem
      split at mem
      · exact List.mem_range.mp mem
      · exact List.mem_range.mp (List.mem_reverse.mp mem)
    refine ⟨?_, by rw [wake]⟩
    obtain rfl | later := List.mem_cons.mp listed
    · exact .inr ⟨e, small, chain⟩
    · exact .inl (by rw [wake]; exact later)
  · rw [← start]
    exact ⟨.inl listed, rfl⟩

/-- The shelf manifest as it has been read, before its decision. -/
def State.shelfRead (s : State) (m : List Byte) : State :=
  { s with wake := { s.wake with shelf :=
    { rollback := BitVec.ofNat 32 (field m 0x20 4)
      signer := if signerMatch s.fuses.latched 0xFFF0 m then BitVec.ofNat 4 (cSigner m) else 0
      digest := cDigest m, bytes := m, epoch := s.boot.epoch } } }

/-- A signature that an engine takes leaves the manifest open; any other decides it at once (R84, R319, R322). -/
theorem shelfVerify_spec {s t : State} {m : List Byte} (open' : s.wake.shelf.decided = false) (digest : s.wake.shelf.digest = cDigest m)
    (e : (s.verify (jobOf .shelf m) fun ok s => s.shelfVerified ok) = t) :
    (s.onEngine (cScheme m) = false → t = s.shelfVerified (jobOf .shelf m).atOnce)
      ∧ (s.onEngine (cScheme m) = true → t.Verifying (jobOf .shelf m) ∧ t.wake.shelf = s.wake.shelf ∧ t.home = s.home) := by
  have scheme : (jobOf .shelf m).scheme = cScheme m := rfl
  unfold State.verify at e
  unfold State.onEngine ChainJob.atOnce
  rw [scheme] at e ⊢
  split at e
  · next hash =>
    rw [hash]
    exact ⟨fun _ => e.symm, fun no => absurd no (by simp)⟩
  next hash =>
  rw [Bool.not_eq_true] at hash
  rw [hash]
  split at e
  · next none' =>
    rw [Bool.not_eq_true'] at none'
    rw [none']
    exact ⟨fun _ => e.symm, fun no => absurd no (by simp)⟩
  · next left =>
    rw [Bool.not_eq_true', Bool.not_eq_false] at left
    rw [left]
    let v : State := { s with wake := { s.wake with verify := s.wake.verify ++ [jobOf .shelf m] } }
    have live : v.verLive (jobOf .shelf m) = true := by
      have named : v.verLive (jobOf .shelf m) = (!s.wake.shelf.decided && decide (s.wake.shelf.digest = cDigest m)) := rfl
      rw [named, open', digest]
      exact decide_eq_true rfl
    have waits : jobOf .shelf m ∈ v.wake.verify := List.mem_append_right _ (List.mem_singleton.mpr rfl)
    have same : v.wake.shelf = s.wake.shelf := rfl
    have queued : Keeps .calm s v := Keeps.refl.same
    have started : Keeps .spared s t := by
      rw [← e]
      exact queued.verStart.ofCalm
    obtain ⟨verifies, shelf⟩ := verStart_spec e waits live
    exact ⟨fun no => absurd no (by simp), fun _ => ⟨verifies, shelf.trans same, started.home⟩⟩

theorem shelfManifest_completes {s : State} (service : s.boot.dev = .service) (policy : s.wake.policy.isSome = true)
    (idle : s.wake.stage = .idle) (free : s.verUnder .shelf = false) :
    let m := s.homeContainer 0x02000000 0x10000
    let checked := shelfFormOk m s.pol && decide (mcCount s.fuses.latched 0 ≤ field m 0x20 4) && keyBlockOk (cScheme m) (cSigBlock m)
      && signerMatch s.fuses.latched 0xFFF0 m
    Completes .shelfManifestDecide s fun t =>
      t.wake.shelf.stale = false ∧ t.wake.shelf.epoch = s.boot.epoch ∧ t.wake.shelf.bytes = m ∧ t.home = s.home
        ∧ (checked = false → t.wake.shelf.decided = true ∧ t.wake.shelf.rejected = true)
        ∧ (checked = true → s.onEngine (cScheme m) = false →
            t.wake.shelf.decided = true ∧ t.wake.shelf.rejected = !(jobOf .shelf m).atOnce)
        ∧ (checked = true → s.onEngine (cScheme m) = true → t.wake.shelf.decided = false ∧ t.Verifying (jobOf .shelf m)) := by
  intro m checked
  let u := s.shelfRead m
  have run : exec .shelfManifestDecide s
      = .next (if checked then u.verify (jobOf .shelf m) fun ok s => s.shelfVerified ok else u.shelfVerified false) := by
    refine if_neg ?_
    obtain ⟨p, some'⟩ := Option.isSome_iff_exists.mp policy
    rw [service, some', idle, free]
    simp
  have shelf : u.wake.shelf.stale = false ∧ u.wake.shelf.epoch = s.boot.epoch ∧ u.wake.shelf.bytes = m ∧ u.wake.shelf.decided = false
      ∧ u.wake.shelf.digest = cDigest m := ⟨rfl, rfl, rfl, rfl, rfl⟩
  have home : u.home = s.home := rfl
  have left : u.engineLeft = s.engineLeft := rfl
  clear_value u
  obtain ⟨stale, epoch, bytes, open', digest⟩ := shelf
  refine .ofEndsIn run ?_
  split
  · next yes =>
    have clash : checked = false → False := fun no => Bool.false_ne_true (no.symm.trans yes)
    have same : u.onEngine (cScheme m) = s.onEngine (cScheme m) := by
      unfold State.onEngine
      rw [left]
    obtain ⟨atOnce, engine⟩ := shelfVerify_spec open' digest (t := u.verify (jobOf .shelf m) fun ok s => s.shelfVerified ok) rfl
    rw [same] at atOnce engine
    by_cases given : s.onEngine (cScheme m) = true
    · obtain ⟨verifies, shelf, spared⟩ := engine given
      change _ ∧ _
      rw [shelf, spared]
      exact ⟨stale, epoch, bytes, home, fun no => (clash no).elim, fun _ no => absurd (no.symm.trans given) Bool.false_ne_true,
        fun _ _ => ⟨open', verifies⟩⟩
    · rw [atOnce (Bool.eq_false_iff.mpr given)]
      exact ⟨stale, epoch, bytes, home, fun no => (clash no).elim, fun _ _ => ⟨rfl, rfl⟩, fun _ yes => absurd yes given⟩
  · next no =>
    have bad : checked = false := Bool.eq_false_iff.mpr no
    exact ⟨stale, epoch, bytes, home, fun _ => ⟨rfl, rfl⟩, fun yes => absurd yes no, fun yes => absurd yes no⟩

/-- Settles O17: a load by `loadSequencer_runs` on the state that the read of the policy leaves, a decision by `verStart_spec`. -/
theorem containersAreLoadedOrRefused : Obligations.ContainersAreLoadedOrRefused := by
  unfold Obligations.ContainersAreLoadedOrRefused
  exact fun s k => ⟨containerLoad_completes, shelfManifest_completes⟩

end Sys2Proof.Machine
end

section
namespace Sys2Proof.Machine
open Sys2Proof

/-! ### O18: the stages of the wake -/

/-! #### What an alarm leaves to the wake (R374) -/

/-- The parts of the state that a wake reads and no alarm below ZEROIZE changes. -/
def State.wakeView (s : State) := (s.wake, s.alarms.ranks, s.backup.brank, s.wport, s.chans)

theorem setLine_wakeView (s : State) (n : Nat) (v : Bool) : (s.setLine n v).wakeView = s.wakeView :=
  each_same State.wakeView (fun _ _ => by rfl) s

theorem pushEvent_wakeView (s : State) (p : Nat) (w : W36) : (s.pushEvent p w).wakeView = s.wakeView := by
  unfold State.pushEvent
  extract_lets d
  split
  · rfl
  split <;> rfl

theorem flipsEnd_wakeView (s : State) : s.flipsEnd.wakeView = s.wakeView := by
  unfold State.flipsEnd
  split
  · exact setLine_wakeView ..
  · rfl

theorem takeFlip_wakeView (s : State) (p : Nat) : (s.takeFlip p).wakeView = s.wakeView := by
  unfold State.takeFlip
  extract_lets w g u v
  have flip : u.wakeView = s.wakeView := rfl
  have ends : v.wakeView = u.wakeView := flipsEnd_wakeView u
  exact (pushEvent_wakeView ..).trans (ends.trans flip)

theorem poolBack_wakeView (s : State) (q h n : Nat) : (s.poolBack q h n).wakeView = s.wakeView := (rfl)

theorem lvDrop_wakeView (s : State) (u : LvUse) : (s.lvDrop u).wakeView = s.wakeView := (rfl)

theorem runtimeOff_wakeView (s : State) : s.runtimeOff.wakeView = s.wakeView := by
  unfold State.runtimeOff
  extract_lets u v
  split
  · rfl
  · exact (poolBack_wakeView ..).trans ((lvDrop_wakeView ..).trans (poolBack_wakeView ..))

theorem holdPort_wakeView (s : State) (p : Nat) : (s.holdPort p).wakeView = s.wakeView := by
  unfold State.holdPort
  extract_lets was s1 s2 s3 s4
  have second : s2.wakeView = s.wakeView := rfl
  clear_value s2
  have third : s3.wakeView = s2.wakeView := by
    unfold s3
    split
    · exact takeFlip_wakeView ..
    · rfl
  clear_value s3
  have fourth : s4.wakeView = s3.wakeView := by
    unfold s4
    split
    · exact pushEvent_wakeView ..
    · rfl
  clear_value s4
  rw [← second, ← third, ← fourth]
  split
  · exact runtimeOff_wakeView s4
  · rfl

theorem mergeIn_ranks (a : Alarms) (rank : Nat) : (a.mergeIn rank).ranks = a.ranks := by
  unfold Alarms.mergeIn
  split <;> rfl

theorem enqueue_ranks (a : Alarms) (rank : Nat) (r : LogRec) : (a.enqueue rank r).ranks = a.ranks := by
  unfold Alarms.enqueue
  extract_lets low note mid
  split
  · rfl
  split
  · exact mergeIn_ranks ..
  split
  · exact mergeIn_ranks ..
  split
  · exact mergeIn_ranks ..
  split
  · exact mergeIn_ranks ..
  · exact mergeIn_ranks ..

theorem dataUsed_wakeView (s : State) (data : Nat) : (s.dataUsed data).wakeView = s.wakeView := by
  unfold State.dataUsed
  split <;> rfl

theorem decided_wakeView (s : State) (code rank tkind target data : Nat) : (s.decided code rank tkind target data).wakeView = s.wakeView := by
  unfold State.decided
  extract_lets _ s1 a _ _ held s2 s3 s4
  have used : s1.wakeView = s.wakeView := dataUsed_wakeView ..
  have listed : s2.wakeView = s1.wakeView := rfl
  clear_value s1 s2
  have ports : s3.wakeView = s2.wakeView := by
    refine each_same State.wakeView (fun u p => ?_) s2
    exact holdPort_wakeView u p
  clear_value s3
  have queued : s4.wakeView = s3.wakeView := by
    have ranks : s4.alarms.ranks = s3.alarms.ranks := enqueue_ranks ..
    unfold State.wakeView
    rw [ranks]
  exact (setLine_wakeView ..).trans (queued.trans (ports.trans (listed.trans used)))

/-- An alarm below ZEROIZE leaves the wake, its ports and the channels alone (R374). -/
theorem raise_wakeView {s : State} {code rank tkind target data : Nat} (low : rank < 5) :
    (s.raise code rank tkind target data).wakeView = s.wakeView := by
  unfold State.raise
  extract_lets word s1 s2 s3 _ s4
  have silent : s4 = s3 := if_neg (by omega)
  have clear : s2 = s1 := if_neg (by omega)
  rw [if_neg (by omega), silent]
  unfold s3
  rw [clear]
  exact (decided_wakeView ..).trans (dataUsed_wakeView ..)

/-! #### Groups that return (R244) -/

/-- The two states differ in the Granary and the pools at most. -/
def OnlyGroups (s t : State) : Prop := ∃ gran leave, t = { s with gran := gran, leave := leave }

theorem OnlyGroups.trans {s t u : State} (h : OnlyGroups s t) (k : OnlyGroups t u) : OnlyGroups s u := by
  obtain ⟨gran, leave, rfl⟩ := h
  obtain ⟨gran', leave', rfl⟩ := k
  exact ⟨gran', leave', rfl⟩

theorem OnlyGroups.each {α : Type} {s : State} {l : List α} {f : State → α → State} (h : ∀ u x, OnlyGroups u (f u x)) :
    OnlyGroups s (s.each l f) := by
  unfold State.each
  induction l generalizing s with
  | nil => exact ⟨s.gran, s.leave, rfl⟩
  | cons x l ih => exact (h s x).trans ih

theorem poolGrant_onlyGroups (s : State) (q h n : Nat) : OnlyGroups s (s.poolGrant q h n) := by
  unfold State.poolGrant
  split
  · exact ⟨_, _, rfl⟩
  · exact ⟨s.gran, s.leave, rfl⟩

theorem groupRetired_onlyGroups (s : State) (g : Nat) : OnlyGroups s (s.groupRetired g) :=
  OnlyGroups.each fun _ _ => by exact ⟨_, _, rfl⟩

theorem dropGroup_onlyGroups (s : State) (g : Nat) : OnlyGroups s (s.dropGroup g) := by
  unfold State.dropGroup
  extract_lets bad _ u
  have first : OnlyGroups s u := ⟨_, s.leave, rfl⟩
  clear_value u
  split
  · refine first.trans ((groupRetired_onlyGroups u g).trans ?_)
    unfold State.poolClaim
    split
    · exact poolGrant_onlyGroups ..
    · exact ⟨_, _, rfl⟩
  · exact first.trans ⟨_, u.leave, rfl⟩

theorem returnGroups_onlyGroups (s : State) (use port : Nat) (slot : Option Bool) : OnlyGroups s (s.returnGroups use port slot) :=
  OnlyGroups.each fun u g => by
    have back : OnlyGroups u (u.poolBack 9 (useHolder use) 8) := ⟨u.gran, _, rfl⟩
    exact back.trans (dropGroup_onlyGroups ..)

/-! #### A ZEROIZE lets the entry stage go on (R102, R375) -/

/-- The stage of the wake and the ranks of the alarms. -/
def State.stageView (s : State) := (s.wake.stage, s.alarms.ranks, s.backup.brank)

theorem stageView_of_wakeView {s t : State} (same : t.wakeView = s.wakeView) : t.stageView = s.stageView := by
  simp only [State.wakeView, Prod.mk.injEq] at same
  obtain ⟨wake, ranks, brank, -, -⟩ := same
  unfold State.stageView
  rw [wake, ranks, brank]

theorem OnlyGroups.stageView {s t : State} (h : OnlyGroups s t) : t.stageView = s.stageView := by
  obtain ⟨gran, leave, rfl⟩ := h
  rfl

theorem backupAdd_brank (b : Backup) (w : W128) : (b.add w).brank = b.brank := by
  unfold Backup.add
  split
  · rfl
  split
  · rfl
  split <;> rfl

theorem fuseAlarm_stageView (s : State) (rank a : Nat) : (s.fuseAlarm rank a).stageView = s.stageView :=
  stageView_of_wakeView (decided_wakeView ..)

theorem weakAdd_stageView (s : State) (w : W32) : (s.weakAdd w).stageView = s.stageView := by
  unfold State.weakAdd
  extract_lets
  split
  · rfl
  split
  · rfl
  split
  · rfl
  · exact fuseAlarm_stageView ..

theorem burnFound_stageView (s : State) (a : Nat) : (s.burnFound a).stageView = s.stageView := by
  unfold State.burnFound
  extract_lets b u
  have found : u.stageView = s.stageView := weakAdd_stageView ..
  split
  · exact (fuseAlarm_stageView ..).trans found
  · exact found

theorem ksU_stageView (s : State) (n : Nat) (f : KeySlot → KeySlot) : (s.ksU n f).stageView = s.stageView := (rfl)

theorem lcMoved_stageView (s : State) (old : Nat) : (s.lcMoved old).stageView = s.stageView := by
  unfold State.lcMoved
  extract_lets new u
  have slots : u.stageView = s.stageView := by
    refine each_same State.stageView (fun v n => ?_) s
    dsimp only
    split
    · exact ksU_stageView ..
    · rfl
  clear_value u
  split
  · rfl
  split
  · exact slots
  · exact slots

theorem burnStop_stageView (s : State) : s.burnStop.stageView = s.stageView := by
  unfold State.burnStop
  extract_lets old ts k f t f c v f u w
  have pulsed : u.stageView = s.stageView := rfl
  clear_value u
  have found : w.stageView = u.stageView := by
    unfold w
    split
    · rfl
    · exact burnFound_stageView ..
  clear_value w ts
  split
  · rfl
  · exact (lcMoved_stageView ..).trans (found.trans pulsed)

theorem respond_stageView (s : State) (q : Nat) (tag : Byte) (status : Nat) (ws : List W32) :
    (s.respond q tag status ws).stageView = s.stageView := by
  unfold State.respond
  extract_lets u
  have owed : u.stageView = s.stageView := rfl
  clear_value u
  rw [← owed]
  refine each_same State.stageView (fun v r => ?_) u
  split <;> rfl

theorem setLine_stageView (s : State) (n : Nat) (v : Bool) : (s.setLine n v).stageView = s.stageView :=
  stageView_of_wakeView (setLine_wakeView ..)

theorem fuseEnds_stageView (s : State) (code : Nat) : (s.fuseEnds code).stageView = s.stageView := by
  unfold State.fuseEnds
  extract_lets f u v
  have ended : u.stageView = s.stageView := rfl
  have line : v.stageView = u.stageView := setLine_stageView ..
  clear_value u v
  split
  · exact (respond_stageView ..).trans (line.trans ended)
  · exact line.trans ended

theorem burnEnds_stageView (s : State) (code : Nat) : (s.burnEnds code).stageView = s.stageView := by
  unfold State.burnEnds
  extract_lets u w v
  have back : v.stageView = s.stageView := rfl
  clear_value v
  rw [← back]
  exact fuseEnds_stageView v code

theorem fuseStop_stageView (s : State) (code : Nat) : (s.fuseStop code).stageView = s.stageView := by
  unfold State.fuseStop
  split
  · refine (burnEnds_stageView ..).trans ?_
    split
    · rfl
    · exact burnStop_stageView s
  split
  · rfl
  · rfl

theorem pgU_stageView (s : State) (p : Nat) (f : PGran → PGran) : (s.pgU p f).stageView = s.stageView := (rfl)

theorem abortEngine_stageView (s : State) (e : Nat) : (s.abortEngine e).stageView = s.stageView := by
  unfold State.abortEngine
  extract_lets k u
  have dropped : u.stageView = s.stageView := by
    unfold u
    split <;> rfl
  clear_value u
  split
  · exact dropped
  · rfl

theorem backupLog_stageView (s : State) (code rank count data : Nat) : (s.backupLog code rank count data).stageView = s.stageView := by
  have brank : (s.backupLog code rank count data).backup.brank = s.backup.brank := backupAdd_brank ..
  unfold State.stageView
  rw [brank]
  rfl

theorem zeroize_stageView (s : State) (redraw : Bool) : (s.zeroize redraw).stageView = s.stageView := by
  unfold State.zeroize
  extract_lets ac k cleared u v w
  have keys : u.stageView = s.stageView := by
    unfold u State.stageView
    dsimp only
  clear_value u
  have tags : u.voidTags.stageView = u.stageView := by
    refine each_same State.stageView (fun x p => ?_) u
    split
    · rfl
    · exact (pgU_stageView ..).trans (returnGroups_onlyGroups ..).stageView
  have served : v.stageView = u.voidTags.stageView := by
    refine each_same State.stageView (fun x p => ?_) u.voidTags
    exact (pgU_stageView ..).trans ((returnGroups_onlyGroups ..).trans (returnGroups_onlyGroups ..)).stageView
  clear_value v
  have engines : w.stageView = v.stageView := by
    refine each_same State.stageView (fun x e => ?_) v
    exact abortEngine_stageView x e
  clear_value w
  exact (fuseStop_stageView ..).trans (engines.trans (served.trans (tags.trans keys)))

/-- An alarm below SEAL leaves the stage of the wake and the ranks alone (R374, R375). -/
theorem raise_stageView {s : State} {code rank tkind target data : Nat} (low : rank < 6) :
    (s.raise code rank tkind target data).stageView = s.stageView := by
  unfold State.raise
  extract_lets word s1 s2 s3 _ s4
  have used : s1.stageView = s.stageView := stageView_of_wakeView (dataUsed_wakeView ..)
  clear_value s1
  have cleared : s2.stageView = s1.stageView := by
    unfold s2
    split
    · exact (zeroize_stageView ..).trans (backupLog_stageView ..)
    · rfl
  clear_value s2
  have alarm : s3.stageView = s2.stageView := stageView_of_wakeView (decided_wakeView ..)
  clear_value s3
  have ends : s4.stageView = s3.stageView := by
    unfold s4
    split <;> rfl
  rw [if_neg (by omega)]
  exact ends.trans (alarm.trans (cleared.trans used))

end Sys2Proof.Machine
end

section
namespace Sys2Proof.Machine
open Sys2Proof

/-! #### The map of the lanes (R227, R232) -/

theorem poolGrant_wakeView (s : State) (q h n : Nat) : (s.poolGrant q h n).wakeView = s.wakeView := by
  unfold State.poolGrant
  split <;> rfl

theorem lvGrant_wakeView (s : State) (u : LvUse) (n : Nat) : (s.lvGrant u n).wakeView = s.wakeView := by
  unfold State.lvGrant
  extract_lets t
  have pool : t.wakeView = s.wakeView := poolGrant_wakeView ..
  clear_value t
  rw [← pool]
  split <;> rfl

theorem runtimeDraw_wakeView (s : State) : s.runtimeDraw.wakeView = s.wakeView := by
  unfold State.runtimeDraw
  extract_lets n u
  have lanes : u.wakeView = s.wakeView := by
    unfold u
    split
    · exact poolGrant_wakeView ..
    · rfl
  clear_value u
  split
  · rfl
  split
  · exact lanes
  split
  · next taken =>
    unfold State.lvTake at taken
    split at taken
    · obtain rfl := Option.some.inj taken
      exact (lvGrant_wakeView ..).trans lanes
    · exact nomatch taken
  · exact lanes

/-- The map changes the lanes of the wake alone, and no retired lane stands in it (R232). -/
theorem wakeRemap_spec {s t : State} (runs : s.wake.stage ≠ .idle) (e : s.wakeRemap = t) :
    (∃ lanes, t.wake = { s.wake with lanes := lanes }) ∧ t.wport = s.wport ∧ t.chans = s.chans
      ∧ ∀ l ∈ t.wake.lanes, t.chanRetired .lane l = false := by
  unfold State.wakeRemap at e
  rw [if_neg runs] at e
  extract_lets old keep want base u _ v w more at e
  have back : u.wake = s.wake ∧ u.wport = s.wport ∧ u.chans = s.chans := by
    unfold u
    split <;> exact ⟨rfl, rfl, rfl⟩
  obtain ⟨wake, wport, chans⟩ := back
  clear_value u
  have lanes : v.wake = { s.wake with lanes := base } := congrArg (fun x : Wake => { x with lanes := base }) wake
  have wport : v.wport = s.wport := wport
  have chans : v.chans = s.chans := chans
  clear_value v
  have view : w.wakeView = v.wakeView := runtimeDraw_wakeView v
  simp only [State.wakeView, Prod.mk.injEq] at view
  obtain ⟨wake, -, -, wports, chan⟩ := view
  have kept : ∀ l ∈ base, s.chanRetired .lane l = false := fun l mem => by
    have some' := List.mem_of_mem_filter mem
    have serves := (List.mem_filter.mp some').2
    exact Bool.not_eq_true' _ ▸ serves
  have free : ∀ l ∈ more, s.chanRetired .lane l = false := fun l mem => by
    have first := List.mem_of_mem_filter (List.mem_of_mem_take mem)
    have left := List.mem_of_mem_filter (List.mem_of_mem_take first)
    have serves := (List.mem_filter.mp left).2
    have same : w.chanRetired .lane l = s.chanRetired .lane l := by
      unfold State.chanRetired State.ch
      rw [chan, chans]
    rw [← same]
    exact Bool.not_eq_true' _ ▸ serves
  have stays : w.wake = { s.wake with lanes := base } := wake.trans lanes
  have retired : ∀ x : State, x.chans = s.chans → ∀ l, x.chanRetired .lane l = s.chanRetired .lane l := fun x same l => by
    unfold State.chanRetired State.ch
    rw [same]
  clear_value w base more
  split at e
  · have grant := poolGrant_wakeView w 8 0 more.length
    simp only [State.wakeView, Prod.mk.injEq] at grant
    obtain ⟨-, -, -, wport', chans'⟩ := grant
    have map : t.wake = { w.wake with lanes := (List.range 24).filter fun l => base.contains l || more.contains l } := by rw [← e]
    have ports : t.wport = s.wport := by
      rw [← e]
      exact wport'.trans (wports.trans wport)
    have channels : t.chans = s.chans := by
      rw [← e]
      exact chans'.trans (chan.trans chans)
    clear e
    refine ⟨⟨_, map.trans (by rw [stays])⟩, ports, channels, fun l mem => ?_⟩
    · rw [retired t channels]
      rw [map] at mem
      have listed := (List.mem_filter.mp mem).2
      rw [Bool.or_eq_true, List.contains_iff_mem, List.contains_iff_mem] at listed
      exact listed.elim (kept l) (free l)
  · subst e
    refine ⟨⟨base, stays⟩, wports.trans wport, chan.trans chans, fun l mem => ?_⟩
    rw [retired w (chan.trans chans)]
    rw [stays] at mem
    exact kept l mem

theorem wakeFrameBoundary_completes {s : State} (stage : s.wake.stage = .round ∨ s.wake.stage = .drain) :
    Completes .wakeFrameBoundary s fun t => t.wake.stage = s.wake.stage ∧ ∀ l ∈ t.wake.lanes, t.chanRetired .lane l = false := by
  have runs : s.wake.stage ≠ .idle := by
    obtain round | drain := stage
    · rw [round]; decide
    · rw [drain]; decide
  obtain ⟨⟨lanes, wake⟩, -, -, serve⟩ := wakeRemap_spec (t := s.wakeRemap) runs rfl
  refine ⟨s.wakeRemap, if_neg fun no => stage.elim no.1 no.2, ?_, serve⟩
  rw [wake]

/-! #### The tests of the entry stage (R230, R231) -/

theorem retireLane_stageView (s : State) (l : Nat) : (s.retireLane l).stageView = s.stageView := by
  unfold State.retireLane
  extract_lets u holder v w
  have failed : u.stageView = s.stageView := by
    unfold u State.laneFailed
    split
    · rfl
    · exact each_same State.stageView (fun _ _ => by rfl) s
  have retired : v.stageView = u.stageView := rfl
  clear_value u v holder
  have pool : w.stageView = v.stageView := by
    unfold w
    split <;> rfl
  clear_value w
  have claim : (w.poolClaim 8 3 1).stageView = w.stageView := by
    unfold State.poolClaim
    split
    · exact stageView_of_wakeView (poolGrant_wakeView ..)
    · rfl
  exact (stageView_of_wakeView (runtimeDraw_wakeView _)).trans (claim.trans (pool.trans (retired.trans failed)))

theorem retireLane_spec (s : State) (l reason : Nat) :
    Keeps .calm s (s.retire .lane l reason) ∧ (s.retire .lane l reason).stageView = s.stageView := by
  unfold State.retire
  extract_lets body u v
  have lane : Keeps .calm s u := Keeps.refl.retireLane
  have stage : u.stageView = s.stageView := retireLane_stageView s l
  clear_value u
  have logged : Keeps .calm s v := lane.chU.logRec
  have same : v.stageView = u.stageView := rfl
  clear_value v
  split
  · exact ⟨Keeps.refl, rfl⟩
  split
  · exact ⟨logged.same, same.trans stage⟩
  · exact ⟨logged, same.trans stage⟩

theorem entryTestFailed_spec (s : State) (l : Nat) :
    Keeps .spared s (s.entryTestFailed l) ∧ (s.rankOf 0x0141 < 6 → (s.entryTestFailed l).stageView = s.stageView) := by
  unfold State.entryTestFailed
  obtain ⟨calm, stage⟩ := retireLane_spec ((s.gnoby 0 0).chU (chanKey .lane l) fun c => { c with cause := 3 }) l 3
  refine ⟨((Keeps.refl : Keeps .spared s s).gnoby nofun).chU.calm calm, fun low => stage.trans ?_⟩
  have marked : ((s.gnoby 0 0).chU (chanKey .lane l) fun c => { c with cause := 3 }).stageView = (s.gnoby 0 0).stageView := rfl
  exact marked.trans (raise_stageView low)

theorem rankOf_of_stageView {s t : State} (same : t.stageView = s.stageView) (code : Nat) : t.rankOf code = s.rankOf code := by
  simp only [State.stageView, Prod.mk.injEq] at same
  obtain ⟨-, ranks, brank⟩ := same
  unfold State.rankOf
  rw [ranks, brank]

/-- What failed entry tests do (R231). -/
def State.entryTests (s : State) (lanes : List Nat) : State :=
  s.each lanes fun s l => if s.wake.lanes.contains l then s.entryTestFailed l else s

theorem entryTests_spared (s : State) (lanes : List Nat) : Keeps .spared s (s.entryTests lanes) :=
  Keeps.refl.each fun u l h => Keeps.ite (h.trans (entryTestFailed_spec u l).1) h

theorem entryTests_stageView {s : State} {lanes : List Nat} (low : s.rankOf 0x0141 < 6) : (s.entryTests lanes).stageView = s.stageView := by
  unfold State.entryTests State.each
  induction lanes generalizing s with
  | nil => rfl
  | cons l lanes ih =>
    have first : (if s.wake.lanes.contains l then s.entryTestFailed l else s).stageView = s.stageView := by
      split
      · exact (entryTestFailed_spec s l).2 low
      · rfl
    refine (ih ?_).trans first
    rw [rankOf_of_stageView first]
    exact low

end Sys2Proof.Machine
end

section
namespace Sys2Proof.Machine
open Sys2Proof

/-! #### Loops over the ports -/

/-- The two states differ in the edges of the ports and in what the wake keeps of them at most. -/
def OnlyPorts (s t : State) : Prop := ∃ edge wport, t = { s with edge := edge, wport := wport }

theorem OnlyPorts.refl {s : State} : OnlyPorts s s := ⟨s.edge, s.wport, rfl⟩

theorem OnlyPorts.trans {s t u : State} (h : OnlyPorts s t) (k : OnlyPorts t u) : OnlyPorts s u := by
  obtain ⟨edge, wport, rfl⟩ := h
  obtain ⟨edge', wport', rfl⟩ := k
  exact ⟨edge', wport', rfl⟩

/-- A step of a loop over the ports that changes its own port alone. -/
def Apart (f : State → Nat → State) : Prop :=
  ∀ u p, OnlyPorts u (f u p) ∧ ∀ j, j ≠ p → (f u p).pk j = u.pk j ∧ (f u p).pe j = u.pe j

theorem Apart.each {f : State → Nat → State} (h : Apart f) {l : List Nat} (s : State) :
    OnlyPorts s (s.each l f) ∧ ∀ j, j ∉ l → (s.each l f).pk j = s.pk j ∧ (s.each l f).pe j = s.pe j := by
  unfold State.each
  induction l generalizing s with
  | nil => exact ⟨.refl, fun _ _ => ⟨rfl, rfl⟩⟩
  | cons p l ih =>
    obtain ⟨only, other⟩ := h s p
    obtain ⟨only', other'⟩ := ih (f s p)
    refine ⟨only.trans only', fun j out => ?_⟩
    rw [List.mem_cons, not_or] at out
    obtain ⟨pk, pe⟩ := other j out.1
    obtain ⟨pk', pe'⟩ := other' j out.2
    exact ⟨pk'.trans pk, pe'.trans pe⟩

/-- What the loop makes of a port is what its step makes of it. -/
theorem Apart.at {f : State → Nat → State} (h : Apart f) {l : List Nat} (once : l.Nodup) (s : State) {p : Nat} (mem : p ∈ l) :
    ∃ u, OnlyPorts s u ∧ u.pk p = s.pk p ∧ u.pe p = s.pe p
      ∧ (s.each l f).pk p = (f u p).pk p ∧ (s.each l f).pe p = (f u p).pe p := by
  induction l generalizing s with
  | nil => exact nomatch mem
  | cons j l ih =>
    obtain ⟨fresh, rest⟩ := List.nodup_cons.mp once
    obtain rfl | later := List.mem_cons.mp mem
    · obtain ⟨-, kept⟩ := h.each (l := l) (f s p)
      exact ⟨s, .refl, rfl, rfl, (kept p fresh).1, (kept p fresh).2⟩
    · have ne : p ≠ j := fun same => fresh (same ▸ later)
      obtain ⟨only, other⟩ := h s j
      obtain ⟨u, only', pk, pe, done⟩ := ih rest (f s j) later
      obtain ⟨pk', pe'⟩ := other p ne
      exact ⟨u, only.trans only', pk.trans pk', pe.trans pe', done⟩

theorem pkU_apart {s : State} {p j : Nat} (f : PWake → PWake) (ne : j ≠ p) : (s.pkU p f).pk j = s.pk j ∧ (s.pkU p f).pe j = s.pe j :=
  ⟨State.pkU_pk_ne _ _ _ _ ne, rfl⟩

theorem sendMaster_apart {s : State} {p j : Nat} (l : List MasterFrame) (ne : j ≠ p) :
    (s.sendMaster p l).pk j = s.pk j ∧ (s.sendMaster p l).pe j = s.pe j :=
  ⟨rfl, State.peU_pe_ne _ _ _ _ ne⟩

/-! #### The end of the entry stage (R70, R406, R500, R528) -/

/-- What the end of the entry stage does at one port. -/
def State.entryPort (ids : List (PortId × List Byte)) (replies : List (PortId × List (List (List Byte)))) (s : State) (p : Nat) : State :=
  let w := s.pk p
  if !w.part || !polUsed s.pol p || w.pgLow || w.pgFell || w.aborted || w.granary then s
  else if s.masterBarred p then s.pkU p fun w => { w with incomplete := true }
  else
    let id := ((ids.find? fun e => decide (e.1.val = p)).map (·.2)).getD []
    let got := ((replies.find? fun e => decide (e.1.val = p)).map (·.2)).getD []
    let s := s.sendMaster p (s.entryFrames p)
    if s.entryOk p id got then s else s.pkU p fun w => { w with idBad := true }

theorem entryPort_apart (ids : List (PortId × List Byte)) (replies : List (PortId × List (List (List Byte)))) :
    Apart (State.entryPort ids replies) := by
  intro u p
  unfold State.entryPort
  extract_lets w id got v
  have sent : OnlyPorts u v := ⟨_, u.wport, rfl⟩
  have frames : ∀ j, j ≠ p → v.pk j = u.pk j ∧ v.pe j = u.pe j := fun j ne => sendMaster_apart _ ne
  clear_value v
  split
  · exact ⟨.refl, fun _ _ => ⟨rfl, rfl⟩⟩
  split
  · exact ⟨⟨u.edge, _, rfl⟩, fun j ne => pkU_apart _ ne⟩
  split
  · exact ⟨sent, frames⟩
  · refine ⟨sent.trans ⟨v.edge, _, rfl⟩, fun j ne => ?_⟩
    obtain ⟨pk, pe⟩ := frames j ne
    obtain ⟨pk', pe'⟩ := pkU_apart (s := v) (fun w => { w with idBad := true }) ne
    exact ⟨pk'.trans pk, pe'.trans pe⟩

theorem entryEnd_run {s : State} (ids : List (PortId × List Byte)) (replies : List (PortId × Replies)) (badLanes : List LaneId)
    (entry : s.wake.stage = .entry) :
    let u := (s.entryTests (badLanes.map (·.val))).wakeRemap
    let v := u.each allPorts (State.entryPort ids replies)
    exec (.wakeEntryEnd ids replies badLanes) s
      = if u.wake.stage ≠ .entry then .next u else .next { v with wake := { v.wake with stage := .round, round := 0 } } := by
  intro u v
  change execWakeEntryEnd ids replies badLanes s = _
  unfold execWakeEntryEnd
  rw [if_neg (not_not.mpr entry)]
  unfold u v
  generalize allPorts = ports
  rfl

theorem OnlyPorts.home {s t : State} (h : OnlyPorts s t) : t.home = s.home := by
  obtain ⟨edge, wport, rfl⟩ := h
  rfl

theorem OnlyPorts.wake {s t : State} (h : OnlyPorts s t) : t.wake = s.wake := by
  obtain ⟨edge, wport, rfl⟩ := h
  rfl

theorem entryEnd_home {s : State} (ids : List (PortId × List Byte)) (replies : List (PortId × Replies)) (badLanes : List LaneId)
    (entry : s.wake.stage = .entry) : Completes (.wakeEntryEnd ids replies badLanes) s fun t => t.home = s.home := by
  refine .ofEndsIn (entryEnd_run ids replies badLanes entry) ?_
  have tests : Keeps .spared s (s.entryTests (badLanes.map (·.val))).wakeRemap := (entryTests_spared s _).wakeRemap
  generalize (s.entryTests (badLanes.map (·.val))).wakeRemap = u at tests
  obtain ⟨only, -⟩ := (entryPort_apart ids replies).each (l := allPorts) u
  generalize u.each allPorts (State.entryPort ids replies) = v at only
  split
  · exact tests.home
  · exact only.home.trans tests.home

theorem entryEnd_round {s : State} (ids : List (PortId × List Byte)) (replies : List (PortId × Replies)) (badLanes : List LaneId)
    (entry : s.wake.stage = .entry) (low : badLanes = [] ∨ s.rankOf 0x0141 < 6) :
    Completes (.wakeEntryEnd ids replies badLanes) s fun t => t.wake.stage = .round ∧ t.wake.round = 0 ∧ t.home = s.home := by
  have tested : (s.entryTests (badLanes.map (·.val))).wake.stage = .entry := by
    obtain rfl | low := low
    · exact entry
    · exact (congrArg Prod.fst (entryTests_stageView low)).trans entry
  obtain ⟨⟨lanes, wake⟩, -⟩ := wakeRemap_spec (s := s.entryTests (badLanes.map (·.val))) (by rw [tested]; decide) rfl
  have tests : Keeps .spared s (s.entryTests (badLanes.map (·.val))).wakeRemap := (entryTests_spared s _).wakeRemap
  have stage : (s.entryTests (badLanes.map (·.val))).wakeRemap.wake.stage = .entry := by rw [wake, tested]
  have run := entryEnd_run ids replies badLanes entry
  generalize (s.entryTests (badLanes.map (·.val))).wakeRemap = u at tests stage run
  obtain ⟨only, -⟩ := (entryPort_apart ids replies).each (l := allPorts) u
  dsimp only at run
  generalize u.each allPorts (State.entryPort ids replies) = v at only run
  rw [if_neg (not_not.mpr stage)] at run
  exact ⟨_, run, rfl, rfl, only.home.trans tests.home⟩

theorem masterBarred_congr {s t : State} {p : Nat} (pk : t.pk p = s.pk p) (boot : t.boot = s.boot) (chans : t.chans = s.chans) :
    t.masterBarred p = s.masterBarred p := by
  unfold State.masterBarred State.bankUp State.ch
  rw [pk, boot, chans]

theorem entryPort_reads {s : State} {p : Nat} (ids : List (PortId × List Byte)) (replies : List (PortId × Replies))
    (part : (s.pk p).part = true) (used : polUsed s.pol p = true) (low : (s.pk p).pgLow = false) (fell : (s.pk p).pgFell = false)
    (abort : (s.pk p).aborted = false) (gran : (s.pk p).granary = false) :
    let t := s.entryPort ids replies p
    (s.masterBarred p = true → (t.pk p).incomplete = true)
      ∧ (s.masterBarred p = false → (t.pe p).master = s.entryFrames p
        ∧ (t.pk p).idBad = ((s.pk p).idBad ||
          !s.entryOk p (((ids.find? fun e => decide (e.1.val = p)).map (·.2)).getD [])
            (((replies.find? fun e => decide (e.1.val = p)).map (·.2)).getD []))) := by
  intro t
  have reads : (!(s.pk p).part || !polUsed s.pol p || (s.pk p).pgLow || (s.pk p).pgFell || (s.pk p).aborted || (s.pk p).granary) ≠ true := by
    simp [part, used, low, fell, abort, gran]
  refine ⟨fun barred => ?_, fun clear => ?_⟩
  · have marked : t = s.pkU p fun w => { w with incomplete := true } := (if_neg reads).trans (if_pos barred)
    rw [marked, State.pkU_pk_same]
  · let v := s.sendMaster p (s.entryFrames p)
    have sent : t = _ := (if_neg reads).trans (if_neg (by rw [clear]; exact Bool.false_ne_true))
    have frames : (v.pe p).master = s.entryFrames p := by
      unfold v State.sendMaster
      rw [State.peU_pe_same]
    have pk : v.pk p = s.pk p := rfl
    have same : ∀ id got, v.entryOk p id got = s.entryOk p id got := fun _ _ => rfl
    change t = if v.entryOk p _ _ then v else v.pkU p fun w => { w with idBad := true } at sent
    rw [same] at sent
    clear_value v t
    split at sent
    · next ok =>
      rw [sent, ok, pk]
      exact ⟨frames, (Bool.or_false _).symm⟩
    · next bad =>
      rw [sent, State.pkU_pk_same, Bool.eq_false_iff.mpr bad]
      exact ⟨frames, (Bool.or_true _).symm⟩

theorem entryEnd_port {s : State} (ids : List (PortId × List Byte)) (replies : List (PortId × Replies)) (q : PortId)
    (entry : s.wake.stage = .entry) :
    Completes (.wakeEntryEnd ids replies []) s fun t =>
      (s.pk q.val).part = true → polUsed s.pol q.val = true → (s.pk q.val).pgLow = false → (s.pk q.val).pgFell = false →
        (s.pk q.val).aborted = false → (s.pk q.val).granary = false →
        (s.masterBarred q.val = true → (t.pk q.val).incomplete = true)
        ∧ (s.masterBarred q.val = false → (t.pe q.val).master = s.entryFrames q.val
        ∧ (t.pk q.val).idBad = ((s.pk q.val).idBad ||
            !s.entryOk q.val (((ids.find? fun e => decide (e.1.val = q.val)).map (·.2)).getD [])
              (((replies.find? fun e => decide (e.1.val = q.val)).map (·.2)).getD []))) := by
  have run : exec (.wakeEntryEnd ids replies []) s = _ := entryEnd_run ids replies [] entry
  dsimp only at run
  rw [show s.entryTests (([] : List LaneId).map (·.val)) = s from rfl] at run
  obtain ⟨⟨lanes, wake⟩, wport, chans, -⟩ := wakeRemap_spec (s := s) (by rw [entry]; decide) rfl
  have boot : s.wakeRemap.boot = s.boot := (Keeps.refl.wakeRemap : Keeps .calm s _).boot
  have stage : s.wakeRemap.wake.stage = .entry := by rw [wake, entry]
  rw [if_neg (not_not.mpr stage)] at run
  generalize s.wakeRemap = u at run wake wport chans boot
  obtain ⟨v, only, pk, -, pk', pe'⟩ := (entryPort_apart ids replies).at List.nodup_range u (List.mem_range.mpr q.isLt)
  change (u.each allPorts _).pk _ = _ at pk'
  change (u.each allPorts _).pe _ = _ at pe'
  generalize u.each allPorts (State.entryPort ids replies) = t at run pk' pe'
  have same : v.wake = { s.wake with lanes := lanes } := only.wake.trans wake
  have port : v.pk q.val = s.pk q.val := pk.trans (by unfold State.pk; rw [wport])
  have pol : v.pol = s.pol := by
    unfold State.pol
    rw [same]
  have rec' : v.entryRec = s.entryRec := by
    unfold State.entryRec
    rw [same]
  have frames : v.entryFrames q.val = s.entryFrames q.val := by
    unfold State.entryFrames State.setupRecs
    rw [rec']
  have compares : v.entryOk q.val = s.entryOk q.val := by
    unfold State.entryOk State.setupRecs
    rw [rec']
  have barred : v.masterBarred q.val = s.masterBarred q.val := by
    obtain ⟨edge, wport', rfl⟩ := only
    exact masterBarred_congr port boot chans
  refine ⟨_, run, fun part used low fell abort gran => ?_⟩
  obtain ⟨first, second⟩ := entryPort_reads (s := v) (p := q.val) ids replies (by rw [port, part]) (by rw [pol, used]) (by rw [port, low])
    (by rw [port, fell]) (by rw [port, abort]) (by rw [port, gran])
  rw [← pk', barred] at first
  rw [← pk', ← pe', barred, frames, port, compares] at second
  exact ⟨first, second⟩

end Sys2Proof.Machine
end

section
namespace Sys2Proof.Machine
open Sys2Proof

/-! #### A round (R71, R406, R500) -/

/-- What round b does at one port. -/
def State.roundPort (bursts : List (PortId × List Byte)) (b : Nat) (s : State) (p : Nat) : State :=
  let w := s.pk p
  if !w.part || w.pgLow || w.pgFell || w.aborted || polBursts s.pol p ≤ b then s.pkU p fun w => { w with staging := [] }
  else if s.masterBarred p then s.pkU p fun w => { w with staging := [], incomplete := true }
  else
    let got := ((bursts.find? fun e => decide (e.1.val = p)).map (·.2)).getD []
    let bs := s.roundBytes p b got
    let s := match planBurst (planRegions s.pol p) b with
      | some (_, a, _) => if w.granary then s else s.sendMaster p [s.burstFrame p a]
      | none => s
    s.pkU p fun w => { w with
      incomplete := w.incomplete || decide (bs = []), staging := bs, manifest := if b = 0 && !polShelf s.pol p then bs else w.manifest }

theorem roundPort_apart (bursts : List (PortId × List Byte)) (b : Nat) : Apart (State.roundPort bursts b) := by
  intro u p
  unfold State.roundPort
  extract_lets w got bs v
  have sent : OnlyPorts u v ∧ ∀ j, j ≠ p → v.pk j = u.pk j ∧ v.pe j = u.pe j := by
    unfold v
    split
    · split
      · exact ⟨.refl, fun _ _ => ⟨rfl, rfl⟩⟩
      · exact ⟨⟨_, u.wport, rfl⟩, fun j ne => sendMaster_apart _ ne⟩
    · exact ⟨.refl, fun _ _ => ⟨rfl, rfl⟩⟩
  obtain ⟨only, frames⟩ := sent
  clear_value v
  split
  · exact ⟨⟨u.edge, _, rfl⟩, fun j ne => pkU_apart _ ne⟩
  split
  · exact ⟨⟨u.edge, _, rfl⟩, fun j ne => pkU_apart _ ne⟩
  · refine ⟨only.trans ⟨v.edge, _, rfl⟩, fun j ne => ?_⟩
    obtain ⟨pk, pe⟩ := frames j ne
    obtain ⟨pk', pe'⟩ := pkU_apart (s := v) (fun w => { w with
      incomplete := w.incomplete || decide (bs = []), staging := bs, manifest := if b = 0 && !polShelf v.pol p then bs else w.manifest }) ne
    exact ⟨pk'.trans pk, pe'.trans pe⟩

/-- A port in the round takes its burst, or ends incomplete where it may send no frame. -/
theorem roundPort_takes {s : State} {b p : Nat} (bursts : List (PortId × List Byte)) (part : (s.pk p).part = true) (low : (s.pk p).pgLow = false)
    (fell : (s.pk p).pgFell = false) (abort : (s.pk p).aborted = false) (due : b < polBursts s.pol p) :
    let w := (s.roundPort bursts b p).pk p
    (s.masterBarred p = true → w.incomplete = true ∧ w.staging = [])
      ∧ (s.masterBarred p = false →
        w.staging = s.roundBytes p b (((bursts.find? fun e => decide (e.1.val = p)).map (·.2)).getD [])
          ∧ (w.staging = [] → w.incomplete = true)) := by
  have reads : ¬ ((!(s.pk p).part || (s.pk p).pgLow || (s.pk p).pgFell || (s.pk p).aborted || decide (polBursts s.pol p ≤ b)) = true) := by
    simp [part, low, fell, abort, due]
  intro w
  refine ⟨fun barred => ?_, fun clear => ?_⟩
  · have marked : s.roundPort bursts b p = s.pkU p fun w => { w with staging := [], incomplete := true } :=
      (if_neg reads).trans (if_pos barred)
    unfold w
    rw [marked, State.pkU_pk_same]
    exact ⟨rfl, rfl⟩
  · have taken : s.roundPort bursts b p = _ := (if_neg reads).trans (if_neg (by rw [clear]; exact Bool.false_ne_true))
    unfold w
    rw [taken]
    dsimp only
    rw [State.pkU_pk_same]
    refine ⟨rfl, fun none' => ?_⟩
    rw [decide_eq_true none', Bool.or_true]

/-- The state in which the round's failed captures are found. -/
def State.roundEnds (s : State) (bursts : List (PortId × List Byte)) : State :=
  let v := s.each allPorts (State.roundPort bursts s.wake.round)
  { v with wake := { v.wake with
    round := s.wake.round + 1, stage := if s.wake.round + 1 = 1 then .window else if v.wakeRounds ≤ s.wake.round + 1 then .drain else .round } }

theorem wakeRound_run {s : State} (bursts : List (PortId × List Byte)) (failed : List PortId) (round : s.wake.stage = .round)
    (goes : s.wake.endNext = false) :
    exec (.wakeRound bursts failed) s
      = .next ((s.roundEnds bursts).each (failed.map (·.val)) fun s p => if (s.pk p).staging = [] || (s.pk p).granary then s else s.captureBad p) := by
  change execWakeRound bursts failed s = _
  unfold execWakeRound State.roundEnds
  rw [if_neg (not_not.mpr round), if_neg (by rw [goes]; exact Bool.false_ne_true)]
  generalize allPorts = ports
  rfl

theorem roundEnds_spec (s : State) (bursts : List (PortId × List Byte)) :
    let t := s.roundEnds bursts
    t.wake.round = s.wake.round + 1
      ∧ t.wake.stage = (if s.wake.round = 0 then .window else if s.wakeRounds ≤ s.wake.round + 1 then .drain else .round)
      ∧ t.home = s.home ∧ t.chans = s.chans ∧ t.rankOf = s.rankOf
      ∧ ∀ p : PortId, ∃ u, OnlyPorts s u ∧ u.pk p.val = s.pk p.val ∧ t.pk p.val = (u.roundPort bursts s.wake.round p.val).pk p.val := by
  have ports := fun p : PortId => (roundPort_apart bursts s.wake.round).at List.nodup_range s (List.mem_range.mpr p.isLt)
  obtain ⟨only, -⟩ := (roundPort_apart bursts s.wake.round).each (l := allPorts) s
  unfold State.roundEnds
  change ∀ p : PortId, ∃ u, OnlyPorts s u ∧ u.pk p.val = s.pk p.val ∧ _ ∧ (s.each allPorts _).pk p.val = _ ∧ _ at ports
  generalize s.each allPorts (State.roundPort bursts s.wake.round) = v at ports only
  have rounds : v.wakeRounds = s.wakeRounds := by
    unfold State.wakeRounds
    rw [only.wake]
  have first : (s.wake.round + 1 = 1) = (s.wake.round = 0) := by simp
  intro t
  refine ⟨rfl, ?_, only.home, ?_, ?_, fun p => ?_⟩
  · unfold t
    dsimp only
    rw [rounds]
    simp only [first]
  · obtain ⟨edge, wport, rfl⟩ := only
    rfl
  · obtain ⟨edge, wport, rfl⟩ := only
    rfl
  · obtain ⟨u, same, pk, -, done, -⟩ := ports p
    exact ⟨u, same, pk, done⟩

theorem roundBytes_congr {s u : State} {p : Nat} (only : OnlyPorts s u) (pk : u.pk p = s.pk p) (b : Nat) (got : List Byte) :
    u.roundBytes p b got = s.roundBytes p b got := by
  obtain ⟨edge, wport, rfl⟩ := only
  unfold State.roundBytes
  rw [pk]
  rfl

theorem OnlyPorts.masterBarred {s u : State} {p : Nat} (only : OnlyPorts s u) (pk : u.pk p = s.pk p) :
    u.masterBarred p = s.masterBarred p := by
  obtain ⟨edge, wport, rfl⟩ := only
  exact masterBarred_congr pk rfl rfl

theorem OnlyPorts.pol {s u : State} (only : OnlyPorts s u) : u.pol = s.pol := by
  unfold State.pol
  rw [only.wake]

/-- What a round makes of a port that is in it. -/
theorem roundEnds_takes {s : State} {p : PortId} (bursts : List (PortId × List Byte)) (part : (s.pk p.val).part = true)
    (low : (s.pk p.val).pgLow = false) (fell : (s.pk p.val).pgFell = false) (abort : (s.pk p.val).aborted = false)
    (due : s.wake.round < polBursts s.pol p.val) :
    let w := (s.roundEnds bursts).pk p.val
    (s.masterBarred p.val = true → w.incomplete = true ∧ w.staging = [])
      ∧ (s.masterBarred p.val = false →
        w.staging = s.roundBytes p.val s.wake.round (((bursts.find? fun e => decide (e.1.val = p.val)).map (·.2)).getD [])
          ∧ (w.staging = [] → w.incomplete = true)) := by
  obtain ⟨-, -, -, -, -, ports⟩ := roundEnds_spec s bursts
  obtain ⟨u, only, pk, done⟩ := ports p
  have takes := roundPort_takes (s := u) (b := s.wake.round) (p := p.val) bursts (by rw [pk, part]) (by rw [pk, low]) (by rw [pk, fell])
    (by rw [pk, abort]) (by rw [only.pol]; exact due)
  dsimp only at takes ⊢
  rw [done, ← only.masterBarred pk, ← roundBytes_congr only pk]
  exact takes

theorem wakeRound_completes {s : State} (bursts : List (PortId × List Byte)) (round : s.wake.stage = .round) (goes : s.wake.endNext = false) :
    Completes (.wakeRound bursts []) s fun t =>
      t.wake.round = s.wake.round + 1
        ∧ t.wake.stage = (if s.wake.round = 0 then .window else if s.wakeRounds ≤ s.wake.round + 1 then .drain else .round)
        ∧ t.home = s.home
        ∧ ∀ p : PortId, (s.pk p.val).part = true → (s.pk p.val).pgLow = false → (s.pk p.val).pgFell = false →
          (s.pk p.val).aborted = false → s.wake.round < polBursts s.pol p.val →
          (s.masterBarred p.val = true → (t.pk p.val).incomplete = true ∧ (t.pk p.val).staging = [])
          ∧ (s.masterBarred p.val = false →
            (t.pk p.val).staging = s.roundBytes p.val s.wake.round (((bursts.find? fun e => decide (e.1.val = p.val)).map (·.2)).getD [])) := by
  obtain ⟨next, stage, home, -⟩ := roundEnds_spec s bursts
  refine ⟨s.roundEnds bursts, wakeRound_run bursts [] round goes, next, stage, home, fun p part low fell abort due => ?_⟩
  obtain ⟨barred, clear⟩ := roundEnds_takes bursts part low fell abort due
  exact ⟨barred, fun open' => (clear open').1⟩

/-! #### A capture that fails its check (R76, R382) -/

theorem captureBad_spec {s : State} {q : Nat} (low : s.rankOf 0x0141 ≤ 4) (serves : (s.ch (chanKey .flash q)).state = .inService) :
    let t := s.captureBad q
    (t.pk q).incomplete = true ∧ (t.pk q).staging = [] ∧ (t.ch (chanKey .flash q)).state = .probing := by
  let u := (s.pkU q fun w => { w with staging := [], incomplete := true }).chanError .flash q 1
  have view : (u.gnoby 1 q).wakeView = u.wakeView := raise_wakeView (Nat.lt_of_le_of_lt low (by decide))
  simp only [State.wakeView, Prod.mk.injEq] at view
  obtain ⟨-, -, -, wport, chans⟩ := view
  have port : (u.gnoby 1 q).pk q = { s.pk q with staging := [], incomplete := true } := by
    rw [← State.pkU_pk_same s q fun w => { w with staging := [], incomplete := true }]
    unfold State.pk
    rw [wport]
    rfl
  have chan : (u.gnoby 1 q).ch (chanKey .flash q) = { s.ch (chanKey .flash q) with state := .probing, try_ := 1, cause := 1 } := by
    have first : u.ch (chanKey .flash q) = { s.ch (chanKey .flash q) with state := .probing, try_ := 1, cause := 1 } := by
      unfold u State.chanError
      rw [State.chU_ch_same]
      rw [State.pkU_ch, serves]
      rfl
    rw [← first]
    unfold State.ch
    rw [chans]
  change ((u.gnoby 1 q).pk q).incomplete = true ∧ ((u.gnoby 1 q).pk q).staging = [] ∧ ((u.gnoby 1 q).ch _).state = _
  rw [port, chan]
  exact ⟨rfl, rfl, rfl⟩

end Sys2Proof.Machine
end

section
namespace Sys2Proof.Machine
open Sys2Proof

/-! #### A round in which a capture fails (R76, R382, R406) -/

theorem roundPort_granary (s : State) (bursts : List (PortId × List Byte)) (b p : Nat) :
    ((s.roundPort bursts b p).pk p).granary = (s.pk p).granary := by
  unfold State.roundPort
  extract_lets w got bs v
  have sent : v.pk p = s.pk p := by
    unfold v
    split
    · split <;> rfl
    · rfl
  clear_value v
  split
  · rw [State.pkU_pk_same]
  split
  · rw [State.pkU_pk_same]
  · rw [State.pkU_pk_same, sent]

theorem roundEnds_granary (s : State) (bursts : List (PortId × List Byte)) (p : PortId) :
    ((s.roundEnds bursts).pk p.val).granary = (s.pk p.val).granary := by
  obtain ⟨-, -, -, -, -, ports⟩ := roundEnds_spec s bursts
  obtain ⟨u, -, pk, done⟩ := ports p
  rw [done, roundPort_granary, pk]

theorem padTo_ne_nil (bs : List Byte) : padTo bs 65536 ≠ [] := by
  intro empty
  have len := congrArg List.length empty
  unfold padTo at len
  rw [List.length_take, List.length_append, List.length_replicate, List.length_nil] at len
  omega

/-- A port that reads its flash takes a burst of the round that its plan has. -/
theorem roundBytes_ne_nil {s : State} {p b : Nat} (got : List Byte) (gran : (s.pk p).granary = false)
    (planned : planBurst (planRegions s.pol p) b ≠ none) : s.roundBytes p b got ≠ [] := by
  unfold State.roundBytes
  split
  · next missing => exact absurd missing planned
  · rw [if_pos (by rw [gran]; rfl)]
    exact padTo_ne_nil got

theorem flash_serves {s : State} {p : Nat} (gran : (s.pk p).granary = false) (clear : s.masterBarred p = false) :
    (s.ch (chanKey .flash p)).state = .inService := by
  unfold State.masterBarred at clear
  rw [gran] at clear
  simp only [Bool.not_false, Bool.true_and, Bool.or_eq_false_iff, decide_eq_false_iff_not, not_not] at clear
  exact clear.2

theorem wakeRound_capture {s : State} (bursts : List (PortId × List Byte)) (q : PortId) (round : s.wake.stage = .round)
    (goes : s.wake.endNext = false) (part : (s.pk q.val).part = true) (low : (s.pk q.val).pgLow = false)
    (fell : (s.pk q.val).pgFell = false) (abort : (s.pk q.val).aborted = false) (gran : (s.pk q.val).granary = false)
    (due : s.wake.round < polBursts s.pol q.val) (rank : s.rankOf 0x0141 ≤ 4) :
    Completes (.wakeRound bursts [q]) s fun t =>
      (t.pk q.val).incomplete = true ∧ (t.pk q.val).staging = []
        ∧ (s.masterBarred q.val = false →
            planBurst (planRegions s.pol q.val) s.wake.round ≠ none → (t.ch (chanKey .flash q.val)).state = .probing) := by
  have run := wakeRound_run bursts [q] round goes
  obtain ⟨barred, clear⟩ := roundEnds_takes bursts part low fell abort due
  obtain ⟨-, -, -, chans, ranks, -⟩ := roundEnds_spec s bursts
  have stays := roundEnds_granary s bursts q
  generalize s.roundEnds bursts = u at run barred clear chans ranks stays
  have ends : exec (.wakeRound bursts [q]) s
      = .next (if (u.pk q.val).staging = [] || (u.pk q.val).granary then u else u.captureBad q.val) := run
  rw [stays, gran, Bool.or_false] at ends
  refine ⟨_, ends, ?_⟩
  by_cases empty : (u.pk q.val).staging = []
  · rw [if_pos (decide_eq_true empty)]
    cases shut : s.masterBarred q.val with
    | true => exact ⟨(barred shut).1, empty, fun no => nomatch no⟩
    | false =>
      obtain ⟨bytes, marked⟩ := clear shut
      exact ⟨marked empty, empty, fun _ planned => absurd (bytes ▸ empty) (roundBytes_ne_nil _ gran planned)⟩
  · rw [if_neg (by rw [decide_eq_true_eq]; exact empty)]
    have shut : s.masterBarred q.val = false := by
      cases open' : s.masterBarred q.val with
      | true => exact absurd (barred open').2 empty
      | false => rfl
    have serves : (u.ch (chanKey .flash q.val)).state = .inService := by
      have flash := flash_serves gran shut
      unfold State.ch at flash ⊢
      rw [chans]
      exact flash
    obtain ⟨incomplete, staging, probes⟩ := captureBad_spec (s := u) (q := q.val) (by rw [ranks]; exact rank) serves
    exact ⟨incomplete, staging, fun _ _ => probes⟩

/-! #### The signature window and the drain (R72) -/

theorem signatureWindowEnd_completes {s : State} (window : s.wake.stage = .window) :
    Completes .signatureWindowEnd s fun t =>
      t.wake.stage = (if s.wakeRounds ≤ 1 then .drain else .round) ∧ { t with wake := s.wake } = s :=
  ⟨_, if_neg (not_not.mpr window), rfl, rfl⟩

theorem drainEnd_completes {s : State} (drain : s.wake.stage = .drain) (goes : s.wake.endNext = false) :
    Completes .drainEnd s fun t => t.wake.stage = .verdict ∧ { t with wake := s.wake } = s :=
  ⟨_, (if_neg (not_not.mpr drain)).trans (if_neg (by rw [goes]; exact Bool.false_ne_true)), rfl, rfl⟩

end Sys2Proof.Machine
end

section
namespace Sys2Proof.Machine
open Sys2Proof

/-! #### A port's part in the wake (R67, R70, R95) -/

/-- What the loop over the ports of a new wake reads of the state and leaves alone. -/
def State.askView (s : State) := (s.boot, s.sheaves, s.chans, s.home, s.po 0)

theorem canWake_mono {s t : State} {p : Nat} (view : t.askView = s.askView) (hold : (t.ph p).hold = (s.ph p).hold)
    (holdN : (t.ph p).holdN = (s.ph p).holdN) (retired : (t.pg p).flashRetired = (s.pg p).flashRetired)
    (set : s.granaryWake p = true → (t.pg p).setState = (s.pg p).setState) (can : s.canWake p = true) : t.canWake p = true := by
  simp only [State.askView, Prod.mk.injEq] at view
  obtain ⟨boot, sheaves, chans, -, -⟩ := view
  unfold State.canWake State.sh State.heldNow State.bankUp State.chanRetired State.ch at can ⊢
  unfold State.granaryWake at set
  rw [boot, sheaves, chans, hold, holdN, retired]
  cases flash : (s.pg p).flashRetired with
  | false =>
    rw [flash] at can
    exact can
  | true =>
    rw [flash] at can set
    simp only [Bool.and_eq_true, Bool.not_true, Bool.false_or] at can
    rw [set (by rw [can.2]; rfl)]
    simp only [Bool.and_eq_true, Bool.not_true, Bool.false_or]
    exact can

/-- Every held port that a wake names has lost its token and stands PENDING (R67, R95, R101). -/
theorem portReset_spec {s t : State} {x : Nat} (e : s.portReset x = t) :
    t.askView = s.askView ∧ t.wport = s.wport
      ∧ ((t.ph x).token = none ∧ (t.pv x).verdict = 0)
      ∧ (∀ p, (t.ph p).hold = (s.ph p).hold ∧ (t.ph p).holdN = (s.ph p).holdN ∧ (t.pg p).flashRetired = (s.pg p).flashRetired
        ∧ (s.granaryWake p = true → (t.pg p).setState = (s.pg p).setState))
      ∧ ∀ p, p ≠ x → (t.ph p).token = (s.ph p).token ∧ t.pv p = s.pv p := by
  unfold State.portReset at e
  extract_lets s6 s7 s8 s9 s10 at e
  have groups : ∀ (u : State) (use : Nat), (u.returnGroups use x none).po 0 = u.po 0 := fun u use => returnGroups_po (by decide)
  have po6 : s6.po 0 = s.po 0 := (groups _ 2).trans (groups s 1)
  have only6 : OnlyGroups s s6 := (returnGroups_onlyGroups s 1 x none).trans (returnGroups_onlyGroups _ 2 x none)
  clear_value s6
  have first : s6.askView = s.askView ∧ s6.wport = s.wport ∧ s6.hold = s.hold ∧ s6.verd = s.verd ∧ s6.pgran = s.pgran := by
    obtain ⟨gran, leave, rfl⟩ := only6
    refine ⟨?_, rfl, rfl, rfl, rfl⟩
    unfold State.askView
    rw [po6]
  obtain ⟨view6, wport6, hold6, verd6, pgran6⟩ := first
  have sets : s7.askView = s6.askView ∧ s7.wport = s6.wport ∧ s7.hold = s6.hold ∧ s7.verd = s6.verd
      ∧ ∀ p, (s7.pg p).flashRetired = (s6.pg p).flashRetired ∧ (s6.granaryWake p = true → (s7.pg p).setState = (s6.pg p).setState) := by
    unfold s7
    split
    · exact ⟨rfl, rfl, rfl, rfl, fun p => ⟨rfl, fun _ => rfl⟩⟩
    · next no =>
      have po : (s6.returnGroups 3 x none).po 0 = s6.po 0 := groups s6 3
      obtain ⟨gran, leave, same⟩ := returnGroups_onlyGroups s6 3 x none
      rw [same] at po ⊢
      refine ⟨?_, rfl, rfl, rfl, fun p => ?_⟩
      · unfold State.askView
        exact congrArg (fun q : Pool => (s6.boot, s6.sheaves, s6.chans, s6.home, q)) po
      · by_cases own : p = x
        · subst own
          rw [State.pgU_pg_same]
          exact ⟨rfl, fun reads => absurd reads no⟩
        · rw [State.pgU_pg_ne _ _ _ _ own]
          exact ⟨rfl, fun _ => rfl⟩
  obtain ⟨view7, wport7, hold7, verd7, set7⟩ := sets
  clear_value s7
  have set8 : ∀ p, (s8.pg p).flashRetired = (s7.pg p).flashRetired ∧ (s8.pg p).setState = (s7.pg p).setState := fun p => by
    unfold s8
    rw [State.pgU_pg]
    split
    · next own => subst own; exact ⟨rfl, rfl⟩
    · exact ⟨rfl, rfl⟩
  have view8 : s8.askView = s7.askView := rfl
  have wport8 : s8.wport = s7.wport := rfl
  have ph8 : ∀ p, s8.ph p = s.ph p := fun p => by
    change s7.ph p = s.ph p
    unfold State.ph
    rw [hold7, hold6]
  have pv8 : ∀ p, s8.pv p = s.pv p := fun p => by
    change s7.pv p = s.pv p
    unfold State.pv
    rw [verd7, verd6]
  have pg6 : ∀ p, s6.pg p = s.pg p := fun p => by
    unfold State.pg
    rw [pgran6]
  have gran6 : ∀ p, s6.granaryWake p = s.granaryWake p := fun p => by
    unfold State.granaryWake
    rw [pg6]
  clear_value s8
  subst e
  refine ⟨view8.trans (view7.trans view6), wport8.trans (wport7.trans wport6), ⟨?_, ?_⟩, fun p => ⟨?_, ?_, ?_, fun reads => ?_⟩,
    fun p ne => ⟨?_, ?_⟩⟩
  · simp [s10, s9]
  · simp
  · simp only [State.pvU_ph, s10, State.pwU_ph, s9, State.phU_ph, ph8]
    split
    · next own => subst own; rfl
    · rfl
  · simp only [State.pvU_ph, s10, State.pwU_ph, s9, State.phU_ph, ph8]
    split
    · next own => subst own; rfl
    · rfl
  · change (s8.pg p).flashRetired = _
    rw [(set8 p).1, (set7 p).1, pg6]
  · change (s8.pg p).setState = _
    rw [(set8 p).2, (set7 p).2 ((gran6 p).trans reads), pg6]
  · simp only [State.pvU_ph, s10, State.pwU_ph, s9, State.phU_ph_ne _ _ _ _ ne, ph8]
  · rw [State.pvU_pv_ne _ _ _ _ ne]
    exact pv8 p

theorem portWake_spec {s t : State} {x : Nat} (e : s.portWake x = t) :
    t.askView = s.askView ∧ (t.pk x).part = true
      ∧ (∀ p, (t.ph p).hold = (s.ph p).hold ∧ (t.ph p).holdN = (s.ph p).holdN ∧ (t.ph p).token = (s.ph p).token
        ∧ t.pv p = s.pv p ∧ t.pg p = s.pg p)
      ∧ ∀ p, p ≠ x → t.pk p = s.pk p := by
  unfold State.portWake at e
  extract_lets gran on u at e
  have master : u.askView = s.askView ∧ u.wport = s.wport
      ∧ (∀ p, (u.ph p).hold = (s.ph p).hold ∧ (u.ph p).holdN = (s.ph p).holdN ∧ (u.ph p).token = (s.ph p).token)
      ∧ u.verd = s.verd ∧ u.pgran = s.pgran := by
    unfold u
    split
    · have ports : ∀ p, ((s.phU x fun h => { h with mode := .master }).ph p).hold = (s.ph p).hold
          ∧ ((s.phU x fun h => { h with mode := .master }).ph p).holdN = (s.ph p).holdN
          ∧ ((s.phU x fun h => { h with mode := .master }).ph p).token = (s.ph p).token := fun p => by
        rw [State.phU_ph]
        split
        · next own => subst own; exact ⟨rfl, rfl, rfl⟩
        · exact ⟨rfl, rfl, rfl⟩
      unfold State.contExit
      split <;> exact ⟨rfl, rfl, ports, rfl, rfl⟩
    · exact ⟨rfl, rfl, fun p => ⟨rfl, rfl, rfl⟩, rfl, rfl⟩
  obtain ⟨view, wport, ports, verd, pgran⟩ := master
  clear_value u
  subst e
  refine ⟨view, ?_, fun p => ?_, fun p ne => ?_⟩
  · rw [State.pkU_pk_same]
  · obtain ⟨hold, holdN, token⟩ := ports p
    refine ⟨hold, holdN, token, ?_, ?_⟩
    · unfold State.pv
      rw [← verd]
      rfl
    · unfold State.pg
      rw [← pgran]
      rfl
  · rw [State.pkU_pk_ne _ _ _ _ ne]
    unfold State.pk
    rw [wport]

/-- A new wake takes in one of the held ports it names. -/
def State.wakeTakes (s : State) (p : Nat) : State :=
  let s := s.portReset p
  if s.canWake p then s.portWake p else s

/-- The port has been taken in by the wake that starts in `s0`. -/
def TakenIn (s0 u : State) (p : Nat) : Prop :=
  (u.ph p).token = none ∧ (u.pv p).verdict = 0 ∧ (s0.canWake p = true → (u.pk p).part = true)

theorem wakeTakes_spec {s0 s t : State} {x : Nat} (mono : ∀ p, s0.canWake p = true → s.canWake p = true) (e : s.wakeTakes x = t) :
    t.askView = s.askView ∧ (∀ p, s0.canWake p = true → t.canWake p = true) ∧ TakenIn s0 t x
      ∧ ∀ p, TakenIn s0 s p → TakenIn s0 t p := by
  unfold State.wakeTakes at e
  extract_lets u at e
  obtain ⟨view, wport, ⟨token, verdict⟩, fields, other⟩ := portReset_spec (s := s) (x := x) (t := u) rfl
  clear_value u
  have can : ∀ p, s0.canWake p = true → u.canWake p = true := fun p was => by
    obtain ⟨hold, holdN, retired, set⟩ := fields p
    exact canWake_mono view hold holdN retired set (mono p was)
  have pk : ∀ p, u.pk p = s.pk p := fun p => by
    unfold State.pk
    rw [wport]
  split at e
  · next =>
    obtain ⟨view', part, fields', other'⟩ := portWake_spec e
    have own : TakenIn s0 t x := by
      obtain ⟨-, -, tok, pv, -⟩ := fields' x
      exact ⟨tok.trans token, by rw [pv, verdict], fun _ => part⟩
    refine ⟨view'.trans view, fun p was => ?_, own, fun p taken => ?_⟩
    · obtain ⟨hold, holdN, -, -, pg⟩ := fields' p
      exact canWake_mono view' hold holdN (by rw [pg]) (fun _ => by rw [pg]) (can p was)
    · by_cases same : p = x
      · exact same ▸ own
      · obtain ⟨tok, verd, part'⟩ := taken
        obtain ⟨tok', pv'⟩ := other p same
        obtain ⟨-, -, tok'', pv'', -⟩ := fields' p
        exact ⟨tok''.trans (tok'.trans tok), by rw [pv'', pv', verd], fun was => by rw [other' p same, pk, part' was]⟩
  · next no =>
    subst e
    have own : TakenIn s0 u x := ⟨token, verdict, fun was => absurd (can x was) no⟩
    refine ⟨view, can, own, fun p taken => ?_⟩
    by_cases same : p = x
    · exact same ▸ own
    · obtain ⟨tok, verd, part'⟩ := taken
      obtain ⟨tok', pv'⟩ := other p same
      exact ⟨tok'.trans tok, by rw [pv', verd], fun was => by rw [pk, part' was]⟩

/-- The loop over the ports takes each of them in. -/
theorem wakeTakes_each {s0 s : State} {l : List Nat} (mono : ∀ p, s0.canWake p = true → s.canWake p = true) :
    (s.each l State.wakeTakes).askView = s.askView
      ∧ ∀ p, p ∈ l ∨ TakenIn s0 s p → TakenIn s0 (s.each l State.wakeTakes) p := by
  unfold State.each
  induction l generalizing s with
  | nil => exact ⟨rfl, fun p taken => taken.resolve_left (fun no => nomatch no)⟩
  | cons x l ih =>
    obtain ⟨view, mono', own, kept⟩ := wakeTakes_spec (x := x) mono rfl
    obtain ⟨view', rest⟩ := ih mono'
    refine ⟨view'.trans view, fun p taken => rest p ?_⟩
    obtain mem | taken := taken
    · obtain rfl | later := List.mem_cons.mp mem
      · exact .inr own
      · exact .inl later
    · exact .inr (kept p taken)

end Sys2Proof.Machine
end

section
namespace Sys2Proof.Machine
open Sys2Proof

/-! #### The start of a wake (R59, R67, R83) -/

theorem each_fixed {α : Type} {s : State} {l : List α} {f : State → α → State} (h : ∀ x ∈ l, f s x = s) : s.each l f = s := by
  unfold State.each
  induction l with
  | nil => rfl
  | cons x l ih =>
    rw [List.foldl_cons, h x List.mem_cons_self]
    exact ih fun y mem => h y (List.mem_cons_of_mem x mem)

theorem poolGrant_leave (s : State) (q h n : Nat) : ∃ leave, s.poolGrant q h n = { s with leave := leave } := by
  unfold State.poolGrant
  split
  · exact ⟨_, rfl⟩
  · exact ⟨s.leave, rfl⟩

/-- The grant of the wake's leave moves nothing that the start of the wake reads. -/
theorem granted_reads (s : State) (rewake : Bool) (n : Nat) :
    let t := ({ s with wake := { s.wake with rewake := rewake } } : State).poolGrant 0 4 n
    t.wakeReady = s.wakeReady ∧ t.wakeLanes = s.wakeLanes ∧ (∀ k, t.canGrant 8 k = s.canGrant 8 k) ∧ (∀ p, t.bankUp p = s.bankUp p)
      ∧ (∀ p, t.canWake p = s.canWake p) ∧ (∀ p, t.heldNow p = s.heldNow p) ∧ t.home = s.home := by
  have pool : (({ s with wake := { s.wake with rewake := rewake } } : State).poolGrant 0 4 n).po 8 = s.po 8 :=
    State.poolGrant_po_ne _ (by decide)
  obtain ⟨leave, form⟩ := poolGrant_leave { s with wake := { s.wake with rewake := rewake } } 0 4 n
  rw [form] at pool ⊢
  refine ⟨?_, ?_, fun k => ?_, fun p => rfl, fun p => rfl, fun p => rfl, rfl⟩
  · unfold State.wakeReady
    rw [pool]
    rfl
  · unfold State.wakeLanes State.runtimeLanes State.holds
    rw [pool]
    rfl
  · unfold State.canGrant
    rw [pool]

theorem wakeGo_enters {s : State} {ports : List Nat} (ready : s.wakeReady = true) (can : s.canGrant 8 s.wakeLanes.length = true)
    (banks : ∀ p, p < 96 → s.bankUp p = true) :
    let t := s.wakeGo ports
    t.wake.stage = .entry ∧ t.wake.round = 0 ∧ t.wake.lanes = s.wakeLanes ∧ t.po 0 = s.po 0 ∧ t.home = s.home
      ∧ ∀ p ∈ ports, s.heldNow p = true → TakenIn s t p := by
  intro t
  let v : State := { s.poolGrant 8 0 s.wakeLanes.length with wport := [] }
  have power : (s.each (List.finRange 12) fun s k => if s.bankUp (8 * k.val) then s else s.bankFails (.io k)) = s :=
    each_fixed fun k _ => if_pos (banks _ (by omega))
  have start : t = { v.each (ports.filter v.heldNow) State.wakeTakes with wake := t.wake } := by
    unfold t State.wakeGo
    rw [power, if_neg (by rw [ready, can]; decide)]
    rfl
  have wake : t.wake.stage = .entry ∧ t.wake.round = 0 ∧ t.wake.lanes = s.wakeLanes := by
    unfold t State.wakeGo
    rw [power, if_neg (by rw [ready, can]; decide)]
    exact ⟨rfl, rfl, rfl⟩
  obtain ⟨leave, grant⟩ := poolGrant_leave s 8 0 s.wakeLanes.length
  have pool : (s.poolGrant 8 0 s.wakeLanes.length).po 0 = s.po 0 := State.poolGrant_po_ne _ (by decide)
  have form : v = { s with leave := leave, wport := [] } := by
    unfold v
    rw [grant]
  have pool' : v.po 0 = s.po 0 := pool
  have held : ∀ p, v.heldNow p = s.heldNow p := fun p => by rw [form]; rfl
  have can' : ∀ p, s.canWake p = true → v.canWake p = true := fun p was => by rw [form]; exact was
  have home : v.home = s.home := by rw [form]
  obtain ⟨stage, round, lanes⟩ := wake
  clear_value v
  obtain ⟨view, taken⟩ := wakeTakes_each (l := ports.filter v.heldNow) can'
  generalize v.each (ports.filter v.heldNow) State.wakeTakes = w at start view taken
  simp only [State.askView, Prod.mk.injEq] at view
  obtain ⟨-, -, -, whome, wpool⟩ := view
  refine ⟨stage, round, lanes, ?_, ?_, fun p mem now => ?_⟩
  · rw [← pool', ← wpool, start]
    rfl
  · rw [← home, ← whome, start]
  · have own := taken p (.inl (List.mem_filter.mpr ⟨mem, (held p).trans now⟩))
    rw [start]
    exact own

theorem wakeAutoStart_enters {s : State} (ready : s.wakeReady = true) (leads : s.leads = true) (asked : s.autoPorts ≠ [])
    (lanes : s.wakeLanes ≠ []) (leave : s.canGrant 0 s.laneLeave' = true) (can : s.canGrant 8 s.wakeLanes.length = true)
    (free : s.leave.queue = []) (banks : ∀ p, p < 96 → s.bankUp p = true) :
    Completes .wakeAutoStart s fun t =>
      t.wake.stage = .entry ∧ t.wake.round = 0 ∧ t.wake.lanes = s.wakeLanes ∧ t.heldOf 0 4 = s.heldOf 0 4 + s.laneLeave'
        ∧ t.home = s.home
        ∧ ∀ p ∈ s.autoPorts, s.heldNow p = true →
            (t.ph p).token = none ∧ (t.pv p).verdict = 0 ∧ (s.canWake p = true → (t.pk p).part = true) := by
  let v := ({ s with wake := { s.wake with rewake := s.wake.firstDone } } : State).poolGrant 0 4 s.laneLeave'
  have asks : exec .wakeAutoStart s = .next (s.wakeAsk s.wake.firstDone s.autoPorts) :=
    if_pos (by simp [ready, leads, asked, lanes, free])
  have goes : s.wakeAsk s.wake.firstDone s.autoPorts = v.wakeGo s.autoPorts :=
    if_pos (by
      simp only [free, List.any_nil, Bool.not_false, Bool.and_true]
      exact leave)
  have pool : v.heldOf 0 4 = s.heldOf 0 4 + s.laneLeave' :=
    State.poolGrant_heldOf (s := { s with wake := { s.wake with rewake := s.wake.firstDone } }) leave
  obtain ⟨ready', lanes', grant, bank, canWake, heldNow, home⟩ := granted_reads s s.wake.firstDone s.laneLeave'
  change v.wakeReady = _ at ready'
  change v.wakeLanes = _ at lanes'
  change ∀ k, v.canGrant 8 k = _ at grant
  change ∀ p, v.bankUp p = _ at bank
  change ∀ p, v.canWake p = _ at canWake
  change ∀ p, v.heldNow p = _ at heldNow
  change v.home = _ at home
  clear_value v
  obtain ⟨stage, round, lane, po, home', taken⟩ := wakeGo_enters (s := v) (ports := s.autoPorts) (ready'.trans ready)
    (by rw [lanes', grant, can]) (fun p lt => (bank p).trans (banks p lt))
  refine ⟨_, asks.trans (congrArg _ goes), stage, round, lane.trans lanes', ?_, home'.trans home, fun p mem now => ?_⟩
  · rw [← pool]
    unfold State.heldOf
    rw [po]
  · obtain ⟨token, verdict, part⟩ := taken p mem ((heldNow p).trans now)
    exact ⟨token, verdict, fun was => part ((canWake p).trans was)⟩

/-- Settles O18: the start of a wake takes in its ports, the entry stage ends in round 0, the rounds, the signature window
and the drain follow one another, and a frame boundary leaves no retired lane in the map. -/
theorem wakeStages : Obligations.WakeStages := by
  unfold Obligations.WakeStages
  intro s ids replies badLanes bursts q
  exact ⟨wakeAutoStart_enters, entryEnd_home ids replies badLanes, entryEnd_round ids replies badLanes, entryEnd_port ids replies q,
    wakeRound_completes bursts, wakeRound_capture bursts q, signatureWindowEnd_completes, wakeFrameBoundary_completes, drainEnd_completes⟩

end Sys2Proof.Machine
end

section
namespace Sys2Proof.Machine
open Sys2Proof

/-! ### O54: the services of the seed ROM -/

/-! #### A request that is taken (R458, R461, R463) -/

theorem setLine_onlyCores (s : State) (n : Nat) (v : Bool) : ∃ cores, s.setLine n v = { s with cores := cores } := by
  unfold State.setLine State.each
  generalize lineCores n = l
  induction l generalizing s with
  | nil => exact ⟨s.cores, rfl⟩
  | cons c l ih => exact ih _

/-- The two states differ in the mailboxes, the pools and the cores' lines at most. -/
def OnlyRequest (s t : State) : Prop :=
  ∃ boxes served leave cores, t = { s with mspi := { s.mspi with boxes := boxes, lastServed := served }, leave := leave, cores := cores }

theorem OnlyRequest.trans {s t u : State} (h : OnlyRequest s t) (k : OnlyRequest t u) : OnlyRequest s u := by
  obtain ⟨boxes, served, leave, cores, rfl⟩ := h
  obtain ⟨boxes', served', leave', cores', rfl⟩ := k
  exact ⟨boxes', served', leave', cores', rfl⟩

theorem mbU_onlyRequest (s : State) (q : Nat) (f : Mbox → Mbox) : OnlyRequest s (s.mbU q f) :=
  ⟨_, s.mspi.lastServed, s.leave, s.cores, rfl⟩

theorem poolMove_onlyRequest (s : State) (q a b n : Nat) : OnlyRequest s (s.poolMove q a b n) :=
  ⟨s.mspi.boxes, s.mspi.lastServed, _, s.cores, rfl⟩

/-- `t` is `s` with a request of mailbox q taken: its words have gone and the command is in progress. -/
structure Taken (s t : State) (q : Nat) (tag : Byte) : Prop where
  only : OnlyRequest s t
  tag : (t.mb q).tag = some tag
  hears : (t.mb q).aborted = false
  outgoing : t.outgoing q = s.outgoing q
  pools : ∀ j, j ≠ 16 + q → t.po j = s.po j
  queue : t.leave.queue = s.leave.queue

theorem Taken.lines {s t : State} {q : Nat} {tag : Byte} (h : Taken s t q tag) (cores : Tab Core) :
    Taken s { t with cores := cores } q tag :=
  ⟨h.only.trans ⟨t.mspi.boxes, t.mspi.lastServed, t.leave, cores, rfl⟩, h.tag, h.hears, h.outgoing, h.pools, h.queue⟩

theorem Taken.served {s t : State} {q : Nat} {tag : Byte} (h : Taken s t q tag) (served : Nat) :
    Taken s { t with mspi := { t.mspi with lastServed := served } } q tag :=
  ⟨h.only.trans ⟨t.mspi.boxes, served, t.leave, t.cores, rfl⟩, h.tag, h.hears, h.outgoing, h.pools, h.queue⟩

theorem takeWords_taken (s : State) (q h n : Nat) :
    Taken s ((s.takeWords q n).mbU q fun b => { b with tag := some (hdrTag h), aborted := false, parity := false }) q (hdrTag h) := by
  unfold State.takeWords
  have moved : OnlyRequest s (s.poolMove (16 + q) 1 0 n) := poolMove_onlyRequest ..
  have pools : ∀ j, j ≠ 16 + q → (s.poolMove (16 + q) 1 0 n).po j = s.po j := fun j other => State.poU_po_ne _ _ _ _ other
  have box : (s.poolMove (16 + q) 1 0 n).mb q = s.mb q := rfl
  have queue : (s.poolMove (16 + q) 1 0 n).leave.queue = s.leave.queue := rfl
  generalize s.poolMove (16 + q) 1 0 n = u at moved pools box queue
  refine ⟨moved.trans ((mbU_onlyRequest ..).trans (mbU_onlyRequest ..)), ?_, ?_, ?_, fun j other => ?_, queue⟩
  · rw [State.mbU_mb_same]
  · rw [State.mbU_mb_same]
  · unfold State.outgoing
    rw [State.mbU_mb_same, State.mbU_mb_same, box]
  · rw [State.mbU_po, State.mbU_po, pools j other]

theorem takeRequest_taken (s : State) (q h n : Nat) : Taken s (s.takeRequest q h n) q (hdrTag h) := by
  unfold State.takeRequest
  extract_lets u _ v
  have words : Taken s v q (hdrTag h) := (takeWords_taken s q h (1 + n)).served _
  clear_value v
  split
  · exact words
  · obtain ⟨cores, lines⟩ := setLine_onlyCores v 5 false
    rw [lines]
    exact words.lines cores

section
variable {s t : State} {q : Nat} {tag : Byte}

theorem Taken.boot (h : Taken s t q tag) : t.boot = s.boot := by
  obtain ⟨_, _, _, _, rfl⟩ := h.only
  rfl

theorem Taken.home (h : Taken s t q tag) : t.home = s.home := by
  obtain ⟨_, _, _, _, rfl⟩ := h.only
  rfl

theorem Taken.fuses (h : Taken s t q tag) : t.fuses = s.fuses := by
  obtain ⟨_, _, _, _, rfl⟩ := h.only
  rfl

theorem Taken.slotView (h : Taken s t q tag) : t.slotView = s.slotView := by
  obtain ⟨_, _, _, _, rfl⟩ := h.only
  rfl

/-- An answer given in a state with the mailbox as the request left it. -/
theorem Taken.answered {u : State} (h : Taken s t q tag) (box : u.mb q = t.mb q) (status : Nat) (ws : List W32) :
    Answered s (u.answer q status ws) q tag status ws ∧ OnlyMail u (u.answer q status ws) := by
  have aborted : (u.mb q).aborted = false := by rw [box, h.hears]
  obtain ⟨words, mail⟩ := State.respond_outgoing (s := u) q ((u.mb q).tag.getD 0) status ws aborted
  have waits : u.outgoing q = s.outgoing q := by
    rw [← h.outgoing]
    unfold State.outgoing
    rw [box]
  have own : (u.mb q).tag.getD 0 = tag := by rw [box, h.tag]; rfl
  rw [own, waits] at words
  refine ⟨?_, mail⟩
  unfold State.answer
  rw [own]
  exact words

/-- An answer that is given at once is all that a command does. -/
theorem Taken.told (h : Taken s t q tag) (status : Nat) (ws : List W32) : Told s (t.answer q status ws) q tag status ws := by
  obtain ⟨answered, mail⟩ := h.answered rfl status ws
  refine ⟨answered, ?_⟩
  obtain ⟨boxes, served, leave, cores, rfl⟩ := h.only
  unfold OnlyMail at mail
  generalize State.answer _ q status ws = v at mail
  exact congrArg (fun u : State => { u with
    mspi := { u.mspi with boxes := s.mspi.boxes, lastServed := s.mspi.lastServed }, leave := s.leave, cores := s.cores }) mail

end

theorem OnlyMail.boot {s t : State} (h : OnlyMail s t) : t.boot = s.boot := by
  unfold OnlyMail at h
  have same := congrArg State.boot h
  exact same

theorem OnlyMail.home {s t : State} (h : OnlyMail s t) : t.home = s.home := by
  unfold OnlyMail at h
  have same := congrArg State.home h
  exact same

theorem OnlyMail.fuses {s t : State} (h : OnlyMail s t) : t.fuses = s.fuses := by
  unfold OnlyMail at h
  have same := congrArg State.fuses h
  exact same

/-- A command that its header lets through is executed with its request taken (R463, R464, R467). -/
theorem EndsIn.command {s : State} {mb : MailboxId} {code : Nat} {tag : Byte} {ws : List W32} {states : List DevState} {len : Nat → Bool}
    {run : Nat → List W32 → State → State} {P : State → Prop} (serves : s.Serves mb.val code tag ws)
    (state : states.contains s.boot.dev = true) (length : len ws.length = true)
    (runs : ∀ t, Taken s t mb.val tag → P (run mb.val ws t)) : EndsIn P (s.command mb code states true len run) := by
  obtain ⟨h, request, own, rsvd, parity⟩ := serves
  have taken : Taken s (s.takeRequest mb.val h ws.length) mb.val tag := own ▸ takeRequest_taken s mb.val h ws.length
  have goes : headerStatus mb.val h ws.length (states.contains s.boot.dev) true len = 0 := by
    unfold headerStatus
    rw [state, length, if_neg (by decide), if_neg (not_not.mpr rsvd), if_neg (by simp), if_neg (by decide)]
  unfold State.command
  simp only [request, goes, parity]
  exact runs _ taken

/-! #### The repair services (R51) -/

theorem repairList_told {s : State} {mb : MailboxId} {tag : Byte} {w : W32} (sealed : s.boot.dev = .sealed) (lc : s.lcLatched ≠ 5)
    (low : w.toNat < 128) (serves : s.Serves mb.val 0xE0 tag [w]) :
    Completes (.cmdRepairList mb) s fun t =>
      Told s t mb.val tag 0 ([BitVec.ofNat 32 (maskOf ((List.range 5).filter fun g => s.boot.failing.any fun e => decide (e.1 = g))),
        BitVec.ofNat 32 s.fuses.weakCount] ++ (s.fuses.weakMap.drop w.toNat).take 128) := by
  refine .ofEndsIn (o := execCmdRepairList mb s) rfl ?_
  unfold execCmdRepairList
  refine .command serves (by rw [sealed]; rfl) rfl fun t taken => ?_
  have lc' : t.lcLatched ≠ 5 := by
    unfold State.lcLatched
    rw [taken.fuses]
    exact lc
  have index : arg [w] 1 = w.toNat := rfl
  rw [index, if_neg (Nat.not_le.mpr low), if_neg lc', taken.boot, taken.fuses]
  exact taken.told ..

end Sys2Proof.Machine
end

section
namespace Sys2Proof.Machine
open Sys2Proof

/-! #### The bundle slots in FWLESS and HEADLESS (R55) -/

theorem OnlyMail.homeGet {s t : State} (h : OnlyMail s t) : t.homeGet = s.homeGet := by
  have fresh := congrArg State.fresh h
  dsimp only at fresh
  funext a n
  unfold State.homeGet State.homeUp
  rw [h.boot, h.home, fresh]

theorem bytesOf_length (ws : List W32) : (bytesOf ws).length = 4 * ws.length := by
  induction ws with
  | nil => rfl
  | cons w ws ih =>
    change (leBytes w.toNat 4 ++ bytesOf ws).length = _
    rw [List.length_append, ih, List.length_cons]
    change 4 + 4 * ws.length = _
    omega

/-- No byte of a bundle slot lies in the log region. -/
theorem slot_not_inLog {x : Slot} {off n : Nat} (inside : off + n ≤ 0x01000000) : inLog (slotBase x + off) n = false := by
  unfold inLog
  have below : ¬ 0x03000000 < slotBase x + off + n := by
    cases x
    · change ¬ _ < 0 + off + n
      omega
    · change ¬ _ < 0x01000000 + off + n
      omega
  rw [decide_eq_false below, Bool.and_false]

theorem coreErase_slot (s : State) (x : Slot) : s.coreErase (slotBase x) 0x01000000 = s.homeErase (slotBase x) 0x01000000 := by
  unfold State.coreErase State.logFilter
  have clear : inLog (slotBase x) 0x01000000 = false := slot_not_inLog (off := 0) (by omega)
  rw [clear]
  rfl

theorem corePut_slot {s : State} {x : Slot} {off : Nat} {bs : List Byte} (inside : off + bs.length ≤ 0x01000000) :
    s.corePut (slotBase x + off) bs = s.homePut (slotBase x + off) bs := by
  unfold State.corePut State.logFilter
  rw [slot_not_inLog inside]
  rfl

theorem homeDoes_reads (s : State) (l : List FlashOp) (c : Tab Byte) :
    (s.homeDoes l c).homeUp = s.homeUp ∧ ∀ q, (s.homeDoes l c).mb q = s.mb q := by
  unfold State.homeDoes
  split <;> exact ⟨rfl, fun _ => rfl⟩

theorem homeErase_reads {s : State} {a n j : Nat} (up : s.homeUp = true) (inside : j < n) : (s.homeErase a n).homeGet (a + j) 1 = [0xFF] := by
  have up' : (s.homeErase a n).homeUp = true := (homeDoes_reads ..).1.trans up
  rw [State.homeGet_up _ _ up']
  have erased := State.homeByte_homeErase (s := s) a n (a + j)
  rw [if_pos ⟨up, by omega, by omega⟩] at erased
  exact congrArg (fun b : Byte => [b]) erased

/-- The slot that a service names. -/
def namedSlot (w : W32) : Slot := if w.toNat = 1 then .b else .a

theorem loadStates {d : DevState} (fits : d = .fwless ∨ d = .headless) : [DevState.fwless, .headless].contains d = true := by
  obtain rfl | rfl := fits <;> rfl

theorem loadGuard_taken {s t : State} {q : Nat} {tag : Byte} (taken : Taken s t q tag) (x : Slot) :
    t.loadGuard x = if s.slotPasses x then 0x1E01 else 0 := by
  unfold State.loadGuard
  rw [slotPasses_of_slotView taken.slotView]

theorem loadErase_run {s : State} {mb : MailboxId} {tag : Byte} {w v : W32} {P : State → Prop}
    (fits : s.boot.dev = .fwless ∨ s.boot.dev = .headless) (serves : s.Serves mb.val 0xE8 tag [w, v]) (low : w.toNat < 2) (conf : v = ~~~ w)
    (runs : ∀ t, Taken s t mb.val tag → P (if s.slotPasses (namedSlot w) = true then t.answer mb.val 0x1E01 []
      else (t.homeErase (slotBase (namedSlot w)) 0x01000000).answer mb.val 0 [])) : Completes (.cmdLoadErase mb) s P := by
  refine .ofEndsIn (o := execCmdLoadErase mb s) rfl ?_
  unfold execCmdLoadErase
  refine .command serves (loadStates fits) rfl fun t taken => ?_
  have index : arg [w, v] 1 = w.toNat := rfl
  have sure : confirmed [w, v] 2 = true := decide_eq_true conf
  have out := runs t taken
  unfold State.slotErase
  rw [index, sure, if_neg (Nat.not_le.mpr low), if_neg (by decide), coreErase_slot]
  change P (if t.loadGuard (namedSlot w) ≠ 0 then t.answer mb.val (t.loadGuard (namedSlot w)) [] else _)
  rw [loadGuard_taken taken]
  cases passes : s.slotPasses (namedSlot w) with
  | true =>
    rw [if_pos passes] at out
    exact out
  | false =>
    rw [if_neg (by rw [passes]; decide)] at out
    exact out

theorem loadErase_erases {s : State} {mb : MailboxId} {tag : Byte} {w v : W32} (fits : s.boot.dev = .fwless ∨ s.boot.dev = .headless)
    (serves : s.Serves mb.val 0xE8 tag [w, v]) (low : w.toNat < 2) (conf : v = ~~~ w) (bad : s.slotPasses (namedSlot w) = false)
    (up : s.homeUp = true) :
    Completes (.cmdLoadErase mb) s fun t =>
      Answered s t mb.val tag 0 [] ∧ (∀ j, j < 0x01000000 → t.homeGet (slotBase (namedSlot w) + j) 1 = [0xFF])
        ∧ HomeSameBut s t (slotBase (namedSlot w)) 0x01000000 := by
  refine loadErase_run fits serves low conf fun t taken => ?_
  rw [if_neg (by rw [bad]; decide)]
  have up' : t.homeUp = true := by
    unfold State.homeUp
    rw [taken.boot]
    exact up
  have box : (t.homeErase (slotBase (namedSlot w)) 0x01000000).mb mb.val = t.mb mb.val := (homeDoes_reads ..).2 _
  obtain ⟨answered, mail⟩ := taken.answered box 0 []
  refine ⟨answered, fun j inside => ?_, fun b out => ?_⟩
  · rw [mail.homeGet]
    exact homeErase_reads up' inside
  · have kept := State.homeErase_same_but (s := t) _ _ b out
    unfold State.homeByte at kept ⊢
    rw [mail.home, kept, taken.home]

theorem loadErase_refused {s : State} {mb : MailboxId} {tag : Byte} {w v : W32} (fits : s.boot.dev = .fwless ∨ s.boot.dev = .headless)
    (serves : s.Serves mb.val 0xE8 tag [w, v]) (low : w.toNat < 2) (conf : v = ~~~ w) (passes : s.slotPasses (namedSlot w) = true) :
    Completes (.cmdLoadErase mb) s fun t => Told s t mb.val tag 0x1E01 [] := by
  refine loadErase_run fits serves low conf fun t taken => ?_
  rw [if_pos passes]
  exact taken.told ..

theorem loadWrite_writes {s : State} {mb : MailboxId} {tag : Byte} {w v : W32} {ws : List W32}
    (fits : s.boot.dev = .fwless ∨ s.boot.dev = .headless) (serves : s.Serves mb.val 0xE9 tag (w :: v :: ws)) (some' : 1 ≤ ws.length)
    (most : ws.length ≤ 253) (low : w.toNat < 2) (aligned : v.toNat % 4 = 0) (inside : v.toNat + 4 * ws.length ≤ 0x01000000)
    (bad : s.slotPasses (namedSlot w) = false) (up : s.homeUp = true) :
    Completes (.cmdLoadWrite mb true) s fun t =>
      Answered s t mb.val tag 0 [] ∧ t.homeGet (slotBase (namedSlot w) + v.toNat) (bytesOf ws).length = bytesOf ws
        ∧ HomeSameBut s t (slotBase (namedSlot w) + v.toNat) (bytesOf ws).length := by
  refine .ofEndsIn (o := execCmdLoadWrite mb true s) rfl ?_
  unfold execCmdLoadWrite
  refine .command serves (loadStates fits) (decide_eq_true ?_) fun t taken => ?_
  · rw [List.length_cons, List.length_cons]
    omega
  have up' : t.homeUp = true := by
    unfold State.homeUp
    rw [taken.boot]
    exact up
  have sized : ¬ (2 ≤ w.toNat ∨ v.toNat % 4 ≠ 0 ∨ 0x01000000 < v.toNat + 4 * ((w :: v :: ws).length - 2)) := by
    rw [List.length_cons, List.length_cons]
    omega
  have open' : ¬ t.loadGuard (namedSlot w) ≠ 0 := by
    rw [loadGuard_taken taken, if_neg (by rw [bad]; decide)]
    decide
  have goes : t.slotWrite mb.val (w :: v :: ws) true t.loadGuard
      = t.homeProgram mb.val (slotBase (namedSlot w) + v.toNat) 3 (w :: v :: ws) true := (if_neg sized).trans (if_neg open')
  rw [goes]
  unfold State.homeProgram
  extract_lets bs u
  have bytes : bs = bytesOf ws := rfl
  have put : u = t.homePut (slotBase (namedSlot w) + v.toNat) (bytesOf ws) := corePut_slot (by rw [bytesOf_length]; exact inside)
  clear_value bs u
  subst bytes put
  rw [if_pos (by rw [up']; rfl)]
  generalize sent : (t.homePut (slotBase (namedSlot w) + v.toNat) (bytesOf ws)).homeSends _ = r
  have home : r.home = (t.homePut (slotBase (namedSlot w) + v.toNat) (bytesOf ws)).home := by rw [← sent]; rfl
  have reads : r.homeGet = (t.homePut (slotBase (namedSlot w) + v.toNat) (bytesOf ws)).homeGet := by rw [← sent]; rfl
  have box : r.mb mb.val = t.mb mb.val := by
    rw [← sent]
    exact (homeDoes_reads ..).2 _
  obtain ⟨answered, mail⟩ := taken.answered box 0 []
  refine ⟨answered, ?_, fun b out => ?_⟩
  · rw [mail.homeGet, reads]
    exact State.homeGet_homePut_same _ _ up'
  · have kept := State.homePut_same_but (s := t) _ _ b out
    unfold State.homeByte at kept ⊢
    rw [mail.home, home, kept, taken.home]

/-! #### Codes outside the command set (R468) -/

/-- A request is the next one whichever property of its code is asked for. -/
theorem request_other {s : State} {q h code : Nat} {ws : List W32} {p : Nat → Bool}
    (request : s.request q (fun c => decide (c = code)) = some (h, ws)) (fits : p code = true) :
    s.request q p = some (h, ws) ∧ hdrCommand h = code := by
  unfold State.request at request ⊢
  split at request
  · split at request
    · next first =>
      obtain ⟨next', served, own⟩ := first
      obtain ⟨rfl, rfl⟩ := Prod.mk.inj (Option.some.inj request)
      have code' := of_decide_eq_true own
      exact ⟨if_pos ⟨next', served, by rw [code', fits]⟩, code'⟩
    · exact nomatch request
  · exact nomatch request

theorem unknownCode_told {s : State} {mb : MailboxId} {code : Nat} {tag : Byte} {ws : List W32} (serves : s.Serves mb.val code tag ws)
    (low : code < 0xF0) (unknown : commandCodes.contains code = false) :
    Completes (.unknownCommandCode mb) s fun t => Told s t mb.val tag 0x1001 [] := by
  obtain ⟨h, request, own, -, parity⟩ := serves
  have taken : Taken s (s.takeRequest mb.val h ws.length) mb.val tag := own ▸ takeRequest_taken s mb.val h ws.length
  obtain ⟨request', -⟩ := request_other (p := fun c => decide (c < 0xF0) && !commandCodes.contains c) request
    (by rw [decide_eq_true low, unknown]; rfl)
  refine .ofEndsIn (o := execUnknownCommandCode mb s) rfl ?_
  unfold execUnknownCommandCode
  simp only [request', parity, Bool.false_eq_true, if_false]
  exact taken.told 0x1001 []

end Sys2Proof.Machine
end

section
namespace Sys2Proof.Machine
open Sys2Proof

/-! #### A reburn of the repair list (R51, R365) -/

theorem otpUnit_code {code : Nat} {u : OtpUnit} (unit : otpUnit code = some u) : code < 256 := by
  unfold otpUnit at unit
  have own : u.code = code := by simpa using List.find?_some unit
  have small : ∀ x ∈ otpUnits, x.code < 256 := by decide
  rw [← own]
  exact small u (List.mem_of_find?_eq_some unit)

/-- The fields of the word that Shentiha fires. -/
theorem fireWord_fields {fn unit a : Nat} (fn16 : fn < 16) (unit256 : unit < 256) (a4096 : a < 4096) :
    let w : W32 := BitVec.ofNat 32 (0x5A000000 + fn * 2 ^ 20 + unit * 2 ^ 12 + a)
    fuseFn w = fn ∧ fuseUnit w = unit ∧ fuseArg w = a := by
  unfold fuseFn fuseUnit fuseArg bitsOf
  simp only [BitVec.toNat_ofNat]
  omega

theorem lvGrant_form (s : State) (u : LvUse) (n : Nat) : ∃ leave cores, s.lvGrant u n = { s with leave := leave, cores := cores } := by
  obtain ⟨leave, grant⟩ := poolGrant_leave s 0 u.holder n
  unfold State.lvGrant
  rw [grant]
  dsimp only
  split
  · exact ⟨leave, _, rfl⟩
  · exact ⟨leave, s.cores, rfl⟩

/-- A burn whose conditions hold has its leave or waits for it. -/
def FuseBegins (s t : State) (w : W32) : Prop :=
  t.fuses.state = .burning ∧ t.fuses.word = w ∧ t.fuses.otp = s.fuses.otp ∧ t.mspi = s.mspi
    ∧ (t.fuses.waiting = true ∨ t.heldOf 0 6 = s.heldOf 0 6 + 2)

theorem burnLeave_begins {s : State} (burns : s.fuses.state = .burning) :
    FuseBegins s (match s.lvTake .fuse 2 with
      | some t => t
      | none => let u := s.lvAsk .fuse 2; { u with fuses := { u.fuses with waiting := true } }) s.fuses.word := by
  split
  · next t take =>
    unfold State.lvTake at take
    split at take
    · next leave =>
      obtain rfl := Option.some.inj take
      have can : s.canGrant 0 2 = true := (Bool.and_eq_true_iff.mp (Bool.and_eq_true_iff.mp leave).2).1
      have held : (s.lvGrant .fuse 2).heldOf 0 6 = s.heldOf 0 6 + 2 := by
        rw [← State.poolGrant_heldOf can]
        unfold State.heldOf
        rw [State.lvGrant_po]
        rfl
      obtain ⟨leave, cores, form⟩ := lvGrant_form s .fuse 2
      rw [form] at held ⊢
      exact ⟨burns, rfl, rfl, rfl, .inr held⟩
    · exact nomatch take
  · exact ⟨burns, rfl, rfl, rfl, .inl rfl⟩

/-- A function that meets every condition of its FIRE burns (R365). -/
theorem fuseFire_begins {s : State} {src : Agent} {w : W32} (ready : s.FuseReady src (fuseFn w) (fuseUnit w) (fuseArg w))
    (named : fuseFn w ≠ 0 ∧ fuseFn w ≤ 5) : FuseBegins s (s.fuseFire src w) w := by
  obtain ⟨u, unit, -, issuer, states, own, temp, good⟩ := ready
  unfold State.fuseFire
  extract_lets fn s1
  rw [unit]
  dsimp -zeta only
  extract_lets own' used s2 _ s3
  have clear : own' = 0 := own
  have next : ∃ grant, s2 = { s with fuses := { s.fuses with word := w, src := src, arm := none, grant := grant } } := by
    unfold s2
    split
    · exact ⟨none, rfl⟩
    · exact ⟨s.fuses.grant, rfl⟩
  obtain ⟨grant, form⟩ := next
  clear_value own' used s2
  have issuer' : s2.fuseIssuer fn u = some src := by
    rw [form]
    exact issuer
  have states' : s2.fuseStateOk fn u = true := by
    rw [form]
    exact states
  have temp' : s2.fuses.tempOk = true := by
    rw [form]
    exact temp
  have good' : s2.mainGood = true := by
    rw [form]
    exact good
  have range : ¬ (fn = 0 ∨ 5 < fn) := by
    have low : fn ≠ 0 ∧ fn ≤ 5 := named
    omega
  rw [if_neg range, if_neg (not_not.mpr issuer'), if_neg (by rw [states']; decide), if_neg (not_not.mpr clear), if_neg (by rw [temp']; decide),
    if_neg (by rw [good']; decide)]
  have begins := burnLeave_begins (s := s3) rfl
  obtain ⟨state, word, otp, mspi, leave⟩ := begins
  have same : s2.mspi = s.mspi ∧ s2.fuses.otp = s.fuses.otp ∧ s2.fuses.word = w ∧ s2.heldOf 0 6 = s.heldOf 0 6 := by
    rw [form]
    exact ⟨rfl, rfl, rfl, rfl⟩
  obtain ⟨mspi2, otp2, word2, held2⟩ := same
  have held3 : s3.heldOf 0 6 = s.heldOf 0 6 := held2
  exact ⟨state, word.trans word2, otp.trans otp2, mspi.trans mspi2, held3 ▸ leave⟩

theorem repairReburn_burns {s : State} {mb : MailboxId} {tag : Byte} {w v : W32} (sealed : s.boot.dev = .sealed) (lc : s.lcLatched ≠ 5)
    (low : w.toNat < 128) (serves : s.Serves mb.val 0xE1 tag [w, v]) (conf : v = ~~~ w)
    (ready : s.FuseReady .seed 5 (s.weakUnit w.toNat) w.toNat) :
    Completes (.cmdRepairReburn mb) s fun t => Burns s t mb.val tag 5 (s.weakUnit w.toNat) := by
  refine .ofEndsIn (o := execCmdRepairReburn mb s) rfl ?_
  unfold execCmdRepairReburn
  refine .command serves (by rw [sealed]; rfl) rfl fun t taken => ?_
  have index : arg [w, v] 1 = w.toNat := rfl
  have sure : confirmed [w, v] 2 = true := decide_eq_true conf
  have lc' : t.lcLatched ≠ 5 := by
    unfold State.lcLatched
    rw [taken.fuses]
    exact lc
  have unit : t.weakUnit w.toNat = s.weakUnit w.toNat := by
    unfold State.weakUnit
    rw [taken.fuses]
  obtain ⟨u, unit', idle, issuer, states, own, temp, good⟩ := ready
  rw [index, if_neg (Nat.not_le.mpr low), sure, if_neg (by decide), if_neg lc', unit]
  unfold State.fuseCmd
  rw [if_neg (by rw [taken.fuses]; exact not_not.mpr idle)]
  obtain ⟨fnIs, unitIs, argIs⟩ := fireWord_fields (fn := 5) (a := w.toNat) (by omega) (otpUnit_code unit') (by omega)
  unfold State.fuseDo
  generalize s.weakUnit w.toNat = code at unit' own unitIs fnIs argIs ⊢
  generalize BitVec.ofNat 32 (0x5A000000 + 5 * 2 ^ 20 + code * 2 ^ 12 + w.toNat) = x at fnIs unitIs argIs ⊢
  have pool : t.po 0 = s.po 0 := taken.pools 0 (by omega)
  have tag' : (t.mb mb.val).tag = some tag := taken.tag
  have forms : (t.fuseFor mb.val 0xE1).FuseReady .seed (fuseFn x) (fuseUnit x) (fuseArg x) := by
    rw [fnIs, unitIs, argIs]
    obtain ⟨boxes, served, leave, cores, rfl⟩ := taken.only
    exact ⟨u, unit', idle, issuer, states, own, temp, good⟩
  obtain ⟨state, word, otp, mspi, held⟩ := fuseFire_begins forms (by rw [fnIs]; decide)
  generalize (t.fuseFor mb.val 0xE1).fuseFire .seed x = r at state word otp mspi held
  refine ⟨?_, state, by rw [word, fnIs], by rw [word, unitIs], ?_, ?_⟩
  · unfold InProgress State.mb
    rw [mspi]
    exact tag'
  · rw [otp]
    change t.fuses.otp = _
    rw [taken.fuses]
  · unfold State.heldOf at held ⊢
    rw [← pool]
    exact held

end Sys2Proof.Machine
end

section
namespace Sys2Proof.Machine
open Sys2Proof

/-! #### A slot is taken (R54, R55, R66) -/

theorem seedDraw_isSome (s : State) (h : List Byte) :
    (s.seedDraw h).isSome = (s.seedReady h && (decide (s.leave.queue = []) && s.roomFor1 (s.seedTokens h))) := by
  unfold State.seedDraw State.lvTake
  cases s.seedReady h with
  | false => rfl
  | true =>
    cases decide (s.leave.queue = []) && s.roomFor1 (s.seedTokens h) <;> rfl

/-- The request that is taken leaves a pass its leave. -/
theorem Taken.seedDraw {s t : State} {q : Nat} {tag : Byte} (taken : Taken s t q tag) (h : List Byte) :
    (t.seedDraw h).isSome = (s.seedDraw h).isSome := by
  have leave : t.po 0 = s.po 0 := taken.pools 0 (by omega)
  have lanes : t.po 8 = s.po 8 := taken.pools 8 (by omega)
  have engine : t.en = s.en := by
    obtain ⟨_, _, _, _, rfl⟩ := taken.only
    rfl
  have jobs : t.seedJobs h = s.seedJobs h := by
    unfold State.seedJobs State.seedEngine
    rw [taken.boot]
  have ready : t.seedReady h = s.seedReady h := by
    unfold State.seedReady State.canGrant
    rw [lanes, jobs, engine]
  have tokens : t.seedTokens h = s.seedTokens h := by
    unfold State.seedTokens
    rw [jobs]
  have room : ∀ n, t.roomFor1 n = s.roomFor1 n := fun n => by
    unfold State.roomFor1 State.canGrant State.urgentHeld State.holds
    rw [leave, engine]
  rw [seedDraw_isSome, seedDraw_isSome, taken.queue, ready, room, tokens]

theorem seedHold_mspi (s : State) (h : List Byte) : (s.seedHold h).mspi = s.mspi := by
  obtain ⟨leave, grant⟩ := poolGrant_leave s 8 2 1
  have pool : (s.poolGrant 8 2 1).mspi = s.mspi := by rw [grant]
  exact (each_same State.mspi (fun _ _ => by rfl) _).trans pool

theorem seedReturn_mspi (s : State) (h : List Byte) : (s.seedReturn h).mspi = s.mspi := by
  unfold State.seedReturn
  extract_lets u
  have back : u.mspi = s.mspi := rfl
  rw [← back]
  refine each_same State.mspi (fun v j => ?_) u
  split
  · obtain ⟨cores, lines⟩ := setLine_onlyCores
      ((v.poolBack 0 j.1 (v.holds 0 j.1)).enU j.1 fun k => { k with state := .idle, done := true, result := 0 }) j.1 true
    rw [lines]
    rfl
  · rfl

/-- A pass that has ended leaves the mailboxes and the slots alone. -/
theorem seedPassed_spec {s t : State} {h h' : List Byte} (draw : s.seedDraw h = some t) :
    (t.seedReturn h').slotView = s.slotView ∧ (t.seedReturn h').mspi = s.mspi := by
  refine ⟨(seedReturn_slotView ..).trans (seedDraw_slotView draw), (seedReturn_mspi ..).trans ?_⟩
  obtain ⟨-, -, rfl⟩ := seedDraw_spec draw
  obtain ⟨leave, cores, form⟩ := lvGrant_form s .bundle (s.seedTokens h)
  rw [seedHold_mspi, form]

theorem boxesEmpty_slotView (s : State) (l : List Nat) : (s.each l fun s q => s.boxEmpty q).slotView = s.slotView := by
  refine each_same State.slotView (fun u q => ?_) s
  exact boxEmpty_slotView u q

/-- A valid slot makes the bundle of a FWLESS device GOOD (R55). -/
theorem loadGood_good {s : State} {x : Slot} (fwless : s.boot.dev = .fwless) :
    (s.loadGood x).boot.step = .good ∧ (s.loadGood x).boot.bundle = some (bundleFrom x (s.bundleHeader x)) := by
  unfold State.loadGood
  extract_lets u _ h v w
  have view : u.slotView = s.slotView := boxesEmpty_slotView s _
  have header : h = s.bundleHeader x := by
    unfold h
    rw [bundleHeader_of_slotView view]
  clear_value u h w
  have boot : u.boot = s.boot := congrArg Prod.fst view
  rw [if_neg (by rw [boot, fwless]; decide), ← header]
  exact ⟨rfl, rfl⟩

/-- A valid slot makes a HEADLESS device ride, at the start of the bundle stages (R66). -/
theorem loadGood_rides {s : State} {x : Slot} (headless : s.boot.dev = .headless) :
    (s.loadGood x).boot.dev = .ride ∧ (s.loadGood x).boot.step = .headers := by
  unfold State.loadGood
  extract_lets u _ h v w
  have view : u.slotView = s.slotView := boxesEmpty_slotView s _
  clear_value u h w
  have boot : u.boot = s.boot := congrArg Prod.fst view
  rw [if_pos (by rw [boot, headless])]
  exact ⟨rfl, rfl⟩

theorem loadCommit_run {s : State} {mb : MailboxId} {tag : Byte} {w : W32} {P : State → Prop}
    (fits : s.boot.dev = .fwless ∨ s.boot.dev = .headless) (serves : s.Serves mb.val 0xEA tag [w]) (low : w.toNat < 2)
    (waits : ∀ t, Taken s t mb.val tag → s.seedDraw (s.bundleHeader (namedSlot w)) = none → P (t.answer mb.val 0x3E01 []))
    (runs : ∀ t u, Taken s t mb.val tag → t.seedDraw (s.bundleHeader (namedSlot w)) = some u →
      P (if s.slotPasses (namedSlot w) = true then (u.seedReturn (s.bundleHeader (namedSlot w))).loadGood (namedSlot w)
        else (u.seedReturn (s.bundleHeader (namedSlot w))).answer mb.val 0x3E01 [])) :
    Completes (.cmdLoadCommit mb) s P := by
  refine .ofEndsIn (o := execCmdLoadCommit mb s) rfl ?_
  unfold execCmdLoadCommit
  refine .command serves (loadStates fits) rfl fun t taken => ?_
  have index : arg [w] 1 = w.toNat := rfl
  have some' := taken.seedDraw (s.bundleHeader (namedSlot w))
  have wait := waits t taken
  have run := runs t
  dsimp only
  rw [index, if_neg (Nat.not_le.mpr low), bundleHeader_of_slotView taken.slotView, slotPasses_of_slotView taken.slotView]
  change P (match t.seedDraw (s.bundleHeader (namedSlot w)) with
    | none => t.answer mb.val 0x3E01 []
    | some u => if s.slotPasses (namedSlot w) = true then (u.seedReturn (s.bundleHeader (namedSlot w))).loadGood (namedSlot w)
        else (u.seedReturn (s.bundleHeader (namedSlot w))).answer mb.val 0x3E01 [])
  cases draw : t.seedDraw (s.bundleHeader (namedSlot w)) with
  | none =>
    refine wait ?_
    rw [draw] at some'
    exact Option.isNone_iff_eq_none.mp (by rw [← Option.not_isSome, ← some']; rfl)
  | some u => exact run u taken draw

/-- A valid slot is taken, and the home flash stays. -/
theorem loadCommit_takes {s : State} {mb : MailboxId} {tag : Byte} {w : W32} {P : State → Prop}
    (fits : s.boot.dev = .fwless ∨ s.boot.dev = .headless) (serves : s.Serves mb.val 0xEA tag [w]) (low : w.toNat < 2)
    (leave : (s.seedDraw (s.bundleHeader (namedSlot w))).isSome = true) (passes : s.slotPasses (namedSlot w) = true)
    (taken : ∀ v : State, v.slotView = s.slotView → (v.loadGood (namedSlot w)).home = s.home → P (v.loadGood (namedSlot w))) :
    Completes (.cmdLoadCommit mb) s P := by
  refine loadCommit_run fits serves low (fun t _ none' => ?_) fun t u own draw => ?_
  · rw [none'] at leave
    exact nomatch leave
  · rw [if_pos passes]
    have passed : Keeps .spared t (u.seedReturn (s.bundleHeader (namedSlot w))) := ((Keeps.refl : Keeps .spared t t).seedDraw draw).seedReturn
    refine taken _ ((seedPassed_spec draw).1.trans own.slotView) ?_
    exact (passed.loadGood nofun).home.trans own.home

theorem loadCommit_refused {s : State} {mb : MailboxId} {tag : Byte} {w : W32}
    (fits : s.boot.dev = .fwless ∨ s.boot.dev = .headless) (serves : s.Serves mb.val 0xEA tag [w]) (low : w.toNat < 2)
    (bad : s.slotPasses (namedSlot w) = false ∨ s.seedDraw (s.bundleHeader (namedSlot w)) = none) :
    Completes (.cmdLoadCommit mb) s fun t => Answered s t mb.val tag 0x3E01 [] ∧ t.boot = s.boot ∧ t.home = s.home := by
  refine loadCommit_run fits serves low (fun t own _ => ?_) fun t u own draw => ?_
  · obtain ⟨answered, mail⟩ := own.answered rfl 0x3E01 []
    exact ⟨answered, mail.boot.trans own.boot, mail.home.trans own.home⟩
  · have some' : (s.seedDraw (s.bundleHeader (namedSlot w))).isSome = true := by
      rw [← own.seedDraw, draw]
      rfl
    have fails : s.slotPasses (namedSlot w) = false := bad.resolve_right fun none' => by
      rw [none'] at some'
      exact nomatch some'
    rw [if_neg (by rw [fails]; decide)]
    obtain ⟨view, mspi⟩ := seedPassed_spec (h' := s.bundleHeader (namedSlot w)) draw
    generalize u.seedReturn (s.bundleHeader (namedSlot w)) = v at view mspi
    have box : v.mb mb.val = t.mb mb.val := by
      unfold State.mb
      rw [mspi]
    obtain ⟨answered, mail⟩ := own.answered box 0x3E01 []
    have boot : v.boot = t.boot := congrArg Prod.fst view
    have home : v.home = t.home := congrArg (fun x => x.2.1) view
    exact ⟨answered, mail.boot.trans (boot.trans own.boot), mail.home.trans (home.trans own.home)⟩

end Sys2Proof.Machine
end

section
namespace Sys2Proof.Machine
open Sys2Proof

/-! #### Production (R346, R352, R474) -/

theorem copySound_bit (f : Fuses) (a c b : Nat) :
    Tab.get {} (f.copySound a c).otp b
      = if b = a then (if c = 0 then { Tab.get {} f.otp a with c0 := .sound } else { Tab.get {} f.otp a with c1 := .sound })
        else Tab.get {} f.otp b := by
  have otp : (f.copySound a c).otp = Tab.upd {} f.otp a fun b => if c = 0 then { b with c0 := .sound } else { b with c1 := .sound } := by
    unfold Fuses.copySound
    extract_lets g
    split <;> rfl
  rw [otp]
  exact Tab.get_upd _ _ _ _ _

/-- A pulse at both copies that verify programs a bit and no other. -/
theorem burnBit_both (f : Fuses) (a b : Nat) :
    Tab.get {} (f.burnBit a 3).otp b = if b = a then ⟨.sound, .sound⟩ else Tab.get {} f.otp b := by
  have both : f.burnBit a 3 = (f.copySound a 0).copySound a 1 := rfl
  rw [both, copySound_bit, copySound_bit, copySound_bit]
  by_cases own : b = a
  · simp [own]
  · simp [own]

/-- The bits of a burn that verifies at its first pulse are programmed in both copies. -/
theorem burnBits_sound {l : List Nat} {f : Fuses} {a : Nat} (done : a ∈ l ∨ Tab.get {} f.otp a = ⟨.sound, .sound⟩) :
    Tab.get {} (l.foldl (fun (f : Fuses) a => f.burnBit a 3) f).otp a = ⟨.sound, .sound⟩ := by
  induction l generalizing f with
  | nil => exact done.resolve_left fun no => nomatch no
  | cons b l ih =>
    refine ih ?_
    rw [burnBit_both]
    by_cases own : a = b
    · exact .inr (if_pos own)
    · rw [if_neg own]
      exact done.imp_left fun mem => (List.mem_cons.mp mem).resolve_left own

/-- A step burn leaves the fuses and the mailboxes alone once the array has changed (R346). -/
theorem lcMoved_keeps (s : State) (old : Nat) : (s.lcMoved old).fuses = s.fuses ∧ (s.lcMoved old).mspi = s.mspi := by
  unfold State.lcMoved
  extract_lets new u
  have cleared : (u.fuses, u.mspi) = (s.fuses, s.mspi) := by
    refine each_same (fun v => (v.fuses, v.mspi)) (fun v n => ?_) s
    dsimp only
    split
    · rw [State.ksU_fuses, State.ksU_mspi]
    · rfl
  obtain ⟨fuses, mspi⟩ := Prod.mk.inj cleared
  clear_value u
  split
  · exact ⟨rfl, rfl⟩
  split
  · exact ⟨fuses, mspi⟩
  · exact ⟨fuses, mspi⟩

/-- A BLANK device that takes the step to FACTORY has UDS, order code and LC step 0 in both copies (R346, R352, R353). -/
theorem factory_spec (s : State) (af : Bool) :
    (s.factory af).mspi = s.mspi ∧ (s.factory af).home = s.home
      ∧ ∀ a ∈ factoryBits (leBytes (s.drawn 0) 48) af, (s.factory af).otpBit a = ⟨.sound, .sound⟩ := by
  have home : (s.factory af).home = s.home := (Keeps.refl.factory : Keeps .spared s _).home
  let f := (factoryBits (leBytes (s.drawn 0) 48) af).foldl (fun (f : Fuses) a => f.burnBit a 3) s.fuses
  have burned : ∀ a ∈ factoryBits (leBytes (s.drawn 0) 48) af, Tab.get {} f.otp a = ⟨.sound, .sound⟩ := fun a mem => burnBits_sound (.inl mem)
  have form : s.factory af = (({ s with fuses := f } : State).used 1).lcMoved s.lcCurrent := rfl
  clear_value f
  obtain ⟨fuses, mspi⟩ := lcMoved_keeps (({ s with fuses := f } : State).used 1) s.lcCurrent
  rw [← form] at fuses mspi
  refine ⟨mspi, home, fun a mem => ?_⟩
  unfold State.otpBit
  rw [fuses]
  exact burned a mem

theorem production_served {s : State} {mb : MailboxId} {code : Nat} {tag : Byte} {ws : List W32} (serves : s.Serves mb.val code tag ws)
    (vendor : 0xF0 ≤ code) (lc : s.lcLatched ≤ 1) {h : Nat} (first : s.request mb.val (fun c => decide (c = code)) = some (h, ws)) :
    Completes (.cmdVendorProductionService mb) s fun t => match Config.production code (requestBytes h ws) with
      | some r => Answered s t mb.val tag 0 ((wordsOf r.answer).take 255) ∧ t.home = s.home
        ∧ (r.factory = none → Told s t mb.val tag 0 ((wordsOf r.answer).take 255))
        ∧ ∀ af, r.factory = some af → s.lcLatched = 0 → s.lcCurrent = 0 →
          ∀ a ∈ factoryBits (leBytes (s.drawn 0) 48) af, (t.otpBit a).c0 = .sound ∧ (t.otpBit a).c1 = .sound
      | none => Told s t mb.val tag 0x1007 [] := by
  obtain ⟨h', request, own, rsvd, parity⟩ := serves
  obtain ⟨rfl, -⟩ := Prod.mk.inj (Option.some.inj (request.symm.trans first))
  obtain ⟨request', code'⟩ := request_other (p := fun c => decide (0xF0 ≤ c)) request (decide_eq_true vendor)
  have taken : Taken s (s.takeRequest mb.val h' ws.length) mb.val tag := own ▸ takeRequest_taken s mb.val h' ws.length
  refine .ofEndsIn (o := execCmdVendorProductionService mb s) rfl ?_
  unfold execCmdVendorProductionService
  simp only [request', parity, Bool.false_eq_true, if_false, if_neg (Nat.not_lt.mpr lc), if_neg (not_not.mpr rsvd), code']
  generalize s.takeRequest mb.val h' ws.length = t at taken
  cases answer : Config.production code (requestBytes h' ws) with
  | none => exact taken.told ..
  | some r =>
    dsimp only
    cases step : r.factory with
    | none =>
      have told := taken.told 0 ((wordsOf r.answer).take 255)
      obtain ⟨-, mail⟩ := taken.answered rfl 0 ((wordsOf r.answer).take 255)
      exact ⟨told.1, mail.home.trans taken.home, fun _ => told, fun af some' => nomatch some'⟩
    | some af =>
      obtain ⟨mspi, home, sound⟩ := factory_spec t af
      have same : t.lcLatched = s.lcLatched ∧ t.lcCurrent = s.lcCurrent ∧ t.drawn = s.drawn := by
        obtain ⟨_, _, _, _, rfl⟩ := taken.only
        exact ⟨rfl, rfl, rfl⟩
      obtain ⟨latched, current, drawn⟩ := same
      dsimp only
      rw [latched, current]
      rw [drawn] at sound
      by_cases blank : s.lcLatched = 0 ∧ s.lcCurrent = 0
      · rw [if_pos blank]
        have box : (t.factory af).mb mb.val = t.mb mb.val := by
          unfold State.mb
          rw [mspi]
        obtain ⟨answered, mail⟩ := taken.answered box 0 ((wordsOf r.answer).take 255)
        refine ⟨answered, mail.home.trans (home.trans taken.home), fun none' => (nomatch none'), fun af' some' _ _ a mem => ?_⟩
        obtain rfl := Option.some.inj some'
        have bit := sound a mem
        unfold State.otpBit at bit ⊢
        rw [mail.fuses, bit]
        exact ⟨rfl, rfl⟩
      · rw [if_neg blank]
        obtain ⟨answered, mail⟩ := taken.answered rfl 0 ((wordsOf r.answer).take 255)
        exact ⟨answered, mail.home.trans taken.home, fun none' => (nomatch none'), fun _ _ zero zero' => absurd ⟨zero, zero'⟩ blank⟩

/-- Settles O54: each service is executed with its request taken, and what it does to the slots, the fuses and the start-up is
what its guard lets through. -/
theorem seedServices : Obligations.SeedServices := by
  unfold Obligations.SeedServices
  intro s mb tag w v ws code q n x bs open_
  refine ⟨fun sealed lc low => ⟨repairList_told sealed lc low, repairReburn_burns sealed lc low⟩,
    fun fits serves low conf => ⟨loadErase_erases fits serves low conf, loadErase_refused fits serves low conf⟩, loadWrite_writes,
    fun serves low => ⟨fun leave passes => ⟨fun fwless => ?_, fun headless => ?_⟩, fun fits bad => loadCommit_refused fits serves low bad⟩,
    fun serves vendor lc h first => production_served serves vendor lc first, unknownCode_told⟩
  · refine loadCommit_takes (.inl fwless) serves low leave passes fun u view home => ?_
    have boot : u.boot = s.boot := congrArg Prod.fst view
    obtain ⟨step, bundle⟩ := loadGood_good (s := u) (x := x) (by rw [boot, fwless])
    rw [bundleHeader_of_slotView view] at bundle
    exact ⟨step, bundle, home⟩
  · refine loadCommit_takes (.inr headless) serves low leave passes fun u view home => ?_
    have boot : u.boot = s.boot := congrArg Prod.fst view
    obtain ⟨dev, step⟩ := loadGood_rides (s := u) (x := x) (by rw [boot, headless])
    exact ⟨dev, step, home⟩

end Sys2Proof.Machine
end

section
-- Some hundred short proofs that wait for each other: in parallel they take more threads than the memory limit has room for.
set_option Elab.async false

namespace Sys2Proof.Machine

open Sys2Proof

/-! ### O60: the parts of the state that few functions change -/

/-- A part of the state that few functions of the model change. -/
inductive Part | queue | verd | edge | sent | cyc | home

/-- Part `P` of the state is in `t` what it is in `s`. -/
def Still : Part → State → State → Prop
  | .queue, s, t => t.pending = s.pending
  | .verd, s, t => t.verd = s.verd
  | .edge, s, t => t.edge = s.edge
  | .sent, s, t => t.linkOut = s.linkOut
  | .cyc, s, t => t.cyc = s.cyc
  | .home, s, t => t.home = s.home

/-- The part in question is another one than `Q`. -/
class Part.Isnt (P Q : Part) : Prop where
  ne : P ≠ Q

section
variable {P : Part} {s0 s t : State} {f : Fr}

theorem Still.refl : Still P s s := by cases P <;> exact rfl

theorem Still.trans (h : Still P s0 s) (k : Still P s t) : Still P s0 t := by
  cases P <;> exact Eq.trans k h

/-- A change of none of the parts. -/
theorem Still.same (h : Still P s0 s)
    (e : (t.pending, t.verd, t.edge, t.linkOut, t.cyc, t.home)
      = (s.pending, s.verd, s.edge, s.linkOut, s.cyc, s.home) := by rfl) : Still P s0 t := by
  simp only [Prod.mk.injEq] at e
  obtain ⟨queue, verd, edge, sent, cyc, home⟩ := e
  exact h.trans (by cases P <;> assumption)

/-- A change of one part that is not `P`. -/
theorem Still.unless (Q : Part) [hq : P.Isnt Q] (h : Still P s0 s)
    (e : ∀ R, R = Q ∨ Still R s t := by rintro ⟨⟩ <;> simp [Still]) : Still P s0 t :=
  h.trans ((e P).resolve_left hq.ne)

theorem Still.ite {c : Prop} [Decidable c] (hs : Still P s0 s) (ht : Still P s0 t) : Still P s0 (if c then s else t) := by
  split
  · exact hs
  · exact ht

theorem Still.foldl {α : Type} {l : List α} {f : State → α → State} (h : Still P s0 s)
    (hf : ∀ u x, Still P s0 u → Still P s0 (f u x)) : Still P s0 (l.foldl f s) := by
  induction l generalizing s with
  | nil => exact h
  | cons x l ih => exact ih (hf s x h)

theorem Still.each {α : Type} {l : List α} {f : State → α → State} (h : Still P s0 s)
    (hf : ∀ u x, Still P s0 u → Still P s0 (f u x)) : Still P s0 (s.each l f) :=
  h.foldl hf

/-- A command ends in a state with the part as it was. -/
def EndsStill (P : Part) (s0 : State) : Done → Prop
  | .next t => Still P s0 t
  | _ => True

theorem EndsStill.ite {c : Prop} [Decidable c] {a b : Done} (ha : EndsStill P s0 a) (hb : EndsStill P s0 b) :
    EndsStill P s0 (if c then a else b) := by
  split
  · exact ha
  · exact hb

theorem Still.after {o : Done} (h : Still P s0 s) (ho : EndsStill P s0 o) : Still P s0 (after o s) := by
  unfold Machine.after
  split
  · exact ho
  · exact h

theorem Still.getD {o : Option State} (ho : ∀ u, o = some u → Still P s0 u) (h : Still P s0 s) : Still P s0 (o.getD s) := by
  cases o with
  | none => exact h
  | some u => exact ho u rfl

/-- A word goes on, or waits, in a state with the part as it was. -/
def GoesStill (P : Part) (s0 : State) : Res → Prop
  | .wait t => Still P s0 t
  | .go t _ => Still P s0 t
  | _ => True

theorem GoesStill.ite {c : Prop} [Decidable c] {a b : Res} (ha : GoesStill P s0 a) (hb : GoesStill P s0 b) :
    GoesStill P s0 (if c then a else b) := by
  split
  · exact ha
  · exact hb

theorem GoesStill.transfer {k : Core} {c : CoreId} {f : Res} (h : GoesStill P s0 f) : GoesStill P s0 (k.transfer c f) := by
  unfold Core.transfer
  split
  · trivial
  · exact h

theorem Still.bind {o : Option State} {g : State → Option State} (ho : ∀ u, o = some u → Still P s0 u)
    (hg : ∀ u v, Still P s0 u → g u = some v → Still P s0 v) (e : o.bind g = some t) : Still P s0 t := by
  obtain ⟨u, first, second⟩ := Option.bind_eq_some_iff.mp e
  exact hg u t (ho u first) second

/-- A frame under way has the part as it was. -/
abbrev DuringStill (P : Part) (s0 : State) (f : Fr) : Prop := Still P s0 f.s

theorem DuringStill.kept {f : Fr} (h : DuringStill P s0 f) : Still P s0 f.s := h

theorem DuringStill.ite {c : Prop} [Decidable c] {f g : Fr} (hf : DuringStill P s0 f) (hg : DuringStill P s0 g) :
    DuringStill P s0 (if c then f else g) := by
  split
  · exact hf
  · exact hg

theorem DuringStill.foldl {α : Type} {l : List α} {g : Fr → α → Fr} {f : Fr} (h : DuringStill P s0 f)
    (hg : ∀ u x, DuringStill P s0 u → DuringStill P s0 (g u x)) : DuringStill P s0 (l.foldl g f) := by
  induction l generalizing f with
  | nil => exact h
  | cons x l ih => exact ih (hg f x h)

theorem Still.phU {i : Nat} {f : PHold → PHold} (h : Still P s0 s) : Still P s0 (s.phU i f) := h.same
theorem Still.coU {i : Nat} {f : Core → Core} (h : Still P s0 s) : Still P s0 (s.coU i f) := h.same
theorem Still.poU {i : Nat} {f : Pool → Pool} (h : Still P s0 s) : Still P s0 (s.poU i f) := h.same

/-! ### What each function of the model leaves alone

One lemma per function that changes the state, in the order of the model; `[P.Isnt .edge]` and the like name the parts that it
changes. A word of a command ends (`EndsStill`), a word of firmware goes on (`GoesStill`), a frame under way is `DuringStill`. -/

section
variable {a align cause clocked code data e fn from_ g i k key kind l lane len n p q r rank reason status step target tkind
  unit use x : Nat} {body bs payload : List Byte} {m : MspiIn} {u : LvUse} {ws : List W32} {w : W32} {c : CoreId} {t' : KTask}
  {st : FlowSt} {j : ChainJob} {src : Agent} {ok : Bool} {d : Dec} {lanes : List (BitVec 4)} {addr : W24} {mb : MailboxId}

/-! #### Operations on the state -/

theorem Still.stU {f : Stand → Stand} (h : Still P s0 s) : Still P s0 (s.stU i f) := h.same

theorem Still.peU {f : PEdge → PEdge} [P.Isnt .edge] (h : Still P s0 s) : Still P s0 (s.peU i f) := h.unless .edge

theorem Still.pwU {f : PWin → PWin} (h : Still P s0 s) : Still P s0 (s.pwU i f) := h.same

theorem Still.pdU {f : PDec → PDec} (h : Still P s0 s) : Still P s0 (s.pdU i f) := h.same

theorem Still.shU {f : Sheaf → Sheaf} (h : Still P s0 s) : Still P s0 (s.shU i f) := h.same

theorem Still.pkU {f : PWake → PWake} (h : Still P s0 s) : Still P s0 (s.pkU i f) := h.same

theorem Still.pvU {f : PVerd → PVerd} [P.Isnt .verd] (h : Still P s0 s) : Still P s0 (s.pvU i f) := h.unless .verd

theorem Still.pgU {f : PGran → PGran} (h : Still P s0 s) : Still P s0 (s.pgU i f) := h.same

theorem Still.enU {f : Engine → Engine} (h : Still P s0 s) : Still P s0 (s.enU i f) := h.same

theorem Still.chU {f : Chan → Chan} (h : Still P s0 s) : Still P s0 (s.chU i f) := h.same

theorem Still.lnU {f : LaneLink → LaneLink} (h : Still P s0 s) : Still P s0 (s.lnU i f) := h.same

theorem Still.mbU {f : Mbox → Mbox} (h : Still P s0 s) : Still P s0 (s.mbU i f) := h.same

theorem Still.ksU {f : KeySlot → KeySlot} (h : Still P s0 s) : Still P s0 (s.ksU n f) := h.same

theorem Still.storeKey {key m : BitVec 512} (h : Still P s0 s) : Still P s0 (s.storeKey n key m) := h.ksU

theorem Still.memPut {m : Nat} (h : Still P s0 s) : Still P s0 (s.memPut m a bs) := h.same

theorem Still.memZero {m : Nat} (h : Still P s0 s) : Still P s0 (s.memZero m) := h.same

theorem Still.mend {p : Flaw → Bool} (h : Still P s0 s) : Still P s0 (s.mend p) := h.same

theorem Still.homeSends {l : List MasterFrame} [P.Isnt .edge] (h : Still P s0 s) : Still P s0 (s.homeSends l) := h.peU

theorem Still.homeDoes {l : List FlashOp} {content : Tab Byte} [P.Isnt .edge] [P.Isnt .home] (h : Still P s0 s) :
    Still P s0 (s.homeDoes l content) :=
  .ite ((h.homeSends (l := s.homeFrames l)).unless .home) h

theorem Still.homePut [P.Isnt .edge] [P.Isnt .home] (h : Still P s0 s) : Still P s0 (s.homePut a bs) := h.homeDoes

theorem Still.homeErase [P.Isnt .edge] [P.Isnt .home] (h : Still P s0 s) : Still P s0 (s.homeErase a len) := h.homeDoes

theorem Still.used (h : Still P s0 s) : Still P s0 (s.used n) := h.same

theorem Still.poolGrant {h' : Nat} (h : Still P s0 s) : Still P s0 (s.poolGrant q h' n) := .ite h.poU h

theorem Still.poolClaim {h' : Nat} (h : Still P s0 s) : Still P s0 (s.poolClaim q h' n) := .ite h.poolGrant h.poU

theorem Still.poolBack {h' : Nat} (h : Still P s0 s) : Still P s0 (s.poolBack q h' n) := h.same

theorem Still.reconcileOf {rets : List PoolRet} (h : Still P s0 s) : Still P s0 (s.reconcileOf q rets) := h.same

theorem Still.reconcile {holders : List Nat} (h : Still P s0 s) : Still P s0 (s.reconcile q cause holders) := h.reconcileOf

theorem Still.lvAsk (h : Still P s0 s) : Still P s0 (s.lvAsk u n) := h.same

theorem Still.lvDrop (h : Still P s0 s) : Still P s0 (s.lvDrop u) := h.same

theorem Still.lvBack (h : Still P s0 s) : Still P s0 (s.lvBack u n) := h.poolBack

theorem Still.lvGrant (h : Still P s0 s) : Still P s0 (s.lvGrant u n) := by
  unfold State.lvGrant
  extract_lets s2
  have h2 : Still P s0 s2 := h.poolGrant
  split
  · exact h2.coU
  · exact h2

theorem Still.lvTake (h : Still P s0 s) (e : s.lvTake u n = some t) : Still P s0 t := by
  unfold State.lvTake at e
  split at e
  · cases e
    exact h.lvGrant
  · cases e

theorem Still.boxReady (h : Still P s0 s) : Still P s0 (s.boxReady q) := .ite h.poolGrant.poolGrant.mbU h

theorem Still.boxDrop (h : Still P s0 s) : Still P s0 (s.boxDrop q) := h.same

theorem Still.boxEmpty (h : Still P s0 s) : Still P s0 (s.boxEmpty q) := (h.each (fun _ _ h1 => h1.poolBack.poolBack)).boxDrop

theorem Still.poolMove {to_ : Nat} (h : Still P s0 s) : Still P s0 (s.poolMove q from_ to_ n) := h.poU

theorem Still.boxFlush (h : Still P s0 s) : Still P s0 (s.boxFlush q) := h.foldl fun _ _ h1 => .ite h1.poolMove.mbU h1

theorem Still.respond {tag : Byte} (h : Still P s0 s) : Still P s0 (s.respond q tag status ws) := h.mbU.boxFlush

theorem Still.setLine {v : Bool} (h : Still P s0 s) : Still P s0 (s.setLine n v) := h.each fun _ _ h1 => h1.coU

theorem Still.pushEvent {w : W36} (h : Still P s0 s) : Still P s0 (s.pushEvent p w) := .ite h.pdU (.ite h.same h.pdU)

theorem Still.logRec (h : Still P s0 s) : Still P s0 (s.logRec kind body) := h.same

theorem Still.backupLog {count : Nat} (h : Still P s0 s) : Still P s0 (s.backupLog code rank count data) := h.same

theorem Still.watchEntry (h : Still P s0 s) : Still P s0 s.watchEntry := .ite h.same h.backupLog

theorem Still.runtimeOff (h : Still P s0 s) : Still P s0 s.runtimeOff := .ite h h.poolBack.lvDrop.lvBack

theorem Still.flipsEnd (h : Still P s0 s) : Still P s0 s.flipsEnd := .ite h.same.setLine h

theorem Still.takeFlip (h : Still P s0 s) : Still P s0 (s.takeFlip p) := h.pwU.flipsEnd.pushEvent

theorem Still.holdPort (h : Still P s0 s) : Still P s0 (s.holdPort p) := by
  unfold State.holdPort
  extract_lets was s1 s2 s3 s4
  have h2 : Still P s0 s2 := h.phU.pwU
  have h3 : Still P s0 s3 := .ite h2.takeFlip h2
  have h4 : Still P s0 s4 := .ite h3.pushEvent h3
  exact .ite h4.runtimeOff h4

theorem Still.setGroup (h : Still P s0 s) : Still P s0 (s.setGroup g w) := h.same

theorem Still.setPage (h : Still P s0 s) : Still P s0 (s.setPage n w) := h.same

theorem Still.groupRetired (h : Still P s0 s) : Still P s0 (s.groupRetired g) := h.each fun _ _ h1 => h1.setPage

theorem Still.dropGroup (h : Still P s0 s) : Still P s0 (s.dropGroup g) := by
  unfold State.dropGroup
  extract_lets _ _ s2
  have h2 : Still P s0 s2 := h.same
  exact .ite h2.groupRetired.poolClaim h2.setGroup

theorem Still.returnGroup (h : Still P s0 s) : Still P s0 (s.returnGroup use g) := h.poolBack.dropGroup

theorem Still.returnGroups {port : Nat} {slot : Option Bool} (h : Still P s0 s) : Still P s0 (s.returnGroups use port slot) :=
  h.each fun _ _ h1 => h1.returnGroup

theorem Still.reconcileGroups {port : Nat} {uses : List Nat} (h : Still P s0 s) :
    Still P s0 (s.reconcileGroups cause port uses) :=
  h.each (fun _ _ h1 => .ite h1 (h1.reconcileOf.each (fun _ _ h2 => h2.dropGroup)))

theorem Still.takeGroup (h : Still P s0 s) (e : s.takeGroup use w = some (g, t)) : Still P s0 t := by
  unfold State.takeGroup at e
  split at e
  · split at e
    · cases e
      exact h.poolGrant.setGroup
    · cases e
  · cases e

theorem Still.granPut (h : Still P s0 s) : Still P s0 (s.granPut a bs) := h.same

theorem Still.abortEngine (h : Still P s0 s) : Still P s0 (s.abortEngine e) := Still.ite ((Still.ite h.lvDrop.lvDrop h).enU) h

theorem Still.dataUsed (h : Still P s0 s) : Still P s0 (s.dataUsed data) := .ite h.used h

theorem Still.decided (h : Still P s0 s) : Still P s0 (s.decided code rank tkind target data) := by
  unfold State.decided
  extract_lets word s1 a mark al held s2 s3 s4
  have h1 : Still P s0 s1 := h.dataUsed
  have h2 : Still P s0 s2 := h1.same
  have h3 : Still P s0 s3 := h2.each fun _ _ hu => (hu.holdPort).phU
  have h4 : Still P s0 s4 := h3.same
  exact h4.setLine

theorem Still.fuseAlarm (h : Still P s0 s) : Still P s0 (s.fuseAlarm rank a) := h.decided

theorem Still.weakAdd (h : Still P s0 s) : Still P s0 (s.weakAdd w) := by
  unfold State.weakAdd
  extract_lets
  split
  · exact h.same
  · split
    · exact h.same
    · exact .ite h.same h.same.fuseAlarm

theorem Still.senseBit (h : Still P s0 s) : Still P s0 (s.senseBit a) := by
  unfold State.senseBit
  extract_lets _ s2
  have h2 : Still P s0 s2 := .ite h.weakAdd (.ite h.weakAdd h)
  exact .ite (.ite h2.fuseAlarm h2) (.ite h2.fuseAlarm h2)

theorem Still.burnFound (h : Still P s0 s) : Still P s0 (s.burnFound a) := by
  unfold State.burnFound
  extract_lets _ s2
  have h2 : Still P s0 s2 := h.weakAdd
  exact .ite h2.fuseAlarm h2

theorem Still.loadRanks {cfg : List Byte} (h : Still P s0 s) : Still P s0 (s.loadRanks cfg) := by
  unfold State.loadRanks
  extract_lets _ s3
  have h3 : Still P s0 s3 := h.each fun _ _ h4 => .ite (.ite h4.same h4) h4.same
  clear_value s3
  exact h3.same

theorem Still.lcMoved {old : Nat} (h : Still P s0 s) : Still P s0 (s.lcMoved old) :=
  .ite h (have h2 := h.each (fun _ _ h1 => .ite h1.ksU h1); .ite h2.same h2)

theorem Still.burnStop (h : Still P s0 s) : Still P s0 s.burnStop := by
  unfold State.burnStop
  extract_lets _ x2 _ _ _ _ _ _ _ s3 s4
  have h3 : Still P s0 s3 := h.same.used
  have h4 : Still P s0 s4 := .ite h3 h3.burnFound
  clear_value x2
  split
  · exact h
  · exact h4.lcMoved

theorem Still.fuseEnds (h : Still P s0 s) : Still P s0 (s.fuseEnds code) := by
  unfold State.fuseEnds
  extract_lets _ s3 s4
  have h3 : Still P s0 s3 := h.same
  have h4 : Still P s0 s4 := h3.setLine
  split
  · exact h4.respond
  · exact h4

theorem Still.burnEnds (h : Still P s0 s) : Still P s0 (s.burnEnds code) := h.lvBack.logRec.fuseEnds

theorem Still.disarm (h : Still P s0 s) : Still P s0 s.disarm := h.same

theorem Still.fuseStop (h : Still P s0 s) : Still P s0 (s.fuseStop code) :=
  Still.ite ((Still.ite h.lvDrop h.burnStop).burnEnds) (Still.ite h.disarm h)

theorem Still.chanError {k : ChannelKind} (h : Still P s0 s) : Still P s0 (s.chanError k i cause) := h.chU

theorem Still.runtimeDraw (h : Still P s0 s) : Still P s0 s.runtimeDraw := by
  unfold State.runtimeDraw
  extract_lets _ s3
  have h3 : Still P s0 s3 := .ite h.poolGrant h
  split
  · exact h
  · split
    · exact h3
    · split
      · next h4 =>
          exact (h3.lvTake h4)
      · exact h3.lvAsk

theorem Still.wakeRelease (h : Still P s0 s) : Still P s0 s.wakeRelease := by
  unfold State.wakeRelease
  extract_lets s4 s5 s6
  have h4 : Still P s0 s4 := h.lvDrop
  have h5 : Still P s0 s5 := h4.poolBack
  have h6 : Still P s0 s6 := h5.lvBack
  clear_value s6
  exact h6.same.runtimeDraw

theorem Still.voidTags (h : Still P s0 s) : Still P s0 s.voidTags := h.each fun _ _ h1 => .ite h1 h1.returnGroups.pgU

theorem Still.voidServed (h : Still P s0 s) : Still P s0 s.voidServed := h.each fun _ _ h1 => h1.returnGroups.returnGroups.pgU

theorem Still.zeroize {redraw : Bool} (h : Still P s0 s) : Still P s0 (s.zeroize redraw) :=
  (h.same.voidTags.voidServed.each (fun _ _ h3 => h3.abortEngine)).fuseStop

theorem Still.coresOff {l : List (Nat × Nat)} (h : Still P s0 s) : Still P s0 (s.coresOff l) :=
  h.each fun _ _ h1 => h1.coU.memZero

theorem Still.startCore {c : Nat} {vector : W24} (h : Still P s0 s) : Still P s0 (s.startCore c vector) := h.coU

theorem Still.restartThread {c : Nat} {vector : W24} (h : Still P s0 s) : Still P s0 (s.restartThread c vector) := h.coU

theorem Still.passEnds (h : Still P s0 s) : Still P s0 s.passEnds := .ite h.poolBack.lvBack h

theorem Still.enterSealed (h : Still P s0 s) : Still P s0 s.enterSealed := by
  unfold State.enterSealed
  extract_lets s9 s10 _ s12 s13 s14 _ _ _ _ _ s16
  have h9 : Still P s0 s9 := h.passEnds.wakeRelease
  have h10 : Still P s0 s10 := h9.each fun _ _ h11 => h11.holdPort.phU
  have h12 : Still P s0 s12 := h10.coresOff
  have h13 : Still P s0 s13 := .ite h12.startCore h12
  have h14 : Still P s0 s14 := h13.each fun _ _ h15 => h15.boxEmpty
  clear_value s14
  have h16 : Still P s0 s16 := h14.same
  exact .ite h16.boxReady h16

theorem Still.raise (h : Still P s0 s) : Still P s0 (s.raise code rank tkind target data) := by
  unfold State.raise
  extract_lets word s1 s2 s3 _ s4
  have h1 : Still P s0 s1 := h.dataUsed
  have h2 : Still P s0 s2 := .ite h1.backupLog.zeroize h1
  have h3 : Still P s0 s3 := h2.decided
  have h4 : Still P s0 s4 := .ite h3.same h3
  exact .ite h4.enterSealed h4

theorem Still.raiseReg (h : Still P s0 s) : Still P s0 (s.raiseReg code tkind target data) := h.raise

theorem Still.logFilter {run : State → State} (h : Still P s0 s) (hrun : ∀ x0, Still P s0 x0 → Still P s0 (run x0)) :
    Still P s0 (s.logFilter a n run) :=
  .ite h.raiseReg (hrun _ h)

theorem Still.corePut [P.Isnt .edge] [P.Isnt .home] (h : Still P s0 s) : Still P s0 (s.corePut a bs) :=
  h.logFilter (fun _ h1 => h1.homePut)

theorem Still.coreErase [P.Isnt .edge] [P.Isnt .home] (h : Still P s0 s) : Still P s0 (s.coreErase a len) :=
  h.logFilter (fun _ h1 => h1.homeErase)

theorem Still.parityAlarm (h : Still P s0 s) : Still P s0 s.parityAlarm := h.raise

theorem Still.lastGoodCheck (h : Still P s0 s) : Still P s0 (s.lastGoodCheck p) := .ite h.same.parityAlarm h

theorem Still.gnoby (h : Still P s0 s) : Still P s0 (s.gnoby tkind target) := h.raiseReg

theorem Still.maxNote {w old new : Nat} (h : Still P s0 s) : Still P s0 (s.maxNote w old new tkind target) := .ite h.raise h

theorem Still.bump {c : Ctr} (h : Still P s0 s) : Still P s0 (s.bump p c n) := by
  unfold State.bump
  extract_lets _ _ s2
  have h2 : Still P s0 s2 := h.same
  exact .ite h2 h2.maxNote

theorem Still.censusFault (h : Still P s0 s) : Still P s0 (s.censusFault q) := h.raiseReg.same

theorem Still.censusAlarm (h : Still P s0 s) : Still P s0 (s.censusAlarm q) := .ite h.censusFault h

theorem Still.poolReturn {h' : Nat} (h : Still P s0 s) : Still P s0 (s.poolReturn q h' n) := h.poolBack.censusAlarm

theorem Still.censusCheck (h : Still P s0 s) : Still P s0 s.censusCheck :=
  h.each (fun _ _ h1 => .ite h1.censusFault (.ite ((h1.raiseReg.mend).censusFault) (.ite
    h1.censusFault h1)))

theorem Still.roleAlarm (h : Still P s0 s) : Still P s0 s.roleAlarm := h.raise

theorem Still.standRefuses (h : Still P s0 s) : Still P s0 (s.standRefuses k) := h.stU

theorem Still.standFault (h : Still P s0 s) : Still P s0 (s.standFault k) := by
  unfold State.standFault
  extract_lets s2
  have h2 : Still P s0 s2 := h.stU
  exact .ite h2.chU.logRec h2

/-! #### Keys -/

theorem Still.placeKey {key : BitVec 512} {attr : W32} (h : Still P s0 s) : Still P s0 (s.placeKey n key attr) := by
  unfold State.placeKey
  extract_lets s2
  have h2 : Still P s0 s2 := h.used
  exact .ite h2 h2.storeKey.ksU

theorem Still.place' {bits : Nat} {attr : W32} (h : Still P s0 s) : Still P s0 (s.place' n key bits attr) := h.placeKey

theorem Still.drawSak (h : Still P s0 s) : Still P s0 (s.drawSak n) := h.used.place'

theorem Still.remask (h : Still P s0 s) : Still P s0 (s.remask n) := h.ksU.storeKey.used

theorem Still.slotBad (h : Still P s0 s) : Still P s0 (s.slotBad n) := h.ksU

theorem Still.keyCheck (h : Still P s0 s) : Still P s0 (s.keyCheck n) := .ite h h.slotBad.raiseReg

theorem Still.deriveDeviceId {cold : Bool} (h : Still P s0 s) : Still P s0 (s.deriveDeviceId cold) := by
  unfold State.deriveDeviceId
  extract_lets _ s3 _ s4
  have h3 : Still P s0 s3 := h.placeKey
  have h4 : Still P s0 s4 := h3.remask
  clear_value s4
  exact .ite h (.ite h4.same h3)

theorem Still.deriveAlias {digest : List Byte} (h : Still P s0 s) : Still P s0 (s.deriveAlias digest) := by
  unfold State.deriveAlias
  extract_lets _ _ _ s4 s5 _ _ _ s6
  have h4 : Still P s0 s4 := h.placeKey
  have h5 : Still P s0 s5 := h4.keyCheck.keyCheck
  have h6 : Still P s0 s6 := h5.used.remask.remask
  clear_value s6
  exact .ite h (.ite h6.same h5)

theorem Still.dropAlias (h : Still P s0 s) : Still P s0 s.dropAlias := by
  unfold State.dropAlias
  extract_lets s2
  have h2 : Still P s0 s2 := h.ksU
  clear_value s2
  exact h2.same

theorem Still.drawSlotKeys (h : Still P s0 s) : Still P s0 s.drawSlotKeys := h.same.used.placeKey.placeKey

/-! #### Sending on the trust link -/

theorem Still.laneCount (h : Still P s0 s) : Still P s0 (s.laneCount l i n) := h.lnU.maxNote

theorem Still.emit {f : TxFrame} [P.Isnt .sent] (h : Still P s0 s) : Still P s0 (s.emit f) := (h.same.unless .sent).laneCount

theorem Still.tx {type flags xfer index : Nat} [P.Isnt .sent] (h : Still P s0 s) :
    Still P s0 (s.tx lane type flags xfer index payload) :=
  .ite h (.ite h.emit h.lnU)

theorem Still.txDrain [P.Isnt .sent] (h : Still P s0 s) : Still P s0 (s.txDrain lane) :=
  h.each fun _ _ h1 => .ite h1.lnU.emit h1

theorem Still.spdmSend {m : List Byte} [P.Isnt .sent] (h : Still P s0 s) : Still P s0 (s.spdmSend l x m) :=
  h.each fun _ _ h1 => h1.tx

theorem Still.spdmFlush [P.Isnt .sent] (h : Still P s0 s) : Still P s0 s.spdmFlush := h.same.each fun _ _ h2 => h2.spdmSend

theorem Still.grantRx [P.Isnt .sent] (h : Still P s0 s) : Still P s0 (s.grantRx l) :=
  .ite h (have h1 := .ite h h.poolGrant.lnU; .ite h1.tx h1)

theorem Still.pull {op first count : Nat} {ref : List Byte} [P.Isnt .sent] (h : Still P s0 s) :
    Still P s0 (s.pull x lane op kind first count ref) :=
  h.tx

theorem Still.xfU {f : Xfer → Xfer} (h : Still P s0 s) : Still P s0 (s.xfU x f) := h.same

theorem Still.flU {f : Flow → Flow} (h : Still P s0 s) : Still P s0 (s.flU p f) := h.same

theorem Still.stageBlock (h : Still P s0 s) (e : s.stageBlock p a = some t) : Still P s0 t := by
  unfold State.stageBlock at e
  split at e
  · cases e
    exact h
  · split at e
    · next g u taken =>
      cases e
      have hu : Still P s0 u := h.takeGroup taken
      exact Still.granPut hu.same
    · cases e

/-- Steps that may fail keep the level where each does. -/
theorem Still.foldlBind {α : Type} {l : List α} {f : State → α → Option State} (h : Still P s0 s)
    (hf : ∀ u v x, Still P s0 u → f u x = some v → Still P s0 v)
    (e : l.foldl (fun o x => o.bind fun s => f s x) (some s) = some t) :
    Still P s0 t := by
  induction l generalizing s with
  | nil =>
    cases e
    exact h
  | cons x l ih =>
    rw [List.foldl_cons, Option.bind_some] at e
    cases first : f s x with
    | none =>
      have stuck : ∀ l : List α, l.foldl (fun o x => o.bind fun s => f s x) none = none := by
        intro l
        induction l with
        | nil => rfl
        | cons y l ih => exact ih
      rw [first, stuck] at e
      cases e
    | some v =>
      rw [first] at e
      exact ih (hf s v x h first) e

theorem Still.stageRange (h : Still P s0 s) (e : s.stageRange p a n = some t) : Still P s0 t :=
  h.foldlBind (fun _ _ _ hu eu => hu.stageBlock eu) e

theorem Still.stagePut (h : Still P s0 s) : Still P s0 (s.stagePut p a bs) := h.each fun _ _ h1 => .ite h1 h1.granPut

theorem Still.pullMore [P.Isnt .sent] (h : Still P s0 s) : Still P s0 (s.pullMore x) := by
  unfold State.pullMore
  extract_lets _ x2
  clear_value x2
  split
  · exact h
  · extract_lets
    split
    · exact h
    · split
      · exact h
      · next h3 =>
          extract_lets s4
          have h4 : Still P s0 s4 := (h.stageRange h3).pull
          exact h4.xfU

theorem Still.xferStart {t' : Xfer} [P.Isnt .sent] (h : Still P s0 s) : Still P s0 (s.xferStart p t') := h.same.flU.pull.pullMore

theorem Still.xferClose [P.Isnt .sent] (h : Still P s0 s) : Still P s0 (s.xferClose x) := h.pull.same

theorem Still.resumeXfer [P.Isnt .sent] (h : Still P s0 s) : Still P s0 (s.resumeXfer x lane) := by
  unfold State.resumeXfer
  extract_lets s2
  have h2 : Still P s0 s2 := h.xfU
  exact .ite h2 h2.pull.pullMore

theorem Still.abortFrame [P.Isnt .sent] (h : Still P s0 s) : Still P s0 (s.abortFrame lane x reason) := h.tx

theorem Still.sendAbort [P.Isnt .sent] (h : Still P s0 s) : Still P s0 (s.sendAbort x reason) := by
  unfold State.sendAbort
  extract_lets
  split
  · exact h.abortFrame
  · exact h.same

theorem Still.flowEnd (h : Still P s0 s) : Still P s0 (s.flowEnd p st reason) := by
  unfold State.flowEnd
  extract_lets _ s6 s7 s8 s9 s10
  have h6 : Still P s0 s6 := h.lvDrop
  have h7 : Still P s0 s7 := .ite h6.lvBack h6
  have h8 : Still P s0 s8 := h7.returnGroups
  have h9 : Still P s0 s9 := .ite h8.pgU h8
  have h10 : Still P s0 s10 := .ite h9.phU h9
  exact h10.flU

theorem Still.xferDrop (h : Still P s0 s) : Still P s0 (s.xferDrop x reason) := by
  unfold State.xferDrop
  extract_lets _ _ s2
  have h2 : Still P s0 s2 := h.same
  exact .ite h2.flowEnd h2

theorem Still.stageShort [P.Isnt .sent] (h : Still P s0 s) : Still P s0 (s.stageShort x) := h.sendAbort.xferDrop.flU

theorem Still.xferFail [P.Isnt .sent] (h : Still P s0 s) : Still P s0 (s.xferFail x reason) := .ite h.sendAbort.xferDrop h

theorem Still.flowFail [P.Isnt .sent] (h : Still P s0 s) : Still P s0 (s.flowFail p reason) :=
  .ite h (.ite h.xferFail h.flowEnd)

theorem Still.slotEmptied (h : Still P s0 s) : Still P s0 (s.slotEmptied n) := h.ksU

theorem Still.laneEvent (h : Still P s0 s) : Still P s0 s.laneEvent := h.setLine

theorem Still.sakChange (h : Still P s0 s) : Still P s0 (s.sakChange l) :=
  .ite h (.ite h.lnU (.ite h h.drawSak.lnU))

theorem Still.sakNext (h : Still P s0 s) : Still P s0 (s.sakNext l) := .ite h.sakChange h

theorem Still.spdmDiscard [P.Isnt .sent] (h : Still P s0 s) : Still P s0 (s.spdmDiscard l) :=
  (h.same.each (fun _ _ h3 => h3.enU)).spdmFlush

theorem Still.waitMoves {fs : List TxFrame} [P.Isnt .sent] (h : Still P s0 s) : Still P s0 (s.waitMoves l fs) :=
  h.each (fun _ _ h1 => .ite h1 (.ite h1.tx (.ite h1.same h1)))

theorem Still.laneLeave {st : LaneSt} [P.Isnt .sent] (h : Still P s0 s) : Still P s0 (s.laneLeave l st) := by
  unfold State.laneLeave
  extract_lets _ s9 s10 s11 s12 s13 _ s14 s15
  have h9 : Still P s0 s9 := .ite h.lvBack h.lvDrop
  have h10 : Still P s0 s10 := .ite h9.poolReturn h9
  have h11 : Still P s0 s11 := .ite h10.slotEmptied h10
  have h12 : Still P s0 s12 := h11.lnU
  have h13 : Still P s0 s13 := h12.spdmDiscard.laneEvent
  have h14 : Still P s0 s14 := .ite h13.sakNext h13
  have h15 : Still P s0 s15 := h14.waitMoves
  exact .ite (h15.each (fun _ _ h16 => h16.resumeXfer)) h15

theorem Still.laneTrain (h : Still P s0 s) : Still P s0 (s.laneTrain l) := by
  unfold State.laneTrain
  extract_lets
  split
  · exact h
  · split
    · next h2 =>
        exact ((h.lvTake h2).lnU).laneEvent
    · exact .ite h h.lvAsk

theorem Still.svcAsk {j : SvcJob} (h : Still P s0 s) : Still P s0 (s.svcAsk j) := h.same

theorem Still.svcDone {j : SvcJob} (h : Still P s0 s) : Still P s0 (s.svcDone j) := h.same

theorem Still.leafFailed [P.Isnt .sent] (h : Still P s0 s) : Still P s0 (s.leafFailed x i) := by
  unfold State.leafFailed
  extract_lets s3 _ s4
  have h3 : Still P s0 s3 := h.svcDone.xfU
  have h4 : Still P s0 s4 := h3.xfU
  exact .ite h3.xferFail h4.pull

theorem Still.svcFails [P.Isnt .sent] (h : Still P s0 s) : Still P s0 s.svcFails := by
  unfold State.svcFails
  split
  · exact h.leafFailed
  · exact h.svcAsk
  · exact h

/-! #### Verifications and retirements -/

theorem Still.chainStart (h : Still P s0 s) : Still P s0 (s.chainStart e j) := by
  unfold State.chainStart
  extract_lets _ s2
  have h2 : Still P s0 s2 := h.enU
  exact .ite h2.poolGrant.enU h2.lvAsk.enU

theorem Still.verStart (h : Still P s0 s) : Still P s0 s.verStart := by
  unfold State.verStart
  extract_lets
  split
  · exact h.same.chainStart
  · exact h.same

theorem Still.verAgain (h : Still P s0 s) : Still P s0 (s.verAgain j) := by
  unfold State.verAgain
  extract_lets
  split
  · exact h
  · exact h.same.verStart

theorem Still.verify {done : Bool → State → State} (h : Still P s0 s)
    (hdone : ∀ x0 x1, Still P s0 x1 → Still P s0 (done x0 x1)) :
    Still P s0 (s.verify j done) :=
  .ite (hdone _ _ h) (.ite (hdone _ _ h) h.same.verStart)

theorem Still.gleanDropOf (h : Still P s0 s) : Still P s0 (s.gleanDropOf p) := by
  unfold State.gleanDropOf
  extract_lets _ _ s2
  have h2 : Still P s0 s2 := h.pgU
  exact h2.bump.bump

theorem Still.laneFailed (h : Still P s0 s) : Still P s0 (s.laneFailed lane) := .ite h (h.each (fun _ _ h1 => h1.pkU))

theorem Still.hopError {x : HopCheck} (h : Still P s0 s) : Still P s0 (s.hopError x lane p) := by
  unfold State.hopError
  split
  · exact h
  · exact h.chanError.gnoby
  · exact h.chanError
  · exact h.chanError.gnoby
  · exact h.chanError

theorem Still.mint (h : Still P s0 s) : Still P s0 (s.mint p) := Still.ite h (have h1 := h.phU; .ite h1 h1.standRefuses)

theorem Still.handbackDone [P.Isnt .edge] (h : Still P s0 s) : Still P s0 (s.handbackDone p) := h.phU.pwU.peU.mint

theorem Still.retireLane (h : Still P s0 s) : Still P s0 (s.retireLane l) := by
  unfold State.retireLane
  extract_lets s4 x2 s5 s6
  have h4 : Still P s0 s4 := h.laneFailed
  have h5 : Still P s0 s5 := h4.chU
  have h6 : Still P s0 s6 := by
    unfold s6
    clear_value x2
    split
    · exact h5.reconcileOf
    · exact h5
  exact h6.poolClaim.runtimeDraw

theorem Still.outRelease (h : Still P s0 s) : Still P s0 (s.outRelease e) := by
  unfold State.outRelease
  split
  · exact h.ksU.enU
  · exact h

theorem Still.engineGone (h : Still P s0 s) : Still P s0 (s.engineGone e) := (Still.ite h.reconcile h).enU

theorem Still.retireEngine (h : Still P s0 s) : Still P s0 (s.retireEngine e) := by
  unfold State.retireEngine
  extract_lets _ s5 s6 s8
  have h5 : Still P s0 s5 := h.same
  have h6 : Still P s0 s6 := h5.each fun _ _ h7 => .ite h7.pkU h7
  have h8 : Still P s0 s8 := h6.abortEngine
  exact .ite h8.enU h8.engineGone

theorem Still.wakeOut {retired : Bool} [P.Isnt .verd] (h : Still P s0 s) : Still P s0 (s.wakeOut p retired) :=
  Still.ite h ((Still.ite h.reconcileGroups h.returnGroups.returnGroups).phU.pvU.pkU)

theorem Still.masterOff (h : Still P s0 s) : Still P s0 (s.masterOff p) := by
  unfold State.masterOff
  extract_lets s2
  have h2 : Still P s0 s2 := h.phU
  exact .ite h2.pkU h2

theorem Still.retireSequencer [P.Isnt .verd] (h : Still P s0 s) : Still P s0 (s.retireSequencer k) :=
  (h.each (fun _ _ h1 => h1.coU)).shU.each (fun _ _ h4 => have h7 := h4.pwU.pdU.wakeOut; .ite h7.holdPort h7)

theorem Still.retireLink [P.Isnt .sent] (h : Still P s0 s) : Still P s0 (s.retireLink l) := by
  unfold State.retireLink
  extract_lets s3 s4
  have h3 : Still P s0 s3 := .ite h.reconcileOf.lnU h
  have h4 : Still P s0 s4 := .ite h3.reconcile h3
  exact h4.laneLeave.lnU

theorem Still.portGives {uses : List Nat} [P.Isnt .sent] (h : Still P s0 s) : Still P s0 (s.portGives p uses) := by
  unfold State.portGives
  extract_lets s3 _ s4
  have h3 : Still P s0 s3 := .ite h.reconcileOf.flU h
  have h4 : Still P s0 s4 := .ite h3.reconcile.phU h3
  exact h4.reconcileGroups.flowFail

theorem Still.retireActs {k : ChannelKind} [P.Isnt .verd] [P.Isnt .sent] (h : Still P s0 s) : Still P s0 (s.retireActs k i) := by
  unfold State.retireActs
  extract_lets s4 s5 s6
  have h4 : Still P s0 s4 := (h.chU.holdPort.masterOff).portGives
  have h5 : Still P s0 s5 := (h.chU.holdPort.masterOff).portGives
  have h6 : Still P s0 s6 := h.chU
  split
  · exact h4.pgU
  · exact h5.pgU
  · exact h.retireLane
  · exact h.chU.retireEngine
  · exact h.chU.retireLink
  · exact h.chU.retireSequencer
  · exact h6.stU
  · exact h.chU

theorem Still.retire {k : ChannelKind} [P.Isnt .verd] [P.Isnt .sent] (h : Still P s0 s) : Still P s0 (s.retire k i reason) :=
  .ite h (have h1 := h.retireActs; .ite h1.same h1.chU.logRec)

theorem Still.entryTestFailed [P.Isnt .verd] [P.Isnt .sent] (h : Still P s0 s) : Still P s0 (s.entryTestFailed l) :=
  (h.gnoby.chU).retire

theorem Still.probePassed {k : ChannelKind} [P.Isnt .edge] (h : Still P s0 s) : Still P s0 (s.probePassed k i) := by
  unfold State.probePassed
  split
  · exact h.each (fun _ _ h2 => .ite h2.restartThread h2)
  · exact .ite h.handbackDone h
  · exact h

theorem Still.execProbe {k : ChannelKind} {pass : Bool} [P.Isnt .verd] [P.Isnt .edge] [P.Isnt .sent] (h : Still P s0 s) :
    EndsStill P s0 (execProbe k i pass s) :=
  .ite h (.ite (have h1 := h.probePassed; .ite h1.retire h1.chU.verStart) (.ite h.chU h.retire))

theorem Still.execRetirementReapply [P.Isnt .verd] [P.Isnt .sent] (h : Still P s0 s) :
    EndsStill P s0 (execRetirementReapply s) := by
  unfold Machine.execRetirementReapply
  extract_lets s3
  have h3 : Still P s0 s3 := h.each fun _ _ h4 => by
      split
      · exact .ite h4 h4.retireActs
      · exact h4
  clear_value s3
  exact .ite h h3.same

theorem Still.operandRead {w : Nat} (h : Still P s0 s) : Still P s0 (s.operandRead e src w).2 := by
  unfold State.operandRead
  extract_lets
  split
  · dsimp only
    exact h.raise
  · split <;> exact h

/-! #### Start-up and restarts -/

theorem Still.sendMaster {l : List MasterFrame} [P.Isnt .edge] (h : Still P s0 s) : Still P s0 (s.sendMaster p l) := h.peU

theorem Still.contExit [P.Isnt .edge] (h : Still P s0 s) : Still P s0 (s.contExit p) := .ite h.sendMaster.peU h

theorem Still.mainReset {dev : DevState} [v : P.Isnt .verd] [e : P.Isnt .edge] [x : P.Isnt .sent] [c : P.Isnt .cyc]
    (h : Still P s0 s) :
    Still P s0 (s.mainReset dev) := by
  have burnt : Still P s0 (if s.fuses.state = .burning && !s.fuses.waiting then s.burnStop else s) := .ite h.burnStop h
  cases P with
  | queue | home => exact burnt
  | verd => exact absurd rfl v.ne
  | edge => exact absurd rfl e.ne
  | sent => exact absurd rfl x.ne
  | cyc => exact absurd rfl c.ne

theorem Still.coldStart [P.Isnt .verd] [P.Isnt .edge] [P.Isnt .sent] [P.Isnt .cyc] (h : Still P s0 s) :
    Still P s0 s.coldStart := by
  unfold State.coldStart
  extract_lets s5 _ s6
  have h5 : Still P s0 s5 := h.mainReset
  clear_value s5
  have h6 : Still P s0 s6 := h5.same.used
  exact h6.each (fun _ _ h7 => by
      split
      · next h8 =>
          exact (h7.takeGroup h8)
      · exact h7)

theorem Still.backupCold (h : Still P s0 s) : Still P s0 s.backupCold :=
  .ite h ((((h.same.used.memZero).memZero).startCore).backupLog)

theorem Still.backupLost (h : Still P s0 s) : Still P s0 s.backupLost := by
  unfold State.backupLost
  refine .ite h ?_
  exact .ite h.same h.same

theorem Still.execSupplyGood {x : Supply} [P.Isnt .verd] [P.Isnt .edge] [P.Isnt .sent] [P.Isnt .cyc] (h : Still P s0 s) :
    EndsStill P s0 (execSupplyGood x s) := by
  unfold Machine.execSupplyGood
  extract_lets _ _ s3 s4
  have h3 : Still P s0 s3 := h.same.backupCold
  clear_value s3
  have h4 : Still P s0 s4 := h3.coldStart
  clear_value s4
  split
  · exact h4.same
  · split
    · exact h3.same
    · exact h3

theorem Still.bankFails {x : Supply} (h : Still P s0 s) : Still P s0 (s.bankFails x) := by
  unfold State.bankFails
  extract_lets
  split
  · extract_lets s4 s5
    have h4 : Still P s0 s4 := h.same
    have h5 : Still P s0 s5 := .ite (h4.each (fun _ _ h6 => h6.gleanDropOf)) h4
    exact .ite h h5.raiseReg
  · exact h

theorem Still.execSupplyNotGood {x : Supply} [P.Isnt .verd] [P.Isnt .edge] [P.Isnt .sent] [P.Isnt .cyc] (h : Still P s0 s) :
    EndsStill P s0 (execSupplyNotGood x s) := by
  unfold Machine.execSupplyNotGood
  extract_lets _ _ s3 s4
  have h3 : Still P s0 s3 := h.same
  have h4 : Still P s0 s4 := .ite h3.mainReset h3.bankFails
  exact h4.backupLost

theorem Still.clockFail [P.Isnt .verd] [P.Isnt .edge] [P.Isnt .sent] [P.Isnt .cyc] (h : Still P s0 s) :
    Still P s0 s.clockFail := by
  unfold State.clockFail
  extract_lets _ s2
  have h2 : Still P s0 s2 := h.coldStart
  clear_value s2
  exact h2.same

theorem Still.senseRoot (h : Still P s0 s) : Still P s0 s.senseRoot := by
  unfold State.senseRoot
  extract_lets _ s2
  have h2 : Still P s0 s2 := .ite h.same h.same
  clear_value s2
  exact h2.same

theorem Still.execFuseSenseDone (h : Still P s0 s) : EndsStill P s0 (execFuseSenseDone s) := by
  unfold Machine.execFuseSenseDone
  extract_lets _ _ _ _ _ s15 _ s16 s17 s19 s21 s22 _ s23 s24 s26 _ s27
  have h15 : Still P s0 s15 := h.same
  clear_value s15
  have h16 : Still P s0 s16 := h15.same
  have h17 : Still P s0 s17 := h16.each fun _ _ h18 => h18.senseBit
  have h19 : Still P s0 s19 := h17.each fun _ _ h20 => h20.fuseAlarm
  have h21 : Still P s0 s21 := .ite h19.fuseAlarm h19
  have h22 : Still P s0 s22 := h21.loadRanks
  clear_value s22
  have h23 : Still P s0 s23 := h22.same
  have h24 : Still P s0 s24 := h23.each fun _ _ h25 => h25.chU.poolGrant
  have h26 : Still P s0 s26 := h24.senseRoot
  clear_value s26
  have h27 : Still P s0 s27 := h26.each fun _ _ h28 => h28.backupLog
  clear_value s27
  exact .ite h (.ite h27.same (.ite h26.same (.ite h26.same h26)))

theorem Still.execSeedCoreRelease {probes : BitVec 4} [P.Isnt .cyc] (h : Still P s0 s) :
    EndsStill P s0 (execSeedCoreRelease probes s) := by
  unfold Machine.execSeedCoreRelease
  extract_lets _ _ s9 _ s10 _ _ s11 s12 _ s13 s14 s15 _ _ s16
  have h9 : Still P s0 s9 := h.startCore
  clear_value s9
  have h10 : Still P s0 s10 := h9.same
  clear_value s10
  have h11 : Still P s0 s11 := h10.unless .cyc (by rintro ⟨⟩ <;> simp [Still, s11])
  have h12 : Still P s0 s12 := h11.zeroize
  clear_value s12
  have h13 : Still P s0 s13 := .ite h12.same h11
  have h14 : Still P s0 s14 := .ite h10 h13.drawSlotKeys
  have h15 : Still P s0 s15 := h14.dropAlias
  clear_value s15
  have h16 : Still P s0 s16 := h15.same
  clear_value s16
  exact .ite h (.ite h16.same h16.boxReady)

theorem Still.noBundle (h : Still P s0 s) : Still P s0 s.noBundle := by
  unfold State.noBundle
  extract_lets s4 s5 _ _ s6
  have h4 : Still P s0 s4 := h.dropAlias
  have h5 : Still P s0 s5 := h4.coresOff
  clear_value s5
  have h6 : Still P s0 s6 := h5.same
  exact .ite h6 h6.boxReady

theorem Still.execBundleHeadersRead (h : Still P s0 s) : EndsStill P s0 (execBundleHeadersRead s) := by
  unfold Machine.execBundleHeadersRead
  extract_lets _ s2
  have h2 : Still P s0 s2 := h.same
  clear_value s2
  split
  · exact h
  · split
    · exact h2.same
    · exact h2.noBundle

theorem Still.tagRegion {x : Slot} (h : Still P s0 s) : Still P s0 (s.tagRegion x len) := by
  unfold State.tagRegion
  extract_lets s6 _ s7
  have h6 : Still P s0 s6 := h.returnGroups
  have h7 : Still P s0 s7 := h6.each fun _ _ h8 => by
      extract_lets
      split
      · next h9 =>
          extract_lets _ s10
          have h10 : Still P s0 s10 := (h8.takeGroup h9).same
          exact h10.granPut
      · exact h8
  clear_value s7
  exact h7.same

theorem Still.loadImages {x : Slot} {h' : List Byte} (h : Still P s0 s) : Still P s0 (s.loadImages x h') :=
  ((((h.memZero.memZero).memZero).memPut).memPut).memPut

theorem Still.seedHold {h' : List Byte} (h : Still P s0 s) : Still P s0 (s.seedHold h') :=
  h.poolGrant.foldl fun _ _ h1 => h1.poolMove.enU

theorem Still.seedDraw {c : List Byte} (h : Still P s0 s) (e : s.seedDraw c = some t) : Still P s0 t := by
  unfold State.seedDraw at e
  split at e
  · obtain ⟨u, taken, rfl⟩ := Option.map_eq_some_iff.mp e
    exact (h.lvTake taken).seedHold
  · cases e

theorem Still.seedReturn {h' : List Byte} (h : Still P s0 s) : Still P s0 (s.seedReturn h') :=
  h.poolBack.lvBack.foldl fun _ _ h2 => .ite h2.poolBack.enU.setLine h2

theorem Still.seedPass {x : Slot} {h' : List Byte} (h : Still P s0 s) : Still P s0 (s.seedPass x h') := by
  unfold State.seedPass
  extract_lets _ s4 s5 _ s6
  have h4 : Still P s0 s4 := h.same
  have h5 : Still P s0 s5 := h4.loadImages.tagRegion
  have h6 : Still P s0 s6 := h5.deriveDeviceId
  exact .ite h6.deriveAlias h6

theorem Still.execBundleCandidateRead (h : Still P s0 s) : EndsStill P s0 (execBundleCandidateRead s) := by
  unfold Machine.execBundleCandidateRead
  split
  · extract_lets
    split
    · exact h
    · split
      · next h2 =>
          exact (h.seedDraw h2).seedPass
      · exact h.lvAsk
  · exact h

theorem Still.seedGranted (h : Still P s0 s) : Still P s0 (s.seedGranted n) := by
  unfold State.seedGranted
  split
  · extract_lets
    exact .ite h.seedHold.seedPass h.lvBack
  · exact h.lvBack

theorem Still.execBundleSignatureVerified (h : Still P s0 s) : EndsStill P s0 (execBundleSignatureVerified s) := by
  unfold Machine.execBundleSignatureVerified
  extract_lets _ _ _ s4 _ s5
  have h4 : Still P s0 s4 := h.seedReturn
  clear_value s4
  have h5 : Still P s0 s5 := h4.dropAlias.coresOff
  clear_value s5
  split
  · extract_lets s6
    have h6 : Still P s0 s6 := by
      unfold s6
      split <;> exact h5.same
    clear_value s6
    split
    · exact h4.noBundle
    · split
      · exact h4.same
      · split
        · exact h6.same
        · exact h6.noBundle
  · exact h

theorem Still.openNext (h : Still P s0 s) : Still P s0 s.openNext := by
  unfold State.openNext
  extract_lets _ s2
  have h2 : Still P s0 s2 := h.same
  split
  · exact h
  · extract_lets
    exact .ite (.ite h2.stU h2.standRefuses) h

theorem Still.canopyGo {b : Bundle} (h : Still P s0 s) : Still P s0 (s.canopyGo b) := by
  unfold State.canopyGo
  extract_lets _ s12 s13 s14 _ _ _ _ _ s15 s16 s18 s19 _ s22
  have h12 : Still P s0 s12 := h.startCore.startCore
  have h13 : Still P s0 s13 := h12.ksU.memZero
  have h14 : Still P s0 s14 := h13.coU
  clear_value s14
  have h15 : Still P s0 s15 := h14.same
  have h16 : Still P s0 s16 := h15.each fun _ _ h17 => (Still.ite h17.boxEmpty h17).boxReady
  have h18 : Still P s0 s18 := h16.logRec
  have h19 : Still P s0 s19 := h18.each fun _ _ h20 => .ite h20 h20.chU.enU.logRec
  clear_value s19
  have h22 : Still P s0 s22 := h19.same
  exact .ite h22.openNext h22

theorem Still.execCanopyRelease (h : Still P s0 s) : EndsStill P s0 (execCanopyRelease s) := by
  unfold Machine.execCanopyRelease
  split
  · split
    · exact h
    · split
      · next t e =>
        have both : Still P s0 t := Still.bind (fun _ e => h.lvTake e) (fun _ _ hu e => hu.lvTake e) e
        exact both.canopyGo
      · exact h.lvAsk.lvAsk
  · exact h

theorem Still.canopyGranted {c : Nat} (h : Still P s0 s) : Still P s0 (s.canopyGranted c) := by
  unfold State.canopyGranted
  split
  · exact .ite h.canopyGo h
  · exact .ite h.coU h.lvBack

theorem Still.linkGo [P.Isnt .sent] (h : Still P s0 s) : Still P s0 s.linkGo := by
  unfold State.linkGo
  extract_lets x2 s4 _ _ s5
  have h4 : Still P s0 s4 := h.startCore
  clear_value s4
  have h5 : Still P s0 s5 := (h4.same.laneTrain).laneTrain
  clear_value x2
  split
  · exact h5.each (fun _ _ h6 => h6.resumeXfer)
  · exact h5

theorem Still.linkAsk [P.Isnt .sent] (h : Still P s0 s) : Still P s0 s.linkAsk := by
  unfold State.linkAsk
  split
  · exact h
  · split
    · next h2 =>
        exact (h.lvTake h2).linkGo
    · exact h.lvAsk

theorem Still.linkGranted [P.Isnt .sent] (h : Still P s0 s) : Still P s0 s.linkGranted := .ite h.linkGo h.lvBack

theorem Still.rxDrop (h : Still P s0 s) : Still P s0 s.rxDrop := h.each fun _ _ h1 => h1.same

theorem Still.gleanDrop (h : Still P s0 s) : Still P s0 s.gleanDrop := h.each fun _ _ h1 => h1.gleanDropOf

theorem Still.rebuildDrop (h : Still P s0 s) : Still P s0 s.rebuildDrop := .ite h.same h

theorem Still.enginesStop (h : Still P s0 s) : Still P s0 s.enginesStop :=
  h.each fun _ _ h1 => have h2 := h1.abortEngine; (Still.ite h2.setLine h2).enU

theorem Still.recoveryStop (h : Still P s0 s) : Still P s0 s.recoveryStop :=
  (h.each (fun _ _ h1 => h1.xferDrop)).each (fun _ _ h3 => .ite h3.flowEnd h3)

theorem Still.canopyBack (h : Still P s0 s) : Still P s0 s.canopyBack :=
  .ite (h.reconcile.each (fun _ _ h1 => h1.dropGroup)) h

theorem Still.rideStart (h : Still P s0 s) : Still P s0 s.rideStart := by
  unfold State.rideStart
  extract_lets _ s21 s22 s23 s24 s25 s27 _ s29 _ s30 s31 s32 s33 s34 s36 s37 s39
  have h21 : Still P s0 s21 := h.reconcile
  have h22 : Still P s0 s22 := h21.reconcile
  have h23 : Still P s0 s23 := h22.canopyBack
  have h24 : Still P s0 s24 := h23.reconcile
  have h25 : Still P s0 s25 := h24.each fun _ _ h26 => h26.reconcile
  have h27 : Still P s0 s27 := (h25.each (fun _ _ h28 => h28.boxDrop)).setLine
  clear_value s27
  have h29 : Still P s0 s29 := h27.same
  clear_value s29
  have h30 : Still P s0 s30 := h29.same
  have h31 : Still P s0 s31 := h30.fuseStop.gleanDrop.rebuildDrop
  have h32 : Still P s0 s32 := h31.enginesStop.recoveryStop
  have h33 : Still P s0 s33 := h32.rxDrop
  have h34 : Still P s0 s34 := h33.each fun _ _ h35 => h35.returnGroups
  have h36 : Still P s0 s36 := h34.coresOff
  have h37 : Still P s0 s37 := h36.each fun _ _ h38 => h38.stU
  have h39 : Still P s0 s39 := h37.each fun _ _ h40 => h40.phU
  clear_value s39
  exact h39.same

theorem Still.warmRestart {fault : Bool} (h : Still P s0 s) : Still P s0 (s.warmRestart fault) :=
  Still.ite h.same (Still.ite h ((Still.ite h.same h).rideStart))

theorem Still.linkRestart {counted : Bool} (h : Still P s0 s) : Still P s0 (s.linkRestart counted) := by
  unfold State.linkRestart
  extract_lets _ _ _ s6 _ s7 s8 _ s10
  have h6 : Still P s0 s6 := h.same
  clear_value s6
  have h7 : Still P s0 s7 := h6.coresOff.rxDrop
  have h8 : Still P s0 s8 := h7.each fun _ _ h9 => h9.xfU
  clear_value s8
  have h10 : Still P s0 s10 := h8.same
  exact .ite h6.same.warmRestart (.ite h10.svcAsk h10)

theorem Still.execWarmRestartEntryDone {comparators : BitVec 6} (h : Still P s0 s) :
    EndsStill P s0 (execWarmRestartEntryDone comparators s) := by
  unfold Machine.execWarmRestartEntryDone
  extract_lets u
  have tested : Still P s0 u := h.each fun _ _ h1 => .ite h1 (.ite h1.poU.stU h1.standFault)
  clear_value u
  exact .ite h tested.same

theorem Still.execLinkCoreReloaded [P.Isnt .sent] (h : Still P s0 s) : EndsStill P s0 (execLinkCoreReloaded s) := by
  unfold Machine.execLinkCoreReloaded
  split
  · split
    · exact h.memZero
    · exact h.memPut.linkAsk
  · exact h

/-! #### Policy, wake, verdicts -/

theorem Still.takePolicy {c : List Byte} (h : Still P s0 s) : Still P s0 (s.takePolicy c) :=
  (h.same.each (fun _ _ h2 => h2.poU)).logRec

theorem Still.loadWakeSched (h : Still P s0 s) : Still P s0 s.loadWakeSched := h.same

theorem Still.noPolicy (h : Still P s0 s) : Still P s0 s.noPolicy := h.each fun _ _ h1 => .ite h1 h1.shU

theorem Still.policyVerified (h : Still P s0 s) : Still P s0 (s.policyVerified j ok) :=
  .ite (have h1 := h.takePolicy; .ite h1 h1.loadWakeSched) h.noPolicy

theorem Still.readPolicy (h : Still P s0 s) : Still P s0 s.readPolicy :=
  .ite (.ite h h.loadWakeSched) (.ite h (.ite (h.verify (fun _ _ h1 => h1.policyVerified)) h))

theorem Still.takeSlices {c : List Byte} [P.Isnt .edge] (h : Still P s0 s) : Still P s0 (s.takeSlices p c) := h.mend.pwU.peU

theorem Still.startThreads {threads : List Byte} (h : Still P s0 s) : Still P s0 (s.startThreads k threads) :=
  h.each fun _ _ h1 => h1.startCore

theorem Still.loadSequencer {c : List Byte} (h : Still P s0 s) : Still P s0 (s.loadSequencer k c) := by
  unfold State.loadSequencer
  extract_lets _ s5 s6 s7
  have h5 : Still P s0 s5 := (h.memZero.memPut).memPut
  have h6 : Still P s0 s6 := h5.shU
  have h7 : Still P s0 s7 := h6.each fun _ _ h8 => h8.pdU
  exact .ite h5.shU h7.startThreads

theorem Still.takeSheaf {c : List Byte} [P.Isnt .edge] (h : Still P s0 s) : Still P s0 (s.takeSheaf k c) :=
  (h.same.each (fun _ _ h3 => h3.takeSlices.pwU)).loadSequencer

theorem Still.execScheduleContainerLoad {k : SheafId} [P.Isnt .edge] (h : Still P s0 s) :
    EndsStill P s0 (execScheduleContainerLoad k s) :=
  .ite h (have h1 := h.readPolicy; .ite h1 (.ite h1.takeSheaf h1.shU))

theorem Still.portReset [P.Isnt .verd] (h : Still P s0 s) : Still P s0 (s.portReset p) := by
  unfold State.portReset
  extract_lets s6 s7 s8 s9 s10
  have h6 : Still P s0 s6 := h.returnGroups.returnGroups
  have h7 : Still P s0 s7 := .ite h6 h6.returnGroups.pgU
  have h8 : Still P s0 s8 := h7.pgU
  have h9 : Still P s0 s9 := h8.phU
  have h10 : Still P s0 s10 := h9.pwU
  exact h10.pvU

theorem Still.portWake [P.Isnt .edge] (h : Still P s0 s) : Still P s0 (s.portWake p) := (Still.ite h.phU.contExit h).pkU

theorem Still.wakeGo {ports : List Nat} [P.Isnt .verd] [P.Isnt .edge] (h : Still P s0 s) : Still P s0 (s.wakeGo ports) := by
  unfold State.wakeGo
  extract_lets s8 _ s10 s11 s12
  have h8 : Still P s0 s8 := h.each fun _ _ h9 => .ite h9 h9.bankFails
  have h10 : Still P s0 s10 := h8.poolGrant
  clear_value s10
  have h11 : Still P s0 s11 := h10.same
  have h12 : Still P s0 s12 := h11.each fun _ _ h13 => have h14 := h13.portReset; .ite h14.portWake h14
  clear_value s12
  exact .ite h8.lvBack h12.same

theorem Still.wakeAsk {rewake : Bool} {ports : List Nat} [P.Isnt .verd] [P.Isnt .edge] (h : Still P s0 s) :
    Still P s0 (s.wakeAsk rewake ports) := by
  unfold State.wakeAsk
  extract_lets _ _ s5 s6 s7
  have h5 : Still P s0 s5 := h.same
  clear_value s5
  have h6 : Still P s0 s6 := h5.same
  have h7 : Still P s0 s7 := h6.each fun _ _ h8 => h8.pkU
  exact .ite h5.poolGrant.wakeGo h7.lvAsk

theorem Still.wakeGranted [P.Isnt .verd] [P.Isnt .edge] (h : Still P s0 s) : Still P s0 s.wakeGranted :=
  .ite h.wakeGo h.lvBack

theorem Still.wakeRemap (h : Still P s0 s) : Still P s0 s.wakeRemap := by
  unfold State.wakeRemap
  extract_lets _ _ _ _ s1 _ s2 s3
  have h1 : Still P s0 s1 := .ite h h.poolBack
  have h2 : Still P s0 s2 := h1.same
  have h3 : Still P s0 s3 := h2.runtimeDraw
  exact .ite h (.ite h3.poolGrant.same h3)

theorem Still.execWakeEntryEnd {ids : List (PortId × List Byte)} {replies : List (PortId × List (List (List Byte)))}
    {badLanes : List LaneId} [P.Isnt .verd] [P.Isnt .edge] [P.Isnt .sent] (h : Still P s0 s) :
    EndsStill P s0 (execWakeEntryEnd ids replies badLanes s) := by
  unfold Machine.execWakeEntryEnd
  extract_lets s7 s9 s10
  have h7 : Still P s0 s7 := h.each fun _ _ h8 => .ite h8.entryTestFailed h8
  have h9 : Still P s0 s9 := h7.wakeRemap
  have h10 : Still P s0 s10 := h9.each (fun _ _ h11 => .ite h11 (.ite h11.pkU (
    have h12 := h11.sendMaster
    .ite h12 h12.pkU)))
  clear_value s10
  exact .ite h (.ite h9 h10.same)

theorem Still.tagGroup (h : Still P s0 s) (e : s.tagGroup p a = some (g, t)) : Still P s0 t := by
  unfold State.tagGroup at e
  extract_lets at e
  split at e
  · obtain ⟨-, rfl⟩ := Prod.mk.inj (Option.some.inj e)
    exact h
  · split at e
    · cases e
    · split at e
      · next g u taken =>
        obtain ⟨-, rfl⟩ := Prod.mk.inj (Option.some.inj e)
        have hu : Still P s0 u := h.takeGroup taken
        exact hu.same
      · cases e

theorem Still.chunkTags (h : Still P s0 s) : Still P s0 (s.chunkTags p a bs) := by
  unfold State.chunkTags
  exact .ite h (h.each (fun _ _ h3 => by
      extract_lets
      split
      · exact h3
      · split
        · next h4 =>
            exact (h3.tagGroup h4).granPut
        · exact h3))

theorem Still.pinGroup {x : Slot} (h : Still P s0 s) (e : s.pinGroup p x a = some (g, t)) : Still P s0 t := by
  unfold State.pinGroup at e
  extract_lets at e
  split at e
  · obtain ⟨-, rfl⟩ := Prod.mk.inj (Option.some.inj e)
    exact h
  · split at e
    · next g u taken =>
      cases e
      have hu : Still P s0 u := h.takeGroup taken
      exact hu.same
    · cases e

theorem Still.chunkPins {x : Slot} (h : Still P s0 s) : Still P s0 (s.chunkPins p x a bs) := by
  unfold State.chunkPins
  split
  · exact h
  · refine h.each fun u c hu => hu.each fun v j hv => hv.each fun w i hw => ?_
    extract_lets
    refine .ite ?_ hw
    split
    · next e => exact (hw.pinGroup e).granPut
    · exact hw

theorem Still.wakeCut [P.Isnt .verd] (h : Still P s0 s) : Still P s0 s.wakeCut := by
  unfold State.wakeCut
  extract_lets s3
  have h3 : Still P s0 s3 := h.each fun _ _ h4 => h4.wakeOut
  clear_value s3
  exact h3.same.wakeRelease

theorem Still.captureBad (h : Still P s0 s) : Still P s0 (s.captureBad p) := h.pkU.chanError.gnoby

theorem Still.execWakeRound {bursts : List (PortId × List Byte)} {failed : List PortId} [P.Isnt .verd] [P.Isnt .edge]
    (h : Still P s0 s) :
    EndsStill P s0 (execWakeRound bursts failed s) := by
  unfold Machine.execWakeRound
  extract_lets _ s6 _ _ s9
  have h6 : Still P s0 s6 := h.each fun _ _ h7 => by
      extract_lets _ _ _ s8
      have h8 : Still P s0 s8 := by
        unfold s8
        split
        · exact .ite h7 h7.sendMaster
        · exact h7
      exact .ite h7.pkU (.ite h7.pkU h8.pkU)
  clear_value s6
  have h9 : Still P s0 s9 := h6.same
  exact .ite h (.ite h.wakeCut (h9.each (fun _ _ h10 => .ite h10 h10.captureBad)))

theorem Still.execWakeLaneJob {p : PortId} {chunk : Fin 16} {tags : Bool} {lane : LaneId} {check : HopCheck} (h : Still P s0 s) :
    EndsStill P s0 (execWakeLaneJob p chunk tags lane check s) := by
  unfold Machine.execWakeLaneJob
  extract_lets
  split
  · exact h
  · split
    · exact h.laneFailed.hopError
    · split
      · exact h
      · extract_lets
        split
        · exact h.chunkTags.pkU
        · split
          · exact h
          · extract_lets s2
            have h2 : Still P s0 s2 := h.chunkPins
            exact h2.pkU

theorem Still.shelfVerified (h : Still P s0 s) : Still P s0 (s.shelfVerified ok) := h.same

theorem Still.execShelfManifestDecide (h : Still P s0 s) : EndsStill P s0 (execShelfManifestDecide s) :=
  EndsStill.ite h (have h1 := h.same; Still.ite (h1.verify (fun _ _ h2 => h2.shelfVerified)) h1.shelfVerified)

theorem Still.execChainVerifyStart {p : PortId} (h : Still P s0 s) : EndsStill P s0 (execChainVerifyStart p s) := by
  unfold Machine.execChainVerifyStart
  split
  · exact h
  · split
    · exact h
    · extract_lets s2
      have h2 : Still P s0 s2 := h.pkU
      exact .ite h h2.chainStart

theorem Still.writeRecord [P.Isnt .verd] (h : Still P s0 s) : Still P s0 (s.writeRecord p) :=
  h.unless .verd (by rintro ⟨⟩ <;> simp [Still, State.writeRecord, State.logRec, State.pvU])

theorem Still.notice [P.Isnt .verd] (h : Still P s0 s) : Still P s0 (s.notice p) := .ite (h.unless .verd) h.pvU

theorem Still.keepSlot {chosen : Nat} (h : Still P s0 s) : Still P s0 (s.keepSlot p chosen) :=
  .ite h.returnGroups.returnGroups ((h.each (fun _ _ h1 => .ite h1.returnGroup h1)).returnGroups)

theorem Still.voidPinsOf {chosen : Nat} (h : Still P s0 s) : Still P s0 (s.voidPinsOf p chosen) :=
  h.each (fun _ _ h1 => .ite h1 (h1.pwU.each (fun _ _ h3 => .ite h3 h3.returnGroup)))

theorem Still.setVerdict {d : Decision} [P.Isnt .edge] (h : Still P s0 s) : Still P s0 (s.setVerdict p d) :=
  .ite h.pgU.handbackDone h.returnGroups.pgU

theorem Still.decidePort [P.Isnt .verd] [P.Isnt .edge] (h : Still P s0 s) : Still P s0 (s.decidePort p) := by
  unfold State.decidePort
  extract_lets _ s7 _ _ _ _ s8 s9 s10 _ s11 s12
  have h7 : Still P s0 s7 := .ite h.lastGoodCheck h
  have h8 : Still P s0 s8 := h7.pvU
  have h9 : Still P s0 s9 := .ite h8.returnGroups h8.keepSlot
  have h10 : Still P s0 s10 := .ite h9 h9.voidPinsOf
  have h11 : Still P s0 s11 := .ite h10.setVerdict (.ite h10.phU h10.phU)
  have h12 : Still P s0 s12 := h11.writeRecord.notice
  split
  · exact h12.raise
  · exact h12

theorem Still.execVerdictStage [P.Isnt .verd] [P.Isnt .edge] (h : Still P s0 s) : EndsStill P s0 (execVerdictStage s) :=
  EndsStill.ite h (EndsStill.ite h.wakeCut (
    have h4 := (h.each fun _ _ h1 => h1.decidePort).wakeRelease.same.runtimeDraw
    Still.ite h4.openNext h4))

theorem Still.standGnoby (h : Still P s0 s) : Still P s0 (s.standGnoby k) := h.gnoby.standFault

theorem Still.standFails {c : StandCause} (h : Still P s0 s) : Still P s0 (s.standFails k c) := by
  unfold State.standFails
  split
  · exact h.standGnoby
  · exact h.raiseReg.standFault
  · exact h.raiseReg.standFault
  · exact h.censusFault.standFault

theorem Still.pgLost [P.Isnt .verd] (h : Still P s0 s) : Still P s0 (s.pgLost p) := by
  unfold State.pgLost
  extract_lets s3 s4
  have h3 : Still P s0 s3 := h.pvU
  have h4 : Still P s0 s4 := h3.keepSlot
  exact h4.writeRecord.notice.raise

theorem Still.execPgFall {p : PortId} [P.Isnt .verd] (h : Still P s0 s) : EndsStill P s0 (execPgFall p s) :=
  .ite h (
    have h1 := h.phU
    have h2 := Still.ite h1.pkU h1
    EndsStill.ite (((Still.ite h2.poolReturn h2).holdPort).pgLost) h2)

theorem Still.execShadowMismatch {r : CriticalReg} (h : Still P s0 s) : EndsStill P s0 (execShadowMismatch r s) := by
  unfold Machine.execShadowMismatch
  extract_lets s4 _ _ s5
  have h4 : Still P s0 s4 := h.raiseReg
  clear_value s4
  have h5 : Still P s0 s5 := h4.same
  clear_value s5
  split
  · extract_lets s6
    have h6 : Still P s0 s6 := h.raiseReg.holdPort
    exact h6.phU
  · exact h.standFails
  · exact h.standFails
  · exact h.raiseReg.phU
  · exact h.raiseReg.pwU
  · exact h4.same
  · exact .ite h.standFails (.ite h.censusFault h)
  · exact (h.raiseReg.slotBad).raiseReg
  · exact Still.ite h5.same h5
  · exact h4.same

theorem Still.leafPart (h : Still P s0 s) : Still P s0 (s.leafPart p a) := .ite h.bump h.bump

theorem Still.leafWhole {data : List Byte} (h : Still P s0 s) : Still P s0 (s.leafWhole p a data rank) := by
  unfold State.leafWhole
  split
  · exact h.bump
  · exact .ite h.bump h.pgU

theorem Still.leafCheck {i : GleanItem} (h : Still P s0 s) : Still P s0 (s.leafCheck p i) := by
  unfold State.leafCheck
  extract_lets s2
  have h2 : Still P s0 s2 := h.bump.pgU
  split
  · exact h.bump
  · exact .ite h.bump (.ite h.bump (.ite h2 h2.raise))

theorem Still.execGleanHalfLeaf {p : PortId} {check : HopCheck} (h : Still P s0 s) :
    EndsStill P s0 (execGleanHalfLeaf p check s) := by
  unfold Machine.execGleanHalfLeaf
  split
  · exact h
  · extract_lets s2
    have h2 : Still P s0 s2 := h.pgU.leafPart
    exact .ite h2.hopError (.ite h.pgU h.pgU.leafCheck)

/-! #### Decisions and host frames -/

theorem Still.storeOut {x : StoreIn} (h : Still P s0 s) : Still P s0 (s.storeOut c x) := by
  unfold State.storeOut
  split
  · exact h.memPut
  · exact h

theorem Still.landTo (h : Still P s0 s) : Still P s0 (s.landTo c n) := h.coU.each fun _ _ h2 => h2.storeOut

theorem Still.slotTo (h : Still P s0 s) : Still P s0 (s.slotTo c n) := by
  unfold State.slotTo
  extract_lets s5
  have h5 : Still P s0 s5 := h.coU
  split
  · extract_lets _ s6
    have h6 : Still P s0 s6 := h5.each fun _ _ h7 => h7.storeOut
    exact h6.each (fun _ _ h8 => h8.coU)
  · exact h.landTo

theorem Still.slotsPass (h : Still P s0 s) : Still P s0 (s.slotsPass c n) := h.slotTo.coU

theorem Still.threadStops (h : Still P s0 s) : Still P s0 (s.threadStops c) := h.coU

theorem Still.execRuleLookupResult {p : PortId} (h : Still P s0 s) : EndsStill P s0 (execRuleLookupResult p s) := by
  unfold Machine.execRuleLookupResult
  split
  · exact h
  · extract_lets _ _ s2
    have h2 : Still P s0 s2 := h.pdU
    exact h2.coU

theorem DuringStill.flashKill (h : DuringStill P s0 f) : DuringStill P s0 (f.flashKill k) := .ite h h.kept

theorem DuringStill.die (h : DuringStill P s0 f) : DuringStill P s0 (f.die k) := h.flashKill.kept

theorem DuringStill.alarm (h : DuringStill P s0 f) : DuringStill P s0 (f.alarm code rank data k) := by
  unfold Fr.alarm
  extract_lets s2
  have h2 : DuringStill P s0 s2 := h.kept.raise
  exact .ite h (.ite h2.die h2)

theorem DuringStill.undecided (h : DuringStill P s0 f) : DuringStill P s0 (f.undecided data k) := by
  unfold Fr.undecided
  extract_lets s4 s5 s6
  have h4 : DuringStill P s0 s4 := h.die
  have h5 : DuringStill P s0 s5 := h4.kept
  have h6 : DuringStill P s0 s6 := by
    dsimp only [DuringStill, s6]
    exact h5.kept.bump
  exact .ite h5 h6.alarm

theorem DuringStill.filter (h : DuringStill P s0 f) : DuringStill P s0 (f.filter d k) :=
  .ite h (DuringStill.alarm h.kept)

theorem DuringStill.apply {d0 : Dec} (h : DuringStill P s0 f) : DuringStill P s0 (f.apply d0 a k) := by
  unfold Fr.apply
  extract_lets _ _ s9 s10 s11 _ s13 s14
  have h9 : DuringStill P s0 s9 := .ite (by dsimp only [DuringStill]; exact h.kept.bump) h
  have h10 : DuringStill P s0 s10 := h9.die
  have h11 : DuringStill P s0 s11 := h10.kept
  have h13 : DuringStill P s0 s13 := h.kept
  have h14 : DuringStill P s0 s14 := .ite h13.flashKill h13
  exact .ite h (.ite h.undecided (.ite (DuringStill.alarm h10.kept) (.ite (.ite h11.undecided
    h11.filter) (.ite (by dsimp only [DuringStill]; exact h.kept.bump) (.ite h14.filter h14)))))

theorem DuringStill.prune {t' : Nat} (h : DuringStill P s0 f) : DuringStill P s0 (f.prune t' k) := h.kept

theorem DuringStill.ask (h : DuringStill P s0 f) : DuringStill P s0 f.ask := by
  unfold Fr.ask
  split
  · exact h
  · extract_lets
    split
    · exact h
    · split
      · exact h.kept
      · exact h.kept.pushEvent

theorem DuringStill.askDue (h : DuringStill P s0 f) : DuringStill P s0 (f.askDue a) := by
  unfold Fr.askDue
  split
  · exact h
  · exact .ite h.ask h

theorem DuringStill.turn (h : DuringStill P s0 f) : DuringStill P s0 (f.turn a k) := by
  unfold Fr.turn
  extract_lets x2 s2
  have h2 : DuringStill P s0 s2 := DuringStill.prune h.kept
  split
  · exact h
  · split
    · clear_value x2
      split
      · exact h2.apply
      · exact h2.undecided
    · exact h

theorem DuringStill.orphaned (h : DuringStill P s0 f) : DuringStill P s0 (f.orphaned k) := by
  unfold Fr.orphaned
  extract_lets s2
  have h2 : DuringStill P s0 s2 := h.kept
  exact .ite h2.undecided h2

theorem Still.midEvent {x : MidEvent} [P.Isnt .verd] [P.Isnt .edge] [P.Isnt .sent] (h : Still P s0 s) :
    Still P s0 (midEvent p x s) := by
  unfold Machine.midEvent
  split
  · exact .ite h.raiseReg h
  · exact h.raise
  · exact .ite h.raise h
  · exact Still.after h h.execPgFall
  · exact Still.after h h.execProbe
  · exact Still.after h h.execGleanHalfLeaf
  · exact h.chanError.gnoby

theorem DuringStill.mid {x : MidEvent} [P.Isnt .verd] [P.Isnt .edge] [P.Isnt .sent] (h : DuringStill P s0 f) :
    DuringStill P s0 (f.mid k x) := by
  unfold Fr.mid
  extract_lets _ _ s4 s5 s6
  have h4 : DuringStill P s0 s4 := h.kept.midEvent
  have h5 : DuringStill P s0 s5 := .ite h4.orphaned h4
  have h6 : DuringStill P s0 s6 := h5.die
  split
  · exact h5
  · split
    · exact h6.kept.gleanDropOf
    · exact h6

theorem DuringStill.upTo [P.Isnt .verd] [P.Isnt .edge] [P.Isnt .sent] (h : DuringStill P s0 f) : DuringStill P s0 (f.upTo k) :=
  DuringStill.foldl h.kept (fun _ _ h1 => h1.mid)

theorem DuringStill.rest [P.Isnt .verd] [P.Isnt .edge] [P.Isnt .sent] (h : DuringStill P s0 f) : DuringStill P s0 f.rest :=
  DuringStill.foldl h.kept (fun _ _ h1 => h1.mid)

theorem Still.serveSlot {bad : Nat → Bool} (h : Still P s0 s) : Still P s0 (s.serveSlot p bad) := by
  unfold State.serveSlot
  extract_lets
  split
  · exact h
  · split
    · exact h
    · split
      · exact h
      · exact h.pgU

theorem Still.serveAhead {bad : Nat → Bool} (h : Still P s0 s) : Still P s0 (s.serveAhead p bad) :=
  h.foldl fun _ _ h1 => h1.serveSlot

theorem Still.wordFault {x : WordFault} (h : Still P s0 s) : Still P s0 (s.wordFault p x) := by
  unfold State.wordFault
  split
  · exact h
  · exact h.chanError.gnoby
  · exact h.chanError
  · exact h.chanError.holdPort

theorem DuringStill.newWord (h : DuringStill P s0 f) : DuringStill P s0 (f.newWord d x k) := by
  unfold Fr.newWord
  extract_lets _ s7 s8 s9 _ _ s10 _ s11
  have h7 : DuringStill P s0 s7 := h.kept.pgU.serveAhead
  have h8 : DuringStill P s0 s8 := by
    unfold s8
    split
    · exact h7.kept.wordFault
    · exact h7
  have h9 : DuringStill P s0 s9 := .ite h8.die h8
  have h10 : DuringStill P s0 s10 := h9.kept.bump.pgU
  have h11 : DuringStill P s0 s11 := by
    unfold s11
    split
    · exact h10.kept.bump.pgU
    · exact h10.kept
  split
  · extract_lets s12
    have h12 : DuringStill P s0 s12 := h9.kept.pgU
    exact .ite h12 (by dsimp only [DuringStill]; exact h12.kept.bump)
  · exact .ite h11 (DuringStill.alarm h11.kept)

theorem DuringStill.gleanCut (h : DuringStill P s0 f) : DuringStill P s0 f.gleanCut := by
  unfold Fr.gleanCut
  split
  · exact h.kept.leafPart
  · exact h

theorem DuringStill.gleanByte {b : Byte} {done : Bool} (h : DuringStill P s0 f) : DuringStill P s0 (f.gleanByte d a b done) := by
  unfold Fr.gleanByte
  extract_lets _ s2
  have h2 : DuringStill P s0 s2 := by
    unfold s2
    split
    · exact .ite h h.gleanCut
    · exact h
  exact .ite h2.kept (.ite h2.kept.leafWhole h2.kept.leafPart)

theorem DuringStill.pastSet (h : DuringStill P s0 f) : DuringStill P s0 (f.pastSet a k) := by
  unfold Fr.pastSet
  extract_lets
  split
  · exact h
  · exact .ite (by dsimp only [DuringStill]; exact h.kept.bump) h

theorem DuringStill.byte {j : Nat} [P.Isnt .verd] [P.Isnt .edge] [P.Isnt .sent] (h : DuringStill P s0 f) :
    DuringStill P s0 (f.byte j) := by
  unfold Fr.byte
  extract_lets _ _ s7 s8 s9
  have h7 : DuringStill P s0 s7 := h.upTo
  have h8 : DuringStill P s0 s8 := .ite h7 h7.turn.pastSet
  have h9 : DuringStill P s0 s9 := h8.askDue
  split
  · exact h8.gleanCut
  · split
    · exact .ite h8.kept h8
    · extract_lets s10 _ s11 _ s12
      have h10 : DuringStill P s0 s10 := .ite h9 h9.gleanCut
      have h11 : DuringStill P s0 s11 := .ite h10.newWord h10
      have h12 : DuringStill P s0 s12 := h10.kept
      exact .ite h10.kept (.ite h10.kept (.ite (.ite h11 h11.kept) (.ite h12.gleanByte h12)))

theorem DuringStill.bytes {f : Fr} {m j : Nat} [P.Isnt .verd] [P.Isnt .edge] [P.Isnt .sent] (h : DuringStill P s0 f) :
    DuringStill P s0 (f.bytes m j) := by
  induction m generalizing f j with
  | zero => exact h
  | succ m ih =>
    unfold Fr.bytes
    exact .ite h (.ite (.ite h.turn h) (ih h.byte))

theorem DuringStill.plain [P.Isnt .verd] [P.Isnt .edge] [P.Isnt .sent] (h : DuringStill P s0 f) : DuringStill P s0 (f.plain k) :=
  h.foldl fun _ _ h1 => h1.byte

theorem DuringStill.mBreach [P.Isnt .verd] [P.Isnt .edge] [P.Isnt .sent] (h : DuringStill P s0 f) :
    DuringStill P s0 (f.mBreach lanes) := by
  unfold Fr.mBreach
  extract_lets s3
  have h3 : DuringStill P s0 s3 := h.upTo
  exact .ite h3 (.ite (DuringStill.alarm (by dsimp only [DuringStill]; exact h3.kept.bump)) h3)

theorem DuringStill.first {eL : Nat} [P.Isnt .verd] [P.Isnt .edge] [P.Isnt .sent] (h : DuringStill P s0 f) :
    DuringStill P s0 (f.first eL) := by
  unfold Fr.first
  extract_lets _ _ s2
  have h2 : DuringStill P s0 s2 := h.upTo
  split
  · exact h2
  · split
    · exact .ite h2 h2.apply
    · split
      · exact h2
      · split
        · exact h2.apply.askDue
        · exact h2.kept.pushEvent

theorem DuringStill.rule [P.Isnt .verd] [P.Isnt .edge] [P.Isnt .sent] (h : DuringStill P s0 f) : DuringStill P s0 f.rule := by
  unfold Fr.rule
  extract_lets s2 x2
  have h2 : DuringStill P s0 s2 := h.upTo
  split
  · exact h2
  · split
    · clear_value x2
      split
      · exact .ite h2.apply.askDue (.ite h2.undecided h2.apply)
      · exact .ite h2.undecided h2
    · clear_value x2
      split
      · exact DuringStill.ite ((DuringStill.ite h2.plain h2).apply) h2
      · exact h2

theorem DuringStill.rise (h : DuringStill P s0 f) : DuringStill P s0 f.rise := by
  unfold Fr.rise
  extract_lets _ _ s4 _ s5
  have h4 : DuringStill P s0 s4 := .ite (by dsimp only [DuringStill]; exact h.kept.bump) h
  have h5 : DuringStill P s0 s5 := by
    unfold s5
    split
    · exact h4
    · split
      · exact h4.apply
      · exact h4.undecided
  exact .ite (by dsimp only [DuringStill]; exact h5.kept.bump) h5

theorem DuringStill.stopped {st : Stop} (h : DuringStill P s0 f) : DuringStill P s0 (f.stopped st) := by
  unfold Fr.stopped
  extract_lets
  split
  · exact h
  · exact DuringStill.alarm (by dsimp only [DuringStill]; exact h.kept.bump)
  · exact DuringStill.alarm (by dsimp only [DuringStill]; exact h.kept.bump)
  · exact h.die

theorem DuringStill.contBits [P.Isnt .edge] (h : DuringStill P s0 f) : Still P s0 (f.contBits lanes) :=
  .ite h.kept h.kept.peU

theorem DuringStill.commit [P.Isnt .edge] (h : DuringStill P s0 f) : Still P s0 (f.commit lanes) := by
  unfold Fr.commit
  extract_lets _ s4 s5 s6
  have h4 : Still P s0 s4 := h.contBits
  have h5 : Still P s0 s5 := .ite h4.peU (.ite h4.peU h4)
  have h6 : Still P s0 s6 := .ite h.kept h5.pwU
  exact .ite h6.bump h6

theorem Still.frameEnd {cls span : Nat} {out : FrameOut} [P.Isnt .edge] (h : Still P s0 s) :
    Still P s0 (s.frameEnd p cls span out) := by
  unfold State.frameEnd
  extract_lets _ s3 s4
  have h3 : Still P s0 s3 := h.peU
  have h4 : Still P s0 s4 := h3.pushEvent
  exact .ite h4.takeFlip h4

theorem Still.trieFault (h : Still P s0 s) : Still P s0 (s.trieFault c) := (h.threadStops.coU).chanError

theorem DuringStill.noLeaf {ended : FrameEnd} [P.Isnt .verd] [P.Isnt .edge] [P.Isnt .sent] (h : DuringStill P s0 f) :
    Still P s0 (f.noLeaf lanes ended) := by
  unfold Fr.noLeaf
  extract_lets s3 s4
  have h3 : DuringStill P s0 s3 := h.rest
  have h4 : Still P s0 s4 := .ite h3.kept h3.kept.bump
  exact h4.frameEnd

theorem DuringStill.run {eL : Nat} {st : Stop} [P.Isnt .verd] [P.Isnt .edge] [P.Isnt .sent] (h : DuringStill P s0 f) :
    Still P s0 (f.run lanes eL st) := by
  unfold Fr.run
  extract_lets s11 _ s12 s13 s14 s15 s16 s17 _ s18 s19 s20
  have h11 : DuringStill P s0 s11 := h.first
  have h12 : DuringStill P s0 s12 := .ite h11.rule.mBreach h11.mBreach.rule
  have h13 : DuringStill P s0 s13 := .ite h12.bytes h12
  have h14 : DuringStill P s0 s14 := h13.upTo
  have h15 : DuringStill P s0 s15 := h14.stopped
  have h16 : DuringStill P s0 s16 := .ite h15 h15.rise
  have h17 : DuringStill P s0 s17 := h16.rest.gleanCut
  have h18 : Still P s0 s18 := .ite h17.commit (.ite h17.contBits h17.kept)
  have h19 : Still P s0 s19 := .ite h18.bump h18
  have h20 : Still P s0 s20 := .ite h19 h19.bump
  exact h20.frameEnd

theorem Still.heldFrame {f : FrameIn} {words : Nat} [P.Isnt .verd] [P.Isnt .edge] [P.Isnt .sent] (h : Still P s0 s) :
    Still P s0 (s.heldFrame p f words) := by
  unfold State.heldFrame
  extract_lets s6 s7 s8 s9
  have h6 : Still P s0 s6 := h.bump
  have h7 : Still P s0 s7 := .ite h6 h6.bump
  have h8 : Still P s0 s8 := h7.peU
  have h9 : Still P s0 s9 := h8.each fun _ _ h10 => h10.midEvent
  exact .ite h9 h9.phU.raise

theorem Still.frame {f : FrameIn} {st : Stop} [P.Isnt .verd] [P.Isnt .edge] [P.Isnt .sent] (h : Still P s0 s) :
    Still P s0 (s.frame p f st) := by
  unfold State.frame
  extract_lets s16 s17 _ _ s18 _ _ _ _ _ _ s19 s20 _ _ _ s21 _ s23 _ _ _ x2 s24 _ s26
  have h16 : Still P s0 s16 := h.peU
  have h17 : Still P s0 s17 := h16.pwU
  have h18 : Still P s0 s18 := h17.pdU
  have h19 : Still P s0 s19 := .ite h18 h18.bump
  have h20 : Still P s0 s20 := h19.pgU
  have h21 : DuringStill P s0 s21 := h20
  have h23 : DuringStill P s0 s23 := .ite (DuringStill.alarm (by dsimp only [DuringStill]; exact h20.bump)) h21
  have h24 : DuringStill P s0 s24 := h23.upTo.stopped
  have h26 : DuringStill P s0 s26 := .ite h24 (by dsimp only [DuringStill]; exact h24.kept.bump)
  split
  · exact h
  · split
    · exact h18.heldFrame
    · split
      · exact h23.upTo.stopped.noLeaf
      · clear_value x2
        split
        · exact h26.noLeaf
        · extract_lets s27 _ s28 s29 s30
          have h27 : DuringStill P s0 s27 := h23.upTo
          have h28 : Still P s0 s28 := h27.kept.pushEvent
          have h29 : Still P s0 s29 := .ite h27.kept (.ite h28.pwU h28)
          have h30 : DuringStill P s0 s30 := h29
          refine .ite (DuringStill.run ?_) h30.run
          exact DuringStill.alarm h30.kept.trieFault

/-! #### Rebuild and Granary -/

theorem Still.newSlices {c : List Byte} [P.Isnt .edge] (h : Still P s0 s) : Still P s0 (s.newSlices p c) := h.takeSlices.memPut

theorem Still.compare [P.Isnt .edge] (h : Still P s0 s) : Still P s0 s.compare := by
  unfold State.compare
  extract_lets _ s9 s10 _ s14 s15
  have h9 : Still P s0 s9 := h.same
  have h10 : Still P s0 s10 := h9.each fun _ _ h11 =>
    have h13 := h11.each fun _ _ h12 => .ite h12.pwU (.ite h12.newSlices.pwU h12.pwU)
    .ite h13.loadSequencer h13
  clear_value s10
  have h14 : Still P s0 s14 := h10.same.setLine
  have h15 : Still P s0 s15 := h14.each fun _ _ h16 => .ite h16.takeFlip h16
  exact h15.flipsEnd

theorem Still.rebuildStop (h : Still P s0 s) : Still P s0 s.rebuildStop := h.same.setLine

theorem Still.execRebuildContainer [P.Isnt .edge] (h : Still P s0 s) : EndsStill P s0 (execRebuildContainer s) :=
  EndsStill.ite h (EndsStill.ite h.rebuildStop (EndsStill.ite h.rebuildStop.raise (have h2 := h.same; Still.ite h2.compare h2)))

theorem Still.catchUp {c : List Byte} [P.Isnt .edge] (h : Still P s0 s) : Still P s0 (s.catchUp p c) := (h.newSlices.pwU).takeFlip

theorem Still.execDeferredPortUpdate {p : PortId} [P.Isnt .edge] (h : Still P s0 s) :
    EndsStill P s0 (execDeferredPortUpdate p s) :=
  .ite h (.ite h (.ite h.catchUp (.ite ((h.each (fun _ _ h1 => h1.catchUp)).loadSequencer) h)))

theorem Still.granAlarm (h : Still P s0 s) : Still P s0 (s.granAlarm w) := .ite h.raiseReg h.raiseReg

theorem Still.laneTest (h : Still P s0 s) : Still P s0 (s.laneTest l ok) := .ite h (h.gnoby.chanError)

theorem Still.execSelfTestSlot {u : TestUnit} [P.Isnt .verd] [P.Isnt .sent] (h : Still P s0 s) :
    EndsStill P s0 (execSelfTestSlot u ok s) := by
  unfold Machine.execSelfTestSlot
  split
  · exact h
  · split
    · exact h.gnoby
    · exact h.raiseReg
    · split
      · exact h.laneTest
      · exact h
    · split
      · exact h.laneTest
      · exact h
    · exact Still.ite (h.gnoby.chanError) h
    · exact Still.ite h.entryTestFailed.wakeRemap h

theorem Still.refillSpare (h : Still P s0 s) : Still P s0 s.refillSpare := by
  unfold State.refillSpare
  split
  · next h2 =>
      exact (h.takeGroup h2)
  · exact h.raise

theorem Still.stagingVoid [P.Isnt .sent] (h : Still P s0 s) : Still P s0 (s.stagingVoid p) :=
  (h.each (fun _ _ h1 => h1.xferFail)).returnGroups.pgU

theorem Still.pageBad [P.Isnt .sent] (h : Still P s0 s) : Still P s0 (s.pageBad n) := by
  unfold State.pageBad
  extract_lets _ _ _ _ s3 s4
  have h3 : Still P s0 s3 := h.setPage.granAlarm
  have h4 : Still P s0 s4 := .ite h3.stagingVoid h3
  exact .ite h4.poolClaim.groupRetired (.ite h4.poolBack.poolClaim.groupRetired.refillSpare h4)

theorem Still.pageCorrected (h : Still P s0 s) : Still P s0 (s.pageCorrected n) := by
  unfold State.pageCorrected
  extract_lets _ _ s1
  have h1 : Still P s0 s1 := h.setPage
  exact .ite h (.ite h1.same.setLine h1)

theorem Still.execScrubRead {r : ScrubResult} [P.Isnt .sent] (h : Still P s0 s) : EndsStill P s0 (execScrubRead r s) := by
  unfold Machine.execScrubRead
  extract_lets _ _ s3 _ _ s4
  have h3 : Still P s0 s3 := h.same
  clear_value s3
  have h4 : Still P s0 s4 := h3.same
  split
  · exact h
  · split
    · split
      · exact h3.raiseReg
      · exact h3
    · split
      · exact h4
      · exact h4.pageCorrected
      · exact Still.ite h4 h4.pageBad

theorem Still.markReloc {v : Bool} (h : Still P s0 s) : Still P s0 (s.markReloc g v) := h.each fun _ _ h1 => h1.setPage

theorem Still.relocStart (h : Still P s0 s) : Still P s0 s.relocStart := by
  unfold State.relocStart
  extract_lets
  split
  · exact h
  · split
    · exact h
    · split
      · exact h.same
      · split
        · exact h
        · exact h.same.markReloc

theorem Still.relocDone {new : Nat} (h : Still P s0 s) : Still P s0 (s.relocDone g new) := by
  unfold State.relocDone
  extract_lets _ s6 s7 _ _ s9 s10
  have h6 : Still P s0 s6 := h.granPut
  have h7 : Still P s0 s7 := h6.each fun _ _ h8 => h8.setPage
  clear_value s7
  have h9 : Still P s0 s9 := h7.same
  have h10 : Still P s0 s10 := h9.poolBack.poolClaim.groupRetired
  exact h10.refillSpare

theorem Still.execRelocationDone (h : Still P s0 s) : EndsStill P s0 (execRelocationDone s) := by
  unfold Machine.execRelocationDone
  extract_lets
  split
  · extract_lets s2
    have h2 : Still P s0 s2 := h.same
    exact (Still.ite h2.relocDone h2).setLine
  · exact h

/-! #### Words of the cores -/

theorem Still.xipTouch (h : Still P s0 s) : Still P s0 (s.xipTouch a) := by
  unfold State.xipTouch
  extract_lets
  split
  · exact h.same
  · exact h

theorem Still.xipStart {b : Bool} (h : Still P s0 s) : Still P s0 (s.xipStart b a) := .ite h.same (.ite h h.same)

theorem Still.deviceRead (h : Still P s0 s) : Still P s0 (s.deviceRead c a).2 := by
  unfold State.deviceRead
  split
  · exact h
  · exact h.operandRead
  · exact h.used

theorem Still.load {size : Nat} {f : State → List Byte → Res} (h : Still P s0 s)
    (hf : ∀ u bs, Still P s0 u → GoesStill P s0 (f u bs)) :
    GoesStill P s0 (s.load c a size align f) := by
  unfold State.load
  split
  · trivial
  · split
    · trivial
    · exact hf _ _ h
    · exact .ite trivial (hf _ _ h)
    · exact .ite trivial (hf _ _ h)
    · exact .ite (hf _ _ h.deviceRead) trivial
    · split
      · exact hf _ _ h.xipTouch
      · exact h.xipStart

theorem Still.loadLong {f : State → List Byte → Res} (h : Still P s0 s)
    (hf : ∀ x0 x1, Still P s0 x0 → GoesStill P s0 (f x0 x1)) :
    GoesStill P s0 (s.loadLong c a f) :=
  h.load (fun _ _ h1 => h1.load (fun _ _ h2 => hf _ _ h2))

theorem Still.store (h : Still P s0 s) : GoesStill P s0 (s.store c a align bs) :=
  .ite trivial (.ite trivial (.ite trivial h.coU))

theorem Still.doubleFault (h : Still P s0 s) : Still P s0 (s.doubleFault c) := by
  unfold State.doubleFault
  extract_lets s2
  have h2 : Still P s0 s2 := h.coU
  split
  · exact h2.linkRestart
  · exact h2.warmRestart

theorem Still.coreGnoby (h : Still P s0 s) : Still P s0 (s.coreGnoby c) := by
  unfold State.coreGnoby
  split
  · exact h.gnoby
  · exact h
  · exact h.gnoby

theorem Still.faultTaken {eaddr : Option Nat} {epc : W24} (h : Still P s0 s) :
    Still P s0 (s.faultTaken c cause eaddr epc from_) := by
  unfold State.faultTaken
  extract_lets _ _ s4 s5 _ _ s6
  have h4 : Still P s0 s4 := h.threadStops.coU
  have h5 : Still P s0 s5 := h.coU
  clear_value s5
  have h6 : Still P s0 s6 := .ite h.used h
  split
  · exact h4.chanError
  · exact h5.same.watchEntry
  · exact .ite h.doubleFault h6.coU

theorem Still.faultWord {eaddr : Option Nat} {epc : W24} (h : Still P s0 s) : Still P s0 (s.faultWord c cause eaddr epc from_) :=
  .ite (h.faultTaken.coreGnoby) h.faultTaken

theorem Still.issue {w : W36} {f : State → Core → Res} (h : Still P s0 s)
    (hf : ∀ u k, Still P s0 u → GoesStill P s0 (f u k)) :
    Still P s0 (s.issue c w f) := by
  unfold State.issue
  extract_lets i s1 k
  have h1 : Still P s0 s1 := h.slotTo
  have fault : ∀ cause ea pc slot, Still P s0 (s1.faultWord c cause ea pc slot) := fun _ _ _ _ => h1.faultWord
  refine .ite h (.ite (fault ..) (.ite (fault ..) (.ite (fault ..) (.ite (fault ..) (.ite (fault ..)
    (.ite (fault ..) (.ite h1.coU (.ite (fault ..) ?_))))))))
  have runs := hf s1 k h1
  split
  · exact fault ..
  · exact fault ..
  · next t e =>
    rw [e] at runs
    exact runs
  · next t jump e =>
    rw [e] at runs
    exact Still.coU runs

theorem Still.result {t' : Dest} {v : W72} {dist : Nat} (h : Still P s0 s) : Still P s0 (s.result c t' v dist) := h.coU

theorem Still.toD {rd : BitVec 4} {v : W36} (h : Still P s0 s) : GoesStill P s0 (toD c rd v s) := h.result

theorem Still.toA {ad : BitVec 3} {v : W24} (h : Still P s0 s) : GoesStill P s0 (toA c ad v s) := h.result

theorem Still.loadD {rg : BitVec 4} {size : Nat} (h : Still P s0 s) : GoesStill P s0 (loadD c rg a size align s) :=
  h.load (fun _ _ h1 => h1.result)

theorem Still.branchOn {rs : BitVec 4} {disp : BitVec 21} {zero : Bool} {k : Core} (h : Still P s0 s) :
    GoesStill P s0 (branchOn c rs disp zero s k) :=
  GoesStill.transfer (.ite trivial h)

/-! #### Kernel engines and key unit -/

theorem Still.kernelBegin (h : Still P s0 s) : Still P s0 (s.kernelBegin e) := by
  unfold State.kernelBegin
  extract_lets _ s4 _ s5 _ _ s6
  have h4 : Still P s0 s4 := h.enU
  have h5 : Still P s0 s5 := h4.keyCheck
  have h6 : Still P s0 s6 := .ite h5.ksU h5.remask
  exact .ite h4 (.ite h6.enU h5.enU)

theorem Still.kernelStart (h : Still P s0 s) : Still P s0 (s.kernelStart e src w) := by
  unfold State.kernelStart
  extract_lets _ _ _ s5 _ s6 s7
  have h5 : Still P s0 s5 := h.enU
  have h6 : Still P s0 s6 := .ite h.ksU h
  have h7 : Still P s0 s7 := h6.enU
  split
  · exact .ite h5.roleAlarm h5
  · split
    · exact h
    · extract_lets
      split
      · next h8 =>
          exact (h7.lvTake h8).kernelBegin
      · exact h7.lvAsk.enU

theorem Still.startCommand {f : KOp → Bool} {e : EngineId} (h : Still P s0 s) : EndsStill P s0 (startCommand f e src w s) := by
  unfold Machine.startCommand
  split <;> exact .ite h.kernelStart h

theorem Still.kernelEnd {result : Nat} (h : Still P s0 s) : Still P s0 (s.kernelEnd e result) := h.poolBack.enU.setLine

theorem Still.chainEnd {integrity : Bool} {done : Bool → State → State} (h : Still P s0 s)
    (hdone : ∀ x0 x1, Still P s0 x1 → Still P s0 (done x0 x1)) :
    Still P s0 (s.chainEnd e j integrity done) := by
  unfold State.chainEnd
  extract_lets s5 s6 _ s7 s8
  have h5 : Still P s0 s5 := h.poolBack
  have h6 : Still P s0 s6 := h5.enU
  clear_value s6
  have h7 : Still P s0 s7 := h6.same
  have h8 : Still P s0 s8 := by
    unfold s8
    split
    · exact .ite h7.pkU h7
    · exact h7
  split
  · exact h.enU
  · split
    · exact h8.chanError.verAgain
    · split
      · exact .ite h6.pkU h6
      · exact .ite (hdone _ _ h6) h6

theorem Still.taskStart (h : Still P s0 s) : Still P s0 (s.taskStart e src t') := h.enU.kernelStart.enU

theorem Still.taskNext (h : Still P s0 s) : Still P s0 s.taskNext := by
  unfold State.taskNext
  extract_lets
  split
  · exact h.same.taskStart
  · exact h

theorem Still.taskAsk (h : Still P s0 s) : Still P s0 (s.taskAsk t') := h.same.taskNext

theorem Still.engineFreed (h : Still P s0 s) : Still P s0 s.engineFreed := h.verStart.taskNext

theorem Still.keyResult (h : Still P s0 s) : Still P s0 (s.keyResult r) := h.same

theorem Still.roleOr {src : KeyIssue} {mayIssue : Bool} {f : State} {cut : Bool} (h : Still P s0 s) (hf : Still P s0 f) :
    Still P s0 (s.roleOr src n mayIssue r f cut) := by
  unfold State.roleOr
  split
  · exact h.keyResult.roleAlarm
  · split
    · exact h.keyResult
    · split
      · exact h.keyResult
      · split
        · exact h.keyResult
        · split
          · exact h.keyCheck.keyResult
          · split
            · exact hf.keyResult
            · exact h.keyResult
            · exact h.ksU.keyResult
            · exact .ite h.keyResult hf.keyResult

theorem Still.keyinDone (h : Still P s0 s) : Still P s0 s.keyinDone := h.same

theorem Still.mkaRestartLane (h : Still P s0 s) : Still P s0 (s.mkaRestartLane l) := (Still.ite h.slotEmptied.lnU h).sakChange

theorem Still.mkaRestart (h : Still P s0 s) : Still P s0 s.mkaRestart :=
  .ite h.mkaRestartLane.mkaRestartLane h.mkaRestartLane.mkaRestartLane

theorem Still.execKeyUnitWrite {src : KeyIssue} {slot : KeySlotId} {attr : W32} (h : Still P s0 s) :
    EndsStill P s0 (execKeyUnitWrite src slot attr s) :=
  .ite (h.roleOr h.place'.keyinDone.mkaRestart) (h.roleOr h.place'.keyinDone)

theorem Still.execKeyUnitGenerate {src : KeyIssue} {slot : KeySlotId} {curve : BitVec 2} {attr : W32} (h : Still P s0 s) :
    EndsStill P s0 (execKeyUnitGenerate src slot curve attr s) :=
  EndsStill.ite (Still.ite (h.roleOr h.used.place') h.keyResult) (h.roleOr h.used.place')

theorem Still.execKeyUnitDerive {src : KeyIssue} {slot : KeySlotId} {parent : BitVec 6} {curve : BitVec 2} {attr : W32}
    {label context : List Byte} (h : Still P s0 s) :
    EndsStill P s0 (execKeyUnitDerive src slot parent curve attr label context s) :=
  .ite (h.roleOr h.place'.mkaRestart) (h.roleOr h.place')

theorem Still.execKeyUnitSetattr {src : KeyIssue} {slot : KeySlotId} {attr : W32} (h : Still P s0 s) :
    EndsStill P s0 (execKeyUnitSetattr src slot attr s) :=
  h.roleOr h.ksU

theorem Still.execKeyUnitRead {src : KeyIssue} {slot : KeySlotId} (h : Still P s0 s) :
    EndsStill P s0 (execKeyUnitRead src slot s) :=
  h.roleOr h.same

theorem Still.execKeyUnitClear {src : KeyIssue} {slot : KeySlotId} (h : Still P s0 s) :
    EndsStill P s0 (execKeyUnitClear src slot s) :=
  h.roleOr h.ksU

theorem Still.execKeyUnitProvenance {src : KeyIssue} {slot : KeySlotId} {nonce : List Byte} (h : Still P s0 s) :
    EndsStill P s0 (execKeyUnitProvenance src slot nonce s) :=
  h.roleOr h.same

theorem Still.rootGenerate {src : KeyIssue} {authorised : Bool} (h : Still P s0 s) : Still P s0 (s.rootGenerate src authorised) :=
  h.roleOr h.same.used

theorem Still.rootVerified (h : Still P s0 s) : Still P s0 (s.rootVerified src ok) := h.same.rootGenerate

/-! #### Mailboxes and fuses -/

theorem Still.takeWords (h : Still P s0 s) : Still P s0 (s.takeWords q n) := h.poolMove.mbU

theorem Still.fuseFire (h : Still P s0 s) : Still P s0 (s.fuseFire src w) := by
  unfold State.fuseFire
  extract_lets _ _ s6
  have h6 : Still P s0 s6 := h.same
  clear_value s6
  split
  · exact h6.burnEnds
  · extract_lets _ _ s7 _ s8 s9
    have h7 : Still P s0 s7 := .ite h6.same h6
    clear_value s7
    have h8 : Still P s0 s8 := h7.same
    have h9 : Still P s0 s9 := h8.lvAsk
    clear_value s9
    split
    · exact h7.burnEnds
    · split
      · exact h7.roleAlarm.burnEnds
      · split
        · exact h7.burnEnds
        · split
          · exact h7.burnEnds
          · split
            · exact h7.burnEnds
            · split
              · exact h7.burnEnds
              · split
                · next h10 =>
                    exact (h8.lvTake h10)
                · exact h9.same

theorem Still.fuseDo {arg : Nat} (h : Still P s0 s) : Still P s0 (s.fuseDo src fn unit arg) := h.fuseFire

theorem Still.execFuseArm (h : Still P s0 s) : EndsStill P s0 (execFuseArm src w s) := by
  unfold Machine.execFuseArm
  extract_lets
  split
  · exact h
  · split
    · exact .ite h.same h
    · exact h.disarm
    · exact h

theorem Still.fireWord (h : Still P s0 s) : Still P s0 (s.fireWord fn src w) := by
  unfold State.fireWord
  split
  · exact h
  · split
    · exact h
    · exact h
    · exact h.disarm
    · split
      · exact h.disarm
      · extract_lets
        exact .ite h.fuseFire h.disarm

theorem Still.copyFails {c : Nat} (h : Still P s0 s) : Still P s0 (s.copyFails a c) := h.same.used.burnFound

theorem Still.burnCopies {l : List (BitVec 14 × Bool × Nat)} {ts : List (Nat × Nat)} (h : Still P s0 s) :
    Still P s0 (s.burnCopies l ts).1 := by
  induction ts generalizing s with
  | nil => exact h
  | cons t ts ih =>
    unfold State.burnCopies
    extract_lets go r
    have one : ∀ x c, Still P s0 x.1 → Still P s0 (go x c).1 := by
      intro x c hx
      unfold go
      extract_lets
      split
      · exact hx
      · split
        · exact hx.copyFails
        · exact hx.same
    have both : Still P s0 r.1 := one _ _ (one _ _ h)
    split
    · exact ih both
    · exact both

theorem Still.execFuseDone {pulses : List (BitVec 14 × Bool × Nat)} (h : Still P s0 s) :
    EndsStill P s0 (execFuseDone pulses s) := by
  unfold Machine.execFuseDone
  extract_lets _ _ s1 _ s2
  have h1 : Still P s0 s1 := h.burnCopies.lcMoved.same
  have h2 : Still P s0 s2 := h1.same
  exact .ite h h2.burnEnds

theorem Still.execLrBurnRetry (h : Still P s0 s) : EndsStill P s0 (execLrBurnRetry s) := by
  unfold Machine.execLrBurnRetry
  extract_lets
  split
  · extract_lets _ s2
    have h2 : Still P s0 s2 := h.same
    exact .ite h2.fuseDo h
  · exact h

theorem Still.resenseDue {word : W32} (h : Still P s0 s) : Still P s0 (s.resenseDue word) := by
  unfold State.resenseDue
  extract_lets
  split <;> exact h.same

theorem Still.execTemperatureThresholdCrossing {inside hot : Bool} (h : Still P s0 s) :
    EndsStill P s0 (execTemperatureThresholdCrossing inside hot s) := by
  unfold Machine.execTemperatureThresholdCrossing
  extract_lets _ s3 s4
  have h3 : Still P s0 s3 := h.same
  have h4 : Still P s0 s4 := .ite (.ite h3.lvDrop.burnEnds h3.burnStop.burnEnds) h3
  exact Still.ite h4.resenseDue h4

theorem Still.finding {r : Resensed} (h : Still P s0 s) : Still P s0 (s.finding a r) := by
  unfold State.finding
  extract_lets new _ s2
  have h2 : Still P s0 s2 := h.same
  clear_value s2
  split
  · exact Still.fuseAlarm h2.same
  · exact Still.fuseAlarm h2.same
  · exact .ite (h2.weakAdd.fuseAlarm) h2
  · exact .ite h2.weakAdd.fuseAlarm h2

theorem Still.resenseNext (h : Still P s0 s) : Still P s0 s.resenseNext := h.same

theorem Still.execResenseDone {findings : List (BitVec 14 × Resensed)} (h : Still P s0 s) :
    EndsStill P s0 (execResenseDone findings s) :=
  .ite h (have h2 := h.each (fun _ _ h1 => h1.finding); .ite h2.fuseEnds h2.resenseNext)

/-! #### Link lanes, transfers, flows of recovery -/

theorem Still.execTrainingTimeout {t' : TrainEnd} (h : Still P s0 s) : EndsStill P s0 (execTrainingTimeout t' s) := by
  unfold Machine.execTrainingTimeout
  extract_lets _ x2 s4 s5 s6
  have h4 : Still P s0 s4 := h.lvBack
  have h5 : Still P s0 s5 := h4.lnU
  have h6 : Still P s0 s6 := by
    unfold s6
    clear_value x2
    split
    · exact h5.lnU
    · exact h5
  exact .ite h h6.laneEvent.laneTrain

theorem Still.execBlockLock {l : LinkId} {peerRates : BitVec 6} (h : Still P s0 s) :
    EndsStill P s0 (execBlockLock l peerRates s) := by
  unfold Machine.execBlockLock
  extract_lets _ s2
  have h2 : Still P s0 s2 := h.lvBack
  split
  · exact h
  · split
    · exact h
    · exact h2.lnU.laneEvent

theorem Still.execMkaLive {l : LinkId} [P.Isnt .sent] (h : Still P s0 s) : EndsStill P s0 (execMkaLive l s) := by
  unfold Machine.execMkaLive
  extract_lets _ s11 s12 s13 _ s14 _ s15 s16 _ s17 s19
  have h11 : Still P s0 s11 := .ite h.ksU h.remask
  have h12 : Still P s0 s12 := h11.drawSak
  have h13 : Still P s0 s13 := h12.lnU
  clear_value s13
  have h14 : Still P s0 s14 := h13.same
  have h15 : Still P s0 s15 := h14.poolGrant.lnU
  have h16 : Still P s0 s16 := h15.tx.laneEvent
  have h17 : Still P s0 s17 := h16.each fun _ _ h18 => h18.resumeXfer
  have h19 : Still P s0 s19 := h17.each fun _ _ h20 => h20.abortFrame
  clear_value s19
  exact .ite h h19.same

theorem Still.rxFrame {h' : TrustHeader} {malformed : Bool} {f : State → State} [P.Isnt .sent] (h : Still P s0 s)
    (hf : ∀ x0, Still P s0 x0 → Still P s0 (f x0)) :
    Still P s0 (s.rxFrame l h' malformed f) :=
  Still.ite h (Still.ite h.laneCount (have h2 := (Still.ite h (h.poolReturn.laneCount)).lnU;
    Still.ite ((h2.poolReturn.laneCount).grantRx) (((hf _ h2.poolMove.laneCount.lnU.txDrain).poolReturn).grantRx)))

theorem Still.rxTyped {type : Nat} {h' : TrustHeader} {wrong : Bool} {f : State → State} [P.Isnt .sent] (h : Still P s0 s)
    (hf : ∀ x0, Still P s0 x0 → Still P s0 (f x0)) :
    Still P s0 (s.rxTyped type l h' payload wrong f) :=
  .ite h (h.rxFrame (fun _ h1 => hf _ h1))

theorem Still.execObjectFrame {l : LinkId} {h' : TrustHeader} [P.Isnt .sent] (h : Still P s0 s) :
    EndsStill P s0 (execObjectFrame l h' payload s) :=
  h.rxTyped (fun _ h1 => .ite h1 (.ite h1.xferFail (have h2 := h1.xfU;
    .ite (Still.getD (fun _ e => h2.stageRange e) h2.stageShort) h2)))

theorem Still.execLeafFrame {l : LinkId} {h' : TrustHeader} [P.Isnt .sent] (h : Still P s0 s) :
    EndsStill P s0 (execLeafFrame l h' payload s) := by
  unfold Machine.execLeafFrame
  extract_lets
  exact h.rxTyped (fun _ h4 => by
      extract_lets _ _ s5
      have h5 : Still P s0 s5 := h4.stagePut
      split
      · exact h4
      · extract_lets _ _ s6
        have h6 : Still P s0 s6 := h5.xfU
        exact .ite h4 (.ite h6.svcAsk h6))

theorem Still.execLeafVerify {xfer : W32} [P.Isnt .sent] (h : Still P s0 s) : EndsStill P s0 (execLeafVerify xfer i s) := by
  unfold Machine.execLeafVerify
  extract_lets _ _ s2
  have h2 : Still P s0 s2 := h.svcDone
  split
  · exact h
  · exact .ite h (.ite h2.xfU.pullMore h2.leafFailed)

theorem Still.execNotice [P.Isnt .sent] (h : Still P s0 s) : EndsStill P s0 (execNotice s) := by
  unfold Machine.execNotice
  extract_lets
  split
  · exact Still.ite h.same.tx h
  · exact h

theorem Still.startImage {e : Entry} {want : List Nat} [P.Isnt .sent] (h : Still P s0 s) : Still P s0 (s.startImage p e want) :=
  h.xferStart

theorem Still.recoveryToken (h : Still P s0 s) : Still P s0 (s.recoveryToken p) := by
  unfold State.recoveryToken
  split
  · exact h
  · split
    · next h2 =>
        exact (h.lvTake h2).flU
    · exact h.lvAsk

theorem Still.flashStart [P.Isnt .verd] [P.Isnt .edge] (h : Still P s0 s) : Still P s0 (s.flashStart p step st) := by
  unfold State.flashStart
  extract_lets _ s3 s4
  have h3 : Still P s0 s3 := h.phU.contExit.pvU
  have h4 : Still P s0 s4 := by
    unfold s4
    split
    · split
      · extract_lets
        exact h3.sendMaster
      · exact h3
    · exact h
  exact h4.peU.flU

theorem Still.flashStep [P.Isnt .verd] [P.Isnt .edge] (h : Still P s0 s) : Still P s0 (s.flashStep p step st) :=
  .ite h.recoveryToken (.ite h h.flashStart)

theorem Still.flowRewake [P.Isnt .verd] [P.Isnt .edge] (h : Still P s0 s) : Still P s0 (s.flowRewake p) :=
  .ite (.ite h.flU.wakeAsk h) (.ite h.flowEnd h)

theorem Still.leafReturn (h : Still P s0 s) : Still P s0 (s.leafReturn p a n) :=
  h.each fun _ _ h1 => .ite h1 h1.returnGroup

theorem Still.flowVerified [P.Isnt .sent] (h : Still P s0 s) : Still P s0 (s.flowVerified p ok) := by
  unfold State.flowVerified
  extract_lets _ _ s4 s5 s6
  have h4 : Still P s0 s4 := h.flU
  have h5 : Still P s0 s5 := h4.xferClose.flU
  have h6 : Still P s0 s6 := .ite h5.stagePut h5
  exact .ite h4.xferFail (.ite h4.xferClose.flU h6.xferStart)

theorem Still.flowCheck [P.Isnt .sent] (h : Still P s0 s) : Still P s0 (s.flowCheck p) := by
  unfold State.flowCheck
  extract_lets
  exact h.flU.verify (fun _ _ h2 => h2.flowVerified)

theorem Still.flowStep [P.Isnt .verd] [P.Isnt .edge] [P.Isnt .sent] (h : Still P s0 s) : Still P s0 (s.flowStep p) := by
  unfold State.flowStep
  extract_lets _ _ s5 _ _ _ s6
  have h5 : Still P s0 s5 := h
  have h6 : Still P s0 s6 := h.xferClose.flU
  split
  · exact .ite h (.ite h.xferFail h.flowCheck)
  · split
    · exact h
    · split
      · exact h.xferFail
      · split
        · split
          · next h7 =>
              exact (((Still.bind (fun _ e => h6.stageRange e) (fun _ _ h8 e => h8.stageRange e) h7)).stagePut).startImage
          · exact h5.stageShort
        · exact h6.startImage
  · exact h.flashStep
  · exact .ite h.pullMore h.flashStep
  · exact h.flashStep
  · exact h.flashStep
  · exact .ite h.flowRewake h

theorem Still.setStaged {x : Slot} (h : Still P s0 s) : Still P s0 (s.setStaged p x) := by
  unfold State.setStaged
  extract_lets s7 _ s8 s9 _ _ _ s12
  have h7 : Still P s0 s7 := h.returnGroups
  have h8 : Still P s0 s8 := h7.poolMove
  have h9 : Still P s0 s9 := h8.each fun _ _ h10 => h10.each (fun _ _ h11 => h11.same)
  clear_value s9
  have h12 : Still P s0 s12 := h9.same
  exact h12.pgU.setLine

theorem Still.restage [P.Isnt .sent] (h : Still P s0 s) : Still P s0 (s.restage p) := by
  unfold State.restage
  extract_lets
  split
  · exact h.flowFail
  · extract_lets
    split
    · exact h
    · next h4 =>
        extract_lets _ s5 _ s6
        have h5 : Still P s0 s5 := ((h.takeGroup h4).granPut).returnGroup
        clear_value s5
        have h6 : Still P s0 s6 := h5.same
        exact h6.xferClose.flowEnd.setLine

theorem Still.execFlowShelfManifest [P.Isnt .verd] [P.Isnt .edge] [P.Isnt .sent] (h : Still P s0 s) :
    EndsStill P s0 (execFlowShelfManifest s) := by
  unfold Machine.execFlowShelfManifest
  extract_lets
  split
  · exact h
  · split
    · exact Still.ite h (Still.ite h.flowCheck h.xferFail)
    · exact h.flashStep
    · exact h

theorem Still.execFlashProgramDone {p : Option PortId} {back : List Byte} [P.Isnt .edge] [P.Isnt .sent] [P.Isnt .home]
    (h : Still P s0 s) :
    EndsStill P s0 (execFlashProgramDone p back s) := by
  unfold Machine.execFlashProgramDone
  extract_lets _ _ _ s6 _ s7 s8 s9 _ _ s10
  have h6 : Still P s0 s6 := by
    unfold s6
    split <;> exact h.chanError
  have h7 : Still P s0 s7 := h.leafReturn
  have h8 : Still P s0 s8 := h7.flU
  have h9 : Still P s0 s9 := h.corePut.flowEnd
  clear_value s9
  have h10 : Still P s0 s10 := h.lvBack.phU
  split
  · exact h
  · split
    · exact Still.ite h6.flowFail h6.flU
    · split
      · exact (Still.ite h.flU h).flowFail
      · split
        · exact Still.ite h8.xferClose h8.pullMore
        · exact .ite h9.same h10.flU
        · exact h.flU

/-! #### Leave, handover, monitors, evidence log -/

theorem Still.leaveUsed [P.Isnt .verd] [P.Isnt .edge] [P.Isnt .sent] (h : Still P s0 s) : Still P s0 (s.leaveUsed u n) := by
  unfold State.leaveUsed
  extract_lets
  split
  · exact h.kernelBegin
  · exact h.enU
  · exact h.wakeGranted
  · exact h.same
  · exact h.lnU.laneEvent
  · exact h.flU
  · exact h.canopyGranted
  · exact h.canopyGranted
  · exact h.linkGranted
  · exact h.seedGranted
  · exact h

theorem Still.execLeaveGrant [P.Isnt .verd] [P.Isnt .edge] [P.Isnt .sent] (h : Still P s0 s) :
    EndsStill P s0 (execLeaveGrant s) := by
  unfold Machine.execLeaveGrant
  extract_lets
  split
  · exact h
  · extract_lets s2
    have h2 : Still P s0 s2 := h.same
    exact h2.lvGrant.leaveUsed

theorem Still.boxFrozen (h : Still P s0 s) : Still P s0 (s.boxFrozen q) :=
  (h.each (fun _ _ h1 => .ite h1.poolBack.poolBack h1)).boxDrop.mbU

theorem Still.poolFrozen (h : Still P s0 s) : Still P s0 (s.poolFrozen q) :=
  .ite h.raiseReg (.ite h.standFault (.ite h.boxFrozen h))

theorem Still.execReconciliationDone {q : BitVec 8} (h : Still P s0 s) : EndsStill P s0 (execReconciliationDone q s) :=
  .ite h (
    have h3 := (h.poU.each fun _ _ h1 => h1.logRec).each fun _ _ h2 => h2.poolBack
    have h6 := h3.censusAlarm.each fun _ _ h5 => h5.poolClaim
    have h7 := Still.ite h6.poolFrozen (Still.ite h6.runtimeDraw h6)
    Still.ite h7.boxReady h7)

theorem Still.execPoolTotalChange {k : StandId} (h : Still P s0 s) : EndsStill P s0 (execPoolTotalChange k s) := by
  unfold Machine.execPoolTotalChange
  extract_lets
  split
  · exact .ite h.poU h
  · exact h

theorem Still.canopyLoad {c : Nat} {b : Bundle} (h : Still P s0 s) : Still P s0 (s.canopyLoad c b) := by
  unfold State.canopyLoad
  extract_lets s4
  have h4 : Still P s0 s4 := h.coresOff
  split
  · exact h4
  · extract_lets s5
    have h5 : Still P s0 s5 := h4.memPut
    split
    · next h6 =>
        exact (h5.lvTake h6).startCore
    · exact h5.lvAsk.coU

theorem Still.handoverEnd {result : Nat} (h : Still P s0 s) : Still P s0 (s.handoverEnd result) := h.same

theorem Still.handoverLoad (h : Still P s0 s) : Still P s0 s.handoverLoad :=
  .ite (h.canopyLoad.same) (h.canopyLoad.handoverEnd)

theorem Still.execTagPass (h : Still P s0 s) : EndsStill P s0 (execTagPass s) := by
  unfold Machine.execTagPass
  extract_lets b u _ v
  have ended : Still P s0 u := h.tagRegion.handoverEnd
  clear_value u
  have tagged : Still P s0 v := ended.same
  exact .ite h (Still.ite tagged tagged.linkRestart)

theorem Still.execServiceLaneJob (h : Still P s0 s) : EndsStill P s0 (execServiceLaneJob s) := by
  unfold Machine.execServiceLaneJob
  split
  · exact Still.ite h.svcDone h
  · exact h.svcDone.handoverLoad
  · exact h

theorem Still.handoverAnswer (h : Still P s0 s) : Still P s0 (s.handoverAnswer q status) := .ite h.respond h

theorem Still.handoverChecked (h : Still P s0 s) : Still P s0 (s.handoverChecked q ok) :=
  Still.ite h.same.handoverAnswer (have h2 := h.coresOff.same; (Still.ite h2.svcAsk h2.handoverLoad).handoverAnswer)

theorem Still.handoverCheck {x : Slot} (h : Still P s0 s) : Still P s0 (s.handoverCheck q x) := by
  unfold State.handoverCheck
  extract_lets _ s4 _ s5
  have h4 : Still P s0 s4 := h.mbU
  clear_value s4
  have h5 : Still P s0 s5 := h4.same
  exact h5.verify (fun _ _ h6 => h6.handoverChecked)

theorem Still.handoverFlip (h : Still P s0 s) : Still P s0 s.handoverFlip := by
  unfold State.handoverFlip
  extract_lets s4 s5
  have h4 : Still P s0 s4 := .ite h.disarm h
  have h5 : Still P s0 s5 := h4.each fun _ _ h6 => .ite h6.mbU h6
  clear_value s5
  exact .ite h (h5.same.setLine)

theorem Still.execHandoverReady (h : Still P s0 s) : EndsStill P s0 (execHandoverReady s) := by
  unfold Machine.execHandoverReady
  extract_lets s3
  have h3 : Still P s0 s3 := h.each fun _ _ h4 => .ite h4.mbU h4
  clear_value s3
  split
  · exact h3.same
  · exact h.handoverFlip
  · exact h

theorem Still.execBankSupplyExcursion {x : BankSupply} (h : Still P s0 s) : EndsStill P s0 (execBankSupplyExcursion x s) := by
  unfold Machine.execBankSupplyExcursion
  split
  · exact h
  · split
    · exact Still.ite h.raiseReg h.bankFails
    · exact h

theorem Still.execAlarmNormalTimer {seq : W32} (h : Still P s0 s) : EndsStill P s0 (execAlarmNormalTimer seq s) := by
  unfold Machine.execAlarmNormalTimer
  extract_lets
  split
  · exact h
  · extract_lets
    exact h.same

theorem Still.cellClear (h : Still P s0 s) : Still P s0 (s.cellClear rank) := h.same

theorem Still.levelBad {normal : Option Nat} (h : Still P s0 s) : Still P s0 (s.levelBad code normal) := h.same

theorem Still.backupTrip {normal : Option Nat} (h : Still P s0 s) : Still P s0 (s.backupTrip code data normal) := by
  unfold State.backupTrip
  extract_lets _ s5 _ _ s6 _ s7 s8
  have h5 : Still P s0 s5 := h.levelBad
  have h6 : Still P s0 s6 := h5.dataUsed
  clear_value s6
  have h7 : Still P s0 s7 := h6.same
  have h8 : Still P s0 s8 := h7.backupLog
  exact .ite h5 (.ite (.ite h8.cellClear h8) (.ite h7.raise h7.backupLog.raise))

theorem Still.tickLevel {bad : Bool} (h : Still P s0 s) : Still P s0 (s.tickLevel code data bad) := .ite h.backupTrip h.same

theorem Still.execBackupTick {mesh : BitVec 4} {tempBad : Bool} (h : Still P s0 s) :
    EndsStill P s0 (execBackupTick mesh tempBad s) := by
  unfold Machine.execBackupTick
  extract_lets _ s5 s6 s8
  have h5 : Still P s0 s5 := h.same
  have h6 : Still P s0 s6 := h5.each fun _ _ h7 => h7.tickLevel
  have h8 : Still P s0 s8 := h6.tickLevel
  clear_value s8
  exact .ite h h8.same

theorem Still.logPut [P.Isnt .edge] [P.Isnt .home] (h : Still P s0 s) : Still P s0 (s.logPut kind body) :=
  .ite h h.homePut.same

theorem Still.logCarry {prev : List Byte} {epoch flags : Nat} [P.Isnt .edge] [P.Isnt .home] (h : Still P s0 s) :
    Still P s0 (s.logCarry k prev epoch flags) :=
  h.same.logPut

theorem Still.segChange [P.Isnt .edge] [P.Isnt .home] (h : Still P s0 s) : Still P s0 s.segChange :=
  ((Still.ite h h.logPut).logCarry.each (fun _ _ h3 => h3.logPut)).same

theorem Still.logRoom [P.Isnt .edge] [P.Isnt .home] (h : Still P s0 s) (e : s.logRoom = some t) : Still P s0 t := by
  unfold State.logRoom at e
  split at e
  · cases e
  · split at e
    · cases e
      exact h
    · split at e
      · cases e
        exact h.segChange
      · cases e

theorem Still.execSegmentErase [P.Isnt .edge] [P.Isnt .home] (h : Still P s0 s) : EndsStill P s0 (execSegmentErase s) := by
  unfold Machine.execSegmentErase
  split
  · extract_lets s2
    have h2 : Still P s0 s2 := h.homeErase
    clear_value s2
    exact .ite h2.same h
  · exact h

theorem Still.nextRecord {r : LogRec} (h : Still P s0 s) (e : s.nextRecord = some (r, t)) : Still P s0 t := by
  unfold State.nextRecord at e
  split at e
  · cases e
    exact .ite (Still.setLine h.same) h.same
  · cases e
    exact h.same
  · split at e
    · cases e
      exact h.same
    · cases e

theorem Still.execLogAppend [P.Isnt .edge] [P.Isnt .home] (h : Still P s0 s) : EndsStill P s0 (execLogAppend ok s) := by
  unfold Machine.execLogAppend
  split
  · exact h
  · split
    · exact h
    · next h3 =>
        split
        · exact (h.logRoom h3)
        · next h4 =>
            exact (((h.logRoom h3).nextRecord h4)).logPut

theorem Still.backupClear {w : W128} {t' : List W128} (h : Still P s0 s) : Still P s0 (s.backupClear w t') := h.same

theorem Still.execBackupLogDrain [P.Isnt .edge] [P.Isnt .home] (h : Still P s0 s) : EndsStill P s0 (execBackupLogDrain s) := by
  unfold Machine.execBackupLogDrain
  split
  · exact h
  · split
    · split
      · exact h.mend.backupClear.parityAlarm
      · split
        · exact h
        · next h4 =>
            exact ((h.logRoom h4).logPut).backupClear
    · split
      · exact h
      · split
        · exact h
        · next h5 =>
            extract_lets s6
            have h6 : Still P s0 s6 := (h.logRoom h5).logPut
            clear_value s6
            exact h6.same

theorem Still.logTake {epoch first : Nat} {x : Scan} {stop : Nat} (h : Still P s0 s) :
    Still P s0 (s.logTake k epoch first x stop) :=
  h.same

theorem Still.execLogScan [P.Isnt .edge] [P.Isnt .home] (h : Still P s0 s) : EndsStill P s0 (execLogScan s) := by
  unfold Machine.execLogScan
  extract_lets _ s4
  have h4 : Still P s0 s4 := h.same
  split
  · exact h
  · split
    · exact h4.raiseReg
    · extract_lets _ _ _ _ _ s5 s6
      have h5 : Still P s0 s5 := h.logTake
      have h6 : Still P s0 s6 := .ite h5.logPut h5
      exact .ite h4.raiseReg (.ite h.logTake h6.raiseReg)

/-! #### Register window and MSPI -/

theorem Still.rsLatch (h : Still P s0 s) : Still P s0 (s.rsLatch a) := h.each fun _ _ h1 => h1.same

theorem Still.windowTake (h : Still P s0 s) : Still P s0 (s.windowTake a).1 := by
  unfold State.windowTake
  split
  · exact h.rsLatch
  · exact h.same

theorem Still.windowPut {v : W32} (h : Still P s0 s) : Still P s0 (s.windowPut a v) := by
  unfold State.windowPut
  extract_lets
  split
  · exact h.same
  · exact .ite h.same (.ite h.pgU h.same)

theorem Still.mspiCount (h : Still P s0 s) : Still P s0 (s.mspiCount i) := h.same.maxNote

theorem Still.lastResult (h : Still P s0 s) : Still P s0 (s.lastResult r) := h.same

theorem Still.mspiBad {ctr result : Nat} (h : Still P s0 s) : Still P s0 (s.mspiBad ctr result) := h.mspiCount.lastResult

theorem Still.mspiSilent (h : Still P s0 s) : Still P s0 s.mspiSilent := h.same

theorem Still.mspiIgnored (h : Still P s0 s) : Still P s0 s.mspiIgnored := h.mspiBad.mspiSilent

theorem Still.hostError (h : Still P s0 s) : Still P s0 (s.hostError e) := .ite h.mspiBad h.mspiBad

theorem Still.returns {crc : W32} (h : Still P s0 s) : Still P s0 (s.returns ws crc clocked) := h.same

theorem Still.execMspiWriteWords (h : Still P s0 s) : EndsStill P s0 (execMspiWriteWords m s) := by
  unfold Machine.execMspiWriteWords
  extract_lets _ _ _ s3
  have h3 : Still P s0 s3 := h.same
  split
  · exact h
  · split
    · exact h3.mspiBad
    · split
      · exact h3.hostError
      · extract_lets s4
        have h4 : Still P s0 s4 := h3.poolMove.mbU
        exact EndsStill.ite h3.mspiBad (EndsStill.ite h3.mspiBad ((Still.ite h4.setLine h4).lastResult))

theorem Still.mspiAck (h : Still P s0 s) : Still P s0 (s.mspiAck q) := .ite (.ite h.mbU h) h.same.boxFlush

theorem Still.crcSettle (h : Still P s0 s) : Still P s0 s.crcSettle := h.same

theorem Still.mspiHigh (h : Still P s0 s) : Still P s0 s.mspiHigh := h.mspiCount.mspiSilent

theorem Still.mspiDeliver {max : Nat} {ended : Bool} (h : Still P s0 s) : Still P s0 (s.mspiDeliver addr q max clocked ended) :=
  h.mbU.returns.crcSettle

theorem Still.mspiRead {ended : Bool} (h : Still P s0 s) : Still P s0 (s.mspiRead addr clocked ended) :=
  Still.ite h.same ((Still.ite h.mspiAck h).mspiDeliver)

theorem Still.windowWords {seen zero : Bool} (h : Still P s0 s) : Still P s0 (s.windowWords a seen zero n).1 := by
  induction n generalizing s a seen zero with
  | zero => exact h
  | succ n ih =>
    unfold State.windowWords
    extract_lets hit r w
    have first : Still P s0 r.1 := by
      unfold r
      split
      · exact h
      · exact h.windowTake
    exact ih first

theorem Still.windowFrame (h : Still P s0 s) : Still P s0 (s.windowFrame addr clocked) := h.windowWords.returns

theorem Still.execRegisterWindowWrite (h : Still P s0 s) : EndsStill P s0 (execRegisterWindowWrite m s) := by
  unfold Machine.execRegisterWindowWrite
  extract_lets
  split
  · exact h
  · split
    · exact h.mspiIgnored
    · split
      · exact h.mspiBad
      · split
        · exact h.hostError
        · exact (h.each (fun _ _ h2 => h2.windowPut)).lastResult

theorem Still.mspiCut {cmd : Byte} (h : Still P s0 s) : Still P s0 (s.mspiCut cmd addr clocked) :=
  .ite h.same (.ite (.ite h.mspiRead h.mspiSilent) (.ite (.ite h.windowFrame h.mspiSilent) h))

theorem Still.execMspiStall {x : StallIn} (h : Still P s0 s) : EndsStill P s0 (execMspiStall x s) := by
  unfold Machine.execMspiStall
  extract_lets s2
  have h2 : Still P s0 s2 := by
    unfold s2
    split
    · exact h.mspiCut
    · exact h
  exact EndsStill.ite h (Still.ite h2.mspiBad h2.mspiCount)

theorem Still.abortMerge (h : Still P s0 s) : Still P s0 s.abortMerge := h.same

theorem Still.abortPke (h : Still P s0 s) : Still P s0 (s.abortPke e) := .ite h (.ite h.abortMerge h.abortEngine)

theorem Still.abortLane [P.Isnt .sent] (h : Still P s0 s) : Still P s0 (s.abortLane l) := by
  unfold State.abortLane
  extract_lets _ _ s2
  have h2 : Still P s0 s2 := h.used
  split
  · split
    · exact h2.pkU
    · exact h2
  · split
    · exact h.svcFails
    · split
      · exact h
      · extract_lets
        split
        · exact h2.pgU.bump
        · exact h2

theorem Still.abortPort {f : Option FrameIn} [P.Isnt .verd] [P.Isnt .edge] [P.Isnt .sent] (h : Still P s0 s) :
    Still P s0 (s.abortPort p f) := by
  unfold State.abortPort
  extract_lets s4 _ s5 s6
  have h4 : Still P s0 s4 := by
    unfold s4
    split
    · exact .ite h.frame h
    · exact h
  have h5 : Still P s0 s5 := .ite h4.pkU h4
  have h6 : Still P s0 s6 := .ite h5.phU h5
  exact h6.flowFail

theorem Still.abortThread {t' : Nat} (h : Still P s0 s) : Still P s0 (s.abortThread t') := .ite h (h.restartThread.pdU)

theorem Still.abortLinkLane [P.Isnt .sent] (h : Still P s0 s) : Still P s0 (s.abortLinkLane l) :=
  Still.ite h (have h1 := h.laneLeave; (Still.ite h1 (h1.each (fun _ _ h2 => h2.xfU))).laneTrain)

theorem Still.abortBox (h : Still P s0 s) : Still P s0 (s.abortBox q) :=
  Still.ite h (have h1 := h.boxEmpty; (Still.ite h1.fuseStop h1).boxReady.poolMove.mbU)

theorem Still.abortOne {f : Option FrameIn} {x : Nat × Nat} [P.Isnt .verd] [P.Isnt .edge] [P.Isnt .sent] (h : Still P s0 s) :
    Still P s0 (s.abortOne f x) := by
  unfold State.abortOne
  split
  · exact h.abortPke
  · exact h.abortLane
  · exact h.abortPort
  · exact h.abortThread
  · exact h.abortLinkLane
  · exact h.abortBox
  · exact h

theorem Still.abortDo {f : Option FrameIn} {again : Bool} [P.Isnt .verd] [P.Isnt .edge] [P.Isnt .sent] (h : Still P s0 s) :
    Still P s0 (s.abortDo fn i f again) :=
  (h.each (fun _ _ h1 => .ite h1.abortMerge h1.abortOne)).same

theorem Still.abortFrameIn {f : Option FrameIn} [P.Isnt .verd] [P.Isnt .edge] [P.Isnt .sent] (h : Still P s0 s) :
    Still P s0 (s.abortFrameIn m f) := by
  unfold State.abortFrameIn
  extract_lets
  split
  · exact h.mspiIgnored
  · split
    · exact h.mspiBad
    · split
      · exact h.hostError
      · exact .ite h.mspiBad h.abortDo.lastResult

theorem Still.abortCommand {mine : Nat → Bool} {f : Option FrameIn} [P.Isnt .verd] [P.Isnt .edge] [P.Isnt .sent]
    (h : Still P s0 s) : EndsStill P s0 (abortCommand mine m f s) :=
  .ite h h.abortFrameIn

theorem Still.execRequestTimeout (h : Still P s0 s) : EndsStill P s0 (execRequestTimeout mb s) := by
  unfold Machine.execRequestTimeout
  extract_lets
  split
  · exact h
  · exact .ite h h.takeWords.mbU.respond

theorem Still.messageLine {cores : List Nat} (h : Still P s0 s) : Still P s0 (s.messageLine cores) :=
  h.each fun _ _ h1 => h1.coU

theorem Still.execRegisterWrite {r : DevReg} {v : W32} (h : Still P s0 s) : EndsStill P s0 (execRegisterWrite src r v s) := by
  unfold Machine.execRegisterWrite
  extract_lets _ s4 _ s5
  have h4 : Still P s0 s4 := .ite h.disarm h
  clear_value s4
  have h5 : Still P s0 s5 := h4.same
  split
  · extract_lets s6
    have h6 : Still P s0 s6 := h.enU
    exact EndsStill.ite h (Still.ite h6.setLine h6)
  · exact EndsStill.ite h (Still.ite h5.setLine h5)
  · exact .ite h h4.same
  · exact .ite h.roleAlarm (.ite h.same h)
  · exact EndsStill.ite h.roleAlarm (EndsStill.ite (Still.ite h.stU h.standRefuses) h)
  · exact h
  · exact .ite h4.same h
  · exact .ite h.roleAlarm (.ite h.poolMove.mbU h)
  · split
    · exact h.messageLine
    · exact h.messageLine
    · exact h.messageLine
    · exact h

/-! #### Requests -/

theorem Still.answer (h : Still P s0 s) : Still P s0 (s.answer q status ws) := h.respond

theorem Still.takeRequest {h' : Nat} (h : Still P s0 s) : Still P s0 (s.takeRequest q h' n) := by
  unfold State.takeRequest
  extract_lets s3 _ s4
  have h3 : Still P s0 s3 := h.takeWords.mbU
  clear_value s3
  have h4 : Still P s0 s4 := h3.same
  exact .ite h4 h4.setLine

theorem Still.parityBad {h' : Nat} (h : Still P s0 s) : Still P s0 (s.parityBad q h' n) := h.takeRequest.answer.parityAlarm

theorem Still.command {states : List DevState} {mb0 : Bool} {len : Nat → Bool} {run : Nat → List W32 → State → State}
    (h : Still P s0 s) (hrun : ∀ x0 x1 x2, Still P s0 x2 → Still P s0 (run x0 x1 x2)) :
    EndsStill P s0 (s.command mb code states mb0 len run) := by
  unfold State.command
  extract_lets
  split
  · exact h
  · extract_lets s2
    have h2 : Still P s0 s2 := h.takeRequest
    exact Still.ite h.parityBad (Still.ite (hrun _ _ _ h2) h2.answer)

theorem Still.shentiha {mb0 : Bool} {len : Nat → Bool} {run : Nat → List W32 → State → State} (h : Still P s0 s)
    (hrun : ∀ x0 x1 x2, Still P s0 x2 → Still P s0 (run x0 x1 x2)) :
    EndsStill P s0 (s.shentiha mb code mb0 len run) :=
  h.command fun _ _ _ h1 => hrun _ _ _ h1

theorem Still.homeFailed [P.Isnt .edge] [P.Isnt .home] (h : Still P s0 s) : Still P s0 (s.homeFailed q a n) :=
  h.corePut.used.chanError.logRec.answer

theorem Still.homeProgram [P.Isnt .edge] [P.Isnt .home] (h : Still P s0 s) : Still P s0 (s.homeProgram q a i ws ok) :=
  .ite h.corePut.homeSends.answer h.homeFailed

theorem Still.execCmdObjectOpen (h : Still P s0 s) : EndsStill P s0 (execCmdObjectOpen mb s) :=
  h.shentiha (fun _ _ _ h1 => .ite h1.answer (.ite h1.answer (.ite h1.answer h1.same.answer)))

theorem Still.closeObject (h : Still P s0 s) : Still P s0 (s.closeObject q) := .ite h.same h

theorem Still.consume {f : List Byte → State → State} (h : Still P s0 s)
    (hf : ∀ x0 x1, Still P s0 x1 → Still P s0 (f x0 x1)) :
    Still P s0 (s.consume q kind f) := by
  unfold State.consume
  split
  · exact hf _ _ h.closeObject
  · exact h.closeObject.answer

theorem Still.callVerify {obj : List Byte} {job : VerUse → ChainJob} {done : Bool → State → State} (h : Still P s0 s)
    (hdone : ∀ x0 x1, Still P s0 x1 → Still P s0 (done x0 x1)) :
    Still P s0 (s.callVerify q code ws obj job done) :=
  h.mbU.verify (fun _ _ h1 => hdone _ _ h1)

theorem Still.callTaken (h : Still P s0 s) : Still P s0 (s.callTaken q) := h.mbU

theorem Still.policySubmitted [P.Isnt .edge] [P.Isnt .home] (h : Still P s0 s) : Still P s0 (s.policySubmitted q ok) :=
  .ite h.answer (.ite h.answer h.takePolicy.coreErase.corePut.same.answer)

theorem Still.execCmdPolicySubmit [P.Isnt .edge] [P.Isnt .home] (h : Still P s0 s) : EndsStill P s0 (execCmdPolicySubmit mb s) :=
  h.shentiha (fun _ _ _ h1 => h1.consume (fun _ _ h2 => .ite h2.answer (.ite h2.answer
    (h2.callVerify (fun _ _ h3 => h3.policySubmitted)))))

theorem Still.execCmdRewake [P.Isnt .verd] [P.Isnt .edge] (h : Still P s0 s) : EndsStill P s0 (execCmdRewake mb s) :=
  h.shentiha (fun _ _ _ h1 => .ite h1.answer (.ite h1.answer (.ite h1.answer h1.wakeAsk.answer)))

theorem Still.dispense {c : List Byte} [P.Isnt .verd] (h : Still P s0 s) : Still P s0 (s.dispense p x c) :=
  h.pvU.keepSlot.voidPinsOf.phU.writeRecord.logRec

theorem Still.dispensed [P.Isnt .verd] (h : Still P s0 s) : Still P s0 (s.dispensed q ok) := by
  unfold State.dispensed
  extract_lets
  split
  · exact h.dispense.answer
  · exact h.answer

theorem Still.execCmdDispensation [P.Isnt .verd] (h : Still P s0 s) : EndsStill P s0 (execCmdDispensation mb s) :=
  h.shentiha (fun _ _ _ h1 => h1.consume (fun _ _ h2 => .ite h2.answer (h2.callVerify (fun _ _ h3 => h3.dispensed))))

theorem Still.execCmdClearHold (h : Still P s0 s) : EndsStill P s0 (execCmdClearHold mb s) :=
  h.shentiha (fun _ _ _ h1 => have h5 := (h1.each (fun _ _ h2 => h2.standRefuses)).each (fun _ _ h4 => h4.phU);
    .ite h5.answer h5.answer)

theorem Still.execCmdAlarmRank (h : Still P s0 s) : EndsStill P s0 (execCmdAlarmRank mb s) := by
  unfold Machine.execCmdAlarmRank
  exact h.shentiha (fun _ _ _ h3 => by
      extract_lets
      split
      · exact h3.answer
      · split
        · exact h3.answer
        · extract_lets s4
          have h4 : Still P s0 s4 := .ite h3.same h3.same
          exact h4.answer)

theorem Still.execCmdLogOwner [P.Isnt .edge] [P.Isnt .home] (h : Still P s0 s) : EndsStill P s0 (execCmdLogOwner mb s) := by
  unfold Machine.execCmdLogOwner
  exact h.shentiha fun _ _ u hu => by
    extract_lets n
    split
    · exact hu.answer
    · split
      · exact hu.answer
      · split
        · exact hu.answer
        · next v e =>
          split at e
          · exact (hu.logRoom e).logPut.answer
          · cases e

theorem Still.logRestart [P.Isnt .edge] [P.Isnt .home] (h : Still P s0 s) : Still P s0 s.logRestart := h.homeErase.same.logCarry

theorem Still.logRestarted [P.Isnt .edge] [P.Isnt .home] (h : Still P s0 s) : Still P s0 (s.logRestarted q ok) :=
  .ite h.answer (.ite h.answer h.logRestart.answer)

theorem Still.execCmdLogRestart [P.Isnt .edge] [P.Isnt .home] (h : Still P s0 s) : EndsStill P s0 (execCmdLogRestart mb s) :=
  h.shentiha (fun _ _ _ h1 => h1.consume (fun _ _ h2 => .ite h2.answer (.ite h2.answer
    (h2.callVerify (fun _ _ h3 => h3.logRestarted)))))

theorem Still.keyAnswer (h : Still P s0 s) : Still P s0 (s.keyAnswer q ws) := h.answer

theorem Still.keyinSet (h : Still P s0 s) : Still P s0 (s.keyinSet ws) := h.same

theorem Still.execCmdKeyWrite (h : Still P s0 s) : EndsStill P s0 (execCmdKeyWrite mb s) :=
  h.shentiha (fun _ _ _ h1 => .ite h1.answer (have h2 := h1.keyinSet; (Still.after h2 h2.execKeyUnitWrite).keyAnswer))

theorem Still.execCmdKeyRead (h : Still P s0 s) : EndsStill P s0 (execCmdKeyRead mb s) :=
  h.shentiha (fun _ _ _ h1 => Still.ite h1.answer (have h2 := Still.after h1 h1.execKeyUnitRead; (Still.ite h2.same h2).keyAnswer))

theorem Still.provAnswer (h : Still P s0 s) : Still P s0 (s.provAnswer q body status ws) := .ite h.answer h

theorem Still.provSign {pub : List Byte} (h : Still P s0 s) : Still P s0 (s.provSign q body pub) := h.taskAsk

theorem Still.execCmdKeyProvenance (h : Still P s0 s) : EndsStill P s0 (execCmdKeyProvenance mb s) :=
  h.shentiha (fun _ _ _ h1 => .ite h1.answer (
    have h2 := Still.after h1 h1.execKeyUnitProvenance
    .ite h2.keyAnswer (.ite h2.answer (.ite h2.answer (have h3 := h2.mbU; .ite h3.taskAsk h3.provSign)))))

theorem Still.rootGenerated (h : Still P s0 s) : Still P s0 (s.rootGenerated q ok) :=
  .ite h.answer (h.rootGenerate.keyAnswer)

theorem Still.execCmdRootGenerate (h : Still P s0 s) : EndsStill P s0 (execCmdRootGenerate mb s) :=
  h.shentiha (fun _ _ _ h1 => .ite (h1.consume (fun _ _ h2 => .ite h2.answer
    (h2.callVerify (fun _ _ h3 => h3.rootGenerated)))) h1.rootGenerated)

theorem Still.execCmdIdentity (h : Still P s0 s) : EndsStill P s0 (execCmdIdentity mb s) := by
  unfold Machine.execCmdIdentity
  exact h.shentiha (fun _ _ _ h2 => by
      extract_lets
      split
      · exact .ite h2.answer h2.answer
      · exact .ite h2.answer h2.answer
      · exact .ite h2.answer h2.answer
      · exact h2.answer)

theorem Still.fuseFor (h : Still P s0 s) : Still P s0 (s.fuseFor q code) := h.same

theorem Still.fuseCmd (h : Still P s0 s) : Still P s0 (s.fuseCmd q code src fn unit a) := .ite h.answer h.fuseFor.fuseDo

theorem Still.grantFuse (h : Still P s0 s) : Still P s0 (s.grantFuse fn unit) := h.same

theorem Still.fuseRun (h : Still P s0 s) : Still P s0 (s.fuseRun q code ws) :=
  Still.ite ((Still.ite h.same h).fuseCmd) (Still.ite h.fuseCmd h.fuseCmd)

theorem Still.fuseVerified (h : Still P s0 s) : Still P s0 (s.fuseVerified q ok) := by
  unfold State.fuseVerified
  extract_lets _ _ s2
  have h2 : Still P s0 s2 := h.callTaken
  exact .ite h2.answer (.ite h2.answer h2.grantFuse.fuseRun)

theorem Still.fuseAuthorised (h : Still P s0 s) : Still P s0 (s.fuseAuthorised q fn a code ws) :=
  h.consume (fun _ _ h1 => .ite h1.answer (.ite h1.answer (h1.callVerify (fun _ _ h2 => h2.fuseVerified))))

theorem Still.execCmdFuseBurn (h : Still P s0 s) : EndsStill P s0 (execCmdFuseBurn mb s) :=
  h.shentiha (fun _ _ _ h1 => .ite h1.answer (.ite h1.answer (.ite h1.answer (.ite h1.fuseAuthorised h1.fuseRun))))

theorem Still.execCmdFuseLock (h : Still P s0 s) : EndsStill P s0 (execCmdFuseLock mb s) :=
  h.shentiha (fun _ _ _ h1 => .ite h1.answer (.ite h1.answer (.ite h1.fuseAuthorised h1.fuseRun)))

theorem Still.execCmdFuseRevoke (h : Still P s0 s) : EndsStill P s0 (execCmdFuseRevoke mb s) :=
  h.shentiha (fun _ _ _ h1 => .ite h1.answer (.ite h1.answer (.ite h1.answer h1.fuseCmd)))

theorem Still.execCmdFuseRead (h : Still P s0 s) : EndsStill P s0 (execCmdFuseRead mb s) := by
  unfold Machine.execCmdFuseRead
  exact h.shentiha (fun _ _ _ h2 => by
      extract_lets
      split
      · exact .ite h2.answer h2.answer
      · exact .ite h2.answer h2.answer
      · exact .ite h2.answer h2.answer
      · exact .ite h2.answer h2.answer
      · exact h2.answer)

theorem Still.execCmdLcAdvance (h : Still P s0 s) : EndsStill P s0 (execCmdLcAdvance mb s) :=
  h.shentiha (fun _ _ _ h1 => .ite h1.answer (.ite h1.answer (.ite h1.fuseAuthorised h1.fuseRun)))

theorem Still.execCmdHandoverPrepare (h : Still P s0 s) : EndsStill P s0 (execCmdHandoverPrepare mb s) :=
  h.shentiha (fun _ _ _ h1 => .ite h1.answer (.ite h1.answer (.ite h1.answer (.ite h1.answer h1.handoverCheck))))

theorem Still.reinstated {k : ChannelKind} [P.Isnt .edge] (h : Still P s0 s) : Still P s0 (s.reinstated k i) := by
  unfold State.reinstated
  extract_lets _ s2
  have h2 : Still P s0 s2 := h.chU.shU
  split
  · exact h.chU.enU
  · exact h.chU.lnU
  · exact h.chU.holdPort.phU
  · exact (h.chU.holdPort.phU).pgU
  · exact .ite (Still.after h2 h2.execScheduleContainerLoad) h.chU
  · exact h.chU

theorem Still.execCmdReinstate {probes : BitVec 3} [P.Isnt .edge] (h : Still P s0 s) :
    EndsStill P s0 (execCmdReinstate mb probes s) := by
  unfold Machine.execCmdReinstate
  exact h.shentiha (fun _ _ _ h3 => by
      split
      · exact h3.answer
      · extract_lets _ _ s4
        have h4 : Still P s0 s4 := h3.reinstated.logRec
        exact .ite h3.answer (.ite h3.answer (.ite h3.answer h4.answer)))

theorem Still.execCmdChannelStatus (h : Still P s0 s) : EndsStill P s0 (execCmdChannelStatus mb s) := by
  unfold Machine.execCmdChannelStatus
  exact h.shentiha (fun _ _ _ h2 => by
      split <;> exact h2.answer)

theorem Still.slotErase {guard_ : Slot → Nat} [P.Isnt .edge] [P.Isnt .home] (h : Still P s0 s) :
    Still P s0 (s.slotErase q ws guard_) :=
  .ite h.answer (.ite h.answer (.ite h.answer h.coreErase.answer))

theorem Still.slotWrite {guard_ : Slot → Nat} [P.Isnt .edge] [P.Isnt .home] (h : Still P s0 s) :
    Still P s0 (s.slotWrite q ws ok guard_) :=
  .ite h.answer (.ite h.answer h.homeProgram)

theorem Still.execCmdRepairReburn (h : Still P s0 s) : EndsStill P s0 (execCmdRepairReburn mb s) :=
  h.command (fun _ _ _ h1 => .ite h1.answer (.ite h1.answer (.ite h1.answer h1.fuseCmd)))

theorem Still.loadGood {x : Slot} (h : Still P s0 s) : Still P s0 (s.loadGood x) := by
  unfold State.loadGood
  extract_lets s5 _ _ s7 s8
  have h5 : Still P s0 s5 := h.each fun _ _ h6 => h6.boxEmpty
  clear_value s5
  have h7 : Still P s0 s7 := (h5.loadImages.tagRegion).deriveDeviceId
  have h8 : Still P s0 s8 := h7.deriveAlias
  clear_value s8
  exact .ite h5.same h8.same

theorem Still.execCmdLoadCommit (h : Still P s0 s) : EndsStill P s0 (execCmdLoadCommit mb s) := by
  unfold Machine.execCmdLoadCommit
  exact h.command (fun _ _ _ h4 => by
      extract_lets
      split
      · exact h4.answer
      · split
        · exact h4.answer
        · next h5 =>
            extract_lets s6
            have h6 : Still P s0 s6 := (h4.seedDraw h5).seedReturn
            exact .ite h6.loadGood h6.answer)

theorem Still.factory {af : Bool} (h : Still P s0 s) : Still P s0 (s.factory af) := h.same.used.lcMoved

theorem Still.execCmdVendorProductionService (h : Still P s0 s) : EndsStill P s0 (execCmdVendorProductionService mb s) := by
  unfold Machine.execCmdVendorProductionService
  extract_lets
  split
  · exact h
  · extract_lets s3
    have h3 : Still P s0 s3 := h.takeRequest
    split
    · exact h.parityBad
    · split
      · exact h3.answer
      · split
        · exact h3.answer
        · split
          · extract_lets s4
            have h4 : Still P s0 s4 := by
              unfold s4
              split
              · exact .ite h3.factory h3
              · exact h3
            exact h4.answer
          · exact h3.answer

theorem Still.execUnknownCommandCode (h : Still P s0 s) : EndsStill P s0 (execUnknownCommandCode mb s) := by
  unfold Machine.execUnknownCommandCode
  extract_lets
  split
  · exact h
  · exact Still.ite h.parityBad h.takeRequest.answer

theorem Still.flowBegin {a : RecoverArg} {slot : Slot} {total : Nat} (h : Still P s0 s) :
    Still P s0 (s.flowBegin key a slot step total) :=
  h.flU

theorem Still.flowStarted (h : Still P s0 s) : Still P s0 (s.flowStarted q key) := h.answer

theorem Still.serveStage {a : RecoverArg} (h : Still P s0 s) (e : s.serveStage a = some t) : Still P s0 t := by
  unfold State.serveStage at e
  extract_lets at e
  split at e
  · exact Still.bind (fun _ e => h.stageRange e) (fun _ _ hu e => hu.stageRange e) e
  · exact h.stageRange e

theorem Still.recover {a : RecoverArg} [P.Isnt .sent] (h : Still P s0 s) : Still P s0 (s.recover q a) := by
  unfold State.recover
  extract_lets _ _ _ _ s7 s8 _ s9
  have h7 : Still P s0 s7 := h.flowBegin
  have h8 : Still P s0 s8 := .ite h7.flU h7
  have h9 : Still P s0 s9 := h.lastGoodCheck
  split
  · exact h.answer
  · split
    · exact h.answer
    · split
      · split
        · exact h.answer
        · split
          · exact h.answer
          · next h10 =>
              extract_lets s11
              have h11 : Still P s0 s11 := (h8.serveStage h10).pgU
              exact h11.xferStart.flowStarted
      · split
        · exact h.answer
        · extract_lets s12
          have h12 : Still P s0 s12 := h.flowBegin
          exact h12.xferStart.flowStarted
      · exact h.flowBegin.xferStart.flowStarted
      · exact .ite h9.answer h9.flowBegin.xferStart.flowStarted

theorem Still.execCmdLinkCak (h : Still P s0 s) : EndsStill P s0 (execCmdLinkCak mb s) :=
  h.shentiha (fun _ _ _ h1 => .ite h1.answer (.ite h1.answer (
    have h3 := Still.ite (have h2 := h1.keyinSet; Still.after h2 h2.execKeyUnitWrite) (Still.after h1 h1.execKeyUnitDerive)
    Still.ite h3.keyAnswer h3.same.answer)))

theorem Still.spdmReply {m : List Byte} [P.Isnt .sent] (h : Still P s0 s) : Still P s0 (s.spdmReply l x m) := h.same.spdmFlush

theorem Still.spdmDone {m : List Byte} [P.Isnt .sent] (h : Still P s0 s) : Still P s0 (s.spdmDone l x m) := by
  unfold State.spdmDone
  extract_lets
  split
  · exact h.same.spdmFlush
  · exact h

theorem Still.spdmSegment {h' : TrustHeader} {mine : Nat → Bool} {f : State → List Byte → State} [P.Isnt .sent]
    (h : Still P s0 s) (hf : ∀ x0 x1, Still P s0 x0 → Still P s0 (f x0 x1)) :
    Still P s0 (s.spdmSegment l h' payload mine f) := by
  unfold State.spdmSegment
  extract_lets
  exact .ite h (h.rxTyped (fun _ h2 => by
      extract_lets
      split
      · exact hf _ _ h2.lnU
      · exact h2.lnU))

theorem Still.spdmAnswer {h' : TrustHeader} {reply : State → List Byte → List Byte}
    {note : LaneLink → List Byte → LaneLink} [P.Isnt .sent] (h : Still P s0 s) :
    Still P s0 (s.spdmAnswer l h' payload code reply note) :=
  h.spdmSegment fun _ _ h1 => h1.lnU.spdmReply

theorem Still.spdmSigned {context : String} {transcript msg : List Byte} [P.Isnt .sent] (h : Still P s0 s) :
    Still P s0 (s.spdmSigned l x context transcript msg) :=
  .ite h.spdmReply h.same.taskAsk

theorem Still.execSpdmGetMeasurements {l : LinkId} {h' : TrustHeader} {index : Byte} {signed : Bool} {nonce : List Byte}
    [P.Isnt .sent] (h : Still P s0 s) :
    EndsStill P s0 (execSpdmGetMeasurements l h' payload index signed nonce s) :=
  h.spdmSegment (fun _ _ h1 => .ite h1.spdmReply (.ite h1.spdmReply (.ite h1.spdmReply (have h2 := h1.lnU;
    .ite h2.spdmSigned h2.spdmReply))))

/-! #### What the end of an operation does -/

theorem Still.callDone [P.Isnt .verd] [P.Isnt .edge] [P.Isnt .home] (h : Still P s0 s) : Still P s0 (s.callDone q ok) := by
  unfold State.callDone
  split
  · exact h.policySubmitted
  · exact h.dispensed
  · exact h.logRestarted
  · exact h.rootGenerated
  · exact h.fuseVerified
  · exact h.fuseVerified
  · exact h.fuseVerified
  · exact h

theorem Still.verDone [P.Isnt .verd] [P.Isnt .edge] [P.Isnt .sent] [P.Isnt .home] (h : Still P s0 s) :
    Still P s0 (s.verDone j ok) := by
  unfold State.verDone
  split
  · exact h
  · exact h.shelfVerified
  · exact h.policyVerified
  · exact h.callDone
  · exact h.flowVerified
  · exact h.handoverChecked
  · exact h.rootVerified

theorem Still.taskDone {x : KRun} [P.Isnt .sent] (h : Still P s0 s) : Still P s0 (s.taskDone t' code x) := by
  unfold State.taskDone
  extract_lets
  split
  · extract_lets
    exact .ite h.provAnswer h.provSign
  · exact .ite h.provAnswer h.provAnswer
  · exact h.spdmDone

theorem Still.enginesOut [P.Isnt .verd] [P.Isnt .edge] [P.Isnt .sent] [P.Isnt .home] (h : Still P s0 s) :
    Still P s0 s.enginesOut :=
  .ite h ((h.same.each (fun _ _ h2 => .ite h2.verDone h2)).each (fun _ _ h4 => h4.taskDone))

theorem Still.execKernelOperationDone {e : EngineId} {integrity : Bool} [P.Isnt .verd] [P.Isnt .edge] [P.Isnt .sent]
    [P.Isnt .home] (h : Still P s0 s) :
    EndsStill P s0 (Machine.execKernelOperationDone e integrity s) := by
  unfold Machine.execKernelOperationDone
  extract_lets k taken s1
  have h1 : Still P s0 s1 := h.used
  split
  · exact h.chanError
  · split
    · exact h
    · split
      · exact (h.chainEnd fun _ _ hu => hu.verDone).engineFreed
      · split
        · exact h
        · extract_lets x code s2 shown s3 s4 s5
          have h2 : Still P s0 s2 := by
            unfold s2
            split
            · exact .ite h1.placeKey h1
            · exact h1
          have h4 : Still P s0 s4 := h2.outRelease.enU.kernelEnd
          have h5 : Still P s0 s5 := .ite h4.chanError (.ite h4.chanError h4)
          show Still P s0 (State.engineFreed _)
          refine Still.engineFreed ?_
          split
          · exact h5.taskDone
          · exact h5

theorem Still.rideClear (h : Still P s0 s) : Still P s0 (s.rideClear i) := .ite h.enU.setLine h

theorem Still.execKernelAbortDone {e : EngineId} [P.Isnt .sent] (h : Still P s0 s) :
    EndsStill P s0 (execKernelAbortDone e s) := by
  unfold Machine.execKernelAbortDone
  extract_lets _ _ s6 s7 s8 s9 s10
  have h6 : Still P s0 s6 := h.outRelease.enU
  have h7 : Still P s0 s7 := .ite h6.engineGone h6.poolBack.enU
  have h8 : Still P s0 s8 := .ite h6.engineGone.enU h6.kernelEnd
  have h9 : Still P s0 s9 := .ite h8.setLine h8
  have h10 : Still P s0 s10 := by
    unfold s10
    split
    · split
      · exact .ite h7.pkU h7
      · exact .ite h7.verAgain h7
    · split
      · exact .ite h9 h9.taskDone
      · exact h9
  exact .ite h h10.rideClear.engineFreed

/-! #### Short words, interrupts, execute in place -/

theorem Still.shortOp {k : Core} {drop : Bool} (h : Still P s0 s) : GoesStill P s0 (shortOp c k x drop s) := by
  unfold Machine.shortOp
  extract_lets x2
  clear_value x2
  split
  · exact h.load (fun _ _ h4 => Still.ite h4 h4.result)
  · exact h.load (fun _ _ h5 => Still.ite h5 h5.result)
  · exact h.store
  · exact h.load (fun _ _ h6 => Still.ite h6 h6.result)
  · exact h.store
  · exact h.pdU
  · split
    · exact Still.ite h h.result
    · exact h

theorem Still.pairOps {x y : BitVec 16} {k : Core} (h : Still P s0 s) : GoesStill P s0 (pairOps c x y s k) := by
  unfold Machine.pairOps
  extract_lets drop
  have first : GoesStill P s0 (Machine.shortOp c k x.toNat drop s) := h.shortOp
  split
  · next u _ e =>
    rw [e] at first
    have second : GoesStill P s0 (Machine.shortOp c k y.toNat false u) := Still.shortOp first
    split
    · exact h.shortOp
    · exact second
  · exact first

theorem Still.issuePair {cc : BitVec 3} {slot1 : Bool} {op other : BitVec 16} (h : Still P s0 s) :
    Still P s0 (s.issuePair c cc slot1 op other) :=
  h.issue fun _ _ h1 => h1.pairOps

theorem Still.takeEvent (h : Still P s0 s) : Still P s0 (s.takeEvent c) := by
  unfold State.takeEvent
  extract_lets
  split
  · exact h
  · exact h.pdU.coU

theorem Still.decisionIn {w : W36} (h : Still P s0 s) : Still P s0 (s.decisionIn c w) := h.pdU

theorem Still.execInterruptTaken (h : Still P s0 s) : EndsStill P s0 (execInterruptTaken c s) := by
  unfold Machine.execInterruptTaken
  extract_lets
  split
  · exact h.coU.faultWord
  · split
    · split
      · exact h
      · exact h.used.coU
    · exact h

theorem Still.xipFill {line : Nat} {data : List Byte} (h : Still P s0 s) : Still P s0 (s.xipFill line data) := h.same

theorem Still.xipNext (h : Still P s0 s) : Still P s0 s.xipNext := by
  unfold State.xipNext
  extract_lets
  split <;> exact h.same

theorem Still.execXipFetchDone (h : Still P s0 s) : EndsStill P s0 (execXipFetchDone ok s) := by
  unfold Machine.execXipFetchDone
  extract_lets s6 s7 _ s8
  have h6 : Still P s0 s6 := .ite h h.chanError.gnoby
  clear_value s6
  have h7 : Still P s0 s7 := h6.same
  clear_value s7
  have h8 : Still P s0 s8 := h7.chanError.xipNext
  split
  · exact h
  · extract_lets
    split
    · exact h
    · split
      · exact h6
      · split
        · extract_lets s9 s10
          have h9 : Still P s0 s9 := h7.xipFill
          have h10 : Still P s0 s10 := h9.xipTouch
          clear_value s10
          exact EndsStill.ite h9.xipNext (Still.ite h10.same h10.xipNext)
        · exact .ite h7.same (.ite h8.faultWord h8)

theorem Still.tick [P.Isnt .verd] [P.Isnt .edge] [P.Isnt .sent] [P.Isnt .cyc] [P.Isnt .home] (h : Still P s0 s) :
    Still P s0 (tick s) :=
  .ite ((h.censusCheck.handoverFlip.enginesOut.unless .cyc).each (fun _ _ h3 => .ite h3.coU h3)) h

theorem Still.release (h : Still P s0 s) : Still P s0 (s.release p) := h.poolGrant.same.pushEvent.logRec.runtimeDraw

theorem Still.execPortRelease {k : StandId} {meets : Meets} (h : Still P s0 s) : EndsStill P s0 (execPortRelease k meets s) := by
  unfold Machine.execPortRelease
  split
  · exact h
  · split
    · exact h.standFails
    · exact h
    · exact h.release
    · exact h.same
    · exact h.poolGrant.standFails.reconcile

/-! ### The commands -/

/-- The commands that may change a part. -/
def Part.moves : Part → Instr → Bool
  | .queue, _ => false
  | .verd, c => setsVerdict c
  | .edge, c => movesEdge c
  | .sent, c => sendsFrames c
  | .cyc, c => setsCyc c
  | .home, c => writesHome c

/-- A part that a command leaves alone is none that it may change. -/
theorem Part.isnt {c : Instr} {Q : Part} (still : P.moves c = false) (moved : Q.moves c = true) : P.Isnt Q :=
  ⟨fun e => by rw [e, moved] at still; cases still⟩

/-- A command leaves every part alone that it is not named for. -/
theorem exec_still (c : Instr) (still : P.moves c = false) : EndsStill P s (exec c s) := by
  have h : Still P s s := Still.refl
  have verd : setsVerdict c = true → P.Isnt .verd := Part.isnt (Q := .verd) still
  have edge : movesEdge c = true → P.Isnt .edge := Part.isnt (Q := .edge) still
  have sent : sendsFrames c = true → P.Isnt .sent := Part.isnt (Q := .sent) still
  have cyc : setsCyc c = true → P.Isnt .cyc := Part.isnt (Q := .cyc) still
  have home : writesHome c = true → P.Isnt .home := Part.isnt (Q := .home) still
  cases c
  all_goals dsimp only [exec]
  case supplyGood => exact have := verd rfl; have := edge rfl; have := sent rfl; have := cyc rfl; h.execSupplyGood
  case supplyNotGood => exact have := verd rfl; have := edge rfl; have := sent rfl; have := cyc rfl; h.execSupplyNotGood
  case fuseSenseDone => exact h.execFuseSenseDone
  case seedCoreRelease => exact have := cyc rfl; h.execSeedCoreRelease
  case refclkLoss => exact .ite h (have h1 := h.same; Still.ite h1 h1.raiseReg)
  case refclkHoldoverExpiry =>
    have := verd rfl; have := edge rfl; have := sent rfl; have := cyc rfl
    exact Still.ite h.clockFail h
  case pllLockLoss =>
    have := verd rfl; have := edge rfl; have := sent rfl; have := cyc rfl
    exact .ite (h.raiseReg.clockFail) h
  case refclkReturn | keyoutExpiry | coincidenceWindowClose | objectBufferTimeout => exact h.same
  case bundleHeadersRead => exact h.execBundleHeadersRead
  case bundleCandidateRead => exact h.execBundleCandidateRead
  case bundleSignatureVerified => exact h.execBundleSignatureVerified
  case canopyRelease => exact h.execCanopyRelease
  case canopyLeaveReturn => exact Still.ite h.lvBack h
  case linkCoreRelease => exact have := sent rfl; Still.ite h.linkAsk h
  case scheduleContainerLoad => exact have := edge rfl; h.execScheduleContainerLoad
  case canopyWatchdogExpiry => exact Still.ite h.warmRestart h
  case warmRestartEntryDone => exact h.execWarmRestartEntryDone
  case runtimeLaneScheduleReload => exact .ite (h.same.runtimeDraw) h
  case wakeAutoStart => exact have := verd rfl; have := edge rfl; .ite h.wakeAsk h
  case wakeEntryEnd => exact have := verd rfl; have := edge rfl; have := sent rfl; h.execWakeEntryEnd
  case wakeRound => exact have := verd rfl; have := edge rfl; h.execWakeRound
  case wakeLaneJob => exact h.execWakeLaneJob
  case wakeFrameBoundary => exact .ite h h.wakeRemap
  case shelfManifestDecide => exact h.execShelfManifestDecide
  case chainVerifyStart => exact h.execChainVerifyStart
  case hashSignatureVerify => exact .ite h h.pkU
  case drainEnd => exact have := verd rfl; .ite h (.ite h.wakeCut h.same)
  case verdictStage => exact have := verd rfl; have := edge rfl; h.execVerdictStage
  case handback =>
    have := edge rfl
    exact .ite h (have h1 := h.contExit.sendMaster; .ite h1.handbackDone h1.chanError)
  case standStaggerExpiry => exact .ite h.openNext h
  case portRelease => exact h.execPortRelease
  case settleExpiry => exact .ite h (have h1 := h.phU; Still.ite h1.poolReturn h1)
  case pgFall => exact have := verd rfl; h.execPgFall
  case pgRise => exact Still.ite h.phU h
  case shadowMismatch => exact h.execShadowMismatch
  case hostFrame | profileBreach => exact have := verd rfl; have := edge rfl; have := sent rfl; h.frame
  case busyTimerExpiry => exact h.pwU
  case stallTimeout => exact have := verd rfl; have := edge rfl; have := sent rfl; Still.ite h h.frame
  case contExitFrame => exact have := edge rfl; .ite h.contExit h
  case ruleLookupResult => exact h.execRuleLookupResult
  case rebuildStart => exact .ite h (.ite h.same.setLine (h.same.setLine.each (fun _ _ h3 => h3.pwU)))
  case rebuildContainer => exact have := edge rfl; h.execRebuildContainer
  case generationFlip => exact Still.ite h.takeFlip h
  case deferredPortUpdate => exact have := edge rfl; h.execDeferredPortUpdate
  case gleanHalfLeaf => exact h.execGleanHalfLeaf
  case serviceLaneJob => exact h.execServiceLaneJob
  case selfTestSlot => exact have := verd rfl; have := sent rfl; h.execSelfTestSlot
  case laneTestRequest => exact .ite h.same h.laneTest
  case deferredLaneTest => exact .ite h.same.laneTest h
  case scrubRead => exact have := sent rfl; h.execScrubRead
  case relocationStart => exact h.relocStart
  case relocationWaitExpiry => exact h.same.relocStart
  case relocationDone => exact h.execRelocationDone
  case serveSlotRead => exact Still.ite h.serveSlot h
  case xipMiss => exact .ite h.xipStart h
  case xipFetchDone => exact h.execXipFetchDone
  case tagPass => exact h.execTagPass
  case nop => exact h.issue (fun _ _ h1 => h1)
  case alu | addi | andi | ori | xori | shfi | movl | movh | exti => exact h.issue (fun _ _ h1 => h1.toD)
  case cmp | cmpi | tst | mul | macy => exact h.issue (fun _ _ h1 => h1.result)
  case mvy => exact h.issue (fun _ _ h1 => .ite h1.result h1.toD)
  case adda | mova => exact h.issue (fun _ _ h1 => h1.toA)
  case mva => exact h.issue (fun _ _ h1 => .ite h1.toA (.ite h1.toD h1.toA))
  case ldb | ldh | ldw | ldf => exact h.issue (fun _ _ h1 => h1.loadD)
  case ldy => exact h.issue (fun _ _ h1 => h1.loadLong (fun _ _ h2 => h2.result))
  case lda => exact h.issue (fun _ _ h1 => h1.load (fun _ _ h2 => h2.result))
  case stb | sth | stw | stf | sty | sta => exact h.issue (fun _ _ h1 => h1.store)
  case br => exact h.issue (fun _ _ h1 => GoesStill.transfer h1)
  case bz | bnz => exact h.issue (fun _ _ h1 => h1.branchOn)
  case bal => exact h.issue (fun _ _ h1 => GoesStill.transfer h1.result)
  case jr => exact h.issue (fun _ _ h1 => GoesStill.transfer (.ite trivial (Still.ite h1.result h1)))
  case wev => exact h.issue (fun _ _ h1 => .ite h1.coU h1.takeEvent)
  case wevResume => exact .ite h (have h1 := h.slotsPass; Still.ite h1 (h1.coU.takeEvent))
  case lkp => exact h.issue (fun _ _ h1 => h1.pdU)
  case dcs => exact h.issue (fun _ _ h1 => h1.decisionIn)
  case acw => exact h.issue (fun _ _ h1 => .ite h1 h1.pdU)
  case mfs => exact h.issue (fun _ _ h1 => .ite trivial ((Still.ite h1.coU h1).toD))
  case mts => exact h.issue (fun _ _ h1 => .ite h1.result h1.coU)
  case fence => exact h.issue (fun _ _ h1 => h1.coU.each (fun _ _ h2 => h2.storeOut))
  case trap => exact h.issue (fun _ _ h1 => trivial)
  case eret => exact h.issue (fun _ _ h1 => GoesStill.transfer (.ite trivial h1.coU))
  case halt => exact h.issue (fun _ _ h1 => h1.coU)
  case wfi => exact h.issue (fun _ _ h1 => Still.ite h1 h1.coU)
  case wfiWake => exact .ite h.coU h
  case snop | sAdd | sSub | sAnd | sOr | sXor | sMov | sAddi | sMovi | sShi | sSari | sXf | sSeq | sSltu | sSlt | sCmp | sLwx |
      sLfx | sSwx | sLwo | sSwo | sAdda | sMva | sMvd | sRank | sPopc | sMac | sMvy | sDcs =>
    exact h.issuePair
  case interruptTaken => exact h.execInterruptTaken
  case linkCoreReloaded => exact have := sent rfl; h.execLinkCoreReloaded
  case rsaPub | rsaPssVerify | rsaCrt | modmul | modexp | ecdsaVerify | ecdsaSign | ecdh | ecPubgen | ed25519Verify |
      mldsaVerify =>
    exact h.startCommand
  case operandMemoryWrite => exact .ite h.raise (.ite h.enU (.ite h.enU h))
  case kernelOperationDone =>
    have := verd rfl; have := edge rfl; have := sent rfl; have := home rfl
    exact h.execKernelOperationDone
  case kernelAbortDone => exact have := sent rfl; h.execKernelAbortDone
  case keyUnitWrite => exact h.execKeyUnitWrite
  case keyUnitGenerate => exact h.execKeyUnitGenerate
  case keyUnitDerive => exact h.execKeyUnitDerive
  case keyUnitSetattr => exact h.execKeyUnitSetattr
  case keyUnitRead => exact h.execKeyUnitRead
  case keyUnitClear => exact h.execKeyUnitClear
  case keyUnitProvenance => exact h.execKeyUnitProvenance
  case rootGenerateFunction => exact Still.ite (h.same.verify (fun _ _ h1 => h1.rootVerified)) h.rootGenerate
  case slotRemask => exact Still.ite h (Still.ite h.remask h.slotBad.raiseReg)
  case fuseArm => exact h.execFuseArm
  case fuseArmWindowExpiry => exact Still.ite h.disarm h
  case fuseFireBurn | fuseFireLock | fuseFireAdvance | fuseFireRevoke | fuseFireReburn => exact h.fireWord
  case fuseResense => exact .ite h ((Still.ite h.disarm h).resenseDue)
  case fuseLeaveTimeout => exact Still.ite h.lvDrop.burnEnds h
  case fuseDone => exact h.execFuseDone
  case temperatureThresholdCrossing => exact h.execTemperatureThresholdCrossing
  case resenseDone => exact h.execResenseDone
  case supplyGlitch | dieTemperatureAlarm => exact .ite h h.raiseReg
  case bankSupplyExcursion => exact h.execBankSupplyExcursion
  case threadWatchdogExpiry => exact .ite ((h.raiseReg.threadStops).chanError) h
  case keyRedraw => exact Still.ite h.drawSlotKeys h
  case alarmNormalTimer => exact h.execAlarmNormalTimer
  case backupTick => exact h.execBackupTick
  case caseSwitchChange => exact .ite h (have h1 := h.same; .ite h1.same h1.backupTrip)
  case vbatGlitch | clock32Loss => exact .ite h.backupTrip h
  case logAppend => exact have := edge rfl; have := home rfl; h.execLogAppend
  case segmentErase => exact have := edge rfl; have := home rfl; h.execSegmentErase
  case logScan => exact have := edge rfl; have := home rfl; h.execLogScan
  case backupLogDrain => exact have := edge rfl; have := home rfl; h.execBackupLogDrain
  case leaveGrant => exact have := verd rfl; have := edge rfl; have := sent rfl; h.execLeaveGrant
  case reconciliationDone => exact h.execReconciliationDone
  case poolTotalChange => exact h.execPoolTotalChange
  case probe => exact have := verd rfl; have := edge rfl; have := sent rfl; h.execProbe
  case bucketDecay => exact .ite h h.chU
  case lrBurnRetry => exact h.execLrBurnRetry
  case retirementReapply => exact have := verd rfl; have := sent rfl; h.execRetirementReapply
  case handoverReady => exact h.execHandoverReady
  case handoverReadyTimeout => exact .ite h (h.lvDrop.canopyLoad.handoverEnd)
  case handoverReload => exact .ite h (h.canopyLoad.same)
  case lossOfSignal => exact have := sent rfl; .ite h (h.laneLeave.lnU)
  case signalPresent => exact .ite h h.lnU.laneTrain
  case trainingTimeout => exact h.execTrainingTimeout
  case blockLock => exact h.execBlockLock
  case blockLockLoss => exact have := sent rfl; .ite h (h.laneLeave.chanError)
  case mkaLive => exact have := sent rfl; h.execMkaLive
  case sakChangeDue => exact h.sakChange
  case sakChangeDone => exact .ite h h.placeKey.slotEmptied.lnU.sakNext
  case hello => exact have := sent rfl; .ite h h.lnU.txDrain.grantRx
  case credit => exact have := sent rfl; h.rxTyped (fun _ h1 => h1)
  case creditTimer => exact have := sent rfl; h.tx
  case objectFrame => exact have := sent rfl; h.execObjectFrame
  case leafFrame => exact have := sent rfl; h.execLeafFrame
  case abortFrame => exact have := sent rfl; h.rxTyped (fun _ h1 => Still.ite h1.xferDrop h1)
  case notice => exact have := sent rfl; h.execNotice
  case spdmGetVersion | spdmGetCapabilities | spdmNegotiateAlgorithms | spdmGetDigests | spdmGetCertificate =>
    have := sent rfl
    exact h.spdmAnswer
  case spdmChallenge =>
    have := sent rfl
    exact h.spdmSegment (fun _ _ h1 => Still.ite h1.spdmReply (Still.ite h1.spdmReply h1.lnU.spdmSigned))
  case spdmGetMeasurements => exact have := sent rfl; h.execSpdmGetMeasurements
  case spdmSegmentTimeout => exact h.lnU
  case objectTimeout => exact have := sent rfl; .ite h h.xferFail
  case leafVerify => exact have := sent rfl; h.execLeafVerify
  case leafTimeout => exact have := sent rfl; .ite h h.leafFailed
  case autonomousEntry => exact .ite h.same h
  case transferSuspendExpiry => exact have := sent rfl; .ite h.xferFail h
  case flowReprogram | flowManifestOnly => exact have := verd rfl; have := edge rfl; have := sent rfl; Still.ite h.flowStep h
  case flowServeSet =>
    have := verd rfl; have := edge rfl; have := sent rfl
    exact .ite h (.ite (Still.ite h.pullMore h.xferClose.setStaged.flU) h.flowStep)
  case flowRestage => exact have := sent rfl; .ite h (Still.ite h.pullMore h.flU.restage)
  case flowShelfManifest => exact have := verd rfl; have := edge rfl; have := sent rfl; h.execFlowShelfManifest
  case flashProgramDone => exact have := edge rfl; have := sent rfl; have := home rfl; h.execFlashProgramDone
  case mspiWriteWords => exact h.execMspiWriteWords
  case mspiReadWords => exact .ite h (.ite h.mspiHigh h.mspiRead)
  case mspiStatus => exact .ite h h.returns
  case mspiIdentityRead | signatureWindowEnd => exact .ite h h.same
  case registerWindowRead => exact .ite h (.ite h.mspiIgnored (.ite h.mspiHigh h.windowFrame))
  case registerWindowWrite => exact h.execRegisterWindowWrite
  case rsLatchRead => exact .ite h.windowTake.returns h
  case registerWrite => exact h.execRegisterWrite
  case mspiStall => exact h.execMspiStall
  case abortPke | abortLane | abortPort | abortThread | abortLink | abortMailbox =>
    have := verd rfl; have := edge rfl; have := sent rfl
    exact h.abortCommand
  case requestTimeout => exact h.execRequestTimeout
  case cmdGetInfo | cmdAlarmList | cmdLogStatus | cmdLinkStatus | cmdHandoverStatus =>
    exact h.shentiha (fun _ _ _ h1 => h1.answer)
  case cmdSetMspi => exact h.shentiha (fun _ _ _ h1 => Still.ite h1.answer h1.answer.same)
  case cmdWarmRestart => exact h.shentiha (fun _ _ _ h1 => Still.ite h1.warmRestart h1.answer)
  case cmdAbort =>
    have := verd rfl; have := edge rfl; have := sent rfl
    exact h.shentiha (fun _ _ _ h1 => Still.ite h1.answer h1.abortDo.answer)
  case cmdObjectOpen => exact h.execCmdObjectOpen
  case cmdObjectWrite | cmdAlarmAck => exact h.shentiha (fun _ _ _ h1 => Still.ite h1.answer (Still.ite h1.answer h1.same.answer))
  case cmdObjectClose => exact h.shentiha (fun _ _ _ h1 => Still.ite h1.same.answer h1.answer)
  case cmdPolicySubmit => exact have := edge rfl; have := home rfl; h.execCmdPolicySubmit
  case cmdWakeStart =>
    have := verd rfl; have := edge rfl
    exact h.shentiha (fun _ _ _ h1 => Still.ite h1.answer (Still.ite h1.answer h1.wakeAsk.answer))
  case cmdRewake => exact have := verd rfl; have := edge rfl; h.execCmdRewake
  case cmdDispensation => exact have := verd rfl; h.execCmdDispensation
  case cmdGetVerdicts | cmdGetMeasurement | cmdPortStatus | cmdLogRead | cmdKeyInfo | cmdPageMap | cmdRecoverStatus =>
    exact h.shentiha (fun _ _ _ h1 => Still.ite h1.answer h1.answer)
  case cmdRevocationPrecheck | cmdLinkPeer => exact h.shentiha (fun _ _ _ h1 => Still.ite h1.answer h1.same.answer)
  case cmdClearHold => exact h.execCmdClearHold
  case cmdHomeErase =>
    have := edge rfl; have := home rfl
    exact h.shentiha (fun _ _ _ h1 => Still.ite h1.answer (Still.ite h1.answer h1.coreErase.answer))
  case cmdHomeWrite => exact have := edge rfl; have := home rfl; h.shentiha (fun _ _ _ h1 => Still.ite h1.answer h1.homeProgram)
  case cmdAlarmRank => exact h.execCmdAlarmRank
  case cmdLogOwner => exact have := edge rfl; have := home rfl; h.execCmdLogOwner
  case cmdLogRestart => exact have := edge rfl; have := home rfl; h.execCmdLogRestart
  case cmdKeyWrite => exact h.execCmdKeyWrite
  case cmdKeyGenerate =>
    exact h.shentiha (fun _ _ _ h1 => Still.ite h1.answer ((Still.after h1 h1.execKeyUnitGenerate).keyAnswer))
  case cmdKeyDerive => exact h.shentiha (fun _ _ _ h1 => Still.ite h1.answer ((Still.after h1 h1.execKeyUnitDerive).keyAnswer))
  case cmdKeySetattr => exact h.shentiha (fun _ _ _ h1 => Still.ite h1.answer ((Still.after h1 h1.execKeyUnitSetattr).keyAnswer))
  case cmdKeyRead => exact h.execCmdKeyRead
  case cmdKeyClear => exact h.shentiha (fun _ _ _ h1 => Still.ite h1.answer ((Still.after h1 h1.execKeyUnitClear).keyAnswer))
  case cmdKeyProvenance => exact h.execCmdKeyProvenance
  case cmdRootGenerate => exact h.execCmdRootGenerate
  case cmdIdentity => exact h.execCmdIdentity
  case cmdFuseBurn => exact h.execCmdFuseBurn
  case cmdFuseLock => exact h.execCmdFuseLock
  case cmdFuseAdvance | cmdFuseReburn => exact h.shentiha (fun _ _ _ h1 => Still.ite h1.answer (Still.ite h1.answer h1.fuseCmd))
  case cmdFuseRevoke => exact h.execCmdFuseRevoke
  case cmdFuseResense => exact h.shentiha (fun _ _ _ h1 => Still.ite h1.answer h1.fuseFor.resenseDue)
  case cmdFuseRead => exact h.execCmdFuseRead
  case cmdLcAdvance => exact h.execCmdLcAdvance
  case cmdRecover => exact have := sent rfl; h.shentiha (fun _ _ _ h1 => Still.ite h1.recover h1.answer)
  case cmdRecoverCancel =>
    have := sent rfl
    exact h.shentiha (fun _ _ _ h1 => Still.ite h1.answer ((Still.ite h1.flU h1.flowFail).answer))
  case cmdLinkCak => exact h.execCmdLinkCak
  case cmdHandoverPrepare => exact h.execCmdHandoverPrepare
  case cmdReinstate => exact have := edge rfl; h.execCmdReinstate
  case cmdChannelStatus => exact h.execCmdChannelStatus
  case cmdBundleErase => exact have := edge rfl; have := home rfl; h.shentiha (fun _ _ _ h1 => h1.slotErase)
  case cmdBundleWrite => exact have := edge rfl; have := home rfl; h.shentiha (fun _ _ _ h1 => h1.slotWrite)
  case cmdRepairList => exact h.command (fun _ _ _ h1 => Still.ite h1.answer (Still.ite h1.answer h1.answer))
  case cmdRepairReburn => exact h.execCmdRepairReburn
  case cmdLoadErase => exact have := edge rfl; have := home rfl; h.command (fun _ _ _ h1 => h1.slotErase)
  case cmdLoadWrite => exact have := edge rfl; have := home rfl; h.command (fun _ _ _ h1 => h1.slotWrite)
  case cmdLoadCommit => exact h.execCmdLoadCommit
  case cmdVendorProductionService => exact h.execCmdVendorProductionService
  case mkaLifeExpiry => exact have := sent rfl; .ite h h.laneLeave
  case macsecDrop => exact .ite h h.laneCount.laneEvent
  case malformedFrame => exact have := sent rfl; .ite (h.rxFrame (fun _ h1 => h1)) h
  case spdmUnsupportedRequest => exact have := sent rfl; h.spdmSegment (fun _ _ h1 => h1.spdmReply)
  case mspiIgnoredFrame => exact Still.ite h h.mspiIgnored
  case unknownCommandCode => exact h.execUnknownCommandCode
  case illegalInstruction =>
    exact .ite (have h1 := h.slotTo; Still.ite h1.faultWord (Still.ite h1.faultWord h1.faultWord)) h
  case homePortFrameComplete => exact h.setLine
  case backupDomainSupplied => exact h.same.backupCold

end

end

/-- Settles O60, part by part, from `exec_still`. -/
theorem onlyTheseCommandsSetVerdicts : Obligations.OnlyTheseCommandsSetVerdicts := by
  intro s t c e
  have still : ∀ P : Part, P.moves c = false → Still P s t := fun P quiet => by
    have ends := exec_still (s := s) c quiet
    rwa [e] at ends
  exact ⟨still .queue rfl, still .verd, still .edge, still .sent, still .cyc⟩

end Sys2Proof.Machine
end

section
-- In parallel these proofs take more threads than the memory limit has room for.
set_option Elab.async false

namespace Sys2Proof.Machine

open Sys2Proof

/-! ### O20: the verdict stage and the handback -/

/-! #### What the verdict of a port is read from -/

/-- The parts of the state that the verdict of port `p` is read from. -/
def State.evidence (s : State) (p : Nat) := (s.wake, s.wport, s.chans, s.fuses, s.lastGood p)

theorem verdictOf_of_evidence {s t : State} {p : Nat} (same : t.evidence p = s.evidence p) : t.verdictOf p = s.verdictOf p := by
  simp only [State.evidence, Prod.mk.injEq] at same
  obtain ⟨wake, wport, chans, fuses, last⟩ := same
  have pk : t.pk = s.pk := by funext i; unfold State.pk; rw [wport]
  have pol : t.pol = s.pol := by unfold State.pol; rw [wake]
  have left : t.engineLeft = s.engineLeft := by unfold State.engineLeft State.chanRetired State.ch; rw [chans]
  have read : t.allRead p = s.allRead p := by unfold State.allRead; rw [pk, pol]
  have form : t.manFormOk p = s.manFormOk p := by unfold State.manFormOk; rw [pk, pol]
  have key : t.manKeyOk p = s.manKeyOk p := by unfold State.manKeyOk; rw [form, pk, pol, fuses]
  have shelf : t.shelfBad p = s.shelfBad p := by unfold State.shelfBad; rw [wake]
  have entry : t.portEntry p = s.portEntry p := by funext x; unfold State.portEntry State.portRecord; rw [wake, pk, pol]
  have check : t.slotCheck p = s.slotCheck p := by funext x; unfold State.slotCheck; rw [entry, pk, pol]
  unfold State.verdictOf
  rw [pk, pol, left, read, form, key, shelf, entry, check, last, wake, fuses]

/-! #### One port is decided (R86 to R88) -/

/-- What the verdict of port `p` is read from, with the verdict record of the port. -/
def State.judged (s : State) (p : Nat) := (s.evidence p, s.pv p)

theorem OnlyGroups.judged {s t : State} (h : OnlyGroups s t) (p : Nat) : t.judged p = s.judged p := by
  obtain ⟨gran, leave, rfl⟩ := h
  rfl

theorem returnGroup_onlyGroups (s : State) (use g : Nat) : OnlyGroups s (s.returnGroup use g) := by
  have back : OnlyGroups s (s.poolBack 9 (useHolder use) 8) := ⟨s.gran, _, rfl⟩
  exact back.trans (dropGroup_onlyGroups ..)

theorem OnlyAlarms.judged {s t : State} (h : OnlyAlarms s t) (p : Nat) : t.judged p = s.judged p := by
  have same := congrArg (State.judged · p) h
  exact same

/-- The verdict, the reason and the chosen slot of a record. -/
def PVerd.ruling (v : PVerd) := (v.verdict, v.reason, v.chosen)

theorem lastGoodCheck_judged {s : State} {p j : Nat} (ne : j ≠ p) : (s.lastGoodCheck p).judged j = s.judged j := by
  unfold State.lastGoodCheck
  split
  · obtain ⟨only, -⟩ := raise_low ({ (s.mend fun x => decide (x = .lastGood p)) with
      backup := { s.backup with lastGood := Tab.put [] s.backup.lastGood p [] } } : State) (code := 0x0141) (rank := 1) (tkind := 0)
      (target := 0) (data := noData) (by decide)
    refine (only.judged j).trans ?_
    have last : ({ (s.mend fun x => decide (x = .lastGood p)) with
        backup := { s.backup with lastGood := Tab.put [] s.backup.lastGood p [] } } : State).lastGood j = s.lastGood j := by
      simp [State.lastGood, State.mend, ne]
    unfold State.judged State.evidence
    rw [last]
    rfl
  · rfl

theorem keepSlot_onlyGroups (s : State) (p chosen : Nat) : OnlyGroups s (s.keepSlot p chosen) := by
  unfold State.keepSlot
  split
  · exact (returnGroups_onlyGroups ..).trans (returnGroups_onlyGroups ..)
  · refine OnlyGroups.trans (OnlyGroups.each fun u g => ?_) (returnGroups_onlyGroups ..)
    extract_lets
    split
    · exact returnGroup_onlyGroups ..
    · exact ⟨_, _, rfl⟩

theorem voidPinsOf_judged (s : State) (p chosen j : Nat) : (s.voidPinsOf p chosen).judged j = s.judged j := by
  refine each_same (State.judged · j) (fun u c => ?_) s
  extract_lets base len src x v
  split
  · rfl
  · refine each_same (State.judged · j) (fun w i => ?_) v
    extract_lets g
    split
    · rfl
    · exact (returnGroup_onlyGroups ..).judged j

theorem mint_judged (s : State) (p j : Nat) : (s.mint p).judged j = s.judged j := by
  unfold State.mint
  extract_lets u
  split
  · rfl
  · split <;> rfl

theorem setVerdict_judged (s : State) (p j : Nat) (d : Decision) : (s.setVerdict p d).judged j = s.judged j := by
  unfold State.setVerdict
  extract_lets x u
  split
  · exact mint_judged ..
  · exact (returnGroups_onlyGroups ..).judged j

theorem pvU_judged (s : State) {p j : Nat} (f : PVerd → PVerd) (ne : j ≠ p) : (s.pvU p f).judged j = s.judged j :=
  congrArg (Prod.mk (s.evidence j)) (State.pvU_pv_ne (h := ne) ..)

theorem pvU_ruling (s : State) (p : Nat) {f : PVerd → PVerd} (hf : ∀ v, (f v).ruling = v.ruling) :
    ((s.pvU p f).pv p).ruling = (s.pv p).ruling := by
  rw [State.pvU_pv_same]
  exact hf _

/-- The record and the notice of a port change what is judged at no other port, and no ruling. -/
theorem notice_judged (s : State) (p : Nat) : (∀ j, j ≠ p → ((s.writeRecord p).notice p).judged j = s.judged j)
    ∧ (((s.writeRecord p).notice p).pv p).ruling = (s.pv p).ruling := by
  have record : ((s.writeRecord p).pv p).ruling = (s.pv p).ruling :=
    pvU_ruling s p (f := fun v => { v with meas := s.record p }) fun _ => rfl
  have other : ∀ j, j ≠ p → (s.writeRecord p).judged j = s.judged j := fun j ne =>
    pvU_judged s (fun v => { v with meas := s.record p }) ne
  unfold State.notice
  extract_lets v tell u
  have told : (u.pv p).ruling = ((s.writeRecord p).pv p).ruling := pvU_ruling _ p fun _ => rfl
  have rest : ∀ j, j ≠ p → u.judged j = (s.writeRecord p).judged j := fun j ne => pvU_judged _ _ ne
  split <;> exact ⟨fun j ne => (rest j ne).trans (other j ne), told.trans record⟩

theorem verdictRank_low {d : Decision} {r : Nat} (e : verdictRank d = some r) : r ≤ 1 := by
  unfold verdictRank at e
  split at e
  · cases e; decide
  split at e
  · cases e; decide
  split at e
  · cases e
    split <;> decide
  · cases e

/-- The ruling that a decision leaves in the record (R92). -/
def Decision.ruling (d : Decision) := (BitVec.ofNat 4 d.verdict, BitVec.ofNat 4 d.reason, BitVec.ofNat 2 d.chosen)

/-- A port that is decided gets the verdict of R86, and what the other ports are judged from stays. -/
theorem decidePort_spec (s : State) (p : Nat) : (∀ j, j ≠ p → (s.decidePort p).judged j = s.judged j)
    ∧ ((s.decidePort p).pv p).ruling = (s.verdictOf p).ruling := by
  unfold State.decidePort
  extract_lets d s1 a b revoked known s2 s3 s4 gran s5 s6
  have checked : ∀ j, j ≠ p → s1.judged j = s.judged j := fun j ne => by
    unfold s1
    split
    · exact lastGoodCheck_judged ne
    · rfl
  have ruled : (s2.pv p).ruling = d.ruling := congrArg PVerd.ruling (State.pvU_pv_same ..)
  have other : ∀ j, j ≠ p → s2.judged j = s1.judged j := fun j ne => pvU_judged s1 _ ne
  clear_value s1 s2
  have tags : OnlyGroups s2 s3 := by
    unfold s3
    split
    · exact returnGroups_onlyGroups ..
    · exact keepSlot_onlyGroups ..
  have pins : ∀ j, s4.judged j = s3.judged j := fun j => by
    unfold s4
    split
    · rfl
    · exact voidPinsOf_judged ..
  clear_value s3 s4
  have handed : ∀ j, s5.judged j = s4.judged j := fun j => by
    unfold s5
    split
    · exact setVerdict_judged ..
    · split <;> rfl
  clear_value s5
  have kept : ∀ j, s5.judged j = s2.judged j := fun j => (handed j).trans ((pins j).trans (tags.judged j))
  obtain ⟨told, ruling⟩ : (∀ j, j ≠ p → s6.judged j = s5.judged j) ∧ (s6.pv p).ruling = (s5.pv p).ruling := notice_judged s5 p
  have record : s5.pv p = s2.pv p := congrArg Prod.snd (kept p)
  have done : (∀ j, j ≠ p → s6.judged j = s.judged j) ∧ (s6.pv p).ruling = d.ruling :=
    ⟨fun j ne => (told j ne).trans ((kept j).trans ((other j ne).trans (checked j ne))), by rw [ruling, record, ruled]⟩
  clear_value s6
  split
  · next rank e =>
    obtain ⟨only, -⟩ := raise_low s6 (code := 0x0301) (tkind := 1) (target := p) (data := noData) (verdictRank_low e)
    have raised : ((s6.raise 0x0301 rank 1 p noData).pv p) = s6.pv p := congrArg Prod.snd (only.judged p)
    exact ⟨fun j ne => (only.judged j).trans (done.1 j ne), by rw [raised]; exact done.2⟩
  · exact done

/-- Ports that are decided one after another each get the verdict that they would have got first. -/
theorem each_decidePort {l : List Nat} (once : l.Nodup) (s : State) :
    (∀ j, j ∉ l → (s.each l State.decidePort).judged j = s.judged j)
    ∧ ∀ p ∈ l, ((s.each l State.decidePort).pv p).ruling = (s.verdictOf p).ruling := by
  unfold State.each
  induction l generalizing s with
  | nil => exact ⟨fun _ _ => rfl, nofun⟩
  | cons q l ih =>
    obtain ⟨fresh, rest⟩ := List.nodup_cons.mp once
    obtain ⟨other, ruled⟩ := decidePort_spec s q
    obtain ⟨out, decided⟩ := ih rest (s.decidePort q)
    refine ⟨fun j no => ?_, fun p mem => ?_⟩
    · rw [List.mem_cons, not_or] at no
      exact (out j no.2).trans (other j no.1)
    · obtain rfl | later := List.mem_cons.mp mem
      · have last := congrArg Prod.snd (out p fresh)
        exact (congrArg PVerd.ruling last).trans ruled
      · have ne : p ≠ q := fun same => fresh (same ▸ later)
        exact (decided p later).trans (congrArg Decision.ruling (verdictOf_of_evidence (congrArg Prod.fst (other p ne))))

/-! #### The end of the wake (R67, R98) -/

theorem openNext_wake (s : State) : ∃ n, s.openNext.wake = { s.wake with standNext := n } ∧ s.openNext.verd = s.verd := by
  unfold State.openNext
  split
  · exact ⟨_, rfl, rfl⟩
  · split
    · extract_lets
      split <;> exact ⟨_, rfl, rfl⟩
    · exact ⟨_, rfl, rfl⟩

theorem runtimeDraw_wake (s : State) : s.runtimeDraw.wake = s.wake := congrArg Prod.fst (runtimeDraw_wakeView s)

theorem wakeRelease_wake (s : State) :
    s.wakeRelease.wake = { s.wake with stage := .idle, lanes := [], serving := [], endNext := false, rewake := false } := by
  unfold State.wakeRelease
  extract_lets u v w
  exact runtimeDraw_wake _

theorem allPorts_nodup : allPorts.Nodup := by decide

/-- In the verdict stage every port that takes part is decided, and the wake ends (R67, R86). -/
theorem verdictStage_completes {s : State} {p : PortId} (stage : s.wake.stage = .verdict) (goes : s.wake.endNext = false) :
    Completes .verdictStage s fun t =>
      t.wake.stage = .idle ∧ t.wake.firstDone = true ∧ t.wake.lanes = [] ∧ t.home = s.home
      ∧ ((s.pk p.val).part = true →
          (t.pv p.val).verdict = BitVec.ofNat 4 (s.verdictOf p.val).verdict
          ∧ (t.pv p.val).reason = BitVec.ofNat 4 (s.verdictOf p.val).reason
          ∧ (t.pv p.val).chosen = BitVec.ofNat 2 (s.verdictOf p.val).chosen) := by
  have home : EndsStill .home s (exec .verdictStage s) := exec_still .verdictStage rfl
  let ports := allPorts.filter fun q => (s.pk q).part
  let s1 := s.each ports State.decidePort
  let s2 := s1.wakeRelease
  let s3 : State := { s2 with wake := { s2.wake with firstDone := true, again := (s2.wake.again ++ s.incompletePorts).eraseDups } }
  let t := if !s2.wake.firstDone then s3.runtimeDraw.openNext else s3.runtimeDraw
  have run : exec .verdictStage s = .next t := by
    simp only [exec, execVerdictStage, stage, goes, ne_eq, not_true_eq_false, if_false, Bool.false_eq_true]
    rfl
  rw [run] at home
  have drawn : s3.runtimeDraw.wake = s3.wake := runtimeDraw_wake s3
  have ended : ∃ n, t.wake = { s3.wake with standNext := n } ∧ t.verd = s3.runtimeDraw.verd := by
    unfold t
    split
    · obtain ⟨n, wake, verd⟩ := openNext_wake s3.runtimeDraw
      exact ⟨n, by rw [wake, drawn], verd⟩
    · exact ⟨_, drawn, rfl⟩
  obtain ⟨n, wake, verd⟩ := ended
  have idle := wakeRelease_wake s1
  refine ⟨t, run, by rw [wake]; exact congrArg Wake.stage idle, by rw [wake], by rw [wake]; exact congrArg Wake.lanes idle, home,
    fun part => ?_⟩
  have mem : p.val ∈ ports := by
    simp [ports, part, allPorts, p.isLt]
  obtain ⟨-, ruled⟩ := each_decidePort (allPorts_nodup.filter _) s
  have released : Still .verd s1 s3.runtimeDraw := (Still.refl.wakeRelease.same : Still .verd s1 s3).runtimeDraw
  have record : t.pv p.val = s1.pv p.val := congrArg (Tab.get ({} : PVerd) · p.val) (verd.trans released)
  have ruling := ruled p.val mem
  rw [← record] at ruling
  simpa [PVerd.ruling, Decision.ruling] using ruling

/-! #### The handback (R94, R529) -/

theorem contExit_parts (s : State) (p : Nat) : ∃ edge, s.contExit p = { s with edge := edge } := by
  unfold State.contExit
  split <;> exact ⟨_, rfl⟩

/-- A handback whose reads agree mints the token of the epoch (R94). -/
theorem handbackDone_spec {s : State} {p : Nat} (serves : s.portServes p = true) (released : (s.sh (sheafOf p)).released = true) :
    let t := s.handbackDone p
    (t.ph p).token = some s.boot.epoch ∧ (t.ph p).handback = false ∧ (t.ph p).mode = .isolated ∧ (t.pe p).master = (s.pe p).master
      ∧ (t.ph p).hold = (s.ph p).hold := by
  intro t
  unfold t State.handbackDone
  extract_lets s1 s2
  unfold State.mint
  rw [if_neg (by
    have ok : (!(s.sh (sheafOf p)).released || !s.portServes p) = false := by rw [released, serves]; rfl
    exact fun e => Bool.false_ne_true (ok.symm.trans e))]
  extract_lets s3
  have port : s3.ph p = { s.ph p with handback := false, mode := .isolated, token := some s.boot.epoch } := by
    simp [s3, s2, s1]
  have edge : (s3.pe p).master = (s.pe p).master := by
    simp [s3, s2, s1]
  split
  · rw [port]
    exact ⟨rfl, rfl, rfl, edge, rfl⟩
  · have port' : (s3.standRefuses (standOf p)).ph p = s3.ph p := rfl
    rw [port', port]
    exact ⟨rfl, rfl, rfl, edge, rfl⟩

/-- A handback frame that goes out has the port's replies compared: they hold and mint the token, or the flash side probes. -/
theorem handback_completes {s : State} {p : PortId} {replies : Replies} (due : (s.ph p.val).handback = true)
    (service : s.boot.dev = .service) (flash : (s.ch (chanKey .flash p.val)).state = .inService) (serves : s.portServes p.val = true)
    (up : s.bankUp p.val = true) :
    (seqHolds (s.handRecs p.val) replies = true → (s.sh (sheafOf p.val)).released = true →
      Completes (.handback p replies) s fun t =>
        (t.ph p.val).token = some s.boot.epoch ∧ (t.ph p.val).handback = false ∧ (t.ph p.val).mode = .isolated
          ∧ (t.pe p.val).master = (s.handRecs p.val).map recFrame ∧ (t.ph p.val).hold = (s.ph p.val).hold ∧ t.home = s.home)
    ∧ (seqHolds (s.handRecs p.val) replies = false →
      Completes (.handback p replies) s fun t =>
        (t.ch (chanKey .flash p.val)).state = .probing ∧ t.hold = s.hold ∧ t.home = s.home) := by
  have home : EndsStill .home s (exec (.handback p replies) s) := exec_still _ rfl
  obtain ⟨edge, exit⟩ := contExit_parts s p.val
  let u := (s.contExit p.val).sendMaster p.val ((s.handRecs p.val).map recFrame)
  have sent : (u.pe p.val).master = (s.handRecs p.val).map recFrame := by simp [u, State.sendMaster]
  have goes : u = { s with edge := u.edge } := by
    unfold u
    rw [exit]
    rfl
  have recs : u.handRecs p.val = s.handRecs p.val := by rw [goes]; rfl
  have run : exec (.handback p replies) s
      = if seqHolds (u.handRecs p.val) replies then .next (u.handbackDone p.val) else .next (u.chanError .flash p.val 4) := by
    change execHandback p replies s = _
    unfold execHandback
    exact (if_neg (by simp [due, service, flash, serves, up])).trans rfl
  rw [recs] at run
  clear_value u
  refine ⟨fun holds released => ?_, fun fails => ?_⟩
  · rw [if_pos holds] at run
    rw [run] at home
    have same : u.portServes p.val = true ∧ (u.sh (sheafOf p.val)).released = true ∧ u.boot = s.boot ∧ u.ph = s.ph := by
      rw [goes]
      exact ⟨serves, released, rfl, rfl⟩
    obtain ⟨serves, released, boot, ports⟩ := same
    obtain ⟨token, ended, mode, master, hold⟩ := handbackDone_spec serves released
    refine ⟨_, run, ?_, ended, mode, master.trans sent, ?_, home⟩
    · rw [token, boot]
    · rw [hold, ports]
  · rw [if_neg (by simp [fails])] at run
    rw [run] at home
    refine ⟨_, run, ?_, ?_, home⟩
    · have state : (u.ch (chanKey .flash p.val)).state = .inService := by rw [goes]; exact flash
      simp [State.chanError, state]
    · rw [goes]
      rfl

/-- Settles O20: the verdict stage decides the ports one after another, and no decision changes what another is read from; a
handback compares what it has read. -/
theorem verdictAndHandback : Obligations.VerdictAndHandback := by
  intro s p replies
  exact ⟨verdictStage_completes, handback_completes⟩

end Sys2Proof.Machine
end

section
-- In parallel these proofs take more threads than the memory limit has room for.
set_option Elab.async false

namespace Sys2Proof.Machine

open Sys2Proof

/-! ### O21: the slots that are chosen (R79 to R81, R86) -/

/-- A chosen slot passes its checks, and its signer is not revoked. -/
theorem chooseSlot_sound {revoked : Bool} {last : List Byte} {disp : Nat} {a b : SlotCheck}
    (chosen : (chooseSlot revoked last disp a b).chosen ≠ 0) :
    revoked = false ∧ ((chooseSlot revoked last disp a b).chosen = 1 → a.fail = 0)
      ∧ ((chooseSlot revoked last disp a b).chosen = 2 → b.fail = 0) := by
  cases revoked with
  | true =>
    have none : (chooseSlot true last disp a b).chosen = 0 := by
      simp only [chooseSlot, Bool.not_true, Bool.and_false, Bool.not_false, Bool.and_self, if_true]
      split <;> rfl
    exact absurd none chosen
  | false =>
    refine ⟨rfl, fun one => ?_, fun two => ?_⟩
    · by_contra fails
      cases hb : decide (b.fail = 0) <;> simp [chooseSlot, fails, hb] at one
    · by_contra fails
      cases ha : decide (a.fail = 0) <;> simp [chooseSlot, fails, ha] at two

/-- A slot without a failing check has the digest of its entry and a version at the floor (R86, R118). -/
theorem checkSlot_sound {e : Entry} {bs : List Byte} {alg port floor : Nat} (passes : (checkSlot e bs alg port floor).fail = 0) :
    (checkSlot e bs alg port floor).digest = e.digest ∧ floor ≤ e.version := by
  unfold checkSlot at *
  dsimp only at passes ⊢
  split at passes
  · cases passes
  split at passes
  · cases passes
  split at passes
  · cases passes
  · next digest floor => exact ⟨not_not.mp digest, Nat.le_of_not_lt floor⟩

/-- A test that decides without a choice has not decided where a slot is chosen. -/
theorem passed_of_chosen {c : Prop} [Decidable c] {d e : Decision} (chosen : (if c then d else e).chosen ≠ 0) (none : d.chosen = 0 := by rfl) :
    ¬ c ∧ (if c then d else e) = e := by
  have passed : ¬ c := fun h => chosen (by rw [if_pos h, none])
  exact ⟨passed, if_neg passed⟩

/-- Settles O21: each test of R86 that fails decides without a choice, so where a slot is chosen all have passed. -/
theorem onlySoundSlotsAreChosen : Obligations.OnlySoundSlotsAreChosen := by
  intro s p
  unfold State.verdictOf
  extract_lets w c shelf m ea eb revoked
  intro chosen
  obtain ⟨used, e⟩ := passed_of_chosen chosen
  rw [e] at chosen ⊢
  obtain ⟨high, e⟩ := passed_of_chosen chosen
  rw [e] at chosen ⊢
  obtain ⟨stayed, e⟩ := passed_of_chosen chosen
  rw [e] at chosen ⊢
  obtain ⟨read, e⟩ := passed_of_chosen chosen
  rw [e] at chosen ⊢
  obtain ⟨known, e⟩ := passed_of_chosen chosen
  rw [e] at chosen ⊢
  obtain ⟨formed, e⟩ := passed_of_chosen chosen
  rw [e] at chosen ⊢
  obtain ⟨signed, e⟩ := passed_of_chosen chosen
  rw [e] at chosen ⊢
  obtain ⟨kept, first, second⟩ := chooseSlot_sound chosen
  have left : s.engineLeft = true := by
    by_contra gone
    simp [gone] at read
  refine ⟨left, by simpa using used, by simpa using high, by simpa using stayed, by simpa using known, fun port => ?_, fun inShelf => ?_,
    fun one => checkSlot_sound (first one), fun two => checkSlot_sound (second two)⟩
  · have mode : shelf = false := port
    simp only [mode, Bool.not_false, Bool.true_and, Bool.or_eq_true, Bool.not_eq_true', decide_eq_true_eq, not_or, not_not, Bool.not_eq_false] at signed
    obtain ⟨key, sig⟩ := signed
    exact ⟨key, sig, by simpa [revoked, mode] using kept⟩
  · have mode : shelf = true := inShelf
    simp only [mode, if_true, Bool.or_eq_true, not_or, Bool.not_eq_true] at formed
    exact ⟨formed.1, by simpa [revoked, mode] using kept⟩

end Sys2Proof.Machine
end

section
-- In parallel these proofs take more threads than the memory limit has room for.
set_option Elab.async false

namespace Sys2Proof.Machine

open Sys2Proof

/-! ### O23: what an alarm of any rank leaves of the ports and the key slots

The rank of 0x0140 and 0x0402 comes from a register, so an alarm may clear the key unit (ZEROIZE) or seal the device (SEAL). -/

/-- Slot `n` is out of service: marked bad, its shares zero (R339). -/
def State.slotDead (s : State) (n : Nat) : Prop := (s.ks n).bad = true ∧ (s.ks n).share0 = 0 ∧ (s.ks n).share1 = 0

/-- Every power-good is in `t` what it is in `s`, and the slots out of service stay so. -/
def Steady (s t : State) : Prop := (∀ p, (t.ph p).pg = (s.ph p).pg) ∧ ∀ n < 64, s.slotDead n → t.slotDead n

section
variable {s0 s t : State} {code data e n p q rank target tkind : Nat}

theorem Steady.refl : Steady s s := ⟨fun _ => rfl, fun _ _ dead => dead⟩

theorem Steady.trans (h : Steady s0 s) (k : Steady s t) : Steady s0 t :=
  ⟨fun p => (k.1 p).trans (h.1 p), fun n low dead => k.2 n low (h.2 n low dead)⟩

theorem Steady.same (h : Steady s0 s) (e : (t.hold, t.keys.slots) = (s.hold, s.keys.slots) := by rfl) : Steady s0 t := by
  simp only [Prod.mk.injEq] at e
  obtain ⟨hold, slots⟩ := e
  refine h.trans ⟨fun p => ?_, fun n _ => ?_⟩
  · unfold State.ph
    rw [hold]
  · unfold State.slotDead State.ks
    rw [slots]
    exact id

theorem Steady.ite {c : Prop} [Decidable c] (hs : Steady s0 s) (ht : Steady s0 t) : Steady s0 (if c then s else t) := by
  split
  · exact hs
  · exact ht

theorem Steady.each {α : Type} {l : List α} {f : State → α → State} (h : Steady s0 s)
    (hf : ∀ u x, Steady s0 u → Steady s0 (f u x)) : Steady s0 (s.each l f) := by
  unfold State.each
  induction l generalizing s with
  | nil => exact h
  | cons x l ih => exact ih (hf s x h)

theorem Steady.phU {i : Nat} {f : PHold → PHold} (h : Steady s0 s) (hf : ∀ x, (f x).pg = x.pg := by exact fun _ => rfl) :
    Steady s0 (s.phU i f) := by
  refine h.trans ⟨fun p => ?_, fun _ _ => id⟩
  rw [State.phU_ph]
  split
  · next same =>
    subst same
    exact hf _
  · rfl

theorem Steady.slots (h : Steady s0 s) (hold : t.hold = s.hold) (dead : ∀ n < 64, s.slotDead n → t.slotDead n) : Steady s0 t :=
  h.trans ⟨fun p => by unfold State.ph; rw [hold], dead⟩

theorem Steady.onlyGroups (h : Steady s0 s) (only : OnlyGroups s t) : Steady s0 t := by
  obtain ⟨gran, leave, rfl⟩ := only
  exact h.same

theorem Steady.poolGrant {h' n : Nat} (h : Steady s0 s) : Steady s0 (s.poolGrant q h' n) := .ite h.same h

theorem Steady.poolBack {h' n : Nat} (h : Steady s0 s) : Steady s0 (s.poolBack q h' n) := h.same

theorem Steady.lvDrop {u : LvUse} (h : Steady s0 s) : Steady s0 (s.lvDrop u) := h.same

theorem Steady.lvBack {u : LvUse} (h : Steady s0 s) : Steady s0 (s.lvBack u n) := h.poolBack

theorem Steady.mbU {f : Mbox → Mbox} (h : Steady s0 s) : Steady s0 (s.mbU q f) := h.same

theorem Steady.pgU {f : PGran → PGran} (h : Steady s0 s) : Steady s0 (s.pgU p f) := h.same

theorem Steady.enU {f : Engine → Engine} (h : Steady s0 s) : Steady s0 (s.enU e f) := h.same

/-! #### A held port -/

theorem Steady.setLine {v : Bool} (h : Steady s0 s) : Steady s0 (s.setLine n v) := h.each fun _ _ h1 => h1.same

theorem Steady.pushEvent {w : W36} (h : Steady s0 s) : Steady s0 (s.pushEvent p w) := .ite h.same (.ite h.same h.same)

theorem Steady.flipsEnd (h : Steady s0 s) : Steady s0 s.flipsEnd := .ite h.same.setLine h

theorem Steady.takeFlip (h : Steady s0 s) : Steady s0 (s.takeFlip p) := by
  unfold State.takeFlip
  extract_lets w flipped u
  have taken : Steady s0 u := h.same
  exact taken.flipsEnd.pushEvent

theorem Steady.runtimeOff (h : Steady s0 s) : Steady s0 s.runtimeOff := .ite h h.poolBack.lvDrop.lvBack

theorem Steady.holdPort (h : Steady s0 s) : Steady s0 (s.holdPort p) := by
  unfold State.holdPort
  extract_lets was s1 s2 s3 s4
  have held : Steady s0 s1 := h.phU
  have cleared : Steady s0 s2 := held.same
  have flipped : Steady s0 s3 := .ite cleared.takeFlip cleared
  have told : Steady s0 s4 := .ite flipped.pushEvent flipped
  exact .ite told.runtimeOff told

theorem Steady.decided (h : Steady s0 s) : Steady s0 (s.decided code rank tkind target data) := by
  unfold State.decided
  extract_lets word s1 a mark al held s2 s3 s4
  have used : Steady s0 s1 := .ite h.same h
  have listed : Steady s0 s2 := used.same
  have latched : Steady s0 s3 := listed.each fun _ _ h1 => h1.holdPort.phU
  have queued : Steady s0 s4 := latched.same
  exact queued.setLine

/-! #### A fuse burn that stops -/

theorem Steady.weakAdd {w : W32} (h : Steady s0 s) : Steady s0 (s.weakAdd w) := by
  unfold State.weakAdd
  extract_lets
  split
  · exact h.same
  split
  · exact h.same
  · exact .ite h.same (Steady.decided h.same)

theorem Steady.burnFound {a : Nat} (h : Steady s0 s) : Steady s0 (s.burnFound a) := by
  unfold State.burnFound
  extract_lets b u
  have found : Steady s0 u := h.weakAdd
  exact .ite (Steady.decided found) found

theorem Steady.cleared (h : Steady s0 s) : Steady s0 (s.ksU n KeySlot.cleared) := by
  refine h.slots (State.ksU_hold ..) fun m _ dead => ?_
  unfold State.slotDead at dead ⊢
  rw [State.ksU_ks]
  split
  · next same =>
    subst same
    exact ⟨dead.1, rfl, rfl⟩
  · exact dead

theorem Steady.lcMoved {old : Nat} (h : Steady s0 s) : Steady s0 (s.lcMoved old) := by
  unfold State.lcMoved
  extract_lets new u
  have swept : Steady s0 u := h.each fun _ _ h1 => .ite h1.cleared h1
  exact .ite h (.ite swept.same swept)

theorem Steady.burnStop (h : Steady s0 s) : Steady s0 s.burnStop := by
  unfold State.burnStop
  extract_lets old ts k f t f c v f u w
  have pulsed : Steady s0 u := h.same
  have found : Steady s0 w := .ite pulsed pulsed.burnFound
  clear_value w ts
  split
  · exact h
  · exact found.lcMoved

theorem Steady.respond {tag : Byte} {status : Nat} {ws : List W32} (h : Steady s0 s) : Steady s0 (s.respond q tag status ws) := by
  unfold State.respond
  extract_lets u
  have owed : Steady s0 u := h.same
  exact owed.each fun _ _ h1 => .ite h1.same h1

theorem Steady.fuseEnds (h : Steady s0 s) : Steady s0 (s.fuseEnds code) := by
  unfold State.fuseEnds
  extract_lets f u v
  have ended : Steady s0 u := h.same
  have line : Steady s0 v := ended.setLine
  split
  · exact line.respond
  · exact line

theorem Steady.fuseStop (h : Steady s0 s) : Steady s0 (s.fuseStop code) := by
  have stopped : Steady s0 (if s.fuses.waiting then s.lvDrop .fuse else s.burnStop) := .ite h.same h.burnStop
  exact .ite (Steady.fuseEnds stopped.same) (.ite h.same h)

/-! #### ZEROIZE and SEAL -/

/-- A table that lists the values of `g` over some keys reads as `g` does there. -/
theorem Tab.get_listed {α : Type} [DecidableEq α] (d : α) (g : Nat → α) (l : List Nat) (n : Nat) :
    Tab.get d (l.filterMap fun i => if g i = d then none else some (i, g i)) n = if n ∈ l then g n else d := by
  induction l with
  | nil => rfl
  | cons i l ih =>
    by_cases here : i = n
    · subst here
      by_cases plain : g i = d
      · simp [plain, ih]
      · simp [plain, Tab.get]
    · have elsewhere : n ≠ i := Ne.symm here
      by_cases plain : g i = d
      · simp [plain, ih, elsewhere]
      · simp [plain, Tab.get, here, ih, elsewhere]

/-- What ZEROIZE leaves of a slot (R329, R374). -/
def KeySlot.zeroed (x : KeySlot) : KeySlot :=
  { instn := if bitOf x.attr.toNat 31 then incr64 x.instn else x.instn, bad := x.bad, reserved := x.reserved }

theorem Steady.zeroize {redraw : Bool} (h : Steady s0 s) : Steady s0 (s.zeroize redraw) := by
  unfold State.zeroize
  extract_lets ac k cleared u v w
  have listed : cleared = (List.range 64).filterMap fun i => if (s.ks i).zeroed = {} then none else some (i, (s.ks i).zeroed) := rfl
  have slot : ∀ n < 64, Tab.get {} cleared n = (s.ks n).zeroed := fun n low => by
    rw [listed, Tab.get_listed, if_pos (List.mem_range.mpr low)]
  have swept : Steady s0 u := by
    refine h.slots rfl fun n low dead => ?_
    unfold State.slotDead State.ks
    rw [slot n low]
    exact ⟨dead.1, rfl, rfl⟩
  clear_value u
  have tags : Steady s0 u.voidTags :=
    swept.each fun x p h1 => .ite h1 (h1.onlyGroups (returnGroups_onlyGroups x 1 p none)).pgU
  have served : Steady s0 v := tags.each fun x p h1 =>
    (h1.onlyGroups ((returnGroups_onlyGroups x 2 p none).trans (returnGroups_onlyGroups _ 3 p none))).pgU
  have engines : Steady s0 w := served.each fun _ _ h1 => .ite (Steady.enU (.ite h1.lvDrop.lvDrop h1)) h1
  exact engines.fuseStop

theorem Steady.lvTake {u : LvUse} (h : Steady s0 s) (e : s.lvTake u n = some t) : Steady s0 t := by
  unfold State.lvTake at e
  split at e
  · cases e
    unfold State.lvGrant
    extract_lets granted
    have draws : Steady s0 granted := h.poolGrant
    split
    · exact draws.same
    · exact draws
  · cases e

theorem Steady.runtimeDraw (h : Steady s0 s) : Steady s0 s.runtimeDraw := by
  unfold State.runtimeDraw
  extract_lets n u
  have lanes : Steady s0 u := .ite h.poolGrant h
  clear_value u
  split
  · exact h
  split
  · exact lanes
  split
  · next taken => exact lanes.lvTake taken
  · exact lanes.same

theorem Steady.wakeRelease (h : Steady s0 s) : Steady s0 s.wakeRelease := by
  unfold State.wakeRelease
  extract_lets s1 s2 s3
  have back : Steady s0 s3 := h.lvDrop.poolBack.lvBack
  clear_value s3
  exact Steady.runtimeDraw back.same

theorem Steady.coreOff {c m : Nat} {f : Core → Core} (h : Steady s0 s) : Steady s0 ((s.coU c f).memZero m) := h.same

theorem Steady.startCore {c : Nat} {vector : W24} (h : Steady s0 s) : Steady s0 (s.startCore c vector) := h.same

theorem Steady.boxReady (h : Steady s0 s) : Steady s0 (s.boxReady q) := .ite h.poolGrant.poolGrant.mbU h

theorem Steady.boxDrop (h : Steady s0 s) : Steady s0 (s.boxDrop q) := h.same

theorem Steady.boxEmpty (h : Steady s0 s) : Steady s0 (s.boxEmpty q) := (h.each fun _ _ h1 => h1.poolBack.poolBack).boxDrop

theorem Steady.enterSealed (h : Steady s0 s) : Steady s0 s.enterSealed := by
  unfold State.enterSealed
  extract_lets s1 s2 up s3 s4 s5 _ _ _ _ _ s6
  have pass : Steady s0 s.passEnds := .ite h.poolBack.lvBack h
  have idle : Steady s0 s1 := pass.wakeRelease
  clear_value s1
  have held : Steady s0 s2 := idle.each fun _ _ h1 => h1.holdPort.phU
  clear_value s2
  have off : Steady s0 s3 := held.each fun _ _ h1 => h1.coreOff
  clear_value s3
  have seed : Steady s0 s4 := .ite off.startCore off
  clear_value s4
  have empty : Steady s0 s5 := seed.each fun _ _ h1 => h1.boxEmpty
  clear_value s5
  have sealed : Steady s0 s6 := empty.same
  clear_value s6
  exact .ite sealed.boxReady sealed

/-- An alarm of any rank changes no power-good and brings no bad slot back (R339, R374, R375). -/
theorem Steady.raise (h : Steady s0 s) : Steady s0 (s.raise code rank tkind target data) := by
  unfold State.raise
  extract_lets word s1 s2 s3 _ s4
  have used : Steady s0 s1 := .ite h.same h
  have cleared : Steady s0 s2 := .ite (Steady.zeroize used.same) used
  have alarm : Steady s0 s3 := cleared.decided
  have ends : Steady s0 s4 := .ite alarm.same alarm
  exact .ite ends.enterSealed ends

theorem Steady.raiseReg (h : Steady s0 s) : Steady s0 (s.raiseReg code tkind target data) := h.raise

end

/-! ### O23: the power-good of a carrier (R95, R99, R503) -/

theorem holdPort_hold (s : State) (p : Nat) : ((s.holdPort p).ph p).hold = true := by
  unfold State.holdPort
  extract_lets was s1 s2 s3 s4
  have held : (s1.ph p).hold = true := by
    unfold s1
    rw [State.phU_ph_same]
  have cleared : Keeps .spared s1 s2 := Keeps.refl.pwU
  have flipped : Keeps .spared s1 s3 := .ite cleared.takeFlip cleared
  have told : Keeps .spared s1 s4 := .ite flipped.pushEvent flipped
  have rest : Keeps .spared s1 (if was = true then s4.runtimeOff else s4) := .ite told.runtimeOff told
  exact rest.ofSpared p held

theorem heldNow_of_hold {s : State} {p : Nat} (held : (s.ph p).hold = true) : s.heldNow p = true := by
  simp [State.heldNow, held]

theorem Steady.poolReturn {s0 s : State} {q h' n : Nat} (h : Steady s0 s) : Steady s0 (s.poolReturn q h' n) :=
  .ite (Steady.same h.poolBack.raiseReg) h.poolBack

theorem OnlyAlarms.verd {s t : State} (h : OnlyAlarms s t) : t.verd = s.verd := by
  unfold OnlyAlarms at h
  rw [← h]

theorem Steady.writeRecord {s0 s : State} {p : Nat} (h : Steady s0 s) : Steady s0 (s.writeRecord p) := h.same

theorem Steady.notice {s0 s : State} {p : Nat} (h : Steady s0 s) : Steady s0 (s.notice p) := .ite h.same h.same

theorem Steady.pgLost {s0 s : State} {p : Nat} (h : Steady s0 s) : Steady s0 (s.pgLost p) := by
  unfold State.pgLost
  extract_lets u v
  have absent : Steady s0 u := h.same
  have groups : Steady s0 v := absent.onlyGroups (keepSlot_onlyGroups u p 0)
  clear_value v
  exact groups.writeRecord.notice.raise

/-- The verdict record of a port whose carrier has gone: ABSENT, reason PG_LOST (R95, R99). -/
theorem pgLost_pv (s : State) (p : Nat) : ((s.pgLost p).pv p).verdict = 5 ∧ ((s.pgLost p).pv p).reason = 3 := by
  unfold State.pgLost
  extract_lets u v
  have kept : (v.pv p).ruling = (u.pv p).ruling := by
    obtain ⟨gran, leave, e⟩ := keepSlot_onlyGroups u p 0
    unfold v
    rw [e]
    rfl
  have told : (((v.writeRecord p).notice p).pv p).ruling = (u.pv p).ruling := (notice_judged v p).2.trans kept
  have absent : (u.pv p).ruling = (5, 3, 0) := by
    unfold u
    rw [State.pvU_pv_same]
    rfl
  clear_value u v
  have alarm : (((v.writeRecord p).notice p).raise 0x0301 0 1 p noData).verd = ((v.writeRecord p).notice p).verd :=
    (raise_low _ (by decide)).1.verd
  have last : ((((v.writeRecord p).notice p).raise 0x0301 0 1 p noData).pv p).ruling = (5, 3, 0) := by
    rw [← absent, ← told]
    unfold State.pv
    rw [alarm]
  simp only [PVerd.ruling, Prod.mk.injEq] at last
  exact ⟨last.1, last.2.1⟩

/-- What `exec_still` says of a command that completes. -/
theorem Still.of_run {P : Part} {s t : State} {c : Instr} (still : P.moves c = false) (run : exec c s = .next t) : Still P s t := by
  have ends := exec_still (s := s) c still
  rwa [run] at ends

/-- The fall of a power-good holds a port of the glade, voids the token and sets ABSENT (R95, R99, R503). -/
theorem pgFall_late {s : State} {p : PortId} (late : s.boot.dev.late = true) : Completes (.pgFall p) s fun t =>
    (t.ph p.val).pg = false ∧ (t.ph p.val).token = none
    ∧ (s.inGlade p.val = true → t.heldNow p.val = true ∧ (t.pv p.val).verdict = 5 ∧ (t.pv p.val).reason = 3)
    ∧ t.home = s.home := by
  obtain ⟨t, run⟩ : ∃ t, execPgFall p s = .next t := by
    unfold execPgFall
    extract_lets
    split
    · exact ⟨_, rfl⟩
    split <;> exact ⟨_, rfl⟩
  refine ⟨t, run, ?_⟩
  have home : t.home = s.home := Still.of_run (P := .home) (c := .pgFall p) rfl run
  unfold execPgFall at run
  extract_lets h out u v q n w at run
  rw [late] at run
  have fell : (u.ph p.val).pg = false ∧ (u.ph p.val).token = none := by
    unfold u
    rw [State.phU_ph_same]
    exact ⟨rfl, rfl⟩
  clear_value u
  have noted : Steady u v ∧ Keeps .spared u v := ⟨.ite (Steady.refl.same) .refl, .ite Keeps.refl.pkU .refl⟩
  clear_value v
  have paid : Steady u w ∧ Keeps .spared u w := ⟨.ite noted.1.poolReturn noted.1, .ite (noted.2.poolReturn nofun) noted.2⟩
  clear_value w
  have done : ∀ x, Steady u x → Keeps .spared u x → (x.ph p.val).pg = false ∧ (x.ph p.val).token = none := fun x steady kept =>
    ⟨(steady.1 _).trans fell.1, (kept.token _).trans fell.2⟩
  by_cases leaves : out = true
  · have e : t = (w.holdPort p.val).pgLost p.val := by simpa [leaves] using run.symm
    have lost : Keeps .spared (w.holdPort p.val) t := by rw [e]; exact Keeps.refl.pgLost
    have now : (t.ph p.val).pg = false ∧ (t.ph p.val).token = none :=
      done t (by rw [e]; exact paid.1.holdPort.pgLost) ((paid.2.holdPort nofun).trans lost)
    refine ⟨now.1, now.2, fun _ => ⟨lost.heldNow (heldNow_of_hold (holdPort_hold w p.val)), ?_⟩, home⟩
    rw [e]
    exact pgLost_pv ..
  · have e : t = v := by simpa [leaves] using run.symm
    have inside : s.inGlade p.val = false := by
      by_contra glade
      exact leaves (by simp [out, glade])
    have now := done v noted.1 noted.2
    rw [e] at home ⊢
    exact ⟨now.1, now.2, fun glade => absurd glade (by simp [inside]), home⟩

theorem pgRise_late {s : State} {p : PortId} (late : s.boot.dev.late = true) : Completes (.pgRise p) s fun t =>
    t.ph p.val = { s.ph p.val with pg := true } ∧ (∀ q, q ≠ p.val → t.ph q = s.ph q) ∧ { t with hold := s.hold } = s := by
  refine ⟨s.phU p.val fun h => { h with pg := true }, ?_, State.phU_ph_same .., fun q ne => State.phU_ph_ne (h := ne) .., rfl⟩
  dsimp only [exec]
  unfold execPgRise
  rw [if_pos late]

/-- Outside SERVICE, RIDE and HEADLESS no power-good is sampled (R505). -/
theorem pg_unsampled {s : State} {p : PortId} (early : s.boot.dev.late = false) :
    Completes (.pgFall p) s (· = s) ∧ Completes (.pgRise p) s (· = s) := by
  refine ⟨⟨s, ?_, rfl⟩, s, ?_, rfl⟩
  · dsimp only [exec]
    unfold execPgFall
    rw [early]
    rfl
  · dsimp only [exec]
    unfold execPgRise
    rw [early]
    rfl

/-! ### O23: critical registers that disagree with their shadows (R383) -/

theorem standFault_closes (s : State) (k : Nat) : ((s.standFault k).st k).gate = false ∧ ((s.standFault k).st k).opened = false := by
  unfold State.standFault
  extract_lets u
  have closed : (u.st k).gate = false ∧ (u.st k).opened = false := by
    unfold u
    rw [State.stU_st_same]
    exact ⟨rfl, rfl⟩
  clear_value u
  split <;> exact closed

theorem standFault_po (s : State) (k q : Nat) : (s.standFault k).po q = s.po q := by
  unfold State.standFault
  extract_lets u
  have same : u.po q = s.po q := rfl
  clear_value u
  split <;> exact same

/-- A census fault starts the reconciliation of a pool that is not frozen (R399). -/
theorem censusFault_reconciles {s : State} {q : Nat} (thawed : (s.po q).st ≠ .frozen) : ((s.censusFault q).po q).st = .reconciling := by
  have alarm : Keeps .spared s (s.raiseReg 0x0140 0 0 (0x100 + q)) := Keeps.refl.raiseReg nofun
  have still : ((s.raiseReg 0x0140 0 0 (0x100 + q)).po q).st ≠ .frozen := fun frozen => thawed (alarm.frozen frozen)
  unfold State.censusFault
  rw [State.poU_po_same]
  simp [Pool.recounts, still]

theorem slotBad_slotDead (s : State) (n : Nat) : (s.slotBad n).slotDead n := by
  unfold State.slotDead State.slotBad
  rw [State.ksU_ks_same]
  exact ⟨rfl, rfl, rfl⟩

theorem census_mismatch {s : State} {q : BitVec 8} (pool : poolCode q.toNat = true) (thawed : (s.po q.toNat).st ≠ .frozen) :
    Completes (.shadowMismatch (.census q)) s fun t => (t.po q.toNat).st = .reconciling
      ∧ (1 ≤ q.toNat ∧ q.toNat ≤ 6 → (t.st (q.toNat - 1)).gate = false) := by
  by_cases stand : 1 ≤ q.toNat ∧ q.toNat ≤ 6
  · have number : 1 + (q.toNat - 1) = q.toNat := by omega
    refine ⟨s.standFails (q.toNat - 1) .census, if_pos stand, ?_, fun _ => (standFault_closes ..).1⟩
    unfold State.standFails
    rw [standFault_po, number]
    exact censusFault_reconciles thawed
  · exact ⟨s.censusFault q.toNat, (if_neg stand).trans (if_pos pool), censusFault_reconciles thawed, fun h => absurd h stand⟩

theorem keyAttr_mismatch (s : State) (n : KeySlotId) : Completes (.shadowMismatch (.keyAttr n)) s fun t => t.slotDead n.val := by
  refine ⟨_, rfl, ?_⟩
  have kept : Steady ((s.raiseReg 0x0140 0 0 noData).slotBad n.val) (((s.raiseReg 0x0140 0 0 noData).slotBad n.val).raiseReg 0x0402 0 0 noData) :=
    Steady.refl.raiseReg
  exact kept.2 n.val n.isLt (slotBad_slotDead ..)

/-- The shadow follows the hold, so the port is held by both (R26). -/
theorem hold_mismatch (s : State) (p : PortId) : Completes (.shadowMismatch (.hold p)) s fun t => t.heldNow p.val = true := by
  refine ⟨_, rfl, heldNow_of_hold ?_⟩
  rw [State.phU_ph_same]
  exact holdPort_hold ..

/-- Settles O23. -/
theorem powerGoodAndShadowMismatches : Obligations.PowerGoodAndShadowMismatches := by
  unfold Obligations.PowerGoodAndShadowMismatches
  refine ⟨fun s p => ⟨pgFall_late, pgRise_late, pg_unsampled⟩, fun s p k n q => ⟨hold_mismatch s p, ?_, ?_, ?_, ?_, ?_, census_mismatch,
    keyAttr_mismatch s n, ?_, ?_⟩⟩
  · exact ⟨s.standFails k.val .gate, rfl, standFault_closes ..⟩
  · exact ⟨s.standFails k.val .firebreak, rfl, standFault_closes ..⟩
  · exact ⟨_, rfl, congrArg PHold.token (State.phU_ph_same (f := fun h => { h with token := none }) ..)⟩
  · refine ⟨_, rfl, ?_⟩
    dsimp only
    rw [State.pwU_pw_same]
  · exact ⟨_, rfl, rfl⟩
  · refine ⟨_, rfl, ?_⟩
    split <;> rfl
  · exact ⟨_, rfl, rfl, rfl⟩

end Sys2Proof.Machine
end

section
-- In parallel these proofs take more threads than the memory limit has room for.
set_option Elab.async false

namespace Sys2Proof.Machine

open Sys2Proof

/-! ### O52: the fuse commands -/

/-! #### What the request, an engine and its leave do not touch -/

/-- The two states differ in the mailboxes, the pools, the engines and the cores' lines at most. -/
def Beside (s t : State) : Prop :=
  ∃ mspi leave engines cores, t = { s with mspi := mspi, leave := leave, engines := engines, cores := cores }

section
variable {s t u : State} {q : Nat} {tag : Byte}

theorem Beside.trans (h : Beside s t) (k : Beside t u) : Beside s u := by
  obtain ⟨mspi, leave, engines, cores, rfl⟩ := h
  obtain ⟨mspi', leave', engines', cores', rfl⟩ := k
  exact ⟨mspi', leave', engines', cores', rfl⟩

theorem Taken.beside (h : Taken s t q tag) : Beside s t := by
  obtain ⟨boxes, served, leave, cores, rfl⟩ := h.only
  exact ⟨_, leave, s.engines, cores, rfl⟩

theorem Beside.fuses (h : Beside s t) : t.fuses = s.fuses := by
  obtain ⟨mspi, leave, engines, cores, rfl⟩ := h
  rfl

theorem Beside.keyAgent (h : Beside s t) : t.keyAgent = s.keyAgent := by
  obtain ⟨mspi, leave, engines, cores, rfl⟩ := h
  rfl

theorem Beside.keys (h : Beside s t) : t.keys = s.keys := by
  obtain ⟨mspi, leave, engines, cores, rfl⟩ := h
  rfl

/-- The conditions of a FIRE are none of them; `f` is what the command has set in the controller before. -/
theorem Beside.fuseReady (h : Beside s t) {src : Agent} {fn code a : Nat} {f : Fuses → Fuses}
    (ready : ({ s with fuses := f s.fuses } : State).FuseReady src fn code a) :
    ({ t with fuses := f t.fuses } : State).FuseReady src fn code a := by
  obtain ⟨mspi, leave, engines, cores, rfl⟩ := h
  exact ready

theorem Taken.heldOf (h : Taken s t q tag) : t.heldOf 0 6 = s.heldOf 0 6 := by
  unfold State.heldOf
  rw [h.pools 0 (by omega)]

/-- A command of Shentiha from a mailbox of its own is executed with its request taken (R463, R468). -/
theorem EndsIn.shentiha {mb : MailboxId} {code : Nat} {ws : List W32} {mb0 : Bool} {len : Nat → Bool}
    {run : Nat → List W32 → State → State} {P : State → Prop} (own : mb.val ≠ 0) (serves : s.Runs mb code tag ws)
    (length : len ws.length = true) (runs : ∀ t, Taken s t mb.val tag → P (run mb.val ws t)) :
    EndsIn P (s.shentiha mb code mb0 len run) := by
  obtain ⟨service, h, request, tagged, rsvd, parity⟩ := serves
  have taken : Taken s (s.takeRequest mb.val h ws.length) mb.val tag := tagged ▸ takeRequest_taken s mb.val h ws.length
  have goes : headerStatus mb.val h ws.length ([DevState.service].contains s.boot.dev) mb0 len = 0 := by
    unfold headerStatus
    rw [service, length, if_neg (by decide), if_neg (not_not.mpr rsvd), if_neg (fun zero => own zero.1), if_neg (by decide)]
  unfold State.shentiha State.command
  simp only [request, goes, parity]
  exact runs _ taken

/-! #### A function that burns (R365, R395, R471) -/

theorem respond_onlyMail (s : State) (q : Nat) (tag : Byte) (status : Nat) (ws : List W32) :
    OnlyMail s (s.respond q tag status ws) := by
  unfold State.respond
  extract_lets u
  have owed : OnlyMail s u := rfl
  exact owed.trans (State.boxFlush_outgoing q).2

theorem OnlyMail.keys (h : OnlyMail s t) : t.keys = s.keys := by
  unfold OnlyMail at h
  exact (congrArg State.keys h : _)

/-- The image register and the key unit, which no FIRE changes. -/
def State.fireView (s : State) := (s.fuses.image, s.keys)

theorem OnlyMail.fireView (h : OnlyMail s t) : t.fireView = s.fireView := by
  unfold State.fireView
  rw [h.fuses, h.keys]

theorem fuseEnds_fireView (s : State) (code : Nat) : (s.fuseEnds code).fireView = s.fireView := by
  unfold State.fuseEnds
  extract_lets f u v
  have ended : u.fireView = s.fireView := rfl
  have line : v.fireView = u.fireView := by
    obtain ⟨cores, only⟩ := setLine_onlyCores u 9 true
    unfold v
    rw [only]
    rfl
  clear_value u v
  split
  · exact (respond_onlyMail ..).fireView.trans (line.trans ended)
  · exact line.trans ended

theorem burnEnds_fireView (s : State) (code : Nat) : (s.burnEnds code).fireView = s.fireView := by
  unfold State.burnEnds
  extract_lets u w v
  have logged : v.fireView = s.fireView := rfl
  clear_value v
  exact (fuseEnds_fireView v code).trans logged

/-- The leave of a burn is granted or asked for. -/
theorem lvTake_fireView (s : State) (n : Nat) (take : s.lvTake .fuse n = some t) : t.fireView = s.fireView := by
  unfold State.lvTake at take
  split at take
  · cases take
    obtain ⟨leave, cores, form⟩ := lvGrant_form s .fuse n
    rw [form]
    rfl
  · cases take

theorem fuseFire_fireView (s : State) (src : Agent) (w : W32) : (s.fuseFire src w).fireView = s.fireView := by
  unfold State.fuseFire
  extract_lets fn _ s1
  have fired : s1.fireView = s.fireView := rfl
  split
  · exact (burnEnds_fireView ..).trans fired
  next u unit =>
  extract_lets own used s2 _ s3 s4 _
  have spent : s2.fireView = s.fireView := by
    unfold s2
    split <;> exact fired
  have plan : s3.fireView = s2.fireView := rfl
  have role : s2.roleAlarm.fireView = s2.fireView := by
    obtain ⟨alarm, -⟩ := roleAlarm_spec s2
    unfold State.fireView
    rw [alarm.fuses, alarm.keys]
  have ends : ∀ code, (s2.burnEnds code).fireView = s.fireView := fun code => (burnEnds_fireView s2 code).trans spent
  have asked : s4.fireView = s3.fireView := rfl
  clear_value s1 s2 s3 s4
  split
  · exact ends _
  split
  · exact (burnEnds_fireView ..).trans (role.trans spent)
  split
  · exact ends _
  split
  · exact ends _
  split
  · exact ends _
  split
  · exact ends _
  split
  · next take => exact (lvTake_fireView s3 2 take).trans (plan.trans spent)
  · exact asked.trans (plan.trans spent)

/-- A fuse function that is issued in `t` and meets every condition of its FIRE burns or waits for its leave; `s` is the state before
the command. -/
theorem fuseCmd_burns {code fn unit a : Nat} {src : Agent} (ready : t.FuseReady src fn unit a) (named : fn ≠ 0 ∧ fn ≤ 5) (small : a < 4096)
    (tagged : (t.mb q).tag = some tag) (otp : t.fuses.otp = s.fuses.otp) (held : t.heldOf 0 6 = s.heldOf 0 6) :
    Burns s (t.fuseCmd q code src fn unit a) q tag fn unit ∧ fuseArg (t.fuseCmd q code src fn unit a).fuses.word = a
      ∧ (t.fuseCmd q code src fn unit a).fireView = t.fireView := by
  obtain ⟨u, unit', idle, conditions⟩ := ready
  obtain ⟨fnIs, unitIs, argIs⟩ := fireWord_fields (fn := fn) (by omega) (otpUnit_code unit') small
  unfold State.fuseCmd State.fuseDo
  rw [if_neg (not_not.mpr idle)]
  have view := fuseFire_fireView (t.fuseFor q code) src (BitVec.ofNat 32 (0x5A000000 + fn * 2 ^ 20 + unit * 2 ^ 12 + a))
  generalize BitVec.ofNat 32 (0x5A000000 + fn * 2 ^ 20 + unit * 2 ^ 12 + a) = x at fnIs unitIs argIs view ⊢
  have forms : (t.fuseFor q code).FuseReady src (fuseFn x) (fuseUnit x) (fuseArg x) := by
    rw [fnIs, unitIs, argIs]
    exact ⟨u, unit', idle, conditions⟩
  obtain ⟨state, word, otp', mspi, leave⟩ := fuseFire_begins forms (by rw [fnIs]; exact named)
  generalize (t.fuseFor q code).fuseFire src x = r at state word otp' mspi leave view ⊢
  have leave' : r.fuses.waiting = true ∨ r.heldOf 0 6 = t.heldOf 0 6 + 2 := leave
  refine ⟨⟨?_, state, by rw [word, fnIs], by rw [word, unitIs], otp'.trans otp, held ▸ leave'⟩, by rw [word, argIs], view⟩
  unfold InProgress State.mb
  rw [mspi]
  exact tagged

/-- A function that meets its conditions when its request is taken burns. -/
theorem Taken.burns (h : Taken s t q tag) {code fn unit a : Nat} {src : Agent} (ready : s.FuseReady src fn unit a)
    (named : fn ≠ 0 ∧ fn ≤ 5) (small : a < 4096) :
    Burns s (t.fuseCmd q code src fn unit a) q tag fn unit ∧ fuseArg (t.fuseCmd q code src fn unit a).fuses.word = a := by
  obtain ⟨burns, word, -⟩ := fuseCmd_burns (q := q) (code := code) (h.beside.fuseReady (f := id) ready) named small h.tag
    (congrArg Fuses.otp h.beside.fuses) h.heldOf
  exact ⟨burns, word⟩

/-! #### An authorisation that an engine verifies (R319, R394, R466) -/

theorem chainStart_form (s : State) (e : Nat) (j : ChainJob) :
    ∃ leave engines, s.chainStart e j = { s with leave := leave, engines := engines } := by
  unfold State.chainStart
  extract_lets n u
  split
  · obtain ⟨leave, grant⟩ := poolGrant_leave u 0 e n
    rw [grant]
    exact ⟨leave, _, rfl⟩
  · exact ⟨_, _, rfl⟩

theorem chainStart_heldOf {s : State} {e : Nat} {j : ChainJob} (low : e < 4) : (s.chainStart e j).heldOf 0 6 = s.heldOf 0 6 := by
  unfold State.chainStart
  extract_lets n u
  have given : u.heldOf 0 6 = s.heldOf 0 6 := rfl
  clear_value u
  rw [← given]
  split
  · unfold State.poolGrant State.heldOf
    split
    · change Tab.get 0 ((u.poU 0 _).po 0).held 6 = _
      rw [State.poU_po_same]
      exact Tab.get_upd_ne 0 (u.po 0).held e (· + n) 6 (by omega)
    · rfl
  · rfl

/-- What the start of a verification changes: the jobs that wait, an engine and its leave. -/
theorem verStart_form (s : State) : (∃ verify leave engines,
    s.verStart = { s with wake := { s.wake with verify := verify }, leave := leave, engines := engines })
    ∧ s.verStart.heldOf 0 6 = s.heldOf 0 6 := by
  unfold State.verStart
  extract_lets order
  split
  · next j l e _ free =>
    have low : e < 4 := by
      have mem := List.mem_of_find?_eq_some free
      unfold order at mem
      split at mem
      · exact List.mem_range.mp mem
      · exact List.mem_range.mp (List.mem_reverse.mp mem)
    refine ⟨?_, chainStart_heldOf low⟩
    obtain ⟨leave, engines, form⟩ := chainStart_form ({ s with wake := { s.wake with verify := l } } : State) e j
    exact ⟨l, leave, engines, form⟩
  · exact ⟨⟨_, s.leave, s.engines, rfl⟩, rfl⟩

theorem closeObject_mb (s : State) (q : Nat) : (s.closeObject q).mb = s.mb := by
  unfold State.closeObject
  split <;> rfl

theorem closeObject_beside (s : State) (q : Nat) : Beside s (s.closeObject q) := by
  unfold State.closeObject
  split
  · exact ⟨_, s.leave, s.engines, s.cores, rfl⟩
  · exact ⟨s.mspi, s.leave, s.engines, s.cores, rfl⟩

theorem Beside.authOk (h : Beside s t) (o : List Byte) (fn a : Nat) : t.authOk o fn a = s.authOk o fn a := by
  obtain ⟨mspi, leave, engines, cores, rfl⟩ := h
  rfl

theorem Beside.onEngine (h : Beside s t) (scheme : Nat) : t.onEngine scheme = s.onEngine scheme := by
  obtain ⟨mspi, leave, engines, cores, rfl⟩ := h
  rfl

theorem Taken.object (h : Taken s t q tag) : t.mspi.obj = s.mspi.obj := by
  obtain ⟨boxes, served, leave, cores, rfl⟩ := h.only
  rfl

/-- A verification that needs an engine waits for one, or runs. -/
theorem verify_waits {j : ChainJob} {done : Bool → State → State} (use : j.use = .command q)
    (live : ((s.mb q).call.map (·.sig)).getD none = some j) (engine : s.onEngine j.scheme = true) :
    (s.verify j done).Verifying j ∧ (s.verify j done).mb = s.mb ∧ (s.verify j done).fuses = s.fuses := by
  obtain ⟨scheme, left⟩ := Bool.and_eq_true_iff.mp engine
  have hash : hashScheme j.scheme = false := by simpa using scheme
  unfold State.verify
  rw [if_neg (by rw [hash]; decide), if_neg (by rw [left]; decide)]
  obtain ⟨⟨verify, leave, engines, form⟩, -⟩ := verStart_form ({ s with wake := { s.wake with verify := s.wake.verify ++ [j] } } : State)
  refine ⟨(verStart_spec (j := j) rfl (List.mem_append_right _ (List.mem_singleton.mpr rfl)) ?_).1, ?_, ?_⟩
  · unfold State.verLive
    rw [use]
    exact decide_eq_true live
  · rw [form]
    rfl
  · rw [form]

theorem callVerify_waits {code : Nat} {ws : List W32} {o : List Byte} {job : VerUse → ChainJob} {done : Bool → State → State}
    (tagged : (s.mb q).tag = some tag) (use : (job (.command q)).use = .command q)
    (engine : s.onEngine (job (.command q)).scheme = true) :
    (s.callVerify q code ws o job done).CallWaits q tag code ws o (job (.command q)) ∧ (s.callVerify q code ws o job done).fuses = s.fuses := by
  unfold State.callVerify
  extract_lets j
  generalize made : s.mbU q (fun b => { b with call := some { code := code, args := ws, obj := o, sig := some j } }) = u
  have box : (u.mb q).tag = some tag ∧ (u.mb q).call = some { code := code, args := ws, obj := o, sig := some j } := by
    rw [← made, State.mbU_mb_same]
    exact ⟨tagged, rfl⟩
  have rest : u.onEngine j.scheme = s.onEngine j.scheme ∧ u.fuses = s.fuses := by
    rw [← made]
    exact ⟨rfl, rfl⟩
  obtain ⟨runs, boxes, fuses⟩ := verify_waits (s := u) (j := j) (done := done) use (by rw [box.2]; rfl) (rest.1.trans engine)
  refine ⟨⟨?_, ?_, runs⟩, fuses.trans rest.2⟩
  · unfold InProgress
    rw [boxes]
    exact box.1
  · rw [boxes]
    exact box.2

/-- A sound authorisation is in the object buffer: its verification begins (R362, R466). -/
theorem fuseAuthorised_waits (h : Taken s t q tag) {fn a code : Nat} {ws : List W32} {o : List Byte} (idle : s.fuses.state = .idle)
    (object : s.mspi.obj.object q 3 = some o) (auth : s.authOk o fn a = true) (engine : s.onEngine (field o 0x0A 2) = true) :
    (t.fuseAuthorised q fn a code ws).CallWaits q tag code ws o (authJob (.command q) o)
      ∧ (t.fuseAuthorised q fn a code ws).fuses = s.fuses := by
  have closed : Beside s (t.closeObject q) := h.beside.trans (closeObject_beside t q)
  have tagged : ((t.closeObject q).mb q).tag = some tag := by
    rw [closeObject_mb]
    exact h.tag
  unfold State.fuseAuthorised State.consume
  rw [h.object, object]
  dsimp only
  rw [if_neg (by rw [closed.fuses]; exact not_not.mpr idle), if_neg (by rw [closed.authOk, auth]; decide)]
  obtain ⟨waits, fuses⟩ := callVerify_waits (s := t.closeObject q) (code := code) (ws := ws) (o := o) (job := fun u => authJob u o)
    (done := fun ok s => s.fuseVerified q ok) tagged rfl (by rw [closed.onEngine]; exact engine)
  exact ⟨waits, fuses.trans closed.fuses⟩

/-- One that is not sound is refused (R466). -/
theorem fuseAuthorised_refused (h : Taken s t q tag) {fn a code : Nat} {ws : List W32} {o : List Byte} (idle : s.fuses.state = .idle)
    (object : s.mspi.obj.object q 3 = some o) (auth : s.authOk o fn a = false) :
    Answered s (t.fuseAuthorised q fn a code ws) q tag 0x1007 [] ∧ (t.fuseAuthorised q fn a code ws).fuses = s.fuses := by
  have closed : Beside s (t.closeObject q) := h.beside.trans (closeObject_beside t q)
  unfold State.fuseAuthorised State.consume
  rw [h.object, object]
  dsimp only
  rw [if_neg (by rw [closed.fuses]; exact not_not.mpr idle), if_pos (by rw [closed.authOk, auth]; decide)]
  obtain ⟨answered, mail⟩ := h.answered (u := t.closeObject q) (by rw [closeObject_mb]) 0x1007 []
  exact ⟨answered, mail.fuses.trans closed.fuses⟩

/-! #### The verification ends (R319, R362) -/

theorem poolBack_heldOf {e n : Nat} (low : e < 4) : (s.poolBack 0 e n).heldOf 0 6 = s.heldOf 0 6 := by
  unfold State.poolBack State.heldOf
  rw [State.poU_po_same]
  split
  · split <;> rfl
  split
  · exact Tab.get_upd_ne 0 (s.po 0).held e (· - n) 6 (by omega)
  · unfold Pool.recounts
    split <;> rfl

/-- The last part of the verification ends: its engine and leave are free, and the command goes on with the result. -/
theorem callEnds_run {e : EngineId} {code : Nat} {ws : List W32} {o : List Byte} {j : ChainJob} (ends : s.CallEnds e q tag code ws o j) :
    ∃ u, Beside s u ∧ u.mb = s.mb ∧ u.heldOf 0 6 = s.heldOf 0 6
      ∧ exec (.kernelOperationDone e false) s = .next (u.callDone q (sigVerifies j.scheme j.digest j.block)).engineFreed := by
  obtain ⟨busy, chain, last, use, call, -, -, -⟩ := ends
  refine ⟨(s.poolBack 0 e.val (s.holds 0 e.val)).enU e.val fun k => { k with state := .idle, mem := [], chain := none },
    ⟨s.mspi, _, _, s.cores, rfl⟩, rfl, poolBack_heldOf e.isLt, ?_⟩
  change execKernelOperationDone e false s = _
  unfold execKernelOperationDone
  extract_lets k
  have parts : ((hybridParts j.scheme).isSome && !j.second && !false) = false := by
    obtain single | second := last
    · rw [Option.isNone_iff_eq_none.mp single]
      rfl
    · rw [second]
      simp
  rw [if_neg (by simp), if_neg (not_not.mpr busy), chain]
  dsimp only
  unfold State.chainEnd
  rw [parts, if_neg (by decide)]
  extract_lets u v
  have live : v.verLive { j with second := false } = true := by
    unfold State.verLive
    dsimp only
    have waits : ((v.mb q).call.map (·.sig)).getD none = some { j with second := false } := congrArg (fun c => (c.map (·.sig)).getD none) call
    rw [use] at waits ⊢
    exact decide_eq_true waits
  rw [if_neg (by decide)]
  split
  · next p port =>
    rw [use] at port
    cases port
  · rw [if_pos live]
    unfold State.verDone
    rw [use]

/-- The verification that a fuse command waited for ends (R319, R362, R466). -/
theorem fuseCallEnds_completes {e : EngineId} {code : Nat} {ws : List W32} {o : List Byte} {j : ChainJob}
    (ends : s.CallEnds e q tag code ws o j) (coded : code = 0x41 ∨ code = 0x47) {P : State → Prop}
    (done : ∀ u, Beside s u → u.heldOf 0 6 = s.heldOf 0 6 → u.mb q = s.mb q →
      P (u.fuseVerified q (sigVerifies j.scheme j.digest j.block)).engineFreed) :
    Completes (.kernelOperationDone e false) s P := by
  obtain ⟨u, beside, boxes, held, run⟩ := callEnds_run ends
  obtain ⟨-, -, -, -, call, -⟩ := ends
  have goes : ∀ ok, u.callDone q ok = u.fuseVerified q ok := fun ok => by
    unfold State.callDone
    rw [boxes, call]
    obtain rfl | rfl := coded
    · rfl
    · rfl
  rw [goes] at run
  exact ⟨_, run, done u beside held (congrFun boxes q)⟩

/-- An engine that becomes free where no operation of LEAD waits changes nothing of the mailboxes, the fuse controller and its leave. -/
theorem engineFreed_spares (idle : s.keys.tasks = []) :
    s.engineFreed.mb = s.mb ∧ s.engineFreed.fuses = s.fuses ∧ s.engineFreed.heldOf 0 6 = s.heldOf 0 6 := by
  obtain ⟨⟨verify, leave, engines, form⟩, held⟩ := verStart_form s
  have tasks : s.verStart.keys.tasks = [] := by
    rw [form]
    exact idle
  have freed : s.engineFreed = s.verStart := by
    unfold State.engineFreed State.taskNext
    rw [tasks]
  refine ⟨?_, ?_, by rw [freed, held]⟩
  · rw [freed, form]
    rfl
  · rw [freed, form]

theorem Burns.engineFreed {fn unit : Nat} (h : Burns s t q tag fn unit) (idle : t.keys.tasks = []) :
    Burns s t.engineFreed q tag fn unit := by
  obtain ⟨mb, fuses, held⟩ := engineFreed_spares idle
  unfold Burns InProgress at h ⊢
  rw [mb, fuses, held]
  exact h

end

/-! #### The commands (R104, R362, R363, R471, R472) -/

section
variable {s : State} {mb : MailboxId} {tag : Byte} {w v : W32} {ws : List W32} {o : List Byte} {e : EngineId} {j : ChainJob}

theorem Beside.kdNeedsAuth {t : State} (h : Beside s t) (n : Nat) : t.kdNeedsAuth n = s.kdNeedsAuth n := by
  obtain ⟨mspi, leave, engines, cores, rfl⟩ := h
  rfl

theorem confirmed_two (sure : v = ~~~ w) : confirmed [w, v] 2 = true := decide_eq_true sure

theorem confirmed_burn (image : ws.length = 16) (sure : v = ~~~ w) : confirmed (w :: ws ++ [v]) 18 = true := by
  have last : (w :: ws ++ [v]).getD (18 - 1) 0 = v := by simp [List.getD, image]
  exact decide_eq_true (last.trans sure)

theorem cmdFuseBurn_burns (own : mb.val ≠ 0) (runs : s.Runs mb 0x40 tag (w :: ws ++ [v])) (image : ws.length = 16) (sure : v = ~~~ w)
    (low : w.toNat < 256) (trim : w.toNat ≠ 0x31) (free : s.kdNeedsAuth w.toNat = false)
    (ready : ({ s with fuses := { s.fuses with image := ws } } : State).FuseReady s.keyAgent 1 w.toNat 0) :
    Completes (.cmdFuseBurn mb) s fun t => Burns s t mb.val tag 1 w.toNat ∧ t.fuses.image = ws := by
  refine .ofEndsIn (o := execCmdFuseBurn mb s) rfl ?_
  unfold execCmdFuseBurn
  refine .shentiha own runs (decide_eq_true (by simp [image])) fun t taken => ?_
  have unit : arg (w :: ws ++ [v]) 1 = w.toNat := rfl
  rw [unit, if_neg (Nat.not_le.mpr low), confirmed_burn image sure, if_neg (by decide), if_neg trim, taken.beside.kdNeedsAuth, free,
    if_neg (by decide)]
  have words : ((w :: ws ++ [v]).drop 1).take 16 = ws := by simp [← image]
  have idle : t.fuses.state = .idle := by
    obtain ⟨u, -, idle, -⟩ := ready
    rw [taken.fuses]
    exact idle
  unfold State.fuseRun
  rw [unit, words]
  dsimp only
  rw [if_pos rfl, if_pos idle]
  have agent : ({ t with fuses := { t.fuses with image := ws } } : State).keyAgent = s.keyAgent := taken.beside.keyAgent
  rw [agent]
  have filled := taken.beside.fuseReady (f := fun f => { f with image := ws }) ready
  have otp : t.fuses.otp = s.fuses.otp := congrArg Fuses.otp taken.fuses
  obtain ⟨burns, -, view⟩ := fuseCmd_burns (s := s) (q := mb.val) (code := 0x40) filled (by decide) (by decide) taken.tag otp taken.heldOf
  exact ⟨burns, congrArg Prod.fst view⟩

theorem cmdFuseBurn_waits (own : mb.val ≠ 0) (runs : s.Runs mb 0x40 tag (w :: ws ++ [v])) (image : ws.length = 16) (sure : v = ~~~ w)
    (low : w.toNat < 256) (needs : s.kdNeedsAuth w.toNat = true) (idle : s.fuses.state = .idle)
    (object : s.mspi.obj.object mb.val 3 = some o) (auth : s.authOk o 5 (w.toNat + 256) = true)
    (engine : s.onEngine (field o 0x0A 2) = true) :
    Completes (.cmdFuseBurn mb) s fun t =>
      t.CallWaits mb.val tag 0x40 (w :: ws ++ [v]) o (authJob (.command mb.val) o) ∧ t.fuses = s.fuses := by
  refine .ofEndsIn (o := execCmdFuseBurn mb s) rfl ?_
  unfold execCmdFuseBurn
  refine .shentiha own runs (decide_eq_true (by simp [image])) fun t taken => ?_
  have unit : arg (w :: ws ++ [v]) 1 = w.toNat := rfl
  have trim : w.toNat ≠ 0x31 := fun same => by
    simp [State.kdNeedsAuth, same] at needs
  rw [unit, if_neg (Nat.not_le.mpr low), confirmed_burn image sure, if_neg (by decide), if_neg trim, taken.beside.kdNeedsAuth, needs,
    if_pos rfl]
  exact fuseAuthorised_waits taken idle object auth engine

theorem cmdFuseLock_burns (own : mb.val ≠ 0) (runs : s.Runs mb 0x41 tag [w, v]) (sure : v = ~~~ w) (low : w.toNat < 256)
    (free : s.kdNeedsAuth w.toNat = false) (ready : s.FuseReady s.keyAgent 2 w.toNat 0) :
    Completes (.cmdFuseLock mb) s fun t => Burns s t mb.val tag 2 w.toNat := by
  refine .ofEndsIn (o := execCmdFuseLock mb s) rfl ?_
  unfold execCmdFuseLock
  refine .shentiha own runs rfl fun t taken => ?_
  have unit : arg [w, v] 1 = w.toNat := rfl
  rw [unit, if_neg (Nat.not_le.mpr low), confirmed_two sure, if_neg (by decide), taken.beside.kdNeedsAuth, free, if_neg (by decide)]
  unfold State.fuseRun
  rw [if_neg (by decide), if_pos rfl, unit, taken.beside.keyAgent]
  exact (taken.burns ready (by decide) (by decide)).1

theorem cmdFuseLock_waits (own : mb.val ≠ 0) (runs : s.Runs mb 0x41 tag [w, v]) (sure : v = ~~~ w) (low : w.toNat < 256)
    (needs : s.kdNeedsAuth w.toNat = true) (idle : s.fuses.state = .idle) (object : s.mspi.obj.object mb.val 3 = some o)
    (auth : s.authOk o 5 (w.toNat + 512) = true) (engine : s.onEngine (field o 0x0A 2) = true) :
    Completes (.cmdFuseLock mb) s fun t =>
      t.CallWaits mb.val tag 0x41 [w, v] o (authJob (.command mb.val) o) ∧ t.fuses = s.fuses := by
  refine .ofEndsIn (o := execCmdFuseLock mb s) rfl ?_
  unfold execCmdFuseLock
  refine .shentiha own runs rfl fun t taken => ?_
  have unit : arg [w, v] 1 = w.toNat := rfl
  rw [unit, if_neg (Nat.not_le.mpr low), confirmed_two sure, if_neg (by decide), taken.beside.kdNeedsAuth, needs, if_pos rfl]
  exact fuseAuthorised_waits taken idle object auth engine

theorem cmdFuseAdvance_burns (own : mb.val ≠ 0) (runs : s.Runs mb 0x42 tag [w, v]) (sure : v = ~~~ w) (low : w.toNat < 2 ^ 17)
    (ready : s.FuseReady (if w.toNat % 256 = 0x13 then s.secondAgent.getD s.keyAgent else s.keyAgent) 3 (w.toNat % 256) (w.toNat / 256)) :
    Completes (.cmdFuseAdvance mb) s fun t =>
      Burns s t mb.val tag 3 (w.toNat % 256) ∧ fuseArg t.fuses.word = w.toNat / 256 := by
  refine .ofEndsIn (o := execCmdFuseAdvance mb s) rfl ?_
  unfold execCmdFuseAdvance
  refine .shentiha own runs rfl fun t taken => ?_
  have unit : arg [w, v] 1 = w.toNat := rfl
  have second : t.secondAgent = s.secondAgent := by
    unfold State.secondAgent State.leadAgent
    rw [taken.boot]
  rw [unit]
  dsimp only
  rw [if_neg (Nat.not_le.mpr low), confirmed_two sure, if_neg (by decide), second, taken.beside.keyAgent]
  exact taken.burns ready (by decide) (by omega)

/-- A revocation needs a pre-check whose mask holds the slot (R104). -/
theorem cmdFuseRevoke_completes (own : mb.val ≠ 0) (runs : s.Runs mb 0x43 tag [w, v]) (sure : v = ~~~ w) (low : 0x20 ≤ w.toNat)
    (high : w.toNat ≤ 0x2F) :
    ((s.wake.prechecks.any fun m => bitOf m.toNat (w.toNat - 0x20)) = true → s.FuseReady s.keyAgent 4 w.toNat 0 →
        Completes (.cmdFuseRevoke mb) s fun t => Burns s t mb.val tag 4 w.toNat)
      ∧ ((s.wake.prechecks.any fun m => bitOf m.toNat (w.toNat - 0x20)) = false → Completes (.cmdFuseRevoke mb) s fun t =>
        Told s t mb.val tag 0x1009 []) := by
  have unit : arg [w, v] 1 = w.toNat := rfl
  have range : ¬ (w.toNat < 0x20 ∨ 0x2F < w.toNat) := by omega
  refine ⟨fun checked ready => .ofEndsIn (o := execCmdFuseRevoke mb s) rfl ?_, fun unchecked => .ofEndsIn (o := execCmdFuseRevoke mb s) rfl ?_⟩
  · unfold execCmdFuseRevoke
    refine .shentiha own runs rfl fun t taken => ?_
    have wake : t.wake = s.wake := by
      obtain ⟨_, _, _, _, rfl⟩ := taken.only
      rfl
    rw [unit, if_neg range, confirmed_two sure, if_neg (by decide), wake, checked, if_neg (by decide), taken.beside.keyAgent]
    exact (taken.burns ready (by decide) (by decide)).1
  · unfold execCmdFuseRevoke
    refine .shentiha own runs rfl fun t taken => ?_
    have wake : t.wake = s.wake := by
      obtain ⟨_, _, _, _, rfl⟩ := taken.only
      rfl
    rw [unit, if_neg range, confirmed_two sure, if_neg (by decide), wake, unchecked, if_pos (by decide)]
    exact taken.told ..

theorem cmdFuseReburn_burns (own : mb.val ≠ 0) (runs : s.Runs mb 0x44 tag [w, v]) (sure : v = ~~~ w) (low : w.toNat < 128)
    (ready : s.FuseReady s.keyAgent 5 (s.weakUnit w.toNat) w.toNat) :
    Completes (.cmdFuseReburn mb) s fun t => Burns s t mb.val tag 5 (s.weakUnit w.toNat) := by
  refine .ofEndsIn (o := execCmdFuseReburn mb s) rfl ?_
  unfold execCmdFuseReburn
  refine .shentiha own runs rfl fun t taken => ?_
  have index : arg [w, v] 1 = w.toNat := rfl
  have unit : t.weakUnit w.toNat = s.weakUnit w.toNat := by
    unfold State.weakUnit
    rw [taken.fuses]
  rw [index, if_neg (Nat.not_le.mpr low), confirmed_two sure, if_neg (by decide), unit, taken.beside.keyAgent]
  exact (taken.burns ready (by decide) (by omega)).1

theorem cmdFuseResense_completes (own : mb.val ≠ 0) (runs : s.Runs mb 0x45 tag []) :
    (s.fuses.state = .idle → Completes (.cmdFuseResense mb) s fun t => InProgress t mb.val tag ∧ t.fuses.state = .sensing)
      ∧ (s.fuses.state ≠ .idle → Completes (.cmdFuseResense mb) s fun t => Told s t mb.val tag 0x2001 []) := by
  refine ⟨fun idle => .ofEndsIn (o := execCmdFuseResense mb s) rfl ?_, fun busy => .ofEndsIn (o := execCmdFuseResense mb s) rfl ?_⟩
  · unfold execCmdFuseResense
    refine .shentiha own runs rfl fun t taken => ?_
    have idle' : (t.fuseFor mb.val 0x45).fuses.state = .idle := (congrArg Fuses.state taken.fuses).trans idle
    rw [if_neg (by rw [taken.fuses]; exact not_not.mpr idle)]
    unfold State.resenseDue
    rw [idle']
    exact ⟨taken.tag, rfl⟩
  · unfold execCmdFuseResense
    refine .shentiha own runs rfl fun t taken => ?_
    rw [if_pos (by rw [taken.fuses]; exact busy)]
    exact taken.told ..

theorem cmdFuseRead_completes (own : mb.val ≠ 0) (runs : s.Runs mb 0x46 tag [w, v]) :
    (w = 0 → v = 0 → Completes (.cmdFuseRead mb) s fun t =>
        Told s t mb.val tag 0 (s.counterWord 8 :: (List.range 8).map fun i => s.counterWord i))
      ∧ (w = 1 → v = 0 → Completes (.cmdFuseRead mb) s fun t => Told s t mb.val tag 0 [kdWord s.fuses.latched, kdWord s.fuses.current])
      ∧ (w = 2 → v.toNat < 128 → Completes (.cmdFuseRead mb) s fun t => Told s t mb.val tag 0 ((s.fuses.weakMap.drop v.toNat).take 128))
      ∧ (w = 3 → v.toNat < 16 → Completes (.cmdFuseRead mb) s fun t =>
        Told s t mb.val tag 0 (wordsOf (padTo (kdDigest s.fuses.latched v.toNat) 48))) := by
  have second : arg [w, v] 2 = v.toNat := rfl
  refine ⟨?_, ?_, ?_, ?_⟩
  · rintro rfl rfl
    refine .ofEndsIn (o := execCmdFuseRead mb s) rfl (.shentiha own runs rfl fun t taken => ?_)
    have counters : t.counterWord = s.counterWord := by
      unfold State.counterWord State.lcCurrent State.lcLatched
      rw [taken.fuses]
    change Told s (t.answer mb.val 0 (t.counterWord 8 :: (List.range 8).map fun i => t.counterWord i)) _ _ _ _
    rw [counters]
    exact taken.told ..
  · rintro rfl rfl
    refine .ofEndsIn (o := execCmdFuseRead mb s) rfl (.shentiha own runs rfl fun t taken => ?_)
    change Told s (t.answer mb.val 0 [kdWord t.fuses.latched, kdWord t.fuses.current]) _ _ _ _
    rw [taken.fuses]
    exact taken.told ..
  · rintro rfl low
    refine .ofEndsIn (o := execCmdFuseRead mb s) rfl (.shentiha own runs rfl fun t taken => ?_)
    change Told s (if 128 ≤ v.toNat then _ else _) _ _ _ _
    rw [if_neg (Nat.not_le.mpr low), second, taken.fuses]
    exact taken.told ..
  · rintro rfl low
    refine .ofEndsIn (o := execCmdFuseRead mb s) rfl (.shentiha own runs rfl fun t taken => ?_)
    change Told s (if 16 ≤ v.toNat then _ else _) _ _ _ _
    rw [if_neg (Nat.not_le.mpr low), second, taken.fuses]
    exact taken.told ..

theorem cmdLcAdvance_burns (own : mb.val ≠ 0) (runs : s.Runs mb 0x47 tag [w, v]) (sure : v = ~~~ w) (step : w.toNat = 2)
    (ready : s.FuseReady s.keyAgent 3 0 2) :
    Completes (.cmdLcAdvance mb) s fun t => Burns s t mb.val tag 3 0 ∧ fuseArg t.fuses.word = 2 := by
  refine .ofEndsIn (o := execCmdLcAdvance mb s) rfl ?_
  unfold execCmdLcAdvance
  refine .shentiha own runs rfl fun t taken => ?_
  have target : arg [w, v] 1 = 2 := step
  rw [target, if_neg (by decide), confirmed_two sure, if_neg (by decide), if_neg (by decide)]
  unfold State.fuseRun
  rw [if_neg (by decide), if_neg (by decide), target, taken.beside.keyAgent]
  exact taken.burns ready (by decide) (by decide)

/-- A step past PROVISIONED needs an authorisation (R346, R472). -/
theorem cmdLcAdvance_authorised (own : mb.val ≠ 0) (runs : s.Runs mb 0x47 tag [w, v]) (sure : v = ~~~ w) (low : 3 ≤ w.toNat)
    (high : w.toNat ≤ 5) (object : s.mspi.obj.object mb.val 3 = some o) :
    (s.authOk o (w.toNat - 1) w.toNat = true → s.fuses.state = .idle → s.onEngine (field o 0x0A 2) = true →
        Completes (.cmdLcAdvance mb) s fun t =>
          t.CallWaits mb.val tag 0x47 [w, v] o (authJob (.command mb.val) o) ∧ t.fuses = s.fuses)
      ∧ (s.authOk o (w.toNat - 1) w.toNat = false → s.fuses.state = .idle → Completes (.cmdLcAdvance mb) s fun t =>
        Answered s t mb.val tag 0x1007 [] ∧ t.fuses = s.fuses) := by
  have target : arg [w, v] 1 = w.toNat := rfl
  have range : ¬ (w.toNat < 2 ∨ 5 < w.toNat) := by omega
  refine ⟨fun auth idle engine => .ofEndsIn (o := execCmdLcAdvance mb s) rfl ?_, fun auth idle => .ofEndsIn (o := execCmdLcAdvance mb s) rfl ?_⟩
  · unfold execCmdLcAdvance
    refine .shentiha own runs rfl fun t taken => ?_
    rw [target, if_neg range, confirmed_two sure, if_neg (by decide), if_pos low]
    exact fuseAuthorised_waits taken idle object auth engine
  · unfold execCmdLcAdvance
    refine .shentiha own runs rfl fun t taken => ?_
    rw [target, if_neg range, confirmed_two sure, if_neg (by decide), if_pos low]
    exact fuseAuthorised_refused taken idle object auth

/-! #### The functions that an authorisation opened (R362) -/

theorem callTaken_beside (s : State) (q : Nat) : Beside s (s.callTaken q) := ⟨_, s.leave, s.engines, s.cores, rfl⟩

/-- What the command in progress keeps while its authorisation is verified. -/
theorem fuseCall_args {q code : Nat} {u : State} (ends : s.CallEnds e q tag code ws o j) (box : u.mb q = s.mb q) :
    ((u.mb q).call.map (·.code)).getD 0 = code ∧ u.callArgs q = ws ∧ ((u.callTaken q).mb q).tag = some tag
      ∧ ((u.callTaken q).mb q).aborted = false ∧ (u.callTaken q).outgoing q = s.outgoing q := by
  obtain ⟨-, -, -, -, call, own, hears, -⟩ := ends
  unfold State.callTaken State.callArgs State.outgoing
  rw [State.mbU_mb_same, box, call]
  exact ⟨rfl, rfl, own, hears, rfl⟩

theorem Answered.engineFreed {t : State} {q status : Nat} (h : Answered s t q tag status ws) (idle : t.keys.tasks = []) :
    Answered s t.engineFreed q tag status ws := by
  unfold Answered State.outgoing at h ⊢
  rw [(engineFreed_spares idle).1]
  exact h

/-- An authorisation that fails its verification refuses the function (R466). -/
theorem fuseCall_refused {q code : Nat} (ends : s.CallEnds e q tag code ws o j) (coded : code = 0x41 ∨ code = 0x47)
    (fails : sigVerifies j.scheme j.digest j.block = false) :
    Completes (.kernelOperationDone e false) s fun t => Answered s t q tag 0x1007 [] ∧ t.fuses = s.fuses := by
  refine fuseCallEnds_completes ends coded fun u beside _ box => ?_
  obtain ⟨-, -, own, hears, waits⟩ := fuseCall_args ends box
  obtain ⟨-, -, -, -, -, -, -, tasks⟩ := ends
  have taken : Beside s (u.callTaken q) := beside.trans (callTaken_beside u q)
  unfold State.fuseVerified
  extract_lets code' args v
  have tag' : (v.mb q).tag.getD 0 = tag := by
    rw [own]
    rfl
  rw [fails, if_pos (by decide)]
  obtain ⟨words, mail⟩ := State.respond_outgoing (s := v) q ((v.mb q).tag.getD 0) 0x1007 [] hears
  have answered : Answered s (v.answer q 0x1007 []) q tag 0x1007 [] := by
    rw [waits, tag'] at words
    unfold State.answer
    rw [tag']
    exact words
  have quiet : (v.answer q 0x1007 []).keys.tasks = [] := by
    have keys : (v.answer q 0x1007 []).keys = v.keys := mail.keys
    rw [keys, taken.keys]
    exact tasks
  exact ⟨answered.engineFreed quiet, (engineFreed_spares quiet).2.1.trans (mail.fuses.trans taken.fuses)⟩

/-- A verified authorisation posts its grant, and the function that is ready under it burns (R362). -/
theorem fuseCall_burns {q code fn unit a : Nat} (ends : s.CallEnds e q tag code [w, v] o j) (coded : code = 0x41 ∨ code = 0x47)
    (function : (if code = 0x41 then 2 else 3) = fn) (goes : ∀ x : State, x.fuseRun q code [w, v] = x.fuseCmd q code x.keyAgent fn unit a)
    (small : a < 4096) (passes : sigVerifies j.scheme j.digest j.block = true) (idle : s.fuses.state = .idle)
    (ready : (s.grantFuse fn w.toNat).FuseReady s.keyAgent fn unit a) :
    Completes (.kernelOperationDone e false) s fun t => Burns s t q tag fn unit ∧ fuseArg t.fuses.word = a := by
  refine fuseCallEnds_completes ends coded fun u beside held box => ?_
  obtain ⟨named, args, own, -, -⟩ := fuseCall_args ends box
  obtain ⟨-, -, -, -, -, -, -, tasks⟩ := ends
  have taken : Beside s (u.callTaken q) := beside.trans (callTaken_beside u q)
  have burnless : code ≠ 0x40 := by omega
  have range : fn ≠ 0 ∧ fn ≤ 5 := by
    rw [← function]
    split <;> decide
  have target : arg [w, v] 1 = w.toNat := rfl
  unfold State.fuseVerified
  rw [named, args, passes]
  dsimp only
  rw [if_neg (by decide), if_neg (by rw [taken.fuses]; exact not_not.mpr idle), if_neg burnless, function, goes, target]
  have agent : ((u.callTaken q).grantFuse fn w.toNat).keyAgent = s.keyAgent := taken.keyAgent
  have otp : (u.callTaken q).fuses.otp = s.fuses.otp := congrArg Fuses.otp taken.fuses
  rw [agent]
  obtain ⟨burns, word, view⟩ := fuseCmd_burns (s := s) (q := q) (code := code)
    (taken.fuseReady (f := fun f => { f with grant := some (BitVec.ofNat 4 fn, BitVec.ofNat 8 w.toNat) }) ready) range small own otp held
  have quiet : (((u.callTaken q).grantFuse fn w.toNat).fuseCmd q code s.keyAgent fn unit a).keys.tasks = [] := by
    have keys : (((u.callTaken q).grantFuse fn w.toNat).fuseCmd q code s.keyAgent fn unit a).keys = (u.callTaken q).keys := congrArg Prod.snd view
    rw [keys, taken.keys]
    exact tasks
  exact ⟨burns.engineFreed quiet, by rw [(engineFreed_spares quiet).2.1]; exact word⟩

end

/-- Settles O52, command by command. -/
theorem fuseCommands : Obligations.FuseCommands := by
  unfold Obligations.FuseCommands
  intro s mb tag w v ws o e j q passes auth ag n ok own
  refine ⟨cmdFuseBurn_burns own, cmdFuseBurn_waits own, cmdFuseLock_burns own, cmdFuseLock_waits own,
    fun ends idle => ⟨fun good ready => ?_, fuseCall_refused ends (.inl rfl)⟩, cmdFuseAdvance_burns own,
    fun runs sure low high => cmdFuseRevoke_completes own runs sure low high, cmdFuseReburn_burns own, cmdFuseResense_completes own,
    cmdFuseRead_completes own, fun runs sure => ⟨cmdLcAdvance_burns own runs sure, fun low high object =>
      cmdLcAdvance_authorised own runs sure low high object⟩, fun ends good idle low high ready => ?_⟩
  · obtain ⟨t, run, burns, -⟩ := fuseCall_burns ends (.inl rfl) rfl (fun _ => rfl) (by decide) good idle ready
    exact ⟨t, run, burns⟩
  · exact fuseCall_burns ends (.inr rfl) rfl (fun _ => rfl) (by omega) good idle ready

end Sys2Proof.Machine
end

section
namespace Sys2Proof.Machine

open Sys2Proof

/-! ### O59: who writes the home flash -/

/-- Settles O59: of what `exec_still` says of every command and every part, the case of the home flash, whose writers are
`writesHome`. -/
theorem onlyTheseCommandsWriteTheHomeFlash : Obligations.OnlyTheseCommandsWriteTheHomeFlash := by
  intro s t c quiet runs
  have ends : EndsStill .home s (exec c s) := exec_still c quiet
  rw [runs] at ends
  exact ends

end Sys2Proof.Machine
end

section
-- Some hundred short proofs that wait for each other: in parallel they take more threads than the memory limit has room for.
set_option Elab.async false

namespace Sys2Proof.Machine

open Sys2Proof

/-! ### O25, O26: what happens beside the frames of a port -/

/-- The counters that O25 speaks of: only the end of a frame advances them, BREACH also M bits that break the profile. -/
def Ctr.own : Ctr → Bool
  | .heldActivity => true | .stalled => true | .breach => true | _ => false

/-- The counters in the order of their positions. -/
def Ctr.all : List Ctr :=
  [.chaffRead, .chaffProgram, .chaffErase, .chaffOther, .filled, .severed, .undecided, .ragged, .length, .stalled, .breach,
   .late, .heldActivity, .merge, .verified, .mismatch, .unobserved, .untagged, .served, .notReady, .repeated]

theorem Ctr.all_pos (c : Ctr) : Ctr.all[c.pos]? = some c := by cases c <;> rfl

theorem Ctr.pos_inj {a b : Ctr} (h : a.pos = b.pos) : a = b := by
  have same := Ctr.all_pos a
  rw [h, Ctr.all_pos b] at same
  exact (Option.some.inj same).symm

theorem Ctr.pos_lt (c : Ctr) : c.pos < 32 := by cases c <;> decide

theorem chaffCtr_own (cls : Nat) : (chaffCtr cls).own = false := by
  unfold chaffCtr
  split_ifs <;> rfl

/-- A counter after a change of another one, or of itself. -/
theorem count_upd (s : State) (p : Nat) (c : Ctr) (f : Nat → Nat) (q : Nat) (d : Ctr) :
    ({ s with ctr := Tab.upd 0 s.ctr (32 * p + c.pos) f } : State).count q d
      = if q = p ∧ d = c then f (s.count p c) else s.count q d := by
  have keys : 32 * q + d.pos = 32 * p + c.pos ↔ q = p ∧ d = c := by
    refine ⟨fun e => ?_, by rintro ⟨rfl, rfl⟩; rfl⟩
    have := c.pos_lt
    have := d.pos_lt
    exact ⟨by omega, Ctr.pos_inj (by omega)⟩
  unfold State.count
  simp only [Tab.get_upd, keys]

/-- A counter has risen by n; its alarm is still to come. -/
def State.counted (s : State) (p : Nat) (c : Ctr) (n : Nat) : State :=
  { s with ctr := Tab.upd 0 s.ctr (32 * p + c.pos) fun old => satAdd c.width old n }

theorem bump_counted (s : State) (p : Nat) (c : Ctr) (n : Nat) : s.bump p c n
    = if c.flag then s.counted p c n
      else (s.counted p c n).maxNote c.width (s.count p c) (satAdd c.width (s.count p c) n) 1 p := rfl

theorem counted_count (s : State) (p : Nat) (c : Ctr) (n : Nat) : (s.counted p c n).count p c = satAdd c.width (s.count p c) n :=
  (count_upd ..).trans (if_pos ⟨rfl, rfl⟩)

/-- A 32-bit count that has not changed, or has risen by 1 or more. -/
def Rises (a b : Nat) : Prop := b = a ∨ satAdd 32 a 1 ≤ b

theorem Rises.trans {a b c : Nat} (h : Rises a b) (k : Rises b c) : Rises a c := by
  unfold Rises satAdd at *
  omega

/-- Once risen, a count does not fall back. -/
theorem Rises.counted {a b c : Nat} (h : Rises a b) (k : Rises (satAdd 32 b 1) c) : satAdd 32 a 1 ≤ c := by
  unfold Rises satAdd at *
  omega

/-- From `s` to `t` no frame begins or ends: of a port's edge only ADDR4, which a handback clears (`E` says whether one may
come), and the continuous-read state change, the status model sets no bit, and the counters of O25 stand, but for BREACH. -/
structure Aside (E : Prop) (s t : State) : Prop where
  edge : ∀ p, { t.pe p with addr4 := (s.pe p).addr4, cont := (s.pe p).cont, contLeaf := (s.pe p).contLeaf } = s.pe p
  addr4 : ∀ p, (t.pe p).addr4 = (s.pe p).addr4 ∨ (t.pe p).addr4 = false ∧ E
  wel : ∀ p, (t.pw p).wel = true → (s.pw p).wel = true
  busy : ∀ p, (t.pw p).busy = true → (s.pw p).busy = true
  held : ∀ p, t.count p .heldActivity = s.count p .heldActivity
  stalled : ∀ p, t.count p .stalled = s.count p .stalled
  breach : ∀ p, Rises (s.count p .breach) (t.count p .breach)

section
variable {E : Prop} {s0 s t : State} {f : Fr}

theorem Aside.refl : Aside E s s :=
  ⟨fun _ => rfl, fun _ => .inl rfl, fun _ => id, fun _ => id, fun _ => rfl, fun _ => rfl, fun _ => .inl rfl⟩

theorem Aside.trans (h : Aside E s0 s) (k : Aside E s t) : Aside E s0 t where
  edge p := by
    have first := h.edge p
    have second := k.edge p
    rw [← second] at first
    exact first
  addr4 p := by
    rcases k.addr4 p with same | cleared
    · rw [same]
      exact h.addr4 p
    · exact .inr cleared
  wel p := h.wel p ∘ k.wel p
  busy p := h.busy p ∘ k.busy p
  held p := (k.held p).trans (h.held p)
  stalled p := (k.stalled p).trans (h.stalled p)
  breach p := (h.breach p).trans (k.breach p)

theorem Aside.out (h : Aside E s t) (p : Nat) : (t.pe p).out = (s.pe p).out := by
  have := congrArg PEdge.out (h.edge p)
  exact this

theorem Aside.tag (h : Aside E s t) (p : Nat) : (t.pe p).tag = (s.pe p).tag := by
  have := congrArg PEdge.tag (h.edge p)
  exact this

/-- A change of other tables than those of edges, windows and counters. -/
theorem Aside.same (h : Aside E s0 s) (e : (t.edge, t.win, t.ctr) = (s.edge, s.win, s.ctr) := by rfl) : Aside E s0 t := by
  simp only [Prod.mk.injEq] at e
  obtain ⟨edge, win, ctr⟩ := e
  have pe : t.pe = s.pe := by funext p; unfold State.pe; rw [edge]
  have pw : t.pw = s.pw := by funext p; unfold State.pw; rw [win]
  have count : t.count = s.count := by funext p c; unfold State.count; rw [ctr]
  exact h.trans ⟨by simp [pe], by simp [pe], by simp [pw], by simp [pw], by simp [count], by simp [count],
    by simp [count, Rises]⟩

/-- A change of a window that sets neither WEL nor BUSY. -/
theorem Aside.pwU {i : Nat} {f : PWin → PWin} (h : Aside E s0 s)
    (hf : ∀ w, ((f w).wel = true → w.wel = true) ∧ ((f w).busy = true → w.busy = true) := by simp) :
    Aside E s0 (s.pwU i f) := by
  have window : ∀ p, (((s.pwU i f).pw p).wel = true → (s.pw p).wel = true)
      ∧ (((s.pwU i f).pw p).busy = true → (s.pw p).busy = true) := fun p => by
    rw [State.pwU_pw]
    split
    · next e => rw [e]; exact hf _
    · exact ⟨id, id⟩
  exact h.trans { Aside.refl with wel := fun p => (window p).1, busy := fun p => (window p).2 }

/-- A change of an edge's continuous-read state, or of its ADDR4 to 0 where a handback may come. -/
theorem Aside.peU {i : Nat} {f : PEdge → PEdge} (h : Aside E s0 s)
    (hf : ∀ x, { f x with addr4 := x.addr4, cont := x.cont, contLeaf := x.contLeaf } = x := by exact fun _ => rfl)
    (ha : ∀ x, (f x).addr4 = x.addr4 ∨ (f x).addr4 = false ∧ E := by exact fun _ => .inl rfl) : Aside E s0 (s.peU i f) := by
  refine h.trans { (Aside.refl : Aside E s s) with edge := fun p => ?_, addr4 := fun p => ?_ }
  · rw [State.peU_pe]
    split
    · next k => rw [k]; exact hf _
    · rfl
  · rw [State.peU_pe]
    split
    · next k => rw [k]; exact ha _
    · exact .inl rfl

/-- A change of a counter that is not one of O25. -/
theorem Aside.ctr {p : Nat} {c : Ctr} {f : Nat → Nat} (h : Aside E s0 s) (hc : c.own = false) :
    Aside E s0 { s with ctr := Tab.upd 0 s.ctr (32 * p + c.pos) f } := by
  have count : ∀ q d, d.own = true →
      ({ s with ctr := Tab.upd 0 s.ctr (32 * p + c.pos) f } : State).count q d = s.count q d := fun q d hd => by
    rw [count_upd, if_neg]
    rintro ⟨-, rfl⟩
    rw [hd] at hc
    cases hc
  exact h.trans { Aside.refl with
    held := fun q => count q _ rfl, stalled := fun q => count q _ rfl, breach := fun q => .inl (count q _ rfl) }

/-- A breach counts. -/
theorem Aside.breached {p : Nat} (h : Aside E s0 s) : Aside E s0 (s.counted p .breach 1) := by
  have count : ∀ q d, (s.counted p .breach 1).count q d
      = if q = p ∧ d = .breach then satAdd 32 (s.count p .breach) 1 else s.count q d := fun q d => count_upd ..
  refine h.trans { Aside.refl with held := fun q => ?_, stalled := fun q => ?_, breach := fun q => ?_ }
  · rw [count, if_neg (by simp)]
  · rw [count, if_neg (by simp)]
  · rw [count]
    split
    · next e => rw [e.1]; exact .inr le_rfl
    · exact .inl rfl

theorem Aside.ite {c : Prop} [Decidable c] (hs : Aside E s0 s) (ht : Aside E s0 t) : Aside E s0 (if c then s else t) := by
  split
  · exact hs
  · exact ht

theorem Aside.foldl {α : Type} {l : List α} {f : State → α → State} (h : Aside E s0 s)
    (hf : ∀ u x, Aside E s0 u → Aside E s0 (f u x)) : Aside E s0 (l.foldl f s) := by
  induction l generalizing s with
  | nil => exact h
  | cons x l ih => exact ih (hf s x h)

theorem Aside.each {α : Type} {l : List α} {f : State → α → State} (h : Aside E s0 s)
    (hf : ∀ u x, Aside E s0 u → Aside E s0 (f u x)) : Aside E s0 (s.each l f) :=
  h.foldl hf

/-- A command that ends has done nothing but `Aside`. -/
def AsideEnds (E : Prop) (s0 : State) : Done → Prop
  | .next t => Aside E s0 t
  | _ => True

theorem AsideEnds.ite {c : Prop} [Decidable c] {a b : Done} (ha : AsideEnds E s0 a) (hb : AsideEnds E s0 b) :
    AsideEnds E s0 (if c then a else b) := by
  split
  · exact ha
  · exact hb

theorem Aside.after {o : Done} (h : Aside E s0 s) (ho : AsideEnds E s0 o) : Aside E s0 (after o s) := by
  unfold Machine.after
  split
  · exact ho
  · exact h

section
variable {a cause code data e g i k kind lane len l n p q rank reason status target tkind x : Nat} {body bs payload : List Byte}
  {u : LvUse} {ws : List W32} {w : W32} {t' : KTask} {st : FlowSt} {j : ChainJob} {c : CoreId} {d : Dec}
  {lanes : List (BitVec 4)}

/-! #### Function by function

One lemma per function that changes the state, in the order of the model, as for `Still` (O60). `Still` asks for a part of the
state to be unchanged, and a handback, a hold or a counter changes all three tables that `Aside` speaks of: its lemmas do not
follow from those of `Still`. -/

theorem Aside.phU {i : Nat} {f : PHold → PHold} (h : Aside E s0 s) : Aside E s0 (s.phU i f) := h.same

theorem Aside.coU {i : Nat} {f : Core → Core} (h : Aside E s0 s) : Aside E s0 (s.coU i f) := h.same

theorem Aside.poU {i : Nat} {f : Pool → Pool} (h : Aside E s0 s) : Aside E s0 (s.poU i f) := h.same

theorem Aside.stU {f : Stand → Stand} (h : Aside E s0 s) : Aside E s0 (s.stU i f) := h.same

theorem Aside.pdU {f : PDec → PDec} (h : Aside E s0 s) : Aside E s0 (s.pdU i f) := h.same

theorem Aside.shU {f : Sheaf → Sheaf} (h : Aside E s0 s) : Aside E s0 (s.shU i f) := h.same

theorem Aside.pkU {f : PWake → PWake} (h : Aside E s0 s) : Aside E s0 (s.pkU i f) := h.same

theorem Aside.pvU {f : PVerd → PVerd} (h : Aside E s0 s) : Aside E s0 (s.pvU i f) := h.same

theorem Aside.pgU {f : PGran → PGran} (h : Aside E s0 s) : Aside E s0 (s.pgU i f) := h.same

theorem Aside.enU {f : Engine → Engine} (h : Aside E s0 s) : Aside E s0 (s.enU i f) := h.same

theorem Aside.chU {f : Chan → Chan} (h : Aside E s0 s) : Aside E s0 (s.chU i f) := h.same

theorem Aside.lnU {f : LaneLink → LaneLink} (h : Aside E s0 s) : Aside E s0 (s.lnU i f) := h.same

theorem Aside.mbU {f : Mbox → Mbox} (h : Aside E s0 s) : Aside E s0 (s.mbU i f) := h.same

theorem Aside.ksU {f : KeySlot → KeySlot} (h : Aside E s0 s) : Aside E s0 (s.ksU n f) := h.same

theorem Aside.storeKey {key m : BitVec 512} (h : Aside E s0 s) : Aside E s0 (s.storeKey n key m) := h.ksU

theorem Aside.memZero {m : Nat} (h : Aside E s0 s) : Aside E s0 (s.memZero m) := h.same

theorem Aside.used (h : Aside E s0 s) : Aside E s0 (s.used n) := h.same

theorem Aside.poolGrant {h' : Nat} (h : Aside E s0 s) : Aside E s0 (s.poolGrant q h' n) := .ite h.poU h

theorem Aside.poolClaim {h' : Nat} (h : Aside E s0 s) : Aside E s0 (s.poolClaim q h' n) := .ite h.poolGrant h.poU

theorem Aside.poolBack {h' : Nat} (h : Aside E s0 s) : Aside E s0 (s.poolBack q h' n) := h.same

theorem Aside.reconcileOf {rets : List PoolRet} (h : Aside E s0 s) : Aside E s0 (s.reconcileOf q rets) := h.same

theorem Aside.reconcile {holders : List Nat} (h : Aside E s0 s) : Aside E s0 (s.reconcile q cause holders) := h.reconcileOf

theorem Aside.lvAsk (h : Aside E s0 s) : Aside E s0 (s.lvAsk u n) := h.same

theorem Aside.lvDrop (h : Aside E s0 s) : Aside E s0 (s.lvDrop u) := h.same

theorem Aside.lvBack (h : Aside E s0 s) : Aside E s0 (s.lvBack u n) := h.poolBack

theorem Aside.lvGrant (h : Aside E s0 s) : Aside E s0 (s.lvGrant u n) := by
  unfold State.lvGrant
  extract_lets s2
  have h2 : Aside E s0 s2 := h.poolGrant
  split
  · exact h2.coU
  · exact h2

theorem Aside.lvTake (h : Aside E s0 s) (e : s.lvTake u n = some t) : Aside E s0 t := by
  unfold State.lvTake at e
  split at e
  · cases e
    exact h.lvGrant
  · cases e

theorem Aside.boxReady (h : Aside E s0 s) : Aside E s0 (s.boxReady q) := .ite h.poolGrant.poolGrant.mbU h

theorem Aside.boxDrop (h : Aside E s0 s) : Aside E s0 (s.boxDrop q) := h.same

theorem Aside.boxEmpty (h : Aside E s0 s) : Aside E s0 (s.boxEmpty q) := (h.each (fun _ _ h1 => h1.poolBack.poolBack)).boxDrop

theorem Aside.poolMove {to_ : Nat} (h : Aside E s0 s) : Aside E s0 (s.poolMove q from_ to_ n) := h.poU

theorem Aside.boxFlush (h : Aside E s0 s) : Aside E s0 (s.boxFlush q) := h.foldl fun _ _ h1 => .ite h1.poolMove.mbU h1

theorem Aside.respond {tag : Byte} (h : Aside E s0 s) : Aside E s0 (s.respond q tag status ws) := h.mbU.boxFlush

theorem Aside.setLine {v : Bool} (h : Aside E s0 s) : Aside E s0 (s.setLine n v) := h.each fun _ _ h1 => h1.coU

theorem Aside.pushEvent {w : W36} (h : Aside E s0 s) : Aside E s0 (s.pushEvent p w) :=
  .ite h.pdU (.ite (h.ctr (c := .merge) rfl) h.pdU)

theorem Aside.logRec (h : Aside E s0 s) : Aside E s0 (s.logRec kind body) := h.same

theorem Aside.backupLog {count : Nat} (h : Aside E s0 s) : Aside E s0 (s.backupLog code rank count data) := h.same

theorem Aside.runtimeOff (h : Aside E s0 s) : Aside E s0 s.runtimeOff := .ite h h.poolBack.lvDrop.lvBack

theorem Aside.flipsEnd (h : Aside E s0 s) : Aside E s0 s.flipsEnd := .ite h.same.setLine h

theorem Aside.takeFlip (h : Aside E s0 s) : Aside E s0 (s.takeFlip p) := h.pwU.flipsEnd.pushEvent

theorem Aside.holdPort (h : Aside E s0 s) : Aside E s0 (s.holdPort p) := by
  unfold State.holdPort
  extract_lets was s1 s2 s3 s4
  have h2 : Aside E s0 s2 := h.phU.pwU
  have h3 : Aside E s0 s3 := .ite h2.takeFlip h2
  have h4 : Aside E s0 s4 := .ite h3.pushEvent h3
  exact .ite h4.runtimeOff h4

theorem Aside.setGroup (h : Aside E s0 s) : Aside E s0 (s.setGroup g w) := h.same

theorem Aside.setPage (h : Aside E s0 s) : Aside E s0 (s.setPage n w) := h.same

theorem Aside.groupRetired (h : Aside E s0 s) : Aside E s0 (s.groupRetired g) := h.each fun _ _ h1 => h1.setPage

theorem Aside.dropGroup (h : Aside E s0 s) : Aside E s0 (s.dropGroup g) := by
  unfold State.dropGroup
  extract_lets _ _ s2
  have h2 : Aside E s0 s2 := h.same
  exact .ite h2.groupRetired.poolClaim h2.setGroup

theorem Aside.returnGroup (h : Aside E s0 s) : Aside E s0 (s.returnGroup use g) := h.poolBack.dropGroup

theorem Aside.returnGroups {port : Nat} {slot : Option Bool} (h : Aside E s0 s) : Aside E s0 (s.returnGroups use port slot) :=
  h.each fun _ _ h1 => h1.returnGroup

theorem Aside.reconcileGroups {port : Nat} {uses : List Nat} (h : Aside E s0 s) :
    Aside E s0 (s.reconcileGroups cause port uses) :=
  h.each (fun _ _ h1 => .ite h1 (h1.reconcileOf.each (fun _ _ h2 => h2.dropGroup)))

theorem Aside.takeGroup (h : Aside E s0 s) (e : s.takeGroup use w = some (g, t)) : Aside E s0 t := by
  unfold State.takeGroup at e
  split at e
  · split at e
    · cases e
      exact h.poolGrant.setGroup
    · cases e
  · cases e

theorem Aside.granPut (h : Aside E s0 s) : Aside E s0 (s.granPut a bs) := h.same

theorem Aside.abortEngine (h : Aside E s0 s) : Aside E s0 (s.abortEngine e) := Aside.ite ((Aside.ite h.lvDrop.lvDrop h).enU) h

theorem Aside.dataUsed (h : Aside E s0 s) : Aside E s0 (s.dataUsed data) := .ite h.used h

theorem Aside.decided (h : Aside E s0 s) : Aside E s0 (s.decided code rank tkind target data) := by
  unfold State.decided
  extract_lets word s1 a mark al held s2 s3 s4
  have h1 : Aside E s0 s1 := h.dataUsed
  have h2 : Aside E s0 s2 := h1.same
  have h3 : Aside E s0 s3 := h2.each fun _ _ hu => (hu.holdPort).phU
  have h4 : Aside E s0 s4 := h3.same
  exact h4.setLine

theorem Aside.fuseAlarm (h : Aside E s0 s) : Aside E s0 (s.fuseAlarm rank a) := h.decided

theorem Aside.weakAdd (h : Aside E s0 s) : Aside E s0 (s.weakAdd w) := by
  unfold State.weakAdd
  extract_lets
  split
  · exact h.same
  · split
    · exact h.same
    · exact .ite h.same h.same.fuseAlarm

theorem Aside.burnFound (h : Aside E s0 s) : Aside E s0 (s.burnFound a) := by
  unfold State.burnFound
  extract_lets _ s2
  have h2 : Aside E s0 s2 := h.weakAdd
  exact .ite h2.fuseAlarm h2

theorem Aside.lcMoved {old : Nat} (h : Aside E s0 s) : Aside E s0 (s.lcMoved old) :=
  .ite h (have h2 := h.each (fun _ _ h1 => .ite h1.ksU h1); .ite h2.same h2)

theorem Aside.burnStop (h : Aside E s0 s) : Aside E s0 s.burnStop := by
  unfold State.burnStop
  extract_lets _ x2 _ _ _ _ _ _ _ s3 s4
  have h3 : Aside E s0 s3 := h.same.used
  have h4 : Aside E s0 s4 := .ite h3 h3.burnFound
  clear_value x2
  split
  · exact h
  · exact h4.lcMoved

theorem Aside.fuseEnds (h : Aside E s0 s) : Aside E s0 (s.fuseEnds code) := by
  unfold State.fuseEnds
  extract_lets _ s3 s4
  have h3 : Aside E s0 s3 := h.same
  have h4 : Aside E s0 s4 := h3.setLine
  split
  · exact h4.respond
  · exact h4

theorem Aside.burnEnds (h : Aside E s0 s) : Aside E s0 (s.burnEnds code) := h.lvBack.logRec.fuseEnds

theorem Aside.disarm (h : Aside E s0 s) : Aside E s0 s.disarm := h.same

theorem Aside.fuseStop (h : Aside E s0 s) : Aside E s0 (s.fuseStop code) :=
  Aside.ite ((Aside.ite h.lvDrop h.burnStop).burnEnds) (Aside.ite h.disarm h)

theorem Aside.chanError {k : ChannelKind} (h : Aside E s0 s) : Aside E s0 (s.chanError k i cause) := h.chU

theorem Aside.runtimeDraw (h : Aside E s0 s) : Aside E s0 s.runtimeDraw := by
  unfold State.runtimeDraw
  extract_lets _ s3
  have h3 : Aside E s0 s3 := .ite h.poolGrant h
  split
  · exact h
  · split
    · exact h3
    · split
      · next h4 =>
          exact (h3.lvTake h4)
      · exact h3.lvAsk

theorem Aside.wakeRelease (h : Aside E s0 s) : Aside E s0 s.wakeRelease := by
  unfold State.wakeRelease
  extract_lets s4 s5 s6
  have h4 : Aside E s0 s4 := h.lvDrop
  have h5 : Aside E s0 s5 := h4.poolBack
  have h6 : Aside E s0 s6 := h5.lvBack
  clear_value s6
  exact h6.same.runtimeDraw

theorem Aside.voidTags (h : Aside E s0 s) : Aside E s0 s.voidTags := h.each fun _ _ h1 => .ite h1 h1.returnGroups.pgU

theorem Aside.voidServed (h : Aside E s0 s) : Aside E s0 s.voidServed := h.each fun _ _ h1 => h1.returnGroups.returnGroups.pgU

theorem Aside.zeroize {redraw : Bool} (h : Aside E s0 s) : Aside E s0 (s.zeroize redraw) :=
  (h.same.voidTags.voidServed.each (fun _ _ h3 => h3.abortEngine)).fuseStop

theorem Aside.coresOff {l : List (Nat × Nat)} (h : Aside E s0 s) : Aside E s0 (s.coresOff l) :=
  h.each fun _ _ h1 => h1.coU.memZero

theorem Aside.startCore {c : Nat} {vector : W24} (h : Aside E s0 s) : Aside E s0 (s.startCore c vector) := h.coU

theorem Aside.restartThread {c : Nat} {vector : W24} (h : Aside E s0 s) : Aside E s0 (s.restartThread c vector) := h.coU

theorem Aside.passEnds (h : Aside E s0 s) : Aside E s0 s.passEnds := .ite h.poolBack.lvBack h

theorem Aside.enterSealed (h : Aside E s0 s) : Aside E s0 s.enterSealed := by
  unfold State.enterSealed
  extract_lets s9 s10 _ s12 s13 s14 _ _ _ _ _ s16
  have h9 : Aside E s0 s9 := h.passEnds.wakeRelease
  have h10 : Aside E s0 s10 := h9.each fun _ _ h11 => h11.holdPort.phU
  have h12 : Aside E s0 s12 := h10.coresOff
  have h13 : Aside E s0 s13 := .ite h12.startCore h12
  have h14 : Aside E s0 s14 := h13.each fun _ _ h15 => h15.boxEmpty
  clear_value s14
  have h16 : Aside E s0 s16 := h14.same
  exact .ite h16.boxReady h16

theorem Aside.raise (h : Aside E s0 s) : Aside E s0 (s.raise code rank tkind target data) := by
  unfold State.raise
  extract_lets word s1 s2 s3 _ s4
  have h1 : Aside E s0 s1 := h.dataUsed
  have h2 : Aside E s0 s2 := .ite h1.backupLog.zeroize h1
  have h3 : Aside E s0 s3 := h2.decided
  have h4 : Aside E s0 s4 := .ite h3.same h3
  exact .ite h4.enterSealed h4

theorem Aside.raiseReg (h : Aside E s0 s) : Aside E s0 (s.raiseReg code tkind target data) := h.raise

theorem Aside.gnoby (h : Aside E s0 s) : Aside E s0 (s.gnoby tkind target) := h.raiseReg

theorem Aside.maxNote {w old new : Nat} (h : Aside E s0 s) : Aside E s0 (s.maxNote w old new tkind target) := .ite h.raise h

theorem Aside.bump {c : Ctr} (h : Aside E s0 s) (hc : c.own = false := by rfl) : Aside E s0 (s.bump p c n) := by
  have h2 : Aside E s0 (s.counted p c n) := h.ctr hc
  rw [bump_counted]
  exact .ite h2 h2.maxNote

theorem Aside.bumpBreach (h : Aside E s0 s) : Aside E s0 (s.bump p .breach 1) := by
  rw [bump_counted]
  exact h.breached.maxNote

theorem Aside.censusFault (h : Aside E s0 s) : Aside E s0 (s.censusFault q) := h.raiseReg.same

theorem Aside.censusAlarm (h : Aside E s0 s) : Aside E s0 (s.censusAlarm q) := .ite h.censusFault h

theorem Aside.poolReturn {h' : Nat} (h : Aside E s0 s) : Aside E s0 (s.poolReturn q h' n) := h.poolBack.censusAlarm

theorem Aside.standRefuses (h : Aside E s0 s) : Aside E s0 (s.standRefuses k) := h.stU

theorem Aside.placeKey {key : BitVec 512} {attr : W32} (h : Aside E s0 s) : Aside E s0 (s.placeKey n key attr) := by
  unfold State.placeKey
  extract_lets s2
  have h2 : Aside E s0 s2 := h.used
  exact .ite h2 h2.storeKey.ksU

theorem Aside.place' {bits : Nat} {attr : W32} (h : Aside E s0 s) : Aside E s0 (s.place' n key bits attr) := h.placeKey

theorem Aside.drawSak (h : Aside E s0 s) : Aside E s0 (s.drawSak n) := h.used.place'

theorem Aside.laneCount (h : Aside E s0 s) : Aside E s0 (s.laneCount l i n) := h.lnU.maxNote

theorem Aside.emit {f : TxFrame} (h : Aside E s0 s) : Aside E s0 (s.emit f) := h.same.laneCount

theorem Aside.tx {type flags xfer index : Nat} (h : Aside E s0 s) :
    Aside E s0 (s.tx lane type flags xfer index payload) :=
  .ite h (.ite h.emit h.lnU)

theorem Aside.spdmSend {m : List Byte} (h : Aside E s0 s) : Aside E s0 (s.spdmSend l x m) :=
  h.each fun _ _ h1 => h1.tx

theorem Aside.spdmFlush (h : Aside E s0 s) : Aside E s0 s.spdmFlush := h.same.each fun _ _ h2 => h2.spdmSend

theorem Aside.pull {op first count : Nat} {ref : List Byte} (h : Aside E s0 s) :
    Aside E s0 (s.pull x lane op kind first count ref) :=
  h.tx

theorem Aside.xfU {f : Xfer → Xfer} (h : Aside E s0 s) : Aside E s0 (s.xfU x f) := h.same

theorem Aside.flU {f : Flow → Flow} (h : Aside E s0 s) : Aside E s0 (s.flU p f) := h.same

theorem Aside.stageBlock (h : Aside E s0 s) (e : s.stageBlock p a = some t) : Aside E s0 t := by
  unfold State.stageBlock at e
  split at e
  · cases e
    exact h
  · split at e
    · next g u taken =>
      cases e
      have hu : Aside E s0 u := h.takeGroup taken
      exact Aside.granPut hu.same
    · cases e

theorem Aside.foldlBind {α : Type} {l : List α} {f : State → α → Option State} (h : Aside E s0 s)
    (hf : ∀ u v x, Aside E s0 u → f u x = some v → Aside E s0 v)
    (e : l.foldl (fun o x => o.bind fun s => f s x) (some s) = some t) :
    Aside E s0 t := by
  induction l generalizing s with
  | nil =>
    cases e
    exact h
  | cons x l ih =>
    rw [List.foldl_cons, Option.bind_some] at e
    cases first : f s x with
    | none =>
      have stuck : ∀ l : List α, l.foldl (fun o x => o.bind fun s => f s x) none = none := by
        intro l
        induction l with
        | nil => rfl
        | cons y l ih => exact ih
      rw [first, stuck] at e
      cases e
    | some v =>
      rw [first] at e
      exact ih (hf s v x h first) e

theorem Aside.stageRange (h : Aside E s0 s) (e : s.stageRange p a n = some t) : Aside E s0 t :=
  h.foldlBind (fun _ _ _ hu eu => hu.stageBlock eu) e

theorem Aside.pullMore (h : Aside E s0 s) : Aside E s0 (s.pullMore x) := by
  unfold State.pullMore
  extract_lets _ x2
  clear_value x2
  split
  · exact h
  · extract_lets
    split
    · exact h
    · split
      · exact h
      · next h3 =>
          extract_lets s4
          have h4 : Aside E s0 s4 := (h.stageRange h3).pull
          exact h4.xfU

theorem Aside.resumeXfer (h : Aside E s0 s) : Aside E s0 (s.resumeXfer x lane) := by
  unfold State.resumeXfer
  extract_lets s2
  have h2 : Aside E s0 s2 := h.xfU
  exact .ite h2 h2.pull.pullMore

theorem Aside.abortFrame (h : Aside E s0 s) : Aside E s0 (s.abortFrame lane x reason) := h.tx

theorem Aside.sendAbort (h : Aside E s0 s) : Aside E s0 (s.sendAbort x reason) := by
  unfold State.sendAbort
  extract_lets
  split
  · exact h.abortFrame
  · exact h.same

theorem Aside.flowEnd (h : Aside E s0 s) : Aside E s0 (s.flowEnd p st reason) := by
  unfold State.flowEnd
  extract_lets _ s6 s7 s8 s9 s10
  have h6 : Aside E s0 s6 := h.lvDrop
  have h7 : Aside E s0 s7 := .ite h6.lvBack h6
  have h8 : Aside E s0 s8 := h7.returnGroups
  have h9 : Aside E s0 s9 := .ite h8.pgU h8
  have h10 : Aside E s0 s10 := .ite h9.phU h9
  exact h10.flU

theorem Aside.xferDrop (h : Aside E s0 s) : Aside E s0 (s.xferDrop x reason) := by
  unfold State.xferDrop
  extract_lets _ _ s2
  have h2 : Aside E s0 s2 := h.same
  exact .ite h2.flowEnd h2

theorem Aside.xferFail (h : Aside E s0 s) : Aside E s0 (s.xferFail x reason) := .ite h.sendAbort.xferDrop h

theorem Aside.flowFail (h : Aside E s0 s) : Aside E s0 (s.flowFail p reason) :=
  .ite h (.ite h.xferFail h.flowEnd)

theorem Aside.slotEmptied (h : Aside E s0 s) : Aside E s0 (s.slotEmptied n) := h.ksU

theorem Aside.laneEvent (h : Aside E s0 s) : Aside E s0 s.laneEvent := h.setLine

theorem Aside.sakChange (h : Aside E s0 s) : Aside E s0 (s.sakChange l) :=
  .ite h (.ite h.lnU (.ite h h.drawSak.lnU))

theorem Aside.sakNext (h : Aside E s0 s) : Aside E s0 (s.sakNext l) := .ite h.sakChange h

theorem Aside.spdmDiscard (h : Aside E s0 s) : Aside E s0 (s.spdmDiscard l) :=
  (h.same.each (fun _ _ h3 => h3.enU)).spdmFlush

theorem Aside.waitMoves {fs : List TxFrame} (h : Aside E s0 s) : Aside E s0 (s.waitMoves l fs) :=
  h.each (fun _ _ h1 => .ite h1 (.ite h1.tx (.ite h1.same h1)))

theorem Aside.laneLeave {st : LaneSt} (h : Aside E s0 s) : Aside E s0 (s.laneLeave l st) := by
  unfold State.laneLeave
  extract_lets _ s9 s10 s11 s12 s13 _ s14 s15
  have h9 : Aside E s0 s9 := .ite h.lvBack h.lvDrop
  have h10 : Aside E s0 s10 := .ite h9.poolReturn h9
  have h11 : Aside E s0 s11 := .ite h10.slotEmptied h10
  have h12 : Aside E s0 s12 := h11.lnU
  have h13 : Aside E s0 s13 := h12.spdmDiscard.laneEvent
  have h14 : Aside E s0 s14 := .ite h13.sakNext h13
  have h15 : Aside E s0 s15 := h14.waitMoves
  exact .ite (h15.each (fun _ _ h16 => h16.resumeXfer)) h15

theorem Aside.chainStart (h : Aside E s0 s) : Aside E s0 (s.chainStart e j) := by
  unfold State.chainStart
  extract_lets _ s2
  have h2 : Aside E s0 s2 := h.enU
  exact .ite h2.poolGrant.enU h2.lvAsk.enU

theorem Aside.verStart (h : Aside E s0 s) : Aside E s0 s.verStart := by
  unfold State.verStart
  extract_lets
  split
  · exact h.same.chainStart
  · exact h.same

theorem Aside.gleanDropOf (h : Aside E s0 s) : Aside E s0 (s.gleanDropOf p) := by
  unfold State.gleanDropOf
  extract_lets _ _ s2
  have h2 : Aside E s0 s2 := h.pgU
  exact h2.bump.bump

theorem Aside.laneFailed (h : Aside E s0 s) : Aside E s0 (s.laneFailed lane) := .ite h (h.each (fun _ _ h1 => h1.pkU))

theorem Aside.hopError {x : HopCheck} (h : Aside E s0 s) : Aside E s0 (s.hopError x lane p) := by
  unfold State.hopError
  split
  · exact h
  · exact h.chanError.gnoby
  · exact h.chanError
  · exact h.chanError.gnoby
  · exact h.chanError

theorem Aside.mint (h : Aside E s0 s) : Aside E s0 (s.mint p) := Aside.ite h (have h1 := h.phU; .ite h1 h1.standRefuses)

theorem Aside.handbackDone (h : Aside E s0 s) (e : E) : Aside E s0 (s.handbackDone p) :=
  (h.phU.pwU.peU (ha := fun _ => .inr ⟨rfl, e⟩)).mint

theorem Aside.retireLane (h : Aside E s0 s) : Aside E s0 (s.retireLane l) := by
  unfold State.retireLane
  extract_lets s4 x2 s5 s6
  have h4 : Aside E s0 s4 := h.laneFailed
  have h5 : Aside E s0 s5 := h4.chU
  have h6 : Aside E s0 s6 := by
    unfold s6
    clear_value x2
    split
    · exact h5.reconcileOf
    · exact h5
  exact h6.poolClaim.runtimeDraw

theorem Aside.engineGone (h : Aside E s0 s) : Aside E s0 (s.engineGone e) := (Aside.ite h.reconcile h).enU

theorem Aside.retireEngine (h : Aside E s0 s) : Aside E s0 (s.retireEngine e) := by
  unfold State.retireEngine
  extract_lets _ s5 s6 s8
  have h5 : Aside E s0 s5 := h.same
  have h6 : Aside E s0 s6 := h5.each fun _ _ h7 => .ite h7.pkU h7
  have h8 : Aside E s0 s8 := h6.abortEngine
  exact .ite h8.enU h8.engineGone

theorem Aside.wakeOut {retired : Bool} (h : Aside E s0 s) : Aside E s0 (s.wakeOut p retired) :=
  Aside.ite h ((Aside.ite h.reconcileGroups h.returnGroups.returnGroups).phU.pvU.pkU)

theorem Aside.masterOff (h : Aside E s0 s) : Aside E s0 (s.masterOff p) := by
  unfold State.masterOff
  extract_lets s2
  have h2 : Aside E s0 s2 := h.phU
  exact .ite h2.pkU h2

theorem Aside.retireSequencer (h : Aside E s0 s) : Aside E s0 (s.retireSequencer k) :=
  (h.each (fun _ _ h1 => h1.coU)).shU.each (fun _ _ h4 => have h7 := h4.pwU.pdU.wakeOut; .ite h7.holdPort h7)

theorem Aside.retireLink (h : Aside E s0 s) : Aside E s0 (s.retireLink l) := by
  unfold State.retireLink
  extract_lets s3 s4
  have h3 : Aside E s0 s3 := .ite h.reconcileOf.lnU h
  have h4 : Aside E s0 s4 := .ite h3.reconcile h3
  exact h4.laneLeave.lnU

theorem Aside.portGives {uses : List Nat} (h : Aside E s0 s) : Aside E s0 (s.portGives p uses) := by
  unfold State.portGives
  extract_lets s3 _ s4
  have h3 : Aside E s0 s3 := .ite h.reconcileOf.flU h
  have h4 : Aside E s0 s4 := .ite h3.reconcile.phU h3
  exact h4.reconcileGroups.flowFail

theorem Aside.retireActs {k : ChannelKind} (h : Aside E s0 s) : Aside E s0 (s.retireActs k i) := by
  unfold State.retireActs
  extract_lets s4 s5 s6
  have h4 : Aside E s0 s4 := (h.chU.holdPort.masterOff).portGives
  have h5 : Aside E s0 s5 := (h.chU.holdPort.masterOff).portGives
  have h6 : Aside E s0 s6 := h.chU
  split
  · exact h4.pgU
  · exact h5.pgU
  · exact h.retireLane
  · exact h.chU.retireEngine
  · exact h.chU.retireLink
  · exact h.chU.retireSequencer
  · exact h6.stU
  · exact h.chU

theorem Aside.retire {k : ChannelKind} (h : Aside E s0 s) : Aside E s0 (s.retire k i reason) :=
  .ite h (have h1 := h.retireActs; .ite h1.same h1.chU.logRec)

theorem Aside.probePassed {k : ChannelKind} (h : Aside E s0 s) (e : E) : Aside E s0 (s.probePassed k i) := by
  unfold State.probePassed
  split
  · exact h.each (fun _ _ h2 => .ite h2.restartThread h2)
  · exact .ite (h.handbackDone e) h
  · exact h

theorem Aside.execProbe {k : ChannelKind} {pass : Bool} (h : Aside E s0 s) (e : E) :
    AsideEnds E s0 (execProbe k i pass s) :=
  .ite h (.ite (have h1 := h.probePassed e; .ite h1.retire h1.chU.verStart) (.ite h.chU h.retire))

theorem Aside.writeRecord (h : Aside E s0 s) : Aside E s0 (s.writeRecord p) := h.same

theorem Aside.notice (h : Aside E s0 s) : Aside E s0 (s.notice p) := .ite h.same h.pvU

theorem Aside.keepSlot {chosen : Nat} (h : Aside E s0 s) : Aside E s0 (s.keepSlot p chosen) :=
  .ite h.returnGroups.returnGroups ((h.each (fun _ _ h1 => .ite h1.returnGroup h1)).returnGroups)

theorem Aside.pgLost (h : Aside E s0 s) : Aside E s0 (s.pgLost p) := by
  unfold State.pgLost
  extract_lets s3 s4
  have h3 : Aside E s0 s3 := h.pvU
  have h4 : Aside E s0 s4 := h3.keepSlot
  exact h4.writeRecord.notice.raise

theorem Aside.execPgFall {p : PortId} (h : Aside E s0 s) : AsideEnds E s0 (execPgFall p s) :=
  .ite h (
    have h1 := h.phU
    have h2 := Aside.ite h1.pkU h1
    AsideEnds.ite (((Aside.ite h2.poolReturn h2).holdPort).pgLost) h2)

theorem Aside.leafPart (h : Aside E s0 s) : Aside E s0 (s.leafPart p a) := .ite h.bump h.bump

theorem Aside.leafWhole {data : List Byte} (h : Aside E s0 s) : Aside E s0 (s.leafWhole p a data rank) := by
  unfold State.leafWhole
  split
  · exact h.bump
  · exact .ite h.bump h.pgU

theorem Aside.leafCheck {i : GleanItem} (h : Aside E s0 s) : Aside E s0 (s.leafCheck p i) := by
  unfold State.leafCheck
  extract_lets s2
  have h2 : Aside E s0 s2 := (h.bump (c := .mismatch)).pgU
  split
  · exact h.bump
  · exact .ite h.bump (.ite h.bump (.ite h2 h2.raise))

theorem Aside.execGleanHalfLeaf {p : PortId} {check : HopCheck} (h : Aside E s0 s) :
    AsideEnds E s0 (execGleanHalfLeaf p check s) := by
  unfold Machine.execGleanHalfLeaf
  split
  · exact h
  · extract_lets s2
    have h2 : Aside E s0 s2 := h.pgU.leafPart
    exact .ite h2.hopError (.ite h.pgU h.pgU.leafCheck)

theorem Aside.threadStops (h : Aside E s0 s) : Aside E s0 (s.threadStops c) := h.coU

theorem Aside.midEvent {x : MidEvent} (h : Aside E s0 s) (e : x ≠ .crossing → E) : Aside E s0 (midEvent p x s) := by
  unfold Machine.midEvent
  split
  · exact .ite h.raiseReg h
  · exact h.raise
  · exact .ite h.raise h
  · exact Aside.after h h.execPgFall
  · exact Aside.after h (h.execProbe (e nofun))
  · exact Aside.after h h.execGleanHalfLeaf
  · exact h.chanError.gnoby

theorem Aside.midEvents {l : List (Nat × MidEvent)} (h : Aside E s0 s) (e : ∀ x ∈ l, x.2 ≠ .crossing → E) :
    Aside E s0 (s.each l fun s x => Machine.midEvent p x.2 s) := by
  unfold State.each
  induction l generalizing s with
  | nil => exact h
  | cons x l ih => exact ih (h.midEvent (e x (.head l))) fun y hy => e y (.tail x hy)

theorem Aside.serveSlot {bad : Nat → Bool} (h : Aside E s0 s) : Aside E s0 (s.serveSlot p bad) := by
  unfold State.serveSlot
  extract_lets
  split
  · exact h
  · split
    · exact h
    · split
      · exact h
      · exact h.pgU

theorem Aside.serveAhead {bad : Nat → Bool} (h : Aside E s0 s) : Aside E s0 (s.serveAhead p bad) :=
  h.foldl fun _ _ h1 => h1.serveSlot

theorem Aside.wordFault {x : WordFault} (h : Aside E s0 s) : Aside E s0 (s.wordFault p x) := by
  unfold State.wordFault
  split
  · exact h
  · exact h.chanError.gnoby
  · exact h.chanError
  · exact h.chanError.holdPort

theorem Aside.trieFault (h : Aside E s0 s) : Aside E s0 (s.trieFault c) := (h.threadStops.coU).chanError

end

end

end Sys2Proof.Machine
end

section
-- As above: many short proofs that wait for each other.
set_option Elab.async false

namespace Sys2Proof.Machine

open Sys2Proof

/-! ### O25, O26: a frame under way, and how it ends -/

section
variable {E : Prop} {s s0 t : State} {f : Fr} {a code data k p rank x : Nat} {d : Dec} {lanes : List (BitVec 4)}

/-! #### What a frame keeps while it runs -/

/-- A frame of port p is under way: nothing but `Aside` has happened since `s0`, and what else is to happen are failed crossings
or else `E` holds. -/
structure Midway (E : Prop) (p : Nat) (s0 : State) (f : Fr) : Prop where
  kept : Aside E s0 f.s
  port : f.p = p
  rest : ∀ x ∈ f.events, x.2 ≠ .crossing → E

theorem Midway.on (h : Midway E p s0 f) {g : Fr} (k : Aside E s0 g.s) (e : (g.p, g.events) = (f.p, f.events) := by rfl) :
    Midway E p s0 g := by
  simp only [Prod.mk.injEq] at e
  obtain ⟨port, events⟩ := e
  exact ⟨k, port.trans h.port, by rw [events]; exact h.rest⟩

/-- A change of the frame only. -/
theorem Midway.same (h : Midway E p s0 f) {g : Fr} (e : (g.s, g.p, g.events) = (f.s, f.p, f.events) := by rfl) :
    Midway E p s0 g := by
  simp only [Prod.mk.injEq] at e
  obtain ⟨state, port, events⟩ := e
  exact h.on (by rw [state]; exact h.kept) (by rw [port, events])

/-- What happened before `s0` does not matter. -/
theorem Midway.here (h : Midway E p s0 f) : Midway E p f.s f := ⟨.refl, h.port, h.rest⟩

theorem Midway.ite {c : Prop} [Decidable c] {f g : Fr} (hf : Midway E p s0 f) (hg : Midway E p s0 g) :
    Midway E p s0 (if c then f else g) := by
  split
  · exact hf
  · exact hg

theorem Midway.flashKill (h : Midway E p s0 f) : Midway E p s0 (f.flashKill k) := .ite h h.same

theorem Midway.die (h : Midway E p s0 f) : Midway E p s0 (f.die k) := h.flashKill.same

theorem Midway.alarm (h : Midway E p s0 f) : Midway E p s0 (f.alarm code rank data k) := by
  unfold Fr.alarm
  extract_lets s2
  have h2 : Midway E p s0 s2 := h.on h.kept.raise
  exact .ite h (.ite h2.die h2)

theorem Midway.undecided (h : Midway E p s0 f) : Midway E p s0 (f.undecided data k) := by
  unfold Fr.undecided
  extract_lets s4 s5 s6
  have h4 : Midway E p s0 s4 := h.die
  have h5 : Midway E p s0 s5 := h4.same
  have h6 : Midway E p s0 s6 := h5.on (h5.kept.bump (c := .undecided))
  exact .ite h5 h6.alarm

theorem Midway.filter (h : Midway E p s0 f) : Midway E p s0 (f.filter d k) := .ite h (h.same.alarm)

theorem Midway.apply {d0 : Dec} (h : Midway E p s0 f) : Midway E p s0 (f.apply d0 a k) := by
  unfold Fr.apply
  extract_lets _ _ s9 s10 s11 _ s13 s14
  have h9 : Midway E p s0 s9 := .ite (h.on (h.kept.bump (c := .severed))) h
  have h10 : Midway E p s0 s10 := h9.die
  have h11 : Midway E p s0 s11 := h10.same
  have h13 : Midway E p s0 s13 := h.same
  have h14 : Midway E p s0 s14 := .ite h13.flashKill h13
  exact .ite h (.ite h.undecided (.ite (h10.same.alarm) (.ite (.ite h11.undecided h11.filter)
    (.ite (h.die.on (h.kept.bump (c := .severed))) (.ite h14.filter h14)))))

theorem Midway.ask (h : Midway E p s0 f) : Midway E p s0 f.ask := by
  unfold Fr.ask
  split
  · exact h
  · extract_lets
    split
    · exact h
    · split
      · exact h.same
      · exact h.on h.kept.pushEvent

theorem Midway.askDue (h : Midway E p s0 f) : Midway E p s0 (f.askDue a) := by
  unfold Fr.askDue
  split
  · exact h
  · exact .ite h.ask h

theorem Midway.turn (h : Midway E p s0 f) : Midway E p s0 (f.turn a k) := by
  unfold Fr.turn
  extract_lets x2 s2
  have h2 : Midway E p s0 s2 := h.same
  split
  · exact h
  · split
    · clear_value x2
      split
      · exact h2.apply
      · exact h2.undecided
    · exact h

theorem Midway.orphaned (h : Midway E p s0 f) : Midway E p s0 (f.orphaned k) := by
  unfold Fr.orphaned
  extract_lets s2
  have h2 : Midway E p s0 s2 := h.same
  exact .ite h2.undecided h2

theorem Midway.mid {x : MidEvent} (h : Midway E p s0 f) (e : x ≠ .crossing → E) : Midway E p s0 (f.mid k x) := by
  unfold Fr.mid
  extract_lets _ _ s4 s5 s6
  have h4 : Midway E p s0 s4 := h.on (h.kept.midEvent e)
  have h5 : Midway E p s0 s5 := .ite h4.orphaned h4
  have h6 : Midway E p s0 s6 := h5.die
  split
  · exact h5
  · split
    · exact h6.on h6.kept.gleanDropOf
    · exact h6

theorem Midway.mids {l : List (Nat × MidEvent)} (h : Midway E p s0 f) (e : ∀ x ∈ l, x.2 ≠ .crossing → E) :
    Midway E p s0 (l.foldl (fun f e => f.mid e.1 e.2) f) := by
  induction l generalizing f with
  | nil => exact h
  | cons x l ih => exact ih (h.mid (e x (.head l))) fun y hy => e y (.tail x hy)

theorem Midway.upTo (h : Midway E p s0 f) : Midway E p s0 (f.upTo k) :=
  .mids ⟨h.kept, h.port, fun x hx => h.rest x (List.mem_filter.mp hx).1⟩ fun x hx => h.rest x (List.mem_filter.mp hx).1

theorem Midway.restHappens (h : Midway E p s0 f) : Midway E p s0 f.rest :=
  .mids ⟨h.kept, h.port, nofun⟩ h.rest

theorem Midway.newWord (h : Midway E p s0 f) : Midway E p s0 (f.newWord d x k) := by
  unfold Fr.newWord
  extract_lets _ s7 s8 s9 _ _ s10 _ s11
  have h7 : Midway E p s0 s7 := h.on h.kept.pgU.serveAhead
  have h8 : Midway E p s0 s8 := by
    unfold s8
    split
    · exact h7.on h7.kept.wordFault
    · exact h7
  have h9 : Midway E p s0 s9 := .ite h8.die h8
  have h10 : Midway E p s0 s10 := h9.on (h9.kept.bump (c := .notReady)).pgU
  have h11 : Midway E p s0 s11 := by
    unfold s11
    split
    · exact h10.on (h10.kept.bump (c := .repeated)).pgU
    · exact h10.same
  split
  · extract_lets s12
    have h12 : Midway E p s0 s12 := h9.on h9.kept.pgU
    exact .ite h12 (h12.on (h12.kept.bump (c := .served)))
  · exact .ite h11 (h11.same.alarm)

theorem Midway.gleanCut (h : Midway E p s0 f) : Midway E p s0 f.gleanCut := by
  unfold Fr.gleanCut
  split
  · exact h.on h.kept.leafPart
  · exact h

theorem Midway.gleanByte {b : Byte} {done : Bool} (h : Midway E p s0 f) : Midway E p s0 (f.gleanByte d a b done) := by
  unfold Fr.gleanByte
  extract_lets _ s2
  have h2 : Midway E p s0 s2 := by
    unfold s2
    split
    · exact .ite h h.gleanCut
    · exact h
  exact .ite h2.same (.ite (h2.on h2.kept.leafWhole) (h2.on h2.kept.leafPart))

theorem Midway.pastSet (h : Midway E p s0 f) : Midway E p s0 (f.pastSet a k) := by
  unfold Fr.pastSet
  extract_lets
  split
  · exact h
  · exact .ite (h.die.on (h.kept.bump (c := .severed))) h

theorem Midway.byte {i : Nat} (h : Midway E p s0 f) : Midway E p s0 (f.byte i) := by
  unfold Fr.byte
  extract_lets _ _ s7 s8 s9
  have h7 : Midway E p s0 s7 := h.upTo
  have h8 : Midway E p s0 s8 := .ite h7 h7.turn.pastSet
  have h9 : Midway E p s0 s9 := h8.askDue
  split
  · exact h8.gleanCut
  · split
    · exact .ite h8.same h8
    · extract_lets s10 _ s11 _ s12
      have h10 : Midway E p s0 s10 := .ite h9 h9.gleanCut
      have h11 : Midway E p s0 s11 := .ite h10.newWord h10
      have h12 : Midway E p s0 s12 := h10.same
      exact .ite h10.same (.ite h10.same (.ite (.ite h11 h11.same) (.ite h12.gleanByte h12)))

theorem Midway.bytes {f : Fr} {m i : Nat} (h : Midway E p s0 f) : Midway E p s0 (f.bytes m i) := by
  induction m generalizing f i with
  | zero => exact h
  | succ m ih =>
    unfold Fr.bytes
    exact .ite h (.ite (.ite h.turn h) (ih h.byte))

theorem Midway.plain (h : Midway E p s0 f) : Midway E p s0 (f.plain k) := by
  unfold Fr.plain
  generalize List.range _ = l
  induction l generalizing f with
  | nil => exact h
  | cons i l ih => exact ih h.byte

theorem Midway.mBreach (h : Midway E p s0 f) : Midway E p s0 (f.mBreach lanes) := by
  unfold Fr.mBreach
  extract_lets s3
  have h3 : Midway E p s0 s3 := h.upTo
  exact .ite h3 (.ite ((h3.die.on h3.kept.bumpBreach).alarm) h3)

theorem Midway.first {eL : Nat} (h : Midway E p s0 f) : Midway E p s0 (f.first eL) := by
  unfold Fr.first
  extract_lets _ _ s2
  have h2 : Midway E p s0 s2 := h.upTo
  split
  · exact h2
  · split
    · exact .ite h2 h2.apply
    · split
      · exact h2
      · split
        · exact h2.apply.askDue
        · exact h2.on h2.kept.pushEvent

theorem Midway.rule (h : Midway E p s0 f) : Midway E p s0 f.rule := by
  unfold Fr.rule
  extract_lets s2 x2
  have h2 : Midway E p s0 s2 := h.upTo
  split
  · exact h2
  · split
    · clear_value x2
      split
      · exact .ite h2.apply.askDue (.ite h2.undecided h2.apply)
      · exact .ite h2.undecided h2
    · clear_value x2
      split
      · exact .ite ((Midway.ite h2.plain h2).apply) h2
      · exact h2

theorem Midway.rise (h : Midway E p s0 f) : Midway E p s0 f.rise := by
  unfold Fr.rise
  extract_lets _ _ s4 _ s5
  have h4 : Midway E p s0 s4 := .ite (h.on (h.kept.bump (c := .ragged))) h
  have h5 : Midway E p s0 s5 := by
    unfold s5
    split
    · exact h4
    · split
      · exact h4.apply
      · exact h4.undecided
  exact .ite (h5.die.on (h5.kept.bump (c := .length))) h5

/-! #### A killed frame stays killed -/

theorem alarm_dead (h : f.dead = true) : (f.alarm code rank data k).dead = true := by
  unfold Fr.alarm
  split
  · exact h
  · extract_lets g
    split
    · rfl
    · exact h

theorem undecided_dead : (f.undecided data k).dead = true := by
  unfold Fr.undecided
  extract_lets g1 g2 g3
  split
  · rfl
  · exact alarm_dead rfl

theorem orphaned_dead (h : f.dead = true) : (f.orphaned k).dead = true := by
  unfold Fr.orphaned
  extract_lets g
  split
  · exact undecided_dead
  · exact h

theorem mid_dead {x : MidEvent} (h : f.dead = true) : (f.mid k x).dead = true := by
  unfold Fr.mid
  extract_lets was on g1 g2 g3
  have dead : g2.dead = true := by
    unfold g2
    split
    · exact orphaned_dead h
    · exact h
  split
  · exact dead
  · split <;> rfl

theorem rest_dead (h : f.dead = true) : f.rest.dead = true := by
  unfold Fr.rest
  generalize f.events = l
  have start : ({ f with events := [] } : Fr).dead = true := h
  revert start
  generalize ({ f with events := [] } : Fr) = g
  induction l generalizing g with
  | nil => exact id
  | cons x l ih => exact fun dead => ih _ (mid_dead dead)

theorem gleanCut_dead : f.gleanCut.dead = f.dead := by
  unfold Fr.gleanCut
  split <;> rfl

/-- Of a frame that is killed the rise of Pn_HCS_N counts RAGGED at most. -/
theorem rise_of_dead (h : f.dead = true) :
    f.rise = if decide (f.h.bits f.total % 8 ≠ 0) then { f with s := f.s.bump f.p .ragged 1 } else f := by
  unfold Fr.rise
  extract_lets k ragged g long g2
  have dead : g.dead = true := by
    unfold g
    split <;> exact h
  have short : long = false := by simp [long, dead]
  have same : g2 = g := if_pos (by simp [dead])
  rw [short, if_neg (by decide), same]

theorem rise_dead (h : f.dead = true) : f.rise.dead = true := by
  rw [rise_of_dead h]
  split <;> exact h

theorem stopped_dead {st : Stop} (h : st ≠ .rise) : (f.stopped st).dead = true := by
  unfold Fr.stopped
  split
  · exact absurd rfl h
  · exact alarm_dead rfl
  · exact alarm_dead rfl
  · rfl

/-! #### How a frame ends -/

@[simp] theorem pins_ended {ended : FrameEnd} : (f.pins lanes ended).ended = ended := by
  simp only [Fr.pins]
  split <;> rfl

@[simp] theorem pins_host {ended : FrameEnd} : (f.pins lanes ended).host = f.host := by
  simp only [Fr.pins]
  split <;> rfl

/-- Once the pins of a frame stand, what is left is its END event and a flip. -/
theorem frameEnd_aside (s : State) (p cls span : Nat) (out : FrameOut) :
    Aside E (s.peU p fun e => { e with out := out }) (s.frameEnd p cls span out) := by
  unfold State.frameEnd
  extract_lets code s1 s2
  have h2 : Aside E s1 s2 := Aside.refl.pushEvent
  exact .ite h2.takeFlip h2

theorem frameEnd_out (s : State) (p cls span : Nat) (out : FrameOut) : ((s.frameEnd p cls span out).pe p).out = out := by
  rw [(frameEnd_aside (E := False) s p cls span out).out, State.peU_pe_same]

/-- The count of what stopped the frame. -/
def State.struck (s : State) (p : Nat) : Stop → State
  | .stall => s.counted p .stalled 1
  | .breach => s.counted p .breach 1
  | _ => s

theorem Midway.stopped {st : Stop} (h : Midway E p s0 f) : Midway E p (f.s.struck p st) (f.stopped st) := by
  obtain ⟨-, port, rest⟩ := h.die (k := f.n - 1)
  have struck : ∀ c : Ctr, c.flag = false → Aside E (f.s.counted p c 1) (f.s.bump f.p c 1) := fun c hc => by
    rw [bump_counted, hc, h.port]
    exact Aside.refl.maxNote
  cases st with
  | rise => exact h.here
  | stall => exact Midway.alarm ⟨struck .stalled rfl, port, rest⟩
  | breach => exact Midway.alarm ⟨struck .breach rfl, port, rest⟩
  | abort => exact h.here.die

/-- Stopped as `st` says, with the count of that in `v`, a frame ends in `t`: it commits, or its end changes nothing but the pins,
which show the stall or the breach. -/
def FrameEnds (E : Prop) (p : Nat) (st : Stop) (v t : State) : Prop :=
  ∃ w cls span out, t = w.frameEnd p cls span out ∧
    (out.ended = .committed ∧ st ≠ .stall ∧ st ≠ .breach
      ∨ Aside E v w ∧ out.ended ≠ .committed ∧ (st = .stall → out.ended = .stalled) ∧ (st = .breach → out.ended = .killed))

theorem Midway.noLeaf_ends {st : Stop} {ended : FrameEnd} (h : Midway E p s0 f) (ne : ended ≠ .committed)
    (stall : st = .stall → ended = .stalled) (breach : st = .breach → ended = .killed) :
    FrameEnds E p st s0 (f.noLeaf lanes ended) := by
  unfold Fr.noLeaf
  extract_lets g w
  have hg : Midway E p s0 g := h.restHappens
  have hw : Aside E s0 w := .ite hg.kept hg.kept.bump
  rw [hg.port]
  refine ⟨w, _, _, _, rfl, .inr ⟨hw, ?_⟩⟩
  split
  · next empty =>
    simp only [Bool.and_eq_true, decide_eq_true_eq] at empty
    rw [empty.1] at stall breach
    refine ⟨nofun, fun e => ?_, fun e => ?_⟩
    · cases stall e
    · cases breach e
  · rw [pins_ended]
    split
    · next empty =>
      rw [empty] at stall
      refine ⟨nofun, fun e => ?_, fun _ => rfl⟩
      cases stall e
    · exact ⟨ne, stall, breach⟩

theorem Midway.contBits (h : Midway E p s0 f) : Aside E s0 (f.contBits lanes) := .ite h.kept h.kept.peU

/-- A frame that has reached its leaf on edge eL, at its end and before it commits. -/
def Fr.over (f : Fr) (lanes : List (BitVec 4)) (eL : Nat) (st : Stop) : Fr :=
  let f := f.first eL
  let early := match f.word 0 f.n with | some e => decide (e.1 < f.h.mEdge) | none => false
  let f := if early then f.rule.mBreach lanes else (f.mBreach lanes).rule
  let f := if f.h.out then f.bytes f.n f.host.length else f
  let f := (f.upTo f.n).stopped st
  let f := if st = .stall then f else f.rise
  f.rest.gleanCut

/-- The frame passes. -/
def Fr.passes (f : Fr) : Bool := f.kill.isNone && !f.dead

/-- How a frame ends that has reached its leaf: commit, counts, END event. -/
theorem run_eq {eL : Nat} {st : Stop} : f.run lanes eL st =
    let g := f.over lanes eL st
    let s := if g.passes then g.commit lanes else if g.inM && decide (g.h.w0 ≤ g.total) then g.contBits lanes else g.s
    let s := if g.chaff then s.bump g.p (chaffCtr g.h.leaf.cls) 1 else s
    let s := if g.lates = 0 then s else s.bump g.p .late g.lates
    s.frameEnd g.p g.h.leaf.cls g.span (g.pins lanes
      (if st = .stall then .stalled else if g.passes then .committed else .killed)) := rfl

theorem run_out {eL : Nat} {st : Stop} : ((f.run lanes eL st).pe (f.over lanes eL st).p).out
    = (f.over lanes eL st).pins lanes
      (if st = .stall then .stalled else if (f.over lanes eL st).passes then .committed else .killed) := by
  rw [run_eq]
  exact frameEnd_out ..

theorem over_killed {eL : Nat} {st : Stop} (h : st ≠ .rise) : (f.over lanes eL st).passes = false := by
  unfold Fr.over
  extract_lets g1 _ g2 g3 g4 g5
  have dead : g4.dead = true := stopped_dead h
  have after : g5.dead = true := by
    unfold g5
    split
    · exact dead
    · exact rise_dead dead
  simp [Fr.passes, gleanCut_dead, rest_dead after]

theorem Midway.over {eL : Nat} {st : Stop} (h : Midway E p s0 f) :
    ∃ u, Aside E s0 u ∧ Midway E p (u.struck p st) (f.over lanes eL st) := by
  unfold Fr.over
  extract_lets g1 _ g2 g3 g4 g5
  have h1 : Midway E p s0 g1 := h.first
  have h2 : Midway E p s0 g2 := .ite h1.rule.mBreach h1.mBreach.rule
  have h3 : Midway E p s0 (g3.upTo g3.n) := (Midway.ite h2.bytes h2).upTo
  have h4 : Midway E p ((g3.upTo g3.n).s.struck p st) g4 := h3.stopped
  have h5 : Midway E p ((g3.upTo g3.n).s.struck p st) g5 := .ite h4 h4.rise
  exact ⟨_, h3.kept, h5.restHappens.gleanCut⟩

theorem Midway.run_ends {eL : Nat} {st : Stop} (h : Midway E p s0 f) :
    ∃ u, Aside E s0 u ∧ FrameEnds E p st (u.struck p st) (f.run lanes eL st) := by
  obtain ⟨u, hu, hg⟩ := h.over (lanes := lanes) (eL := eL) (st := st)
  refine ⟨u, hu, ?_⟩
  have killed := over_killed (f := f) (lanes := lanes) (eL := eL) (st := st)
  rw [run_eq]
  generalize f.over lanes eL st = g at hg killed
  extract_lets _ w1 w2 w3
  refine ⟨w3, g.h.leaf.cls, g.span, _, by rw [hg.port], ?_⟩
  rw [pins_ended]
  cases fate : g.passes with
  | true =>
    have risen : st = .rise := by
      by_contra ne
      rw [killed ne] at fate
      cases fate
    subst risen
    exact .inl ⟨rfl, nofun, nofun⟩
  | false =>
    have h1 : Aside E (u.struck p st) w1 := by
      unfold w1
      rw [fate, if_neg Bool.false_ne_true]
      exact .ite hg.contBits hg.kept
    have h2 : Aside E (u.struck p st) w2 := .ite (h1.bump (hc := chaffCtr_own _)) h1
    have h3 : Aside E (u.struck p st) w3 := .ite h2 h2.bump
    refine .inr ⟨h3, ?_⟩
    cases st <;> exact ⟨nofun, fun e => by cases e <;> rfl, fun e => by cases e <;> rfl⟩

/-! #### The begin of a frame -/

/-- Events inserted by their edges are none but the events. -/
theorem mem_insEvent {x y : Nat × MidEvent} {l : List (Nat × MidEvent)} (h : x ∈ insEvent y l) : x = y ∨ x ∈ l := by
  induction l with
  | nil => exact .inl (List.mem_singleton.mp h)
  | cons z l ih =>
    unfold insEvent at h
    split at h
    · exact List.mem_cons.mp h
    · rcases List.mem_cons.mp h with rfl | later
      · exact .inr (.head _)
      · exact (ih later).imp_right (.tail z)

theorem mem_insEvents {x : Nat × MidEvent} {m l : List (Nat × MidEvent)} (h : x ∈ m.foldl (fun l x => insEvent x l) l) :
    x ∈ m ∨ x ∈ l := by
  induction m generalizing l with
  | nil => exact .inr h
  | cons y m ih =>
    rcases ih h with found | found
    · exact .inl (.tail y found)
    · rcases mem_insEvent found with rfl | older
      · exact .inl (.head m)
      · exact .inr older

/-- What happens during a frame beside failed crossings is an event of its operand. -/
theorem frameEvents_given {f : FrameIn} : ∀ x ∈ frameEvents f, x.2 ≠ .crossing → f.events ≠ [] := by
  intro x h other none
  unfold frameEvents at h
  rw [none] at h
  rcases mem_insEvents h with crossing | event
  · obtain ⟨e, -, rfl⟩ := List.mem_map.mp crossing
    exact other rfl
  · cases event

/-- The fall of Pn_HCS_N has come: the tag advances, the generation is latched, the decision path empties. -/
def State.opened (s : State) (p : Nat) : State :=
  ((s.peU p fun e => { e with tag := e.tag + 1 }).pwU p fun w => { w with genFrame := w.gen }).pdU p
    fun d => { d with decs := [], ecc := [] }

theorem opened_pe (s : State) (p : Nat) : (s.opened p).pe p = { s.pe p with tag := (s.pe p).tag + 1 } :=
  State.peU_pe_same s p fun e => { e with tag := e.tag + 1 }

theorem opened_pw (s : State) (p : Nat) : (s.opened p).pw p = { s.pw p with genFrame := (s.pw p).gen } :=
  State.pwU_pw_same (s.peU p _) p fun w => { w with genFrame := w.gen }

theorem frame_dead {f : FrameIn} {st : Stop} (h : s.boot.dev = .off ∨ s.bankUp p = false) : s.frame p f st = s :=
  if_pos (by simpa using h)

/-- A port that is held takes no frame. -/
theorem frame_held {f : FrameIn} {st : Stop} (dev : s.boot.dev ≠ .off) (bank : s.bankUp p = true)
    (pass : (s.ph p).mode ≠ .pass) (dark : (s.ph p).mode ≠ .dark) : ∃ n, s.frame p f st = (s.opened p).heldFrame p f n := by
  unfold State.frame
  rw [if_neg (by simp [dev, bank])]
  exact ⟨_, if_pos ⟨pass, dark⟩⟩

/-- On a port that is held a frame counts as HELD_ACTIVITY, and its pins show that it is ignored. -/
theorem heldFrame_ends {f : FrameIn} {n : Nat} : ∃ u, Aside (f.events ≠ []) (s.counted p .heldActivity 1) u
    ∧ Aside (f.events ≠ []) (u.peU p fun e => { e with out := { ended := .ignored } }) (s.heldFrame p f n) := by
  unfold State.heldFrame
  extract_lets s6 s7 s8 s9
  have h6 : Aside (f.events ≠ []) (s.counted p .heldActivity 1) s6 := .refl
  have h7 : Aside (f.events ≠ []) (s.counted p .heldActivity 1) s7 := .ite h6 h6.bump
  have h9 : Aside (f.events ≠ []) s8 s9 := Aside.refl.midEvents frameEvents_given
  exact ⟨s7, h7, .ite h9 h9.phU.raise⟩

/-- On a port in PASS or DARK a frame runs until it is stopped, and ends. -/
theorem frame_released {f : FrameIn} {st : Stop} (dev : s.boot.dev ≠ .off) (bank : s.bankUp p = true)
    (mode : (s.ph p).mode = .pass ∨ (s.ph p).mode = .dark) :
    ∃ u, Aside (f.events ≠ []) (s.opened p) u ∧ FrameEnds (f.events ≠ []) p st (u.struck p st) (s.frame p f st) := by
  unfold State.frame
  extract_lets s16 s17 _ _ s18 hold _ _ _ _ _ s19 s20 _ _ bad s21 _ s23 _ _ _ x2 s24 _ s26
  have h18 : Aside (f.events ≠ []) (s.opened p) s18 := .refl
  have h20 : Aside (f.events ≠ []) (s.opened p) s20 := (Aside.ite h18 h18.bump).pgU
  have h21 : Midway (f.events ≠ []) p (s.opened p) s21 := ⟨h20, rfl, frameEvents_given⟩
  have h23 : Midway (f.events ≠ []) p (s.opened p) s23 := .ite (((h21.die (k := 0)).on h20.bumpBreach).alarm) h21
  rw [if_neg (by simp [dev, bank]), if_neg (by rintro ⟨a, b⟩; exact mode.elim a b)]
  clear_value x2 s23
  split
  · exact ⟨_, h23.upTo.kept, h23.upTo.stopped.noLeaf_ends (by cases st <;> nofun) (by rintro rfl; rfl) (by rintro rfl; rfl)⟩
  · split
    · have h26 : Midway (f.events ≠ []) p ((s23.upTo f.lanes.length).s.struck p st) s26 :=
        .ite h23.upTo.stopped ((h23.upTo.stopped.die (k := f.lanes.length - 1)).on (h23.upTo.stopped.kept.bump (c := .ragged)))
      exact ⟨_, h23.upTo.kept, h26.noLeaf_ends (by cases st <;> nofun) (by rintro rfl; rfl) (by rintro rfl; rfl)⟩
    · extract_lets s27 _ s28 s29 s30
      have h27 : Midway (f.events ≠ []) p (s.opened p) s27 := h23.upTo
      have h28 : Aside (f.events ≠ []) (s.opened p) s28 := h27.kept.pushEvent
      have h29 : Aside (f.events ≠ []) (s.opened p) s29 := .ite h27.kept (.ite h28.pwU h28)
      have h30 : Midway (f.events ≠ []) p (s.opened p) s30 := h27.on h29
      split
      · exact ((h30.on h30.kept.trieFault).alarm).run_ends
      · exact h30.run_ends

/-! #### Statements on every frame -/

/-- Port p's status model has no bit set that was clear, and ADDR4 stands where no handback has cleared it. -/
def ModelKept (E : Prop) (p : Nat) (s t : State) : Prop :=
  ((t.pw p).wel = true → (s.pw p).wel = true) ∧ ((t.pw p).busy = true → (s.pw p).busy = true)
    ∧ ((t.pe p).addr4 = (s.pe p).addr4 ∨ (t.pe p).addr4 = false ∧ E)

theorem ModelKept.trans (h : ModelKept E p s0 s) (k : ModelKept E p s t) : ModelKept E p s0 t := by
  obtain ⟨wel, busy, addr4⟩ := h
  obtain ⟨wel', busy', addr4'⟩ := k
  refine ⟨wel ∘ wel', busy ∘ busy', ?_⟩
  rcases addr4' with same | cleared
  · rw [same]
    exact addr4
  · exact .inr cleared

theorem Aside.model (h : Aside E s t) : ModelKept E p s t := ⟨h.wel p, h.busy p, h.addr4 p⟩

theorem modelKept_same (pw : ((t.pw p).wel, (t.pw p).busy) = ((s.pw p).wel, (s.pw p).busy)) (pe : (t.pe p).addr4 = (s.pe p).addr4) :
    ModelKept E p s t := by
  simp only [Prod.mk.injEq] at pw
  obtain ⟨wel, busy⟩ := pw
  exact ⟨by rw [wel]; exact id, by rw [busy]; exact id, .inl pe⟩

theorem opened_model : ModelKept E p s (s.opened p) := modelKept_same (by rw [opened_pw]) (by rw [opened_pe])

theorem pinsSet_model (s : State) (out : FrameOut) : ModelKept E p s (s.peU p fun e => { e with out := out }) :=
  modelKept_same rfl (by rw [State.peU_pe_same])

theorem heldFrame_model {f : FrameIn} {n : Nat} : ModelKept (f.events ≠ []) p s (s.heldFrame p f n) := by
  obtain ⟨u, first, last⟩ := heldFrame_ends (s := s) (p := p) (f := f) (n := n)
  exact (first.model (p := p)).trans ((pinsSet_model u _).trans last.model)

/-- A frame that does not commit leaves the status model and ADDR4 alone. -/
theorem frame_model {f : FrameIn} (out : ((s.frame p f .rise).pe p).out.ended ≠ .committed) :
    ModelKept (f.events ≠ []) p s (s.frame p f .rise) := by
  by_cases dead : s.boot.dev = .off ∨ s.bankUp p = false
  · rw [frame_dead dead]
    exact Aside.refl.model
  · obtain ⟨dev, bank⟩ := not_or.mp dead
    rw [Bool.not_eq_false] at bank
    by_cases mode : (s.ph p).mode = .pass ∨ (s.ph p).mode = .dark
    · obtain ⟨u, hu, w, cls, span, pins, e, ends⟩ := frame_released (f := f) (st := .rise) dev bank mode
      rw [e] at out ⊢
      rw [frameEnd_out] at out
      rcases ends with ⟨commits, -, -⟩ | ⟨hw, -, -, -⟩
      · exact absurd commits out
      · have last : ModelKept (f.events ≠ []) p w (w.frameEnd p cls span pins) :=
          (pinsSet_model w pins).trans (frameEnd_aside w p cls span pins).model
        exact opened_model.trans (hu.model.trans (hw.model.trans last))
    · obtain ⟨pass, dark⟩ := not_or.mp mode
      obtain ⟨n, e⟩ := frame_held (f := f) (st := .rise) dev bank pass dark
      rw [e]
      exact opened_model.trans heldFrame_model

/-- A frame of a held port is ignored, advances the tag and counts as HELD_ACTIVITY. -/
theorem frame_held_spec {f : FrameIn} {st : Stop} (dev : s.boot.dev ≠ .off) (bank : s.bankUp p = true)
    (pass : (s.ph p).mode ≠ .pass) (dark : (s.ph p).mode ≠ .dark) :
    ((s.frame p f st).pe p).out = { ended := .ignored } ∧ ((s.frame p f st).pe p).tag = (s.pe p).tag + 1
      ∧ (s.frame p f st).count p .heldActivity = satAdd 16 (s.count p .heldActivity) 1 := by
  obtain ⟨n, e⟩ := frame_held (f := f) (st := st) dev bank pass dark
  obtain ⟨u, first, last⟩ := heldFrame_ends (s := s.opened p) (p := p) (f := f) (n := n)
  rw [e]
  refine ⟨?_, ?_, ?_⟩
  · rw [last.out, State.peU_pe_same]
  · have pe : ((s.opened p).counted p .heldActivity 1).pe p = (s.opened p).pe p := rfl
    rw [last.tag, State.peU_pe_same, first.tag, pe, opened_pe]
  · have counted : ((s.opened p).counted p .heldActivity 1).count p .heldActivity = satAdd 16 (s.count p .heldActivity) 1 :=
      counted_count ..
    have pins : (u.peU p fun e => { e with out := { ended := .ignored } }).count p .heldActivity = u.count p .heldActivity := rfl
    rw [last.held, pins, first.held, counted]

/-- A stall timeout in a released frame ends it as STALLED and counts. -/
theorem frame_stall_spec {f : FrameIn} (dev : s.boot.dev ≠ .off) (bank : s.bankUp p = true)
    (mode : (s.ph p).mode = .pass ∨ (s.ph p).mode = .dark) :
    ((s.frame p f .stall).pe p).out.ended = .stalled
      ∧ (s.frame p f .stall).count p .stalled = satAdd 32 (s.count p .stalled) 1 := by
  obtain ⟨u, hu, w, cls, span, out, e, ends⟩ := frame_released (f := f) (st := .stall) dev bank mode
  rw [e]
  rcases ends with ⟨-, ne, -⟩ | ⟨hw, -, stalled, -⟩
  · exact absurd rfl ne
  · have counted : (u.struck p .stall).count p .stalled = satAdd 32 (u.count p .stalled) 1 := counted_count ..
    have last := (frameEnd_aside (E := False) w p cls span out).stalled p
    have opened : (s.opened p).count p .stalled = s.count p .stalled := rfl
    refine ⟨by rw [frameEnd_out]; exact stalled rfl, ?_⟩
    calc (w.frameEnd p cls span out).count p .stalled
      _ = w.count p .stalled := last
      _ = satAdd 32 (u.count p .stalled) 1 := (hw.stalled p).trans counted
      _ = satAdd 32 (s.count p .stalled) 1 := by rw [hu.stalled p, opened]

/-- A short clock phase in a released frame kills it and counts. -/
theorem frame_breach_spec {f : FrameIn} (dev : s.boot.dev ≠ .off) (bank : s.bankUp p = true)
    (mode : (s.ph p).mode = .pass ∨ (s.ph p).mode = .dark) :
    ((s.frame p f .breach).pe p).out.ended = .killed
      ∧ satAdd 32 (s.count p .breach) 1 ≤ (s.frame p f .breach).count p .breach := by
  obtain ⟨u, hu, w, cls, span, out, e, ends⟩ := frame_released (f := f) (st := .breach) dev bank mode
  rw [e]
  rcases ends with ⟨-, -, ne⟩ | ⟨hw, -, -, killed⟩
  · exact absurd rfl ne
  · have counted : (u.struck p .breach).count p .breach = satAdd 32 (u.count p .breach) 1 := counted_count ..
    have last := (frameEnd_aside (E := False) w p cls span out).breach p
    have late := hw.breach p
    rw [counted] at late
    have before : Rises (s.count p .breach) (u.count p .breach) := hu.breach p
    exact ⟨by rw [frameEnd_out]; exact killed rfl, before.counted (late.trans last)⟩

end

end Sys2Proof.Machine
end

section
namespace Sys2Proof.Machine

open Sys2Proof

/-! ### O25: a frame without events whose leaf decides alone -/

section
variable {s : State} {f : Fr} {code data k p rank : Nat} {lanes : List (BitVec 4)}

theorem upTo_quiet (h : f.events = []) : f.upTo k = f := by
  unfold Fr.upTo
  rw [h]
  cases f
  cases h
  rfl

theorem rest_quiet (h : f.events = []) : f.rest = f := by
  unfold Fr.rest
  rw [h]
  cases f
  cases h
  rfl

theorem gleanCut_none (h : f.gl = none) : f.gleanCut = f := by
  unfold Fr.gleanCut
  rw [h]

theorem rule_unchecked (quiet : f.events = []) (check : f.h.leaf.check = false) : f.rule = f := by
  unfold Fr.rule
  rw [upTo_quiet quiet]
  exact if_pos (by simp [check])

/-- A frame on the edge of its leaf: it lives, nothing has been decided, no byte has gone to the host. -/
structure Fresh (f : Fr) : Prop where
  quiet : f.events = []
  check : f.h.leaf.check = false
  lit : f.dark = false
  alive : f.dead = false
  unkilled : f.kill = none
  span : f.span = 0
  host : f.host = []
  gl : f.gl = none

/-- The decision of an unchecked leaf. -/
def Fr.leafDec (f : Fr) : Dec :=
  { action := f.h.leaf.action, alarm := f.h.leaf.alarm, fill := 0, context := f.h.leaf.context, last := f.size - 1, source := 0 }

theorem first_unchecked {eL : Nat} (h : Fresh f) (reached : eL < f.n) (serve : f.h.leaf.action ≠ 4) :
    f.first eL = f.apply f.leafDec f.addr eL := by
  unfold Fr.first
  extract_lets l e g d
  have edge : e = eL := if_neg (by simp [l, h.check, serve])
  have same : g = f := upTo_quiet h.quiet
  have decision : d = f.leafDec := by unfold d; rw [same]; rfl
  rw [decision, same, edge, if_neg (by simp [h.alive]), if_pos (by simp [l, h.check]), if_neg (by omega)]

/-! #### A leaf that denies -/

/-- A frame killed on edge eL before the host got a byte. -/
structure Denied (p eL : Nat) (f : Fr) : Prop where
  port : f.p = p
  quiet : f.events = []
  check : f.h.leaf.check = false
  dead : f.dead = true
  kill : f.kill = some eL
  noM : f.inM = false
  host : f.host = []
  gl : f.gl = none

section
variable {eL : Nat}

theorem Denied.on (h : Denied p eL f) {u : State} : Denied p eL { f with s := u } := ⟨h.1, h.2, h.3, h.4, h.5, h.6, h.7, h.8⟩

theorem Denied.ite {c : Prop} [Decidable c] {f g : Fr} (hf : Denied p eL f) (hg : Denied p eL g) :
    Denied p eL (if c then f else g) := by
  split
  · exact hf
  · exact hg

theorem Denied.die (h : Denied p eL f) : Denied p eL (f.die k) := by
  have same : f.flashKill k = f := if_pos (by rw [h.kill]; rfl)
  unfold Fr.die
  rw [same]
  exact ⟨h.1, h.2, h.3, rfl, h.5, h.6, h.7, h.8⟩

theorem Denied.alarm (h : Denied p eL f) : Denied p eL (f.alarm code rank data k) := by
  unfold Fr.alarm
  extract_lets g
  have hg : Denied p eL g := h.on
  exact .ite h (.ite hg.die hg)

theorem Denied.mBreach (h : Denied p eL f) : Denied p eL (f.mBreach lanes) := by
  unfold Fr.mBreach
  rw [upTo_quiet h.quiet]
  exact .ite h (.ite h.die.on.alarm h)

theorem Denied.bytes {m i : Nat} (h : Denied p eL f) : f.bytes m i = f := by
  cases m with
  | zero => rfl
  | succ m => exact if_pos h.dead

theorem Denied.rise (h : Denied p eL f) : Denied p eL f.rise := by
  rw [rise_of_dead h.dead]
  exact .ite h.on h

/-- The kill acts at the edge of the leaf, which comes before any M bit. -/
theorem Fresh.denied (h : Fresh f) (reached : eL < f.n) (early : eL ≤ f.h.m0) (deny : f.h.leaf.action = 1) :
    Denied f.p eL (f.first eL) := by
  have lit : f.darkDec f.leafDec f.addr = f.leafDec := if_pos (by rw [h.lit]; rfl)
  have context : f.contextOk f.leafDec = true := by simp [Fr.contextOk, Fr.leafDec, deny]
  have edge : ¬ (f.h.m0 < eL ∧ eL < f.h.w0) := by omega
  have killed : Denied f.p eL (f.die eL) := by
    have kill : f.flashKill eL = { f with kill := some eL, inM := false } := by
      unfold Fr.flashKill Fr.killEdge
      rw [if_neg (by simp [h.unkilled]), if_neg edge, decide_eq_false edge]
    unfold Fr.die
    rw [kill]
    exact ⟨rfl, h.quiet, h.check, rfl, rfl, rfl, h.host, h.gl⟩
  rw [first_unchecked h reached (by rw [deny]; decide)]
  unfold Fr.apply
  extract_lets d was g1 g2 g3
  have hd : d = f.leafDec := lit
  have same : g1 = f := if_neg (by simp [h.span])
  have h2 : Denied f.p eL g2 := by
    unfold g2
    rw [same]
    exact killed
  have h3 : Denied f.p eL g3 := ⟨h2.1, h2.2, h2.3, h2.4, h2.5, h2.6, h2.7, h2.8⟩
  have action : d.action = 1 := by rw [hd]; exact deny
  have sound : d.refused = false := by rw [hd]; rfl
  rw [if_neg (by simp [h.alive]), if_neg (by simp [hd, context]), if_neg (by simp [action]),
    if_pos (by simp [action]), if_neg (by simp [sound])]
  exact .ite h3 (Denied.alarm ⟨h2.1, h2.2, h2.3, h2.4, h2.5, h2.6, h2.7, h2.8⟩)

theorem Denied.over (h : Denied p eL (f.first eL)) : Denied p eL (f.over lanes eL .rise) := by
  unfold Fr.over
  extract_lets g1 _ g2 g3 g4 g5
  have h1 : Denied p eL g1 := h
  have h2 : Denied p eL g2 := by
    unfold g2
    rw [rule_unchecked h1.quiet h1.check, rule_unchecked h1.mBreach.quiet h1.mBreach.check]
    exact .ite h1.mBreach h1.mBreach
  have h3 : Denied p eL g3 := by
    unfold g3
    rw [h2.bytes]
    exact .ite h2 h2
  have h5 : Denied p eL g5 := by
    unfold g5 g4
    rw [upTo_quiet h3.quiet]
    exact h3.rise
  rw [rest_quiet h5.quiet, gleanCut_none h5.gl]
  exact h5

/-- The pins of a frame killed on edge eL: no pulse after it, no make-up pulse, no byte to the host. -/
theorem Denied.pins {ended : FrameEnd} (h : Denied p eL f) :
    (f.pins lanes ended).pulses ≤ eL ∧ (f.pins lanes ended).makeUp = false ∧ (f.pins lanes ended).host = [] := by
  simp only [Fr.pins]
  split
  · exact ⟨Nat.zero_le _, rfl, h.host⟩
  · simp [h.kill, h.noM, h.host]

/-- A frame whose leaf denies it without a check is killed at the edge of its leaf. -/
theorem run_denies (h : Fresh f) (port : f.p = p) (reached : eL < f.n) (early : eL ≤ f.h.m0) (deny : f.h.leaf.action = 1) :
    let out := ((f.run lanes eL .rise).pe p).out
    out.ended = .killed ∧ out.pulses ≤ eL ∧ out.makeUp = false ∧ out.host = [] := by
  have denied : Denied p eL (f.over lanes eL .rise) := by
    rw [← port]
    exact (h.denied reached early deny).over
  have passes : (f.over lanes eL .rise).passes = false := by simp [Fr.passes, denied.dead]
  have out := run_out (f := f) (lanes := lanes) (eL := eL) (st := .rise)
  rw [denied.port, passes] at out
  rw [out]
  exact ⟨pins_ended, denied.pins⟩

end

/-! #### A leaf that allows -/

/-- A frame that its leaf allows, without M bits. -/
structure Allowed (f : Fr) : Prop where
  quiet : f.events = []
  check : f.h.leaf.check = false
  change : f.h.leaf.change = false
  noM : f.h.nM = 0
  lit : f.dark = false
  alive : f.dead = false
  unkilled : f.kill = none
  decided : ∃ d, f.cur = some d ∧ d.action = 0
  gl : f.gl = none

/-- The r bytes that the flash sends from byte j on. -/
def flashBytes (data : List Byte) (j r : Nat) : List Byte := (List.range' j r).map fun i => data.getD i 0xFF

theorem Allowed.byte {j : Nat} (h : Allowed f) : f.byte j = { f with host := f.host ++ [f.data.getD j 0xFF] } := by
  obtain ⟨d, cur, action⟩ := h.decided
  have turn : ∀ a e, f.turn a e = f := fun a e => by
    unfold Fr.turn
    rw [cur]
    exact if_neg (by simp [h.check])
  have past : ∀ a e, f.pastSet a e = f := fun a e => by
    unfold Fr.pastSet
    rw [cur]
    exact if_neg (by simp [h.lit])
  have due : ∀ a, f.askDue a = f := fun a => by
    unfold Fr.askDue
    rw [cur]
    exact if_neg (by simp [h.check])
  simp [Fr.byte, upTo_quiet h.quiet, turn, past, due, h.alive, cur, action, gleanCut_none h.gl]

/-- The flash's bytes go to the host, as many as begin before the frame's end. -/
theorem Allowed.bytes {m j r : Nat} (h : Allowed f) (epb : 0 < f.h.epb) (due : ∀ i, f.h.eD + (j + i) * f.h.epb < f.n ↔ i < r)
    (room : r ≤ m) : f.bytes m j = { f with host := f.host ++ flashBytes f.data j r } := by
  induction m generalizing f j r with
  | zero =>
    have none : r = 0 := by omega
    subst none
    simp [Fr.bytes, flashBytes]
  | succ m ih =>
    unfold Fr.bytes
    extract_lets e
    rw [if_neg (by simp [h.alive])]
    have here := due 0
    rw [Nat.add_zero] at here
    split
    · next ended =>
      have none : r = 0 := by omega
      subst none
      obtain ⟨d, cur, action⟩ := h.decided
      have turn : ∀ a e, f.turn a e = f := fun a e => by
        unfold Fr.turn
        rw [cur]
        exact if_neg (by simp [h.check])
      simp [turn, flashBytes]
    · next goes =>
      obtain ⟨r, rfl⟩ : ∃ n, r = n + 1 := ⟨r - 1, by omega⟩
      have next : Allowed { f with host := f.host ++ [f.data.getD j 0xFF] } := ⟨h.1, h.2, h.3, h.4, h.5, h.6, h.7, h.8, h.9⟩
      rw [h.byte, ih (r := r) next epb ?_ (by omega)]
      · simp [flashBytes, List.range'_succ]
      · intro i
        have later := due (i + 1)
        rw [show j + (i + 1) = j + 1 + i by omega] at later
        exact later.trans (by omega)

theorem Allowed.mBreach (h : Allowed f) : f.mBreach lanes = f := by
  unfold Fr.mBreach
  rw [upTo_quiet h.quiet]
  exact if_pos (.inl h.noM)

theorem Allowed.rise (h : Allowed f) :
    f.rise = if decide (f.h.bits f.total % 8 ≠ 0) then { f with s := f.s.bump f.p .ragged 1 } else f := by
  unfold Fr.rise
  extract_lets k ragged g long g2
  have leaf : g.h.leaf.change = false ∧ g.h.leaf.check = false := by
    unfold g
    split <;> exact ⟨h.change, h.check⟩
  have same : g2 = g := if_pos (by simp [leaf.2])
  rw [if_neg (by simp [long, leaf.1]), same]

/-- What is left of a frame that is allowed and has given the host its bytes. -/
theorem Allowed.ends (h : Allowed f) : ∃ u, ((f.upTo f.n).stopped .rise).rise.rest.gleanCut = { f with s := u } := by
  have ends : ∀ g : Fr, g.events = [] → g.gl = none → g.rest.gleanCut = g := fun g quiet gl => by
    rw [rest_quiet quiet, gleanCut_none gl]
  have stops : (f.upTo f.n).stopped .rise = f := upTo_quiet h.quiet
  rw [stops, h.rise]
  split
  · exact ⟨_, ends _ h.quiet h.gl⟩
  · exact ⟨f.s, ends f h.quiet h.gl⟩

theorem Fresh.allowed {eL : Nat} (h : Fresh f) (reached : eL < f.n) (allow : f.h.leaf.action = 0) :
    f.first eL = { f with cur := some f.leafDec } := by
  have lit : f.darkDec f.leafDec f.addr = f.leafDec := if_pos (by rw [h.lit]; rfl)
  have action : f.leafDec.action = 0 := allow
  have context : f.contextOk f.leafDec = true := by simp [Fr.contextOk, action]
  rw [first_unchecked h reached (by rw [allow]; decide)]
  simp [Fr.apply, lit, context, action, h.alive, h.span]

theorem Fresh.over_allowed {eL r : Nat} (h : Fresh f) (reached : eL < f.n) (allow : f.h.leaf.action = 0)
    (change : f.h.leaf.change = false) (noM : f.h.nM = 0) (epb : 0 < f.h.epb)
    (due : ∀ i, f.h.eD + i * f.h.epb < f.n ↔ i < r) :
    ∃ u, f.over lanes eL .rise
      = { f with cur := some f.leafDec, s := u, host := if f.h.out then flashBytes f.data 0 r else [] } := by
  have room : r ≤ f.n := by
    by_contra more
    have last := (due f.n).mpr (by omega)
    have := Nat.le_mul_of_pos_right f.n epb
    omega
  unfold Fr.over
  extract_lets g1 _ g2 g3
  have h1 : g1 = { f with cur := some f.leafDec } := h.allowed reached allow
  have a1 : Allowed g1 := by
    rw [h1]
    exact ⟨h.quiet, h.check, change, noM, h.lit, h.alive, h.unkilled, ⟨_, rfl, allow⟩, h.gl⟩
  have h2 : g2 = g1 := by
    unfold g2
    rw [a1.mBreach, rule_unchecked a1.quiet a1.check, a1.mBreach, ite_self]
  have h3 : g3 = { f with cur := some f.leafDec, host := if f.h.out then flashBytes f.data 0 r else [] } := by
    unfold g3
    rw [h2]
    rw [h1] at a1 ⊢
    cases f.h.out with
    | true =>
      have gives := a1.bytes (m := f.n) (j := 0) (r := r) epb (by simpa using due) room
      simpa [h.host] using gives
    | false => simp [h.host]
  have a3 : Allowed g3 := by
    rw [h3]
    exact ⟨h.quiet, h.check, change, noM, h.lit, h.alive, h.unkilled, ⟨_, rfl, allow⟩, h.gl⟩
  clear_value g3
  obtain ⟨u, ends⟩ := a3.ends
  have last : ({ g3 with s := u } : Fr)
      = { f with cur := some f.leafDec, s := u, host := if f.h.out then flashBytes f.data 0 r else [] } := by rw [h3]
  exact ⟨u, ends.trans last⟩

/-- A frame whose leaf allows it without a check passes, and the host gets the flash's bytes. -/
theorem run_allows {eL r : Nat} (h : Fresh f) (port : f.p = p) (reached : eL < f.n) (allow : f.h.leaf.action = 0)
    (change : f.h.leaf.change = false) (noM : f.h.nM = 0) (epb : 0 < f.h.epb)
    (due : ∀ i, f.h.eD + i * f.h.epb < f.n ↔ i < r) :
    ((f.run lanes eL .rise).pe p).out.ended = .committed
      ∧ (f.h.out = true → ((f.run lanes eL .rise).pe p).out.host = flashBytes f.data 0 r) := by
  obtain ⟨u, final⟩ := h.over_allowed (lanes := lanes) reached allow change noM epb due
  have out := run_out (f := f) (lanes := lanes) (eL := eL) (st := .rise)
  have passes : (f.over lanes eL .rise).passes = true := by
    rw [final]
    simp [Fr.passes, h.alive, h.unkilled]
  have same : (f.over lanes eL .rise).p = p := by
    rw [final]
    exact port
  have host : (f.over lanes eL .rise).host = if f.h.out then flashBytes f.data 0 r else [] := by rw [final]
  rw [same, passes] at out
  rw [out, pins_ended, pins_host, host]
  exact ⟨rfl, fun data => if_pos data⟩

/-! #### The leaf of a frame -/

/-- A leaf's lanes leave 2, 4 or 8 edges for a byte. -/
theorem leafAt_epb (w : PWin) (cont : Bool) (idx : Nat) : 0 < 8 / (w.leafAt cont idx).lanesD := by
  have field : ∀ n, 0 < 8 / laneField n := fun n => by
    unfold laneField
    split_ifs <;> decide
  unfold PWin.leafAt
  extract_lets n
  split
  · exact field _
  · exact (by decide : 0 < 8 / 1)

theorem walk_nil (w : PWin) (c idx k left : Nat) : w.walk c [] idx k left
    = if bitsOf (w.trieEntry false idx) 127 126 = 1 ∧ left ≠ 0 then none else some (k - 1, w.leafAt false idx) := rfl

theorem walk_cons (w : PWin) (c : Nat) (v : BitVec 4) (lanes : List (BitVec 4)) (idx k left : Nat) :
    w.walk c (v :: lanes) idx k left = if bitsOf (w.trieEntry false idx) 127 126 = 1 ∧ left ≠ 0
      then w.walk c lanes (branchChild (w.trieEntry false idx) (v.toNat % 2 ^ c)) (k + 1) (left - 1)
      else some (k - 1, w.leafAt false idx) := rfl

/-- Where a walk ends: on a leaf of the trie, on an edge that has come, of the C phase. -/
theorem walk_spec {w : PWin} {c : Nat} {lanes : List (BitVec 4)} {idx k left eL : Nat} {l : Leaf}
    (h : w.walk c lanes idx k left = some (eL, l)) :
    (∃ i, l = w.leafAt false i) ∧ eL ≤ k + lanes.length - 1 ∧ eL ≤ k + left - 1 := by
  induction lanes generalizing idx k left with
  | nil =>
    rw [walk_nil] at h
    split at h
    · cases h
    · cases h
      exact ⟨⟨_, rfl⟩, by omega, by omega⟩
  | cons v lanes ih =>
    rw [walk_cons] at h
    split at h
    · next more =>
      obtain ⟨leaf, come, phase⟩ := ih h
      exact ⟨leaf, by rw [List.length_cons]; omega, by omega⟩
    · cases h
      exact ⟨⟨_, rfl⟩, by omega, by omega⟩

theorem walk_same {w u : PWin} (h : u.tries = w.tries) {c : Nat} {lanes : List (BitVec 4)} {idx k left : Nat} :
    u.walk c lanes idx k left = w.walk c lanes idx k left := by
  have entry : u.trieEntry = w.trieEntry := by funext cont i; unfold PWin.trieEntry; rw [h]
  induction lanes generalizing idx k left with
  | nil => simp only [walk_nil, PWin.leafAt, entry]
  | cons v lanes ih => simp only [walk_cons, PWin.leafAt, entry, ih]

theorem OnlyAlarms.flaws {s t : State} (h : OnlyAlarms s t) : t.flaws = s.flaws := by
  unfold OnlyAlarms at h
  have same := congrArg State.flaws h
  exact same

/-- A NOTE of a counter at its maximum spoils no stored word. -/
theorem bump_flaws (c : Ctr) (n : Nat) : (s.bump p c n).flaws = s.flaws := by
  have note : ∀ u : State, ∀ w old new : Nat, (u.maxNote w old new 1 p).flaws = u.flaws := fun u w old new => by
    unfold State.maxNote
    split
    · exact (raise_low u (Nat.zero_le 1)).1.flaws
    · rfl
  rw [bump_counted]
  split
  · rfl
  · exact note ..

/-- A frame without events on a port in PASS reaches its leaf on edge eL. -/
theorem frame_reaches {f : FrameIn} {eL : Nat} {l : Leaf} (dev : s.boot.dev ≠ .off) (bank : s.bankUp p = true)
    (mode : (s.ph p).mode = .pass) (clk : f.clkHigh = (s.pe p).params.mode3) (cont : (s.pe p).cont = false)
    (lanes : f.lanes ≠ []) (check : l.check = false) (lost : lostEdges f = []) (events : f.events = [])
    (trie : ∀ i, Flaw.trie p i ∉ s.flaws)
    (walk : (s.pw p).walk (s.pe p).params.cLanes f.lanes 0 0 (8 / (s.pe p).params.cLanes) = some (eL, l)) :
    ∃ g : Fr, s.frame p f .rise = g.run f.lanes eL .rise ∧ Fresh g ∧ g.p = p ∧ g.n = f.lanes.length ∧ g.data = f.flash
      ∧ g.h = shapeOf l (s.pe p).params.cLanes false (s.pe p).addr4 := by
  have none : frameEvents f = [] := by unfold frameEvents; rw [lost, events]; rfl
  have some_ : f.lanes.length ≠ 0 := fun e => lanes (List.eq_nil_of_length_eq_zero e)
  have pe := opened_pe s p
  have pw := opened_pw s p
  unfold State.frame
  extract_lets s16 s17 _ _ s18 hold e w _ late _ s19 s20 n all bad s21 _ s23 found path trieBad x2 _ _ _
  have he : e = { s.pe p with tag := (s.pe p).tag + 1 } := pe
  have hw : w.tries = (s.pw p).tries := by
    have tries := congrArg PWin.tries pw
    exact tries
  have good : bad = false := by simp [bad, he, clk]
  have start : s23 = s21 := if_neg (by simp [good])
  have quiet : s21.events = [] := none
  have flaws : s20.flaws = s.flaws := by
    have late : s19.flaws = s.flaws := by
      unfold s19
      split
      · rfl
      · exact bump_flaws ..
    exact late
  have sound : trieBad = false := by
    rw [← Bool.not_eq_true]
    intro spoilt
    obtain ⟨i, -, hit⟩ := List.any_eq_true.mp spoilt
    rw [flaws] at hit
    exact trie i (List.contains_iff_mem.mp hit)
  have there : x2 = some (eL, l) := by
    have same : found = some (eL, l) := by
      unfold found
      rw [walk_same hw]
      simp [he, cont, walk]
    unfold x2
    rw [sound, same]
    rfl
  have pass : hold.mode = .pass := mode
  rw [if_neg (by simp [dev, bank]), if_neg (fun held => held.1 pass), if_neg some_]
  clear_value x2 trieBad
  subst there sound
  dsimp only
  rw [start, upTo_quiet quiet]
  have lit : s21.dark = false := by simp [s21, pass]
  have he' : e.cont = false := by rw [he]; exact cont
  have shape : shapeOf l e.params.cLanes e.cont e.addr4 = shapeOf l (s.pe p).params.cLanes false (s.pe p).addr4 := by
    rw [he', he]
  have lanes' : all = f.lanes := List.append_nil _
  rw [if_neg Bool.false_ne_true, lanes']
  refine ⟨_, rfl, ⟨quiet, check, lit, rfl, rfl, rfl, rfl, rfl⟩, rfl, rfl, rfl, shape⟩

/-- The bytes of a data phase that begin before edge n. -/
theorem ceilDiv_due {a b n : Nat} (hb : 0 < b) (i : Nat) : a + i * b < n ↔ i < ceilDiv (n - a) b := by
  unfold ceilDiv
  rw [Nat.lt_div_iff_mul_lt hb]
  omega

end

/-! ### O25, O26 -/


/-- Settles O26: `frame_model` of the frame that HOST_FRAME runs. -/
theorem onlyCommittedFramesSetTheModel : Obligations.OnlyCommittedFramesSetTheModel := by
  intro s t p f runs out
  cases runs
  exact frame_model out

/-- Settles O25, clause by clause. -/
theorem hostFrames : Obligations.HostFrames := by
  refine ⟨fun s p f dev bank pass dark => ?_, fun s p f eL l => ⟨fun bank => ?_, fun dev bank pass => ⟨?_, fun stall => ?_, ?_⟩⟩⟩
  · obtain ⟨out, tag, count⟩ := frame_held_spec (f := f) (st := .rise) dev bank pass dark
    exact ⟨_, rfl, out, tag, count, onlyTheseCommandsWriteTheHomeFlash s _ (.hostFrame p f) rfl rfl⟩
  · exact ⟨⟨_, rfl, frame_dead (.inr bank)⟩, ⟨_, rfl, frame_dead (.inr bank)⟩⟩
  · intro clk cont lanes check lost events trie walk
    obtain ⟨g, run, fresh, port, edges, data, shape⟩ := frame_reaches dev bank pass clk cont lanes check lost events trie walk
    obtain ⟨⟨i, leaf⟩, come, phase⟩ := walk_spec walk
    have some_ : f.lanes.length ≠ 0 := fun e => lanes (List.eq_nil_of_length_eq_zero e)
    have reached : eL < g.n := by omega
    refine ⟨fun allow change noM => ?_, fun deny => ?_⟩
    · have epb : 0 < g.h.epb := by
        rw [shape, leaf]
        exact leafAt_epb ..
      obtain ⟨ended, host⟩ := run_allows (lanes := f.lanes) fresh port reached (by rw [shape]; exact allow)
        (by rw [shape]; exact change) (by rw [shape]; simp [shapeOf, noM]) epb (ceilDiv_due epb)
      rw [← run] at ended host
      refine ⟨_, rfl, ended, fun reads => ?_⟩
      rw [host (by rw [shape]; exact decide_eq_true reads), data, edges, shape, flashBytes, ← List.range_eq_range']
    · have early : eL ≤ g.h.m0 := by
        rw [shape]
        calc eL
          _ ≤ 8 / (s.pe p.val).params.cLanes - 1 := by rwa [Nat.zero_add] at phase
          _ ≤ 8 / (s.pe p.val).params.cLanes := Nat.sub_le ..
          _ ≤ _ := Nat.le_add_right ..
      have denies := run_denies (lanes := f.lanes) fresh port reached early (by rw [shape]; exact deny)
      rw [← run] at denies
      exact ⟨_, rfl, denies⟩
  · have spec := frame_stall_spec (f := f) dev bank (.inl pass)
    have runs : exec (.stallTimeout p f) s = .next (s.frame p f .stall) := congrArg Host.Outcome.next (if_neg stall)
    exact ⟨_, runs, spec⟩
  · exact ⟨_, rfl, frame_breach_spec dev bank (.inl pass)⟩

end Sys2Proof.Machine
end

section
namespace Sys2Proof.Machine

open Sys2Proof

/-! ### O27: decision words and the lookups that the rule-table unit refuses -/

section
variable (action alarm fill context span tag last a : Nat) (refused : Bool)

/-- No field of a decision word (R294) runs into another: the word is their sum. -/
theorem toNat_decWord : (decWord action alarm fill context span tag refused last).toNat
    = action % 8 * 2 ^ 33 + alarm % 8 * 2 ^ 30 + fill % 4 * 2 ^ 28 + context % 128 * 2 ^ 21 + span % 16 * 2 ^ 17
      + tag % 4 * 2 ^ 15 + refused.toNat * 2 ^ 14 + last % 32 * 2 ^ 9 := by
  have := refused.toNat_lt
  exact (BitVec.toNat_ofNat ..).trans (Nat.mod_eq_of_lt (by omega))

@[simp] theorem decTag_decWord : decTag (decWord action alarm fill context span tag refused last) = tag % 4 := by
  have := refused.toNat_lt
  rw [decTag, toNat_decWord, bitsOf]
  omega

@[simp] theorem decSpan_decWord : decSpan (decWord action alarm fill context span tag refused last) = span % 16 := by
  have := refused.toNat_lt
  rw [decSpan, toNat_decWord, bitsOf]
  omega

theorem decOf_decWord_action : (decOf (decWord action alarm fill context span tag refused last) a).action = action % 8 := by
  have := refused.toNat_lt
  simp only [decOf, toNat_decWord, bitsOf]
  omega

theorem decOf_decWord_refused : (decOf (decWord action alarm fill context span tag refused last) a).refused = refused := by
  simp only [decOf, toNat_decWord, bitOf, Nat.testBit_eq_decide_div_mod_eq]
  cases refused <;> simp only [Bool.toNat_true, Bool.toNat_false, decide_eq_true_eq, decide_eq_false_iff_not] <;> omega

/-- END 16 stands for the end of the granule (R188, R294). -/
theorem decOf_decWord_last : (decOf (decWord action alarm fill context span tag refused last) a).last
    = a / 65536 * 65536 + if last % 32 = 16 then 65535 else 4096 * (last % 32) + 4095 := by
  have := refused.toNat_lt
  have field : bitsOf (decWord action alarm fill context span tag refused last).toNat 13 9 = last % 32 := by
    rw [toNat_decWord, bitsOf]
    omega
  simp only [decOf, field]

end

theorem bitsOf_lt (n hi lo : Nat) : bitsOf n hi lo < 2 ^ (hi + 1 - lo) :=
  Nat.mod_lt _ (Nat.two_pow_pos _)

section
variable {s : State} {p : Nat} {index : BitVec 17} {dt : W36}

/-- R186, R203: all that an entry has to meet for the unit to answer its decision, in the generation that the frame latched. -/
structure State.LookupFits (s : State) (p : Nat) (index : BitVec 17) (dt : W36) : Prop where
  sound : Flaw.rule (s.pw p).genFrame index.toNat ∉ s.flaws
  shadow : (s.pw p).gen ≠ (s.pw p).genN
  valid : bitOf (s.rule (s.pw p).genFrame index.toNat).toNat 127 = true
  port : bitsOf (s.rule (s.pw p).genFrame index.toNat).toNat 126 120 = p
  build : bitsOf (s.rule (s.pw p).genFrame index.toNat).toNat 63 48
    = (if (s.pw p).genFrame then (s.pw p).build1 else (s.pw p).build0).toNat
  start : bitsOf (s.rule (s.pw p).genFrame index.toNat).toNat 115 100 ≤ bitsOf dt.toNat 15 0
  stop : bitsOf dt.toNat 15 0 ≤ bitsOf (s.rule (s.pw p).genFrame index.toNat).toNat 99 84
  cls : bitOf (s.rule (s.pw p).genFrame index.toNat).toNat (116 + bitsOf dt.toNat 25 24) = true

/-- R293: the word of a refused lookup. -/
theorem lookupWord_of_not_fits (h : ¬ s.LookupFits p index dt) :
    s.lookupWord p index dt = decWord 1 1 0 0 (bitsOf dt.toNat 29 26) (bitsOf dt.toNat 31 30) true 16 := by
  refine if_neg fun fits => h ?_
  simp only [Bool.and_eq_true, Bool.not_eq_true', List.contains_eq_mem, decide_eq_false_iff_not, decide_eq_true_eq,
    bne_iff_ne] at fits
  obtain ⟨⟨⟨⟨⟨⟨sound, shadow⟩, valid⟩, port⟩, build⟩, start, stop⟩, cls⟩ := fits
  exact { sound, shadow, valid, port, build, start, stop, cls }

end

/-- Settles O27: each of the misfits is one part of `State.LookupFits` that fails, and the refused word is read field by
field. -/
theorem refusedLookupsDeny : Obligations.RefusedLookupsDeny := by
  intro s p index dt a w e sector misfit
  have refuses : ¬ s.LookupFits p index dt := by
    intro fits
    rcases misfit with flaw | shadow | invalid | port | build | start | stop | cls
    · exact fits.sound flaw
    · exact fits.shadow shadow
    · exact Bool.eq_false_iff.mp invalid fits.valid
    · exact port fits.port
    · exact build fits.build
    · exact start.not_ge fits.start
    · exact stop.not_ge fits.stop
    · exact Bool.eq_false_iff.mp cls fits.cls
  rw [lookupWord_of_not_fits refuses, decTag_decWord, decSpan_decWord]
  exact ⟨decOf_decWord_action .., decOf_decWord_refused .., decOf_decWord_last .., Nat.mod_eq_of_lt (bitsOf_lt ..),
    Nat.mod_eq_of_lt (bitsOf_lt ..)⟩

end Sys2Proof.Machine
end

section
namespace Sys2Proof.Machine

open Sys2Proof

/-! ### O8: the port ops of a sequencer thread (R224, R292 to R295) -/

/-! #### What the passing of slots leaves alone -/

theorem Core.write_run (k : Core) (t : Dest) (v : W72) : (k.write t v).run = k.run := by
  unfold Core.write
  split
  · split <;> rfl
  all_goals rfl

theorem Core.landTo_run (k : Core) (n : Nat) : (k.landTo n).run = k.run :=
  List.foldlRecOn (motive := fun (x : Core) => x.run = k.run) _ _ rfl fun x same y _ => (x.write_run y.dest y.val).trans same

/-- The decision paths and what the cores do. -/
def State.threadView (s : State) := (s.dec, fun j => (s.co j).run)

theorem coU_threadView (s : State) (i : Nat) {f : Core → Core} (h : ∀ k, (f k).run = k.run) :
    (s.coU i f).threadView = s.threadView := by
  have same : ∀ j, ((s.coU i f).co j).run = (s.co j).run := fun j => by
    rw [State.coU_co]
    split
    · next e => rw [h, e]
    · rfl
  exact Prod.ext rfl (funext same)

theorem storeOut_threadView (s : State) (c : CoreId) (x : StoreIn) : (s.storeOut c x).threadView = s.threadView := by
  unfold State.storeOut
  split <;> rfl

theorem landTo_threadView (s : State) (c : CoreId) (n : Nat) : (s.landTo c n).threadView = s.threadView :=
  (each_same State.threadView (fun u x => storeOut_threadView u c x) _).trans
    (coU_threadView s _ fun k => k.landTo_run n)

theorem slotTo_threadView (s : State) (c : CoreId) (n : Nat) : (s.slotTo c n).threadView = s.threadView := by
  unfold State.slotTo
  split
  · next k t =>
    extract_lets due landed stored
    have lands : landed.threadView = s.threadView := coU_threadView s _ fun k => k.landTo_run n
    clear_value landed due
    have stores : stored.threadView = landed.threadView :=
      each_same State.threadView (fun u (x : Nat × CoreId × StoreIn) => storeOut_threadView u x.2.1 x.2.2) landed
    clear_value stored
    refine (each_same State.threadView (fun u x => ?_) stored).trans (stores.trans lands)
    exact coU_threadView u _ fun _ => rfl
  · exact landTo_threadView s c n

theorem slotsPass_threadView (s : State) (c : CoreId) (n : Nat) : (s.slotsPass c n).threadView = s.threadView := by
  unfold State.slotsPass
  refine (coU_threadView _ _ fun k => ?_).trans (slotTo_threadView s c n)
  rfl

theorem slotsPass_slot (s : State) (c : CoreId) (n : Nat) : ((s.slotsPass c n).co (coreNo c)).slot = n := by
  unfold State.slotsPass
  rw [State.coU_co_same]

/-- Coming to its slot does not stop or wake a core. -/
theorem coreAt_run (s : State) (c : CoreId) : (s.coreAt c).run = (s.co (coreNo c)).run :=
  congrFun (congrArg Prod.snd (slotTo_threadView s c _)) (coreNo c)

theorem slotsPass_run (s : State) (c : CoreId) (n : Nat) : ((s.slotsPass c n).co (coreNo c)).run = (s.co (coreNo c)).run :=
  congrFun (congrArg Prod.snd (slotsPass_threadView s c n)) (coreNo c)

theorem slotsPass_pd (s : State) (c : CoreId) (n p : Nat) : (s.slotsPass c n).pd p = s.pd p := by
  have dec : (s.slotsPass c n).dec = s.dec := congrArg Prod.fst (slotsPass_threadView s c n)
  unfold State.pd
  rw [dec]

/-! #### The end of a word -/

theorem Core.advance_run (k : Core) (jump : Option W24) : (k.advance jump).run = k.run := by
  unfold Core.advance
  extract_lets xs n
  split <;> rfl

theorem Core.advance_rd (k : Core) (jump : Option W24) (n : Nat) : (k.advance jump).rd n = k.rd n := by
  unfold Core.advance
  extract_lets xs m
  split <;> rfl

/-- A Ready word that goes on completes: what it did, and its core one word further. -/
theorem completes_of_goes {i : Instr} {s t : State} {c : CoreId} {w : W36} {f : State → Core → Res} {jump : Option W24}
    {P : State → Prop} (run : exec i s = .next (s.issue c w f)) (ready : s.Ready c w)
    (goes : f (s.atIssue c) (s.coreAt c) = .go t jump) (after : P (t.coU (coreNo c) fun k => k.advance jump)) : Completes i s P := by
  refine ⟨_, run, ?_⟩
  rw [s.issue_ready c w f ready, goes]
  exact after

/-! #### The event queue -/

/-- A crossing that waited joins the queue behind the events that stand there. -/
theorem refill_events (d : PDec) : ∃ l, d.refill.events = d.events ++ l := by
  unfold PDec.refill
  split
  · split
    · exact ⟨_, rfl⟩
    · exact ⟨[], (List.append_nil _).symm⟩
  · exact ⟨[], (List.append_nil _).symm⟩

theorem Core.rd_write_d15 (k : Core) (w : W36) : (k.write (.d 15) (w.setWidth 72)).rd 15 = w := by
  have full : (w.setWidth 72).setWidth 36 = w := by simp
  have read : (k.write (.d 15) (w.setWidth 72)).rd 15 = Tab.get 0 (Tab.put 0 k.d 15 ((w.setWidth 72).setWidth 36)) 15 := rfl
  rw [read, full, Tab.get_put_same]

/-- The oldest event is in D15, and the others move up in their order. -/
theorem takeEvent_takes {s : State} {c : CoreId} {w : W36} {rest : List W36} (events : (s.pd (threadPort c)).events = w :: rest) :
    ((s.takeEvent c).co (coreNo c)).rd 15 = w
      ∧ ((s.takeEvent c).co (coreNo c)).run = (s.co (coreNo c)).run
      ∧ ((s.takeEvent c).pd (threadPort c)).events.take rest.length = rest := by
  unfold State.takeEvent
  extract_lets p
  rw [events]
  dsimp only
  rw [State.coU_co_same, State.coU_pd, State.pdU_pd_same]
  refine ⟨Core.rd_write_d15 .., Core.write_run .., ?_⟩
  obtain ⟨l, more⟩ := refill_events { s.pd p with events := rest }
  rw [more]
  exact List.take_left

/-! #### The answer cache -/

theorem length_padTo (bs : List Byte) (n : Nat) : (padTo bs n).length = n := by
  simp only [padTo, List.length_take, List.length_append, List.length_replicate]
  omega

/-- The word written stands at its place in the slot (R295). -/
theorem cacheSlot_put_word (x : CacheSlot) (v place : Nat) :
    sub (x.put v place).bytes (4 * bitsOf place 6 2) 4 = leBytes v 4 := by
  have word : bitsOf place 6 2 < 32 := bitsOf_lt ..
  have before : ((padTo x.bytes 128).take (4 * bitsOf place 6 2)).length = 4 * bitsOf place 6 2 := by
    rw [List.length_take, length_padTo]
    omega
  unfold sub CacheSlot.put
  dsimp only
  rw [List.append_assoc, List.drop_left' before]
  exact List.take_left' rfl

/-! #### The ops -/

variable {s : State} {c : CoreId} {cc rs rt : BitVec 4} {w : W36} {rest : List W36}

theorem wev_waits (ready : s.Ready c (wordLong 0x28 cc 0)) (empty : ((s.atIssue c).pd (threadPort c)).events = []) :
    Completes (.wev c cc) s fun t => (t.co (coreNo c)).run = .waitEvent ∧ t.dec = (s.atIssue c).dec := by
  refine completes_of_goes rfl ready (if_pos empty) ?_
  rw [State.coU_co_same, Core.advance_run, State.coU_co_same]
  exact ⟨rfl, rfl⟩

theorem wev_takes (ready : s.Ready c (wordLong 0x28 cc 0)) (events : ((s.atIssue c).pd (threadPort c)).events = w :: rest) :
    Completes (.wev c cc) s fun t => (t.co (coreNo c)).rd 15 = w ∧ (t.co (coreNo c)).run = .running
      ∧ (t.pd (threadPort c)).events.take rest.length = rest := by
  obtain ⟨reads, run, queue⟩ := takeEvent_takes events
  refine completes_of_goes rfl ready (if_neg (by rw [events]; exact List.cons_ne_nil w rest)) ?_
  rw [State.coU_co_same, Core.advance_rd, Core.advance_run, State.coU_pd]
  exact ⟨reads, run.trans ((coreAt_run s c).trans ready.1), queue⟩

section
variable {k : SheafId} {th : Fin 8} {slots : Nat}

theorem wevResume_waits (waits : (s.co (coreNo (.sq k th))).run = .waitEvent) (empty : (s.pd (8 * k.val + th.val)).events = []) :
    Completes (.wevResume k th slots) s fun t => (t.co (coreNo (.sq k th))).run = .waitEvent
      ∧ (t.co (coreNo (.sq k th))).slot = (s.co (coreNo (.sq k th))).slot + slots :=
  ⟨_, (if_neg (not_not_intro waits)).trans (congrArg Host.Outcome.next (if_pos empty)), (slotsPass_run ..).trans waits, slotsPass_slot ..⟩

theorem wevResume_takes (waits : (s.co (coreNo (.sq k th))).run = .waitEvent) (events : (s.pd (8 * k.val + th.val)).events = w :: rest) :
    Completes (.wevResume k th slots) s fun t => (t.co (coreNo (.sq k th))).run = .running
      ∧ (t.co (coreNo (.sq k th))).rd 15 = w ∧ (t.pd (8 * k.val + th.val)).events.take rest.length = rest := by
  have some_ : (s.pd (threadPort (.sq k th))).events ≠ [] := fun none => List.cons_ne_nil w rest (events.symm.trans none)
  refine ⟨_, (if_neg (not_not_intro waits)).trans (congrArg Host.Outcome.next (if_neg some_)), ?_⟩
  obtain ⟨reads, run, queue⟩ := takeEvent_takes (c := .sq k th) (w := w) (rest := rest)
    (s := (s.slotsPass (.sq k th) ((s.co (coreNo (.sq k th))).slot + slots)).coU (coreNo (.sq k th)) fun x => { x with run := .running })
    (by rw [State.coU_pd, slotsPass_pd]; exact events)
  rw [State.coU_co_same] at run
  exact ⟨run, reads, queue⟩

end

theorem acw_skips (ready : s.Ready c (wordLong 0x2B cc (layR 0 rs rt 0)))
    (nowhere : ((s.coreAt c).rd rt.toNat).toNat / 2 ^ 16 ≠ 0 ∨ ((s.coreAt c).rd rt.toNat).toNat % 4 ≠ 0
      ∨ bitsOf ((s.coreAt c).rd rt.toNat).toNat 15 9 = 0) :
    Completes (.acw c cc rs rt) s fun t => t.dec = (s.atIssue c).dec :=
  completes_of_goes rfl ready (if_pos nowhere) rfl

theorem acw_writes (ready : s.Ready c (wordLong 0x2B cc (layR 0 rs rt 0)))
    (place : ¬ (((s.coreAt c).rd rt.toNat).toNat / 2 ^ 16 ≠ 0 ∨ ((s.coreAt c).rd rt.toNat).toNat % 4 ≠ 0
      ∨ bitsOf ((s.coreAt c).rd rt.toNat).toNat 15 9 = 0)) :
    Completes (.acw c cc rs rt) s fun t => Tab.get {} (t.pd (threadPort c)).cache (bitsOf ((s.coreAt c).rd rt.toNat).toNat 8 7)
      = (Tab.get {} ((s.atIssue c).pd (threadPort c)).cache (bitsOf ((s.coreAt c).rd rt.toNat).toNat 8 7)).put
        ((s.coreAt c).rd rs.toNat).toNat ((s.coreAt c).rd rt.toNat).toNat := by
  refine completes_of_goes rfl ready (if_neg place) ?_
  rw [State.coU_pd, State.pdU_pd_same]
  dsimp only
  rw [Tab.get_upd_same]

/-- Settles O8, op by op. -/
theorem portOpResults : Obligations.PortOpResults := by
  intro s c k th slots cc rd rs rt fn w rest u r p
  refine ⟨fun ready => ⟨wev_waits ready, wev_takes ready⟩, wevResume_waits, wevResume_takes,
    fun ready => completes_of_goes rfl ready rfl ?_, fun ready => completes_of_goes rfl ready rfl ?_,
    fun ready => ⟨acw_skips ready, fun place => ?_⟩⟩
  · rw [State.coU_pd, State.pdU_pd_same]
  · unfold State.decisionIn
    rw [State.coU_pd, State.pdU_pd_same]
  · obtain ⟨t, run, written⟩ := acw_writes ready place
    refine ⟨t, run, ?_⟩
    dsimp only
    rw [written]
    exact ⟨cacheSlot_put_word .., fun first => ⟨decide_eq_true first, if_pos first⟩, fun later => decide_eq_false later⟩

end Sys2Proof.Machine
end

section
-- As in the other long chains of short proofs: in parallel they take more threads than the memory limit has room for.
set_option Elab.async false

namespace Sys2Proof.Machine

open Sys2Proof

/-! ### O55: reconciliations under way

Only a warm restart's entry and the end of a reconciliation make a pool OK again (R38, R400): nothing that a core cycle does. -/

/-- Every pool that reconciles in `s` still does in `t`. -/
def Recon (s t : State) : Prop := ∀ q, (s.po q).st = .reconciling → (t.po q).st = .reconciling

section
variable {s0 s t : State}

theorem Recon.refl : Recon s s := fun _ => id

theorem Recon.trans (h : Recon s0 s) (k : Recon s t) : Recon s0 t := fun q e => k q (h q e)

/-- A change of other parts of the state than the pools. -/
theorem Recon.same (h : Recon s0 s) (e : t.leave.pools = s.leave.pools := by rfl) : Recon s0 t := by
  refine h.trans fun q => ?_
  unfold State.po
  rw [e]
  exact id

theorem Recon.ite {c : Prop} [Decidable c] (hs : Recon s0 s) (ht : Recon s0 t) : Recon s0 (if c then s else t) := by
  split
  · exact hs
  · exact ht

theorem Recon.foldl {α : Type} {l : List α} {f : State → α → State} (h : Recon s0 s)
    (hf : ∀ u x, Recon s0 u → Recon s0 (f u x)) : Recon s0 (l.foldl f s) := by
  induction l generalizing s with
  | nil => exact h
  | cons x l ih => exact ih (hf s x h)

theorem Recon.each {α : Type} {l : List α} {f : State → α → State} (h : Recon s0 s) (hf : ∀ u x, Recon s0 u → Recon s0 (f u x)) :
    Recon s0 (s.each l f) := h.foldl hf

/-- A change of a pool that ends no reconciliation. -/
theorem Recon.poU {i : Nat} {f : Pool → Pool} (h : Recon s0 s)
    (hf : ∀ x, x.st = .reconciling → (f x).st = .reconciling := by exact fun _ e => e) : Recon s0 (s.poU i f) := by
  refine h.trans fun q e => ?_
  rw [State.poU_po]
  split
  · next k => subst k; exact hf _ e
  · exact e

/-! #### What each function of a core cycle does, in the order of the model -/

variable {a c code data e g h' i lane l n p q r rank reason status target tkind use x : Nat} {payload : List Byte} {u : LvUse}
  {ws : List W32} {w : W32}

/-! Pools and leave -/

theorem Recon.poolGrant (h : Recon s0 s) : Recon s0 (s.poolGrant q h' n) := .ite h.poU h

theorem Recon.poolClaim (h : Recon s0 s) : Recon s0 (s.poolClaim q h' n) := .ite h.poolGrant h.poU

theorem recounts_reconciling {x : Pool} (e : x.st = .reconciling) : x.recounts.st = .reconciling := by
  unfold Pool.recounts
  rw [if_neg (by rw [e]; decide)]

/-- A return during the reconciliation lands after it (R400). -/
theorem Recon.poolBack (h : Recon s0 s) : Recon s0 (s.poolBack q h' n) := by
  refine h.poU fun x e => ?_
  rw [if_pos e]
  split <;> exact e

theorem Recon.lvDrop (h : Recon s0 s) : Recon s0 (s.lvDrop u) := h.same

theorem Recon.lvAsk (h : Recon s0 s) : Recon s0 (s.lvAsk u n) := h.same

theorem Recon.lvBack (h : Recon s0 s) : Recon s0 (s.lvBack u n) := h.poolBack

theorem Recon.lvGrant (h : Recon s0 s) : Recon s0 (s.lvGrant u n) := by
  unfold State.lvGrant
  extract_lets s1
  have h1 : Recon s0 s1 := h.poolGrant
  split
  · exact h1.same
  · exact h1

theorem Recon.lvTake (h : Recon s0 s) (e : s.lvTake u n = some t) : Recon s0 t := by
  unfold State.lvTake at e
  split at e
  · cases e
    exact h.lvGrant
  · cases e

/-! Mailboxes and interrupt lines -/

theorem Recon.mbU {f : Mbox → Mbox} (h : Recon s0 s) : Recon s0 (s.mbU q f) := h.same

theorem Recon.boxReady (h : Recon s0 s) : Recon s0 (s.boxReady q) := .ite h.poolGrant.poolGrant.mbU h

theorem Recon.boxDrop (h : Recon s0 s) : Recon s0 (s.boxDrop q) := h.same

theorem Recon.boxEmpty (h : Recon s0 s) : Recon s0 (s.boxEmpty q) := (h.each fun _ _ h1 => h1.poolBack.poolBack).boxDrop

theorem Recon.poolMove {from_ to_ : Nat} (h : Recon s0 s) : Recon s0 (s.poolMove q from_ to_ n) := h.poU

theorem Recon.boxFlush (h : Recon s0 s) : Recon s0 (s.boxFlush q) := h.foldl fun _ _ h1 => .ite h1.poolMove.mbU h1

theorem Recon.respond {tag : Byte} (h : Recon s0 s) : Recon s0 (s.respond q tag status ws) := h.mbU.boxFlush

theorem Recon.answer (h : Recon s0 s) : Recon s0 (s.answer q status ws) := h.respond

theorem Recon.setLine {v : Bool} (h : Recon s0 s) : Recon s0 (s.setLine n v) := h.each fun _ _ h1 => h1.same

/-! Holds -/

theorem Recon.pushEvent {w : W36} (h : Recon s0 s) : Recon s0 (s.pushEvent p w) := .ite h.same (.ite h.same h.same)

theorem Recon.runtimeOff (h : Recon s0 s) : Recon s0 s.runtimeOff := .ite h h.poolBack.lvDrop.lvBack

theorem Recon.flipsEnd (h : Recon s0 s) : Recon s0 s.flipsEnd := by
  unfold State.flipsEnd
  split
  · refine Recon.setLine ?_
    exact h.same
  · exact h

theorem Recon.takeFlip (h : Recon s0 s) : Recon s0 (s.takeFlip p) := by
  unfold State.takeFlip
  extract_lets _ _ s1
  have h1 : Recon s0 s1 := h.same
  exact h1.flipsEnd.pushEvent

theorem Recon.holdPort (h : Recon s0 s) : Recon s0 (s.holdPort p) := by
  unfold State.holdPort
  extract_lets was s1 s2 s3 s4
  have h2 : Recon s0 s2 := h.same
  have h3 : Recon s0 s3 := .ite h2.takeFlip h2
  have h4 : Recon s0 s4 := .ite h3.pushEvent h3
  exact .ite h4.runtimeOff h4

/-! Groups of the Granary -/

theorem Recon.groupRetired (h : Recon s0 s) : Recon s0 (s.groupRetired g) := h.each fun _ _ h1 => h1.same

theorem Recon.dropGroup (h : Recon s0 s) : Recon s0 (s.dropGroup g) := by
  unfold State.dropGroup
  extract_lets _ _ s1
  have h1 : Recon s0 s1 := h.same
  exact .ite h1.groupRetired.poolClaim h1.same

theorem Recon.returnGroups {port : Nat} {slot : Option Bool} (h : Recon s0 s) : Recon s0 (s.returnGroups use port slot) :=
  h.each fun _ _ h1 => h1.poolBack.dropGroup

theorem Recon.pgU {f : PGran → PGran} (h : Recon s0 s) : Recon s0 (s.pgU p f) := h.same

/-! Alarms and their responses -/

theorem Recon.dataUsed (h : Recon s0 s) : Recon s0 (s.dataUsed data) := .ite h.same h

theorem Recon.decided (h : Recon s0 s) : Recon s0 (s.decided code rank tkind target data) := by
  unfold State.decided
  extract_lets word s1 a mark al held s2 s3 s4
  have h1 : Recon s0 s1 := h.dataUsed
  have h2 : Recon s0 s2 := h1.same
  have h3 : Recon s0 s3 := h2.each fun _ _ h => h.holdPort.same
  have h4 : Recon s0 s4 := h3.same
  exact h4.setLine

theorem Recon.weakAdd (h : Recon s0 s) : Recon s0 (s.weakAdd w) := by
  unfold State.weakAdd
  extract_lets
  split
  · exact h.same
  split
  · exact h.same
  split
  · exact h.same
  · refine Recon.decided ?_
    exact h.same

theorem Recon.burnFound (h : Recon s0 s) : Recon s0 (s.burnFound a) := by
  unfold State.burnFound
  extract_lets _ s1
  have h1 : Recon s0 s1 := h.weakAdd
  exact .ite h1.decided h1

theorem Recon.lcMoved {old : Nat} (h : Recon s0 s) : Recon s0 (s.lcMoved old) :=
  .ite h (have h1 := h.each fun _ _ h1 => .ite h1.same h1; .ite h1.same h1)

theorem Recon.burnStop (h : Recon s0 s) : Recon s0 s.burnStop := by
  unfold State.burnStop
  extract_lets _ bits _ _ _ _ _ _ _ s1 s2
  have h1 : Recon s0 s1 := h.same
  have h2 : Recon s0 s2 := .ite h1 h1.burnFound
  clear_value bits
  split
  · exact h
  · exact h2.lcMoved

theorem Recon.fuseEnds (h : Recon s0 s) : Recon s0 (s.fuseEnds code) := by
  unfold State.fuseEnds
  extract_lets _ s1 s2
  have h1 : Recon s0 s1 := h.same
  have h2 : Recon s0 s2 := h1.setLine
  split
  · exact h2.respond
  · exact h2

theorem Recon.logRec {kind : Nat} {body : List Byte} (h : Recon s0 s) : Recon s0 (s.logRec kind body) := h.same

theorem Recon.burnEnds (h : Recon s0 s) : Recon s0 (s.burnEnds code) := h.lvBack.logRec.fuseEnds

theorem Recon.fuseStop (h : Recon s0 s) : Recon s0 (s.fuseStop code) :=
  .ite (Recon.ite h.lvDrop h.burnStop).burnEnds (.ite h.same h)

theorem Recon.runtimeDraw (h : Recon s0 s) : Recon s0 s.runtimeDraw := by
  unfold State.runtimeDraw
  extract_lets _ s1
  have h1 : Recon s0 s1 := .ite h.poolGrant h
  split
  · exact h
  split
  · exact h1
  split
  · next taken => exact h1.lvTake taken
  · exact h1.lvAsk

theorem Recon.wakeRelease (h : Recon s0 s) : Recon s0 s.wakeRelease := by
  unfold State.wakeRelease
  extract_lets s1 s2 s3
  have h3 : Recon s0 s3 := h.lvDrop.poolBack.lvBack
  clear_value s3
  refine Recon.runtimeDraw ?_
  exact h3.same

theorem Recon.voidTags (h : Recon s0 s) : Recon s0 s.voidTags := h.each fun _ _ h1 => .ite h1 h1.returnGroups.pgU

theorem Recon.voidServed (h : Recon s0 s) : Recon s0 s.voidServed := h.each fun _ _ h1 => h1.returnGroups.returnGroups.pgU

theorem Recon.abortEngine (h : Recon s0 s) : Recon s0 (s.abortEngine e) := by
  unfold State.abortEngine
  extract_lets k s1
  have h1 : Recon s0 s1 := .ite h.lvDrop.lvDrop h
  exact .ite h1.same h

theorem Recon.zeroize {redraw : Bool} (h : Recon s0 s) : Recon s0 (s.zeroize redraw) := by
  unfold State.zeroize
  extract_lets _ _ _ s1 s2
  have h1 : Recon s0 s1 := h.same (by unfold s1; dsimp only)
  clear_value s1
  have h2 : Recon s0 s2 := h1.voidTags.voidServed
  exact (h2.each fun _ _ h3 => h3.abortEngine).fuseStop

theorem Recon.coresOff {l : List (Nat × Nat)} (h : Recon s0 s) : Recon s0 (s.coresOff l) := h.each fun _ _ h1 => h1.same

theorem Recon.startCore {v : W24} (h : Recon s0 s) : Recon s0 (s.startCore c v) := h.same

theorem Recon.passEnds (h : Recon s0 s) : Recon s0 s.passEnds := .ite h.poolBack.lvBack h

theorem Recon.enterSealed (h : Recon s0 s) : Recon s0 s.enterSealed := by
  unfold State.enterSealed
  extract_lets s1 s2 _ s3 s4 s5 _ _ _ _ _ s6
  have h1 : Recon s0 s1 := h.passEnds.wakeRelease
  have h2 : Recon s0 s2 := h1.each fun _ _ h => h.holdPort.same
  have h3 : Recon s0 s3 := h2.coresOff
  have h4 : Recon s0 s4 := .ite h3.startCore h3
  have h5 : Recon s0 s5 := h4.each fun _ _ h => h.boxEmpty
  clear_value s5
  have h6 : Recon s0 s6 := h5.same
  exact .ite h6.boxReady h6

theorem Recon.backupLog {a b c d : Nat} (h : Recon s0 s) : Recon s0 (s.backupLog a b c d) := h.same

theorem Recon.raise (h : Recon s0 s) : Recon s0 (s.raise code rank tkind target data) := by
  unfold State.raise
  extract_lets word s1 s2 s3 _ s4
  have h1 : Recon s0 s1 := h.dataUsed
  have h2 : Recon s0 s2 := .ite h1.backupLog.zeroize h1
  have h3 : Recon s0 s3 := h2.decided
  have h4 : Recon s0 s4 := .ite h3.same h3
  exact .ite h4.enterSealed h4

theorem Recon.raiseReg (h : Recon s0 s) : Recon s0 (s.raiseReg code tkind target data) := h.raise

theorem Recon.maxNote {w old new : Nat} (h : Recon s0 s) : Recon s0 (s.maxNote w old new tkind target) := .ite h.raise h

theorem Recon.roleAlarm (h : Recon s0 s) : Recon s0 s.roleAlarm := h.raise

theorem Recon.mend {f : Flaw → Bool} (h : Recon s0 s) : Recon s0 (s.mend f) := h.same

theorem Recon.censusFault (h : Recon s0 s) : Recon s0 (s.censusFault q) := h.raiseReg.poU fun _ e => recounts_reconciling e

/-! Key slots and Kernel engines -/

theorem Recon.ksU {f : KeySlot → KeySlot} (h : Recon s0 s) : Recon s0 (s.ksU n f) := h.same

theorem Recon.enU {f : Engine → Engine} (h : Recon s0 s) : Recon s0 (s.enU e f) := h.same

theorem Recon.slotBad (h : Recon s0 s) : Recon s0 (s.slotBad n) := h.same

theorem Recon.keyCheck (h : Recon s0 s) : Recon s0 (s.keyCheck n) := .ite h h.slotBad.raiseReg

theorem Recon.keyResult (h : Recon s0 s) : Recon s0 (s.keyResult r) := h.same

theorem Recon.kernelBegin (h : Recon s0 s) : Recon s0 (s.kernelBegin e) := by
  unfold State.kernelBegin
  extract_lets _ s1 _ s2 _ _ s3
  have h1 : Recon s0 s1 := h.enU
  have h2 : Recon s0 s2 := h1.keyCheck
  have h3 : Recon s0 s3 := .ite h2.ksU h2.same
  exact .ite h1 (.ite h3.enU h2.enU)

theorem Recon.kernelStart {src : Agent} (h : Recon s0 s) : Recon s0 (s.kernelStart e src w) := by
  unfold State.kernelStart
  extract_lets _ _ _ s1 _ s2 s3
  have h1 : Recon s0 s1 := h.enU
  have h2 : Recon s0 s2 := .ite h.ksU h
  have h3 : Recon s0 s3 := h2.enU
  split
  · exact .ite h1.roleAlarm h1
  split
  · exact h
  extract_lets
  split
  · next taken => exact (h3.lvTake taken).kernelBegin
  · exact h3.lvAsk.enU

theorem Recon.taskStart {src : Agent} {t' : KTask} (h : Recon s0 s) : Recon s0 (s.taskStart e src t') := h.enU.kernelStart.enU

theorem Recon.taskNext (h : Recon s0 s) : Recon s0 s.taskNext := by
  unfold State.taskNext
  split
  · refine Recon.taskStart ?_
    exact h.same
  · exact h

theorem Recon.taskAsk {t' : KTask} (h : Recon s0 s) : Recon s0 (s.taskAsk t') := by
  refine Recon.taskNext ?_
  exact h.same

theorem Recon.roleOr {src : KeyIssue} {mayIssue : Bool} {f : State} {cut : Bool} (h : Recon s0 s) (hf : Recon s0 f) :
    Recon s0 (s.roleOr src n mayIssue r f cut) := by
  unfold State.roleOr
  split
  · exact h.keyResult.roleAlarm
  split
  · exact h.keyResult
  split
  · exact h.keyResult
  split
  · exact h.keyResult
  split
  · exact h.keyCheck.keyResult
  split
  · exact hf.keyResult
  · exact h.keyResult
  · exact h.ksU.keyResult
  · exact .ite h.keyResult hf.keyResult

theorem Recon.rootGenerate {src : KeyIssue} {ok : Bool} (h : Recon s0 s) : Recon s0 (s.rootGenerate src ok) := by
  refine h.roleOr ?_
  exact h.same

/-! The trust link -/

theorem Recon.lnU {f : LaneLink → LaneLink} (h : Recon s0 s) : Recon s0 (s.lnU l f) := h.same

theorem Recon.laneCount (h : Recon s0 s) : Recon s0 (s.laneCount l i n) := h.lnU.maxNote

theorem Recon.emit {f : TxFrame} (h : Recon s0 s) : Recon s0 (s.emit f) := by
  unfold State.emit
  extract_lets _ _ s1 s2
  have h2 : Recon s0 s2 := h.same
  exact h2.laneCount

theorem Recon.tx {type flags xfer index : Nat} (h : Recon s0 s) : Recon s0 (s.tx lane type flags xfer index payload) :=
  .ite h (.ite h.emit h.lnU)

theorem Recon.spdmFlush (h : Recon s0 s) : Recon s0 s.spdmFlush := by
  unfold State.spdmFlush
  extract_lets _ _ s1
  have h1 : Recon s0 s1 := h.same
  exact h1.each fun _ _ h2 => h2.each fun _ _ h3 => h3.tx

theorem Recon.sendAbort (h : Recon s0 s) : Recon s0 (s.sendAbort x reason) := by
  unfold State.sendAbort
  split
  · exact h.tx
  · exact h.same

theorem Recon.flowEnd {st : FlowSt} (h : Recon s0 s) : Recon s0 (s.flowEnd p st reason) := by
  unfold State.flowEnd
  extract_lets _ s1 s2 s3 s4 s5
  have h1 : Recon s0 s1 := h.lvDrop
  have h2 : Recon s0 s2 := .ite h1.lvBack h1
  have h3 : Recon s0 s3 := h2.returnGroups
  have h4 : Recon s0 s4 := .ite h3.pgU h3
  have h5 : Recon s0 s5 := .ite h4.same h4
  exact h5.same

theorem Recon.xferDrop (h : Recon s0 s) : Recon s0 (s.xferDrop x reason) := by
  unfold State.xferDrop
  extract_lets _ _ s1
  have h1 : Recon s0 s1 := h.same
  exact .ite h1.flowEnd h1

theorem Recon.xferFail (h : Recon s0 s) : Recon s0 (s.xferFail x reason) := .ite h.sendAbort.xferDrop h

/-! What waits for an engine when none is left (R417) -/

theorem Recon.callDone_false (h : Recon s0 s) : Recon s0 (s.callDone q false) := by
  unfold State.callDone
  split
  · exact h.answer
  · exact h.answer
  · exact h.answer
  · exact h.answer
  · exact h.mbU.answer
  · exact h.mbU.answer
  · exact h.mbU.answer
  · exact h

theorem Recon.handoverAnswer (h : Recon s0 s) : Recon s0 (s.handoverAnswer q status) := .ite h.respond h

theorem Recon.handoverChecked_false (h : Recon s0 s) : Recon s0 (s.handoverChecked q false) := by
  refine Recon.handoverAnswer ?_
  exact h.same

theorem Recon.noPolicy (h : Recon s0 s) : Recon s0 s.noPolicy := h.each fun _ _ h1 => .ite h1 h1.same

theorem Recon.verDone_false {j : ChainJob} (h : Recon s0 s) : Recon s0 (s.verDone j false) := by
  unfold State.verDone
  split
  · exact h
  · exact h.same
  · exact h.noPolicy
  · exact h.callDone_false
  · refine Recon.xferFail ?_
    exact h.same
  · exact h.handoverChecked_false
  · refine Recon.rootGenerate ?_
    exact h.same

theorem Recon.provAnswer {body : List Byte} (h : Recon s0 s) : Recon s0 (s.provAnswer q body status ws) := .ite h.answer h

theorem Recon.spdmDone {m : List Byte} (h : Recon s0 s) : Recon s0 (s.spdmDone l x m) := by
  unfold State.spdmDone
  extract_lets
  split
  · refine Recon.spdmFlush ?_
    exact h.same
  · exact h

theorem Recon.taskDone {t' : KTask} {y : KRun} (h : Recon s0 s) : Recon s0 (s.taskDone t' code y) := by
  unfold State.taskDone
  extract_lets
  split
  · exact .ite h.provAnswer h.taskAsk
  · exact .ite h.provAnswer h.provAnswer
  · exact h.spdmDone

theorem Recon.enginesOut (h : Recon s0 s) : Recon s0 s.enginesOut := by
  unfold State.enginesOut
  split
  · exact h
  extract_lets jobs tasks _ _ s1 s2
  have h1 : Recon s0 s1 := h.same
  have h2 : Recon s0 s2 := h1.each fun _ _ h => .ite h.verDone_false h
  exact h2.each fun _ _ h => h.taskDone

/-! The flip of a handover (R420) -/

theorem Recon.handoverFlip (h : Recon s0 s) : Recon s0 s.handoverFlip := by
  unfold State.handoverFlip
  split
  · exact h
  extract_lets s1 s2
  have h1 : Recon s0 s1 := .ite h.same h
  have h2 : Recon s0 s2 := h1.each fun _ _ h => .ite h.mbU h
  clear_value s2
  refine Recon.setLine ?_
  exact h2.same

end

/-! ### O55: one core cycle (R217, R399) -/

section
variable {s : State} {q : Nat}

/-- What the census unit does with one pool in a core cycle (R396, R399). -/
def State.censusOf (s : State) (q : Nat) : State :=
  if (s.po q).fault then s.censusFault q
  else if (s.po q).st = .ok ∧ s.holdingBad q then
    ((s.raiseReg 0x0141 0 0 noData).mend fun x => match x with | .holding r _ => decide (r = q) | _ => false).censusFault q
  else if (s.po q).st = .ok ∧ !(s.po q).checks then s.censusFault q
  else s

theorem censusCheck_each (s : State) : s.censusCheck = s.each (s.leave.pools.map (·.1)) State.censusOf := rfl

theorem Recon.censusOf {s0 : State} (h : Recon s0 s) : Recon s0 (s.censusOf q) :=
  .ite h.censusFault (.ite h.raiseReg.mend.censusFault (.ite h.censusFault h))

/-- A pool that passes every check stays as it is, and so does the state. -/
theorem censusOf_passes (sound : (s.po q).fault = false) (held : s.holdingBad q = false)
    (sums : (s.po q).st = .ok → (s.po q).checks = true) : s.censusOf q = s := by
  unfold State.censusOf
  rw [if_neg (by simp [sound]), if_neg (by simp [held]), if_neg (by simpa using sums)]

/-- A pool in state OK that fails its check begins to reconcile (R399). -/
theorem censusOf_fails (ok : (s.po q).st = .ok) (sums : (s.po q).checks = false) : ((s.censusOf q).po q).st = .reconciling := by
  have thawed : (s.po q).st ≠ .frozen := by rw [ok]; decide
  unfold State.censusOf
  split
  · exact censusFault_reconciles thawed
  split
  · have alarm : Keeps .spared s (s.raiseReg 0x0141 0 0 noData) := Keeps.refl.raiseReg nofun
    exact censusFault_reconciles fun frozen => thawed (alarm.frozen frozen)
  rw [if_pos (by simp [ok, sums])]
  exact censusFault_reconciles thawed

/-- The ranks of the two alarms of the census, below HOLD-PORT. -/
def State.censusLow (s : State) : Prop := s.rankOf 0x0140 ≤ 1 ∧ s.rankOf 0x0141 ≤ 1

/-- The alarms that decide whether the census unit's alarms hold ports, and pool q. -/
def State.censusView (s : State) (q : Nat) := (s.alarms.ranks, s.backup.brank, s.po q)

theorem censusLow_of_view {t : State} (h : s.censusLow) (same : t.censusView q = s.censusView q) : t.censusLow := by
  simp only [State.censusView, Prod.mk.injEq] at same
  obtain ⟨ranks, brank, -⟩ := same
  unfold State.censusLow State.rankOf at *
  rw [ranks, brank]
  exact h

theorem OnlyAlarms.po {t : State} (h : OnlyAlarms s t) : t.po q = s.po q := by
  unfold OnlyAlarms at h
  have same := congrArg (State.po · q) h
  exact same

theorem raiseReg_censusView {code tkind target data : Nat} (low : s.rankOf code ≤ 1) :
    (s.raiseReg code tkind target data).censusView q = s.censusView q := by
  unfold State.raiseReg
  have view := raise_stageView (s := s) (code := code) (tkind := tkind) (target := target) (data := data)
    (rank := s.rankOf code) (by omega)
  have pool := (raise_low s (code := code) (tkind := tkind) (target := target) (data := data) low).1.po (q := q)
  simp only [State.stageView, Prod.mk.injEq] at view
  obtain ⟨-, ranks, brank⟩ := view
  unfold State.censusView
  rw [ranks, brank, pool]

theorem poU_censusView_ne {r : Nat} {f : Pool → Pool} (other : q ≠ r) : (s.poU r f).censusView q = s.censusView q := by
  unfold State.censusView
  rw [State.poU_po_ne _ _ _ _ other]
  rfl

theorem censusFault_censusView {r : Nat} (low : s.rankOf 0x0140 ≤ 1) (other : q ≠ r) :
    (s.censusFault r).censusView q = s.censusView q :=
  (poU_censusView_ne other).trans (raiseReg_censusView low)

/-- The check of another pool leaves pool q alone while the census unit's alarms hold no port. -/
theorem censusOf_censusView {r : Nat} (low : s.censusLow) (other : q ≠ r) : (s.censusOf r).censusView q = s.censusView q := by
  obtain ⟨fault, integrity⟩ := low
  unfold State.censusOf
  split
  · exact censusFault_censusView fault other
  split
  · have alarm := raiseReg_censusView integrity (q := q) (tkind := 0) (target := 0) (data := noData)
    have still := (censusLow_of_view ⟨fault, integrity⟩ alarm).1
    generalize s.raiseReg 0x0141 0 0 noData = u at alarm still ⊢
    exact (censusFault_censusView (s := u.mend _) still other).trans alarm
  split
  · exact censusFault_censusView fault other
  · rfl

/-- A pool in state OK that fails its check reconciles once the census unit has come to it, whatever it finds elsewhere. -/
theorem each_censusOf_reconciles {l : List Nat} (low : s.censusLow) (listed : q ∈ l) (ok : (s.po q).st = .ok)
    (sums : (s.po q).checks = false) : ((s.each l State.censusOf).po q).st = .reconciling := by
  induction l generalizing s with
  | nil => exact absurd listed List.not_mem_nil
  | cons r l ih =>
    by_cases first : q = r
    · subst first
      have rest : Recon (s.censusOf q) ((s.censusOf q).each l State.censusOf) := Recon.refl.each fun _ _ h => h.censusOf
      exact rest q (censusOf_fails ok sums)
    · have view := censusOf_censusView low first
      have pool : (s.censusOf r).po q = s.po q := congrArg (·.2.2) view
      exact ih (censusLow_of_view low view) ((List.mem_cons.mp listed).resolve_left first) (by rw [pool]; exact ok)
        (by rw [pool]; exact sums)

/-- CYC counts, and each core whose TCMP it meets gets line 11 (R217, R298). -/
def State.clockTick (s : State) : State :=
  ({ s with cyc := s.cyc + 1 } : State).each [0, 1, 2, 3] fun s c =>
    if (s.co c).tcmp.toNat = s.cyc.toNat % 2 ^ 36 then s.coU c fun k => { k with lines := k.lines ||| 0x0800 } else s

theorem tick_unlocked (lock : s.boot.coreLock = false) : tick s = s := if_neg (by simp [lock])

theorem tick_locked (lock : s.boot.coreLock = true) : tick s = s.censusCheck.handoverFlip.enginesOut.clockTick := if_pos lock

/-- The state without its cores. -/
def State.coreless (s : State) : State := { s with cores := [] }

/-- The clock's tick changes CYC and the cores. -/
theorem clockTick_spec (s : State) : s.clockTick.cyc = s.cyc + 1 ∧ { s.clockTick with cyc := s.cyc, cores := s.cores } = s := by
  have same : s.clockTick.coreless = ({ s with cyc := s.cyc + 1 } : State).coreless := by
    refine each_same State.coreless (fun u c => ?_) _
    split <;> rfl
  generalize s.clockTick = t at same ⊢
  have cyc := congrArg State.cyc same
  have rest := congrArg (fun u : State => ({ u with cyc := s.cyc, cores := s.cores } : State)) same
  exact ⟨cyc, rest⟩

theorem clockTick_po (s : State) (q : Nat) : s.clockTick.po q = s.po q := by
  have rest := (clockTick_spec s).2
  generalize s.clockTick = t at rest ⊢
  have same := congrArg (State.po · q) rest
  exact same

theorem tick_cyc (lock : s.boot.coreLock = true) : (tick s).cyc = s.cyc + 1 := by
  have verd : Part.Isnt .cyc .verd := ⟨nofun⟩
  have edge : Part.Isnt .cyc .edge := ⟨nofun⟩
  have sent : Part.Isnt .cyc .sent := ⟨nofun⟩
  have home : Part.Isnt .cyc .home := ⟨nofun⟩
  have still : Still .cyc s s.censusCheck.handoverFlip.enginesOut := Still.refl.censusCheck.handoverFlip.enginesOut
  have cyc : s.censusCheck.handoverFlip.enginesOut.cyc = s.cyc := still
  rw [tick_locked lock, (clockTick_spec _).1, cyc]

/-- A cycle in which nothing is found: only CYC and the timer lines change. -/
theorem tick_quiet (lock : s.boot.coreLock = true) (pools : ∀ e ∈ s.leave.pools, (s.po e.1).fault = false ∧ s.holdingBad e.1 = false
    ∧ ((s.po e.1).st = .ok → (s.po e.1).checks = true)) (hand : s.hand.state ≠ .switching) (left : s.engineLeft = true) :
    tick s = s.clockTick := by
  have census : s.censusCheck = s := by
    rw [censusCheck_each]
    refine each_fixed fun q listed => ?_
    obtain ⟨e, pool, rfl⟩ := List.mem_map.mp listed
    obtain ⟨sound, held, sums⟩ := pools e pool
    exact censusOf_passes sound held sums
  have flip : s.handoverFlip = s := if_pos (.inl hand)
  have engines : s.enginesOut = s := if_pos left
  rw [tick_locked lock, census, flip, engines]

/-- A pool that fails its check reconciles after the cycle, whatever else the cycle does (R399). -/
theorem tick_reconciles (lock : s.boot.coreLock = true) (low : s.censusLow) {e : Nat × Pool} (listed : e ∈ s.leave.pools)
    (ok : (s.po e.1).st = .ok) (sums : (s.po e.1).checks = false) : ((tick s).po e.1).st = .reconciling := by
  have census : (s.censusCheck.po e.1).st = .reconciling :=
    each_censusOf_reconciles low (List.mem_map_of_mem listed) ok sums
  have later : Recon s.censusCheck s.censusCheck.handoverFlip.enginesOut := Recon.refl.handoverFlip.enginesOut
  rw [tick_locked lock, clockTick_po]
  exact later e.1 census

theorem step_of_pending_nil (idle : s.pending = []) : step s = .next (tick s) := by
  unfold step
  rw [idle]

theorem step_of_pending_cons {c : Instr} {rest : List Instr} (queue : s.pending = c :: rest) :
    step s = exec c { s with pending := rest } := by
  unfold step
  rw [queue]

end

/-! ### O55: every command completes -/

/-- An execution answers a next state. -/
def Answers (o : Done) : Prop := ∃ t, o = .next t

theorem Answers.next {s : State} : Answers (.next s) := ⟨s, rfl⟩

theorem Answers.ite {c : Prop} [Decidable c] {a b : Done} (ha : Answers a) (hb : Answers b) : Answers (if c then a else b) := by
  split
  · exact ha
  · exact hb

section
variable {s : State} {mb : MailboxId} {code : Nat} {states : List DevState} {mb0 : Bool} {len : Nat → Bool}
  {run : Nat → List W32 → State → State}

theorem command_answers : Answers (s.command mb code states mb0 len run) := by
  unfold State.command
  extract_lets
  split
  · exact .next
  · exact .next

theorem shentiha_answers : Answers (s.shentiha mb code mb0 len run) := command_answers

theorem startCommand_answers {f : KOp → Bool} {e : EngineId} {src : Agent} {w : W32} : Answers (startCommand f e src w s) := by
  unfold startCommand
  split
  · exact .ite .next .next
  · exact .ite .next .next

end

/-- Every command answers a next state: by the conditions in front of its answers, in groups of one shape; those at the end
answer one at once. -/
theorem exec_answers (s : State) (c : Instr) : Answers (exec c s) := by
  cases c
  case refclkLoss | pllLockLoss | warmRestartEntryDone | runtimeLaneScheduleReload | wakeAutoStart | wakeFrameBoundary
      | shelfManifestDecide | hashSignatureVerify | standStaggerExpiry | settleExpiry | contExitFrame
      | laneTestRequest | deferredLaneTest | xipMiss | tagPass | wevResume | wfiWake | kernelAbortDone | keyUnitWrite
      | keyUnitGenerate | keyUnitDerive | fuseResense | fuseDone | supplyGlitch | bankSupplyExcursion
      | dieTemperatureAlarm | threadWatchdogExpiry | backupTick | vbatGlitch | clock32Loss | reconciliationDone
      | bucketDecay | retirementReapply | handoverReadyTimeout | handoverReload | lossOfSignal | signalPresent
      | trainingTimeout | blockLockLoss | mkaLive | sakChangeDone | hello | objectTimeout | leafTimeout
      | autonomousEntry | transferSuspendExpiry | flowRestage | flowShelfManifest | mspiStatus | mspiIdentityRead
      | rsLatchRead | mspiStall | abortPke | abortLane | abortPort | abortThread | abortLink | abortMailbox
      | signatureWindowEnd | mkaLifeExpiry | macsecDrop | malformedFrame | illegalInstruction =>
    exact .ite .next .next
  case seedCoreRelease | wakeEntryEnd | wakeRound | drainEnd | verdictStage | handback | pgFall | rebuildStart
      | scrubRead | resenseDone | caseSwitchChange | flowServeSet | mspiReadWords =>
    exact .ite .next (.ite .next .next)
  case scheduleContainerLoad | rebuildContainer | operandMemoryWrite | registerWindowRead =>
    exact .ite .next (.ite .next (.ite .next .next))
  case rsaPub | rsaPssVerify | rsaCrt | modmul | modexp | ecdsaVerify | ecdsaSign | ecdh | ecPubgen | ed25519Verify
      | mldsaVerify =>
    exact startCommand_answers
  case cmdGetInfo | cmdSetMspi | cmdWarmRestart | cmdAbort | cmdObjectOpen | cmdObjectWrite | cmdObjectClose
      | cmdPolicySubmit | cmdWakeStart | cmdRewake | cmdDispensation | cmdGetVerdicts | cmdGetMeasurement
      | cmdRevocationPrecheck | cmdClearHold | cmdPortStatus | cmdHomeErase | cmdHomeWrite | cmdAlarmList
      | cmdAlarmAck | cmdAlarmRank | cmdLogStatus | cmdLogRead | cmdLogOwner | cmdLogRestart | cmdKeyWrite
      | cmdKeyGenerate | cmdKeyDerive | cmdKeySetattr | cmdKeyRead | cmdKeyClear | cmdKeyInfo | cmdKeyProvenance
      | cmdRootGenerate | cmdIdentity | cmdFuseBurn | cmdFuseLock | cmdFuseAdvance | cmdFuseRevoke | cmdFuseReburn
      | cmdFuseResense | cmdFuseRead | cmdLcAdvance | cmdPageMap | cmdRecover | cmdRecoverStatus | cmdRecoverCancel
      | cmdLinkPeer | cmdLinkCak | cmdLinkStatus | cmdHandoverPrepare | cmdHandoverStatus | cmdReinstate
      | cmdChannelStatus | cmdBundleErase | cmdBundleWrite =>
    dsimp only [exec]
    exact shentiha_answers
  case cmdRepairList | cmdRepairReburn | cmdLoadErase | cmdLoadWrite | cmdLoadCommit =>
    dsimp only [exec]
    exact command_answers
  case supplyGood | fuseSenseDone | bundleHeadersRead | bundleCandidateRead | bundleSignatureVerified | canopyRelease
      | wakeLaneJob | chainVerifyStart | portRelease | shadowMismatch | ruleLookupResult | deferredPortUpdate
      | gleanHalfLeaf | serviceLaneJob | selfTestSlot | relocationDone | xipFetchDone | interruptTaken
      | linkCoreReloaded | kernelOperationDone | fuseArm | alarmNormalTimer | logAppend | segmentErase | logScan
      | backupLogDrain | leaveGrant | poolTotalChange | probe | lrBurnRetry | handoverReady | blockLock | notice
      | leafVerify | flashProgramDone | mspiWriteWords | registerWindowWrite | registerWrite | requestTimeout
      | cmdVendorProductionService | unknownCommandCode =>
    dsimp only [exec]
    delta execSupplyGood execFuseSenseDone execBundleHeadersRead execBundleCandidateRead execBundleSignatureVerified
      execCanopyRelease execWakeLaneJob execChainVerifyStart execPortRelease execShadowMismatch
      execRuleLookupResult execDeferredPortUpdate execGleanHalfLeaf execServiceLaneJob execSelfTestSlot
      execRelocationDone execXipFetchDone execInterruptTaken execLinkCoreReloaded execKernelOperationDone
      execFuseArm execAlarmNormalTimer execLogAppend execSegmentErase execLogScan execBackupLogDrain
      execLeaveGrant execPoolTotalChange execProbe execLrBurnRetry execHandoverReady execBlockLock execNotice
      execLeafVerify execFlashProgramDone execMspiWriteWords execRegisterWindowWrite execRegisterWrite
      execRequestTimeout execCmdVendorProductionService execUnknownCommandCode
    -- Each branch and binding is taken apart until the state that the branch answers stands there.
    repeat' first | exact .next | split | extract_lets
  all_goals exact .next

/-- Settles O55: `exec_answers` for the commands, the census unit's checks and the clock for the empty queue. -/
theorem stepRunsFrontCommand : Obligations.StepRunsFrontCommand := by
  refine ⟨fun s c rest => ⟨step_of_pending_cons, exec_answers s c⟩,
    fun s idle => ⟨fun lock => ?_, fun lock pools hand left => ?_, fun lock fault integrity => ?_⟩⟩
  · rw [step_of_pending_nil idle, tick_unlocked lock]
  · refine ⟨s.clockTick, ?_, clockTick_spec s⟩
    rw [step_of_pending_nil idle, tick_quiet lock pools hand left]
  · exact ⟨tick s, step_of_pending_nil idle, tick_cyc lock, fun e listed => tick_reconciles lock ⟨fault, integrity⟩ listed⟩

end Sys2Proof.Machine
end

section
-- In parallel these proofs take more threads than the memory limit has room for.
set_option Elab.async false

namespace Sys2Proof.Machine

open Sys2Proof

/-! ### O29, O30: what an alarm of any rank leaves of the channels, the wake's lanes and the pages

The ranks of 0x0141 and 0x0401 come from registers, so such an alarm may clear the key unit (ZEROIZE) or seal the device (SEAL). -/

/-- `t` has the channels, the deferred lane tests and the fetch of `s`; its wake has ended or has the lanes that it had; no BAD
page has become another. -/
structure Lasts (s t : State) : Prop where
  chans : t.chans = s.chans
  tests : t.wake.tests = s.wake.tests
  lanes : (t.wake.stage = s.wake.stage ∧ t.wake.lanes = s.wake.lanes) ∨ (t.wake.stage = .idle ∧ t.wake.lanes = [])
  fetch : t.gran.fetch = s.gran.fetch
  bad : ∀ n, pageUse (s.page n) = 7 → pageUse (t.page n) = 7

section
variable {s0 s t : State} {code data e g n p q rank target tkind x reason : Nat}

theorem Lasts.refl : Lasts s s := ⟨rfl, rfl, .inl ⟨rfl, rfl⟩, rfl, fun _ bad => bad⟩

theorem Lasts.trans (h : Lasts s0 s) (k : Lasts s t) : Lasts s0 t where
  chans := k.chans.trans h.chans
  tests := k.tests.trans h.tests
  lanes := by
    obtain ⟨stage, lanes⟩ | ended := k.lanes
    · rw [stage, lanes]
      exact h.lanes
    · exact .inr ended
  fetch := k.fetch.trans h.fetch
  bad := fun n bad => k.bad n (h.bad n bad)

theorem Lasts.same (h : Lasts s0 s) (e : (t.chans, t.wake, t.gran) = (s.chans, s.wake, s.gran) := by rfl) : Lasts s0 t := by
  simp only [Prod.mk.injEq] at e
  obtain ⟨chans, wake, gran⟩ := e
  refine h.trans ⟨chans, by rw [wake], .inl ⟨by rw [wake], by rw [wake]⟩, by rw [gran], fun n => ?_⟩
  unfold State.page
  rw [gran]
  exact id

/-- A step that changes no channel and no wake, and leaves the BAD pages BAD. -/
theorem Lasts.pages (h : Lasts s0 s) (bad : ∀ n, pageUse (s.page n) = 7 → pageUse (t.page n) = 7)
    (e : (t.chans, t.wake, t.gran.fetch) = (s.chans, s.wake, s.gran.fetch) := by rfl) : Lasts s0 t := by
  simp only [Prod.mk.injEq] at e
  obtain ⟨chans, wake, fetch⟩ := e
  exact h.trans ⟨chans, by rw [wake], .inl ⟨by rw [wake], by rw [wake]⟩, fetch, bad⟩

theorem Lasts.ite {c : Prop} [Decidable c] (hs : Lasts s0 s) (ht : Lasts s0 t) : Lasts s0 (if c then s else t) := by
  split
  · exact hs
  · exact ht

theorem Lasts.each {α : Type} {l : List α} {f : State → α → State} (h : Lasts s0 s) (hf : ∀ u x, Lasts s0 u → Lasts s0 (f u x)) :
    Lasts s0 (s.each l f) := by
  unfold State.each
  induction l generalizing s with
  | nil => exact h
  | cons x l ih => exact ih (hf s x h)

theorem Lasts.poolGrant {h' n : Nat} (h : Lasts s0 s) : Lasts s0 (s.poolGrant q h' n) := .ite h.same h

theorem Lasts.poolBack {h' n : Nat} (h : Lasts s0 s) : Lasts s0 (s.poolBack q h' n) := h.same

theorem Lasts.poolClaim {h' n : Nat} (h : Lasts s0 s) : Lasts s0 (s.poolClaim q h' n) := .ite h.poolGrant h.same

theorem Lasts.lvDrop {u : LvUse} (h : Lasts s0 s) : Lasts s0 (s.lvDrop u) := h.same

theorem Lasts.lvBack {u : LvUse} (h : Lasts s0 s) : Lasts s0 (s.lvBack u n) := h.poolBack

theorem Lasts.ksU {f : KeySlot → KeySlot} (h : Lasts s0 s) : Lasts s0 (s.ksU n f) := h.same

theorem Lasts.enU {f : Engine → Engine} (h : Lasts s0 s) : Lasts s0 (s.enU e f) := h.same

theorem Lasts.pgU {f : PGran → PGran} (h : Lasts s0 s) : Lasts s0 (s.pgU p f) := h.same

theorem Lasts.mbU {f : Mbox → Mbox} (h : Lasts s0 s) : Lasts s0 (s.mbU q f) := h.same

theorem Lasts.setLine {v : Bool} (h : Lasts s0 s) : Lasts s0 (s.setLine n v) := h.each fun _ _ h1 => h1.same

/-! #### A held port and the decision on an alarm -/

theorem Lasts.pushEvent {w : W36} (h : Lasts s0 s) : Lasts s0 (s.pushEvent p w) := .ite h.same (.ite h.same h.same)

theorem Lasts.flipsEnd (h : Lasts s0 s) : Lasts s0 s.flipsEnd := .ite (Lasts.setLine h.same) h

theorem Lasts.takeFlip (h : Lasts s0 s) : Lasts s0 (s.takeFlip p) := by
  unfold State.takeFlip
  extract_lets w flipped u
  have taken : Lasts s0 u := h.same
  exact taken.flipsEnd.pushEvent

theorem Lasts.runtimeOff (h : Lasts s0 s) : Lasts s0 s.runtimeOff := .ite h h.poolBack.lvDrop.lvBack

theorem Lasts.holdPort (h : Lasts s0 s) : Lasts s0 (s.holdPort p) := by
  unfold State.holdPort
  extract_lets was s1 s2 s3 s4
  have cleared : Lasts s0 s2 := h.same
  have flipped : Lasts s0 s3 := .ite cleared.takeFlip cleared
  have told : Lasts s0 s4 := .ite flipped.pushEvent flipped
  exact .ite told.runtimeOff told

theorem Lasts.decided (h : Lasts s0 s) : Lasts s0 (s.decided code rank tkind target data) := by
  unfold State.decided
  extract_lets word s1 a mark al held s2 s3 s4
  have used : Lasts s0 s1 := .ite h.same h
  have listed : Lasts s0 s2 := used.same
  have latched : Lasts s0 s3 := listed.each fun _ _ h1 => h1.holdPort.same
  have queued : Lasts s0 s4 := latched.same
  exact queued.setLine

/-! #### A fuse burn that stops -/

theorem Lasts.weakAdd {w : W32} (h : Lasts s0 s) : Lasts s0 (s.weakAdd w) := by
  unfold State.weakAdd
  extract_lets
  split
  · exact h.same
  split
  · exact h.same
  · exact .ite h.same (Lasts.decided h.same)

theorem Lasts.burnFound {a : Nat} (h : Lasts s0 s) : Lasts s0 (s.burnFound a) := by
  unfold State.burnFound
  extract_lets b u
  have found : Lasts s0 u := h.weakAdd
  exact .ite (Lasts.decided found) found

theorem Lasts.lcMoved {old : Nat} (h : Lasts s0 s) : Lasts s0 (s.lcMoved old) := by
  unfold State.lcMoved
  extract_lets new u
  have swept : Lasts s0 u := h.each fun _ _ h1 => .ite h1.ksU h1
  exact .ite h (.ite swept.same swept)

theorem Lasts.burnStop (h : Lasts s0 s) : Lasts s0 s.burnStop := by
  unfold State.burnStop
  extract_lets old ts k f t f c v f u w
  have pulsed : Lasts s0 u := h.same
  have found : Lasts s0 w := .ite pulsed pulsed.burnFound
  clear_value w ts
  split
  · exact h
  · exact found.lcMoved

theorem Lasts.respond {tag : Byte} {status : Nat} {ws : List W32} (h : Lasts s0 s) : Lasts s0 (s.respond q tag status ws) := by
  unfold State.respond
  extract_lets u
  have owed : Lasts s0 u := h.same
  exact owed.each fun _ _ h1 => .ite h1.same h1

theorem Lasts.fuseEnds (h : Lasts s0 s) : Lasts s0 (s.fuseEnds code) := by
  unfold State.fuseEnds
  extract_lets f u v
  have ended : Lasts s0 u := h.same
  have line : Lasts s0 v := ended.setLine
  split
  · exact line.respond
  · exact line

theorem Lasts.fuseStop (h : Lasts s0 s) : Lasts s0 (s.fuseStop code) := by
  have stopped : Lasts s0 (if s.fuses.waiting then s.lvDrop .fuse else s.burnStop) := .ite h.same h.burnStop
  exact .ite (Lasts.fuseEnds stopped.same) (.ite h.same h)

/-! #### Groups that go back or retire -/

/-- Bits 28 to 0 may change under a mask that keeps bits 31 to 29. -/
theorem pageUse_and (w mask : W32) (keeps : pageUse mask = 7) : pageUse (w &&& mask) = pageUse w := by
  have bits : mask.toNat >>> 29 = 7 := by
    unfold pageUse bitsOf at keeps
    have low := mask.isLt
    omega
  have top : w.toNat >>> 29 &&& 7 = w.toNat >>> 29 % 8 := Nat.and_two_pow_sub_one_eq_mod _ 3
  unfold pageUse bitsOf
  rw [BitVec.toNat_and, ← Nat.shiftRight_eq_div_pow, Nat.shiftRight_and_distrib, bits, top, Nat.shiftRight_eq_div_pow]
  omega

theorem pageUse_bad (w : W32) : pageUse (w ||| 0xE0000000) = 7 := by
  have top : w.toNat >>> 29 ||| 7 = 7 := by
    have low : w.toNat >>> 29 < 8 := by
      rw [Nat.shiftRight_eq_div_pow]
      have := w.isLt
      omega
    generalize w.toNat >>> 29 = k at low ⊢
    decide +revert
  unfold pageUse bitsOf
  rw [BitVec.toNat_or, ← Nat.shiftRight_eq_div_pow, Nat.shiftRight_or_distrib]
  exact congrArg (· % 8) top

theorem State.page_setPage (s : State) (n : Nat) (w : W32) (m : Nat) : (s.setPage n w).page m = if m = n then w else s.page m :=
  Tab.get_put ..

theorem State.page_setGroup (s : State) (g : Nat) (w : W32) (m : Nat) :
    (s.setGroup g w).page m = if m / 8 = g then w else s.page m := by
  unfold State.page State.setGroup
  rw [Tab.get_putList]
  simp only [List.length_replicate]
  by_cases inside : m / 8 = g
  · rw [if_pos inside, if_pos (by omega), List.getD_eq_getElem _ _ (by rw [List.length_replicate]; omega), List.getElem_replicate]
  · rw [if_neg inside, if_neg (by omega)]

theorem Lasts.setPage {w : W32} (h : Lasts s0 s) (bad : pageUse (s.page n) = 7 → pageUse w = 7) : Lasts s0 (s.setPage n w) :=
  h.pages fun m was => by
    rw [State.page_setPage]
    split
    · next same => exact bad (same ▸ was)
    · exact was

theorem Lasts.groupRetired (h : Lasts s0 s) : Lasts s0 (s.groupRetired g) :=
  h.each fun u i h1 => h1.setPage fun was => by
    rw [if_pos was, pageUse_and _ _ (by decide)]
    exact was

/-- A group without a BAD page takes new entries. -/
theorem Lasts.setGroup {w : W32} (h : Lasts s0 s) (good : ∀ i < 8, pageUse (s.page (8 * g + i)) ≠ 7) : Lasts s0 (s.setGroup g w) :=
  h.pages fun m was => by
    rw [State.page_setGroup]
    split
    · next inside =>
      refine absurd was ?_
      have place : 8 * g + m % 8 = m := by omega
      exact place ▸ good (m % 8) (by omega)
    · exact was

theorem Lasts.dropGroup (h : Lasts s0 s) : Lasts s0 (s.dropGroup g) := by
  unfold State.dropGroup
  extract_lets bad _ u
  have named : Lasts s0 u := h.pages fun _ was => was
  split
  · exact named.groupRetired.poolClaim
  · next none =>
    refine named.setGroup fun i low was => none ?_
    exact List.any_eq_true.mpr ⟨i, List.mem_range.mpr low, decide_eq_true was⟩

theorem Lasts.returnGroups {use port : Nat} {slot : Option Bool} (h : Lasts s0 s) : Lasts s0 (s.returnGroups use port slot) :=
  h.each fun _ _ h1 => h1.poolBack.dropGroup

/-! #### ZEROIZE and SEAL -/

theorem Lasts.zeroize {redraw : Bool} (h : Lasts s0 s) : Lasts s0 (s.zeroize redraw) := by
  unfold State.zeroize
  extract_lets ac k cleared u v w
  have swept : Lasts s0 u := h.same
  have tags : Lasts s0 u.voidTags := swept.each fun _ _ h1 => .ite h1 h1.returnGroups.pgU
  have served : Lasts s0 v := tags.each fun _ _ h1 => h1.returnGroups.returnGroups.pgU
  have engines : Lasts s0 w := served.each fun _ _ h1 => .ite (Lasts.enU (.ite h1.lvDrop.lvDrop h1)) h1
  exact engines.fuseStop

theorem Lasts.lvTake {u : LvUse} (h : Lasts s0 s) (e : s.lvTake u n = some t) : Lasts s0 t := by
  unfold State.lvTake at e
  split at e
  · cases e
    unfold State.lvGrant
    extract_lets granted
    have draws : Lasts s0 granted := h.poolGrant
    split
    · exact draws.same
    · exact draws
  · cases e

theorem Lasts.runtimeDraw (h : Lasts s0 s) : Lasts s0 s.runtimeDraw := by
  unfold State.runtimeDraw
  extract_lets n u
  have lanes : Lasts s0 u := .ite h.poolGrant h
  clear_value u
  split
  · exact h
  split
  · exact lanes
  split
  · next taken => exact lanes.lvTake taken
  · exact lanes.same

theorem Lasts.wakeRelease (h : Lasts s0 s) : Lasts s0 s.wakeRelease := by
  unfold State.wakeRelease
  extract_lets s1 s2 s3
  have back : Lasts s0 s3 := h.lvDrop.poolBack.lvBack
  clear_value s3
  exact Lasts.runtimeDraw (back.trans ⟨rfl, rfl, .inr ⟨rfl, rfl⟩, rfl, fun _ was => was⟩)

theorem Lasts.coreOff {c m : Nat} {f : Core → Core} (h : Lasts s0 s) : Lasts s0 ((s.coU c f).memZero m) := h.same

theorem Lasts.startCore {c : Nat} {vector : W24} (h : Lasts s0 s) : Lasts s0 (s.startCore c vector) := h.same

theorem Lasts.boxReady (h : Lasts s0 s) : Lasts s0 (s.boxReady q) := .ite h.poolGrant.poolGrant.mbU h

theorem Lasts.boxDrop (h : Lasts s0 s) : Lasts s0 (s.boxDrop q) := h.same

theorem Lasts.boxEmpty (h : Lasts s0 s) : Lasts s0 (s.boxEmpty q) := (h.each fun _ _ h1 => h1.poolBack.poolBack).boxDrop

theorem Lasts.enterSealed (h : Lasts s0 s) : Lasts s0 s.enterSealed := by
  unfold State.enterSealed
  extract_lets s1 s2 up s3 s4 s5 _ _ _ _ _ s6
  have pass : Lasts s0 s.passEnds := .ite h.poolBack.lvBack h
  have idle : Lasts s0 s1 := pass.wakeRelease
  clear_value s1
  have held : Lasts s0 s2 := idle.each fun _ _ h1 => h1.holdPort.same
  clear_value s2
  have off : Lasts s0 s3 := held.each fun _ _ h1 => h1.coreOff
  clear_value s3
  have seed : Lasts s0 s4 := .ite off.startCore off
  clear_value s4
  have empty : Lasts s0 s5 := seed.each fun _ _ h1 => h1.boxEmpty
  clear_value s5
  have sealed : Lasts s0 s6 := empty.trans ⟨rfl, rfl, .inl ⟨rfl, rfl⟩, rfl, fun _ was => was⟩
  clear_value s6
  exact .ite sealed.boxReady sealed

theorem Lasts.raise (h : Lasts s0 s) : Lasts s0 (s.raise code rank tkind target data) := by
  unfold State.raise
  extract_lets word s1 s2 s3 _ s4
  have used : Lasts s0 s1 := .ite h.same h
  have cleared : Lasts s0 s2 := .ite (Lasts.zeroize used.same) used
  have alarm : Lasts s0 s3 := cleared.decided
  have ends : Lasts s0 s4 := .ite (alarm.trans ⟨rfl, rfl, .inl ⟨rfl, rfl⟩, rfl, fun _ was => was⟩) alarm
  exact .ite ends.enterSealed ends

theorem Lasts.raiseReg (h : Lasts s0 s) : Lasts s0 (s.raiseReg code tkind target data) := h.raise

theorem gnoby_lasts (s : State) (tkind target : Nat) : Lasts s (s.gnoby tkind target) := Lasts.refl.raiseReg

end

/-! ### O29: the scrub (R247, R249) -/

/-- The scrub slot was used for its next word. -/
def State.scrubbed (s : State) : State :=
  { s with gran := { s.gran with uses := (s.gran.uses + 1) % 1024, scrub := (s.gran.scrub + 1) % 2097152 } }

theorem scrubRead_reads {s : State} (r : ScrubResult) (known : s.gran.uses ≠ 1023)
    (idle : (s.gran.relocs.any fun x => x.target.isSome) = false) :
    exec (.scrubRead r) s = .next (match (generalizing := false) r with
      | .ok => s.scrubbed
      | .corrected => s.scrubbed.pageCorrected (s.gran.scrub / 16)
      | .uncorrectable => if pageUse (s.page (s.gran.scrub / 16)) = 7 then s.scrubbed else s.scrubbed.pageBad (s.gran.scrub / 16)) := by
  dsimp only [exec]
  unfold execScrubRead
  rw [idle]
  simp only [Bool.false_eq_true, if_false]
  rw [if_neg known]
  rfl

/-- An entry with a new CE_COUNT. -/
theorem pageCe_set (w : W32) (ce : Nat) (small : ce < 4) :
    pageCe (BitVec.ofNat 32 (w.toNat - pageCe w * 2 ^ 18 + ce * 2 ^ 18)) = ce
      ∧ pageUse (BitVec.ofNat 32 (w.toNat - pageCe w * 2 ^ 18 + ce * 2 ^ 18)) = pageUse w := by
  have low := w.isLt
  unfold pageCe pageUse bitsOf
  rw [BitVec.toNat_ofNat]
  constructor <;> omega

theorem setLine_gran (s : State) (n : Nat) (v : Bool) : (s.setLine n v).gran = s.gran := each_same State.gran (fun _ _ => by rfl) s

theorem pageCorrected_counts {s : State} {n : Nat} (used : pageUse (s.page n) ≠ 0) (good : pageUse (s.page n) ≠ 7) :
    pageCe ((s.pageCorrected n).page n) = min 3 (pageCe (s.page n) + 1)
      ∧ pageUse ((s.pageCorrected n).page n) = pageUse (s.page n) ∧ (s.pageCorrected n).gran.data = s.gran.data := by
  obtain ⟨count, use⟩ := pageCe_set (s.page n) (min 3 (pageCe (s.page n) + 1)) (by omega)
  unfold State.pageCorrected
  rw [if_neg (by simp [used, good])]
  extract_lets ce u
  have set : pageCe (u.page n) = ce ∧ pageUse (u.page n) = pageUse (s.page n) ∧ u.gran.data = s.gran.data := by
    refine ⟨?_, ?_, rfl⟩ <;> unfold u <;> rw [State.page_setPage, if_pos rfl]
    · exact count
    · exact use
  split
  · unfold State.page at set ⊢
    rw [setLine_gran]
    exact set
  · exact set

section
variable {s0 s t : State} {g n p x reason : Nat}

theorem Lasts.maxNote {w old new tkind target : Nat} (h : Lasts s0 s) : Lasts s0 (s.maxNote w old new tkind target) := .ite h.raise h

theorem Lasts.emit {f : TxFrame} (h : Lasts s0 s) : Lasts s0 (s.emit f) := by
  unfold State.emit
  extract_lets k n u v
  have sent : Lasts s0 v := h.same
  exact Lasts.maxNote sent.same

theorem Lasts.tx {lane type flags xfer index : Nat} {payload : List Byte} (h : Lasts s0 s) :
    Lasts s0 (s.tx lane type flags xfer index payload) := .ite h (.ite h.emit h.same)

theorem Lasts.sendAbort (h : Lasts s0 s) : Lasts s0 (s.sendAbort x reason) := by
  unfold State.sendAbort
  split
  · exact h.tx
  · exact h.same

theorem Lasts.flowEnd {st : FlowSt} (h : Lasts s0 s) : Lasts s0 (s.flowEnd p st reason) := by
  unfold State.flowEnd
  extract_lets f s1 s2 s3 s4 s5
  have back : Lasts s0 s2 := .ite h.lvDrop.lvBack h.lvDrop
  have groups : Lasts s0 s3 := back.returnGroups
  have staged : Lasts s0 s4 := .ite groups.pgU groups
  have left : Lasts s0 s5 := .ite staged.same staged
  exact left.same

theorem Lasts.xferFail (h : Lasts s0 s) : Lasts s0 (s.xferFail x reason) := by
  unfold State.xferFail State.xferDrop
  extract_lets p _ u
  have closed : Lasts s0 u := h.sendAbort.same
  exact .ite (.ite closed.flowEnd closed) h

theorem Lasts.stagingVoid (h : Lasts s0 s) : Lasts s0 (s.stagingVoid p) := by
  unfold State.stagingVoid
  extract_lets u
  have closed : Lasts s0 u := h.each fun _ _ h1 => h1.xferFail
  exact closed.returnGroups.pgU

theorem freeGroup_free {s : State} (e : s.freeGroup = some g) : ∀ i < 8, s.page (8 * g + i) = pageFree := fun i low => by
  have free := List.find?_some e
  rw [Bool.and_eq_true, List.all_eq_true] at free
  exact of_decide_eq_true (free.2 i (List.mem_range.mpr low))

theorem Lasts.takeGroup {use : Nat} {w : W32} (h : Lasts s0 s) (e : s.takeGroup use w = some (g, t)) : Lasts s0 t := by
  unfold State.takeGroup at e
  split at e
  · split at e
    · next found =>
      cases e
      refine h.poolGrant.setGroup fun i low => ?_
      have page : (s.poolGrant 9 (useHolder use) 8).page (8 * g + i) = s.page (8 * g + i) := by
        unfold State.poolGrant
        split <;> rfl
      rw [page, freeGroup_free found i low]
      decide
    · cases e
  · cases e

theorem Lasts.refillSpare (h : Lasts s0 s) : Lasts s0 s.refillSpare := by
  unfold State.refillSpare
  split
  · next taken => exact h.takeGroup taken
  · exact h.raise

theorem Lasts.granAlarm {w : W32} (h : Lasts s0 s) : Lasts s0 (s.granAlarm w) := .ite h.raiseReg h.raiseReg

/-- A page that reads uncorrectable becomes BAD. -/
theorem pageBad_bad (s : State) (n : Nat) : pageUse ((s.pageBad n).page n) = 7 := by
  unfold State.pageBad
  extract_lets w g spare free u v
  have marked : pageUse ((s.setPage n (w ||| 0xE0000000)).page n) = 7 := by
    rw [State.page_setPage, if_pos rfl]
    exact pageUse_bad w
  have alarm : Lasts (s.setPage n (w ||| 0xE0000000)) u := Lasts.refl.granAlarm
  have void : Lasts (s.setPage n (w ||| 0xE0000000)) v := .ite alarm.stagingVoid alarm
  split
  · exact void.poolClaim.groupRetired.bad n marked
  · split
    · exact void.poolBack.poolClaim.groupRetired.refillSpare.bad n marked
    · exact void.bad n marked

end

/-! ### O29: relocation (R248) -/

/-- What a relocation moves or waits on: the stored bytes, the key of the scrambler and the relocations that wait. -/
def State.relocView (s : State) := (s.gran.data, s.keys, s.gran.relocs)

theorem relocView_parts {s t : State} (same : t.relocView = s.relocView) :
    t.gran.data = s.gran.data ∧ t.keys = s.keys ∧ t.gran.relocs = s.gran.relocs := by
  simpa only [State.relocView, Prod.mk.injEq] using same

theorem setPages_relocView {s : State} {l : List Nat} {n : State → Nat → Nat} {w : State → Nat → W32} :
    (s.each l fun s i => s.setPage (n s i) (w s i)).relocView = s.relocView := each_same State.relocView (fun _ _ => by rfl) s

theorem groupRetired_relocView (s : State) (g : Nat) : (s.groupRetired g).relocView = s.relocView := setPages_relocView

theorem markReloc_relocView (s : State) (g : Nat) (v : Bool) : (s.markReloc g v).relocView = s.relocView := setPages_relocView

theorem poolGrant_relocView (s : State) (q h n : Nat) : (s.poolGrant q h n).relocView = s.relocView := by
  unfold State.poolGrant
  split <;> rfl

theorem poolClaim_relocView (s : State) (q h n : Nat) : (s.poolClaim q h n).relocView = s.relocView := by
  unfold State.poolClaim
  split
  · exact poolGrant_relocView ..
  · rfl

theorem takeGroup_relocView {s t : State} {use g : Nat} {w : W32} (e : s.takeGroup use w = some (g, t)) :
    t.relocView = s.relocView := by
  unfold State.takeGroup at e
  split at e
  · split at e
    · cases e
      exact poolGrant_relocView ..
    · cases e
  · cases e

theorem onlyAlarms_relocView {s t : State} (h : OnlyAlarms s t) : t.relocView = s.relocView := by
  unfold OnlyAlarms at h
  have same := congrArg State.relocView h
  exact same

theorem refillSpare_relocView (s : State) : s.refillSpare.relocView = s.relocView := by
  unfold State.refillSpare
  split
  · next taken => exact takeGroup_relocView taken
  · exact onlyAlarms_relocView (raise_low s (by decide)).1

theorem granGet_of_relocView {s t : State} (same : t.relocView = s.relocView) (a len : Nat) : t.granGet a len = s.granGet a len := by
  obtain ⟨data, keys, -⟩ := relocView_parts same
  unfold State.granGet State.granByte State.scrambler State.slotKey State.slotStream State.ks
  rw [data, keys]

theorem granGet_length (s : State) (a len : Nat) : (s.granGet a len).length = len := by
  unfold State.granGet
  rw [List.length_map, List.length_range]

theorem granGet_granPut_moved (s : State) (a b len : Nat) : (s.granPut a (s.granGet b len)).granGet a len = s.granGet b len := by
  have same := State.granGet_granPut_same (s := s) a (s.granGet b len)
  rwa [granGet_length] at same

theorem granPut_relocs (s : State) (a : Nat) (bs : List Byte) : (s.granPut a bs).gran.relocs = s.gran.relocs := rfl

theorem dirs_relocView (s : State) (tagDir srvDir : Tab Nat) :
    ({ s with gran := { s.gran with tagDir := tagDir, srvDir := srvDir } } : State).relocView = s.relocView := rfl

theorem relocDone_moves (s : State) (g new : Nat) :
    (s.relocDone g new).gran.relocs = s.gran.relocs
      ∧ (s.relocDone g new).granGet (2048 * new) 2048 = s.granGet (2048 * g) 2048 := by
  unfold State.relocDone
  extract_lets use u v move _ w x
  have put : u.granGet (2048 * new) 2048 = s.granGet (2048 * g) 2048 := granGet_granPut_moved ..
  have waits : u.gran.relocs = s.gran.relocs := granPut_relocs ..
  clear_value u
  have entries : v.relocView = u.relocView := setPages_relocView
  clear_value v
  have dirs : w.relocView = v.relocView := dirs_relocView v (move v.gran.tagDir) (move v.gran.srvDir)
  clear_value w
  have claimed : ((w.poolBack 9 5 8).poolClaim 9 6 8).relocView = w.relocView := poolClaim_relocView ..
  have retired : x.relocView = w.relocView := (groupRetired_relocView ..).trans claimed
  clear_value x
  have all : x.refillSpare.relocView = u.relocView := (refillSpare_relocView x).trans (retired.trans (dirs.trans entries))
  exact ⟨(relocView_parts all).2.2.trans waits, (granGet_of_relocView all ..).trans put⟩

theorem relocStart_starts {s : State} {r : Reloc} {rs : List Reloc} {g : Nat} (waits : s.gran.relocs = r :: rs)
    (idle : (s.gran.relocs.any fun x => x.target.isSome) = false) (moves : s.movable r.group = true)
    (spare : s.spareGroup r.group = some g) :
    s.relocStart.gran.relocs = { r with target := some g } :: rs ∧ s.relocStart.gran.data = s.gran.data := by
  unfold State.relocStart
  rw [idle, waits]
  simp only [Bool.false_eq_true, if_false, moves, Bool.not_true, spare]
  obtain ⟨data, -, relocs⟩ := relocView_parts (markReloc_relocView
    { s with gran := { s.gran with relocs := { r with target := some g } :: rs } } r.group true)
  exact ⟨relocs, data⟩

/-! ### O29: the five kinds of slot -/

theorem scrubRead_yields {s : State} (moving : (s.gran.relocs.any fun x => x.target.isSome) = true) (r : ScrubResult) :
    Completes (.scrubRead r) s (· = s) :=
  ⟨s, by dsimp only [exec]; unfold execScrubRead; rw [if_pos moving], rfl⟩

theorem scrubRead_completes {s : State} (known : s.gran.uses ≠ 1023) (idle : (s.gran.relocs.any fun x => x.target.isSome) = false) :
    let n := s.gran.scrub / 16
    Completes (.scrubRead .ok) s (fun t =>
        t.gran = { s.gran with uses := (s.gran.uses + 1) % 1024, scrub := (s.gran.scrub + 1) % 2097152 }
          ∧ { t with gran := s.gran } = s)
      ∧ (pageUse (s.page n) ≠ 0 → pageUse (s.page n) ≠ 7 → Completes (.scrubRead .corrected) s fun t =>
          pageCe (t.page n) = min 3 (pageCe (s.page n) + 1) ∧ pageUse (t.page n) = pageUse (s.page n)
            ∧ t.gran.data = s.gran.data)
      ∧ Completes (.scrubRead .uncorrectable) s (fun t => pageUse (t.page n) = 7) := by
  refine ⟨⟨_, scrubRead_reads .ok known idle, rfl, rfl⟩, fun used good => ⟨_, scrubRead_reads .corrected known idle, ?_⟩,
    ⟨_, scrubRead_reads .uncorrectable known idle, ?_⟩⟩
  · exact pageCorrected_counts (s := s.scrubbed) used good
  · dsimp only
    split
    · assumption
    · exact pageBad_bad ..

theorem relocation_starts {s : State} {r : Reloc} {rs : List Reloc} {g : Nat} (waits : s.gran.relocs = r :: rs)
    (idle : (s.gran.relocs.any fun x => x.target.isSome) = false) (moves : s.movable r.group = true)
    (spare : s.spareGroup r.group = some g) :
    Completes .relocationStart s (fun t => t.gran.relocs = { r with target := some g } :: rs ∧ t.gran.data = s.gran.data)
      ∧ Completes .relocationWaitExpiry s (fun t =>
          t.gran.relocs = { r with target := some g, overdue := true } :: rs ∧ t.gran.data = s.gran.data) := by
  refine ⟨⟨_, rfl, relocStart_starts waits idle moves spare⟩, ⟨_, rfl, ?_⟩⟩
  extract_lets _
  rw [waits]
  refine relocStart_starts (r := { r with overdue := true }) rfl ?_ moves spare
  rw [waits] at idle
  exact idle

theorem setLine_relocView (s : State) (n : Nat) (v : Bool) : (s.setLine n v).relocView = s.relocView :=
  each_same State.relocView (fun _ _ => by rfl) s

theorem relocation_done {s : State} {r : Reloc} {rs : List Reloc} {new : Nat} (runs : s.gran.relocs = r :: rs)
    (target : r.target = some new) (moves : s.movable r.group = true) :
    Completes .relocationDone s fun t =>
      t.gran.relocs = rs ∧ t.granGet (2048 * new) 2048 = s.granGet (2048 * r.group) 2048 := by
  obtain ⟨group, _, overdue⟩ := r
  cases target
  have run : exec .relocationDone s
      = .next ((({ s with gran := { s.gran with relocs := rs } } : State).relocDone group new).setLine 8 true) := by
    dsimp only [exec]
    unfold execRelocationDone
    rw [runs]
    have moves : ({ s with gran := { s.gran with relocs := rs } } : State).movable group = true := moves
    simp only [moves, if_true]
  obtain ⟨relocs, bytes⟩ := relocDone_moves ({ s with gran := { s.gran with relocs := rs } } : State) group new
  have line := setLine_relocView (({ s with gran := { s.gran with relocs := rs } } : State).relocDone group new) 8 true
  exact ⟨_, run, (relocView_parts line).2.2.trans relocs, (granGet_of_relocView line ..).trans bytes⟩

theorem serveSlotRead_serves {s : State} {p : PortId} {w : ServeSpan} {bs : List Byte} {addr : BitVec 28}
    (up : s.bankUp p.val = true) (sheaf : s.chanRetired .sequencer (sheafOf p.val) = false) (span : (s.pg p.val).span = some w)
    (room : (s.pg p.val).serve.length < 4) (left : w.next ≤ w.last) (word : w.next / 16 = addr.toNat / 16)
    (serves : s.serveWord p.val w.ctx w.next = some bs) :
    Completes (.serveSlotRead p addr) s fun t =>
      t.pg p.val = { s.pg p.val with serve := (s.pg p.val).serve ++ [(w.next, bs)], span := some { w with next := w.step w.next } }
        ∧ { t with pgran := s.pgran } = s := by
  have run : exec (.serveSlotRead p addr) s = .next (s.pgU p.val fun g =>
      { g with serve := g.serve ++ [(w.next, bs)], span := some { w with next := w.step w.next } }) := by
    have slot : (s.bankUp p.val && !s.chanRetired .sequencer (sheafOf p.val)
        && (s.pg p.val).span.any fun t => decide (t.next / 16 = addr.toNat / 16)) = true := by
      rw [up, sheaf, span]
      simpa using word
    dsimp only [exec]
    unfold execServeSlotRead State.serveSlot
    rw [if_pos slot]
    dsimp only
    rw [span]
    dsimp only
    rw [if_neg (by simp; omega), serves]
  exact ⟨_, run, State.pgU_pg_same .., rfl⟩

/-! ### O29: the service lane (R229, R420) -/

theorem serviceLaneJob_reload {s : State} (lane : s.serviceLane.isSome = true) (job : s.svcNext = some .reload) :
    Completes .serviceLaneJob s fun t =>
      t.wake.svcJobs.contains .reload = false ∧ (∀ j ∈ t.wake.svcJobs, j ∈ s.wake.svcJobs) ∧ { t with wake := s.wake } = s := by
  have run : exec .serviceLaneJob s = .next (s.svcDone .reload) := by
    dsimp only [exec]
    unfold execServiceLaneJob
    rw [job]
    simp only [lane, if_true]
  refine ⟨_, run, ?_, fun j mem => (List.mem_filter.mp mem).1, rfl⟩
  unfold State.svcDone
  simp [List.contains_eq_mem]

theorem coresOff_form (s : State) (l : List (Nat × Nat)) :
    ∃ mems flaws cores, s.coresOff l = { s with mems := mems, flaws := flaws, cores := cores } := by
  unfold State.coresOff State.each
  induction l generalizing s with
  | nil => exact ⟨s.mems, s.flaws, s.cores, rfl⟩
  | cons c l ih => exact ih _

/-- A Canopy core's load touches memories, cores and leave alone (R31). -/
theorem canopyLoad_form (s : State) (c : Nat) (b : Bundle) :
    ∃ mems flaws leave cores, s.canopyLoad c b = { s with mems := mems, flaws := flaws, leave := leave, cores := cores } := by
  obtain ⟨mems, flaws, cores, off⟩ := coresOff_form s [(c, c)]
  unfold State.canopyLoad
  rw [off]
  dsimp only
  split
  · exact ⟨mems, flaws, s.leave, cores, rfl⟩
  split
  · next taken =>
    unfold State.lvTake at taken
    split at taken
    · obtain ⟨leave, cores, grant⟩ := lvGrant_form _ (canopyUse c) 1
      rw [grant] at taken
      cases taken
      exact ⟨_, _, leave, _, rfl⟩
    · cases taken
  · exact ⟨_, _, _, _, rfl⟩

theorem serviceLaneJob_image {s : State} (job : s.svcNext = some .image) :
    ((s.bundleImage s.hand.new 0).isSome = true → Completes .serviceLaneJob s fun t =>
        t.hand.state = .waitingReady ∧ t.boot = s.boot ∧ t.home = s.home)
      ∧ (s.bundleImage s.hand.new 0 = none → Completes .serviceLaneJob s fun t =>
        t.hand.state = .idle ∧ t.hand.result = 0x3E01 ∧ t.boot = s.boot ∧ t.home = s.home) := by
  have run : exec .serviceLaneJob s = .next (s.svcDone .image).handoverLoad := by
    dsimp only [exec]
    unfold execServiceLaneJob
    rw [job]
  have image : (s.svcDone .image).bundleImage (s.svcDone .image).hand.new 0 = s.bundleImage s.hand.new 0 := rfl
  refine ⟨fun good => ⟨_, run, ?_⟩, fun bad => ⟨_, run, ?_⟩⟩
  · obtain ⟨mems, flaws, leave, cores, load⟩ := canopyLoad_form (s.svcDone .image) (s.svcDone .image).secondCore s.hand.new
    unfold State.handoverLoad
    rw [image, if_pos good]
    dsimp only
    rw [show (s.svcDone .image).hand.new = s.hand.new from rfl, load]
    exact ⟨rfl, rfl, rfl⟩
  · obtain ⟨mems, flaws, leave, cores, load⟩ := canopyLoad_form (s.svcDone .image) (s.svcDone .image).secondCore s.hand.old
    unfold State.handoverLoad
    rw [image, if_neg (by simp [bad]), show (s.svcDone .image).hand.old = s.hand.old from rfl, load]
    exact ⟨rfl, rfl, rfl, rfl⟩

/-! ### O29: self-tests (R230, R231, R406) -/

theorem chanError_probes {s : State} {k : ChannelKind} {i cause : Nat} (serves : (s.ch (chanKey k i)).state = .inService) :
    ((s.chanError k i cause).ch (chanKey k i)).state = .probing := by
  unfold State.chanError
  rw [State.chU_ch_same, if_neg (by simp [serves])]

/-- A failed known-answer test makes the channel of its unit probe, whatever its alarm brings on. -/
theorem testFails_probes {s t : State} {k : ChannelKind} {i cause : Nat} (alarm : Lasts s t)
    (serves : (s.ch (chanKey k i)).state = .inService) : ((t.chanError k i cause).ch (chanKey k i)).state = .probing := by
  refine chanError_probes ?_
  unfold State.ch
  rw [alarm.chans]
  exact serves

theorem retireLane_retired (s : State) (l : Nat) : (s.retireLane l).chanRetired .lane l = true
    ∧ (s.retireLane l).wake = s.wake := by
  unfold State.retireLane
  extract_lets u holder v w
  clear_value holder
  have failed : u.wake = s.wake := by
    unfold u State.laneFailed
    split
    · rfl
    · exact each_same State.wake (fun _ _ => by rfl) s
  clear_value u
  have retired : v.chanRetired .lane l = true ∧ v.wake = u.wake := ⟨by simp [v, State.chanRetired], rfl⟩
  clear_value v
  have returned : w.chans = v.chans ∧ w.wake = v.wake := by
    unfold w
    split <;> exact ⟨rfl, rfl⟩
  clear_value w
  have claimed : (w.poolClaim 8 3 1).chans = w.chans ∧ (w.poolClaim 8 3 1).wake = w.wake := by
    unfold State.poolClaim State.poolGrant
    split <;> exact ⟨rfl, rfl⟩
  have drawn := runtimeDraw_wakeView (w.poolClaim 8 3 1)
  simp only [State.wakeView, Prod.mk.injEq] at drawn
  obtain ⟨wake, -, -, -, chans⟩ := drawn
  unfold State.chanRetired State.ch
  rw [chans, claimed.1, returned.1, wake, claimed.2, returned.2]
  exact ⟨retired.1, retired.2.trans failed⟩

theorem retire_lane (s : State) (l reason : Nat) : (s.retire .lane l reason).chanRetired .lane l = true
    ∧ (s.retire .lane l reason).wake = s.wake := by
  unfold State.retire
  extract_lets body u v
  have lane : u.chanRetired .lane l = true ∧ u.wake = s.wake := retireLane_retired s l
  clear_value u
  have logged : v.chanRetired .lane l = true ∧ v.wake = u.wake := ⟨by simpa [v, State.chanRetired] using lane.1, rfl⟩
  clear_value v
  split
  · next already => exact ⟨already, rfl⟩
  split
  · exact ⟨logged.1, logged.2.trans lane.2⟩
  · exact ⟨logged.1, logged.2.trans lane.2⟩

/-- In the entry stage a failed test retires the lane, and the wake goes on without it or has ended (R231, R232). -/
theorem entryTest_retires {s : State} (ran : s.wake.stage ≠ .idle) (l : Nat) :
    ((s.entryTestFailed l).wakeRemap).chanRetired .lane l = true
      ∧ (s.entryTestFailed l).wakeRemap.wake.lanes.contains l = false := by
  have alarm : Lasts s (s.gnoby 0 0) := gnoby_lasts ..
  have gone : (s.entryTestFailed l).chanRetired .lane l = true ∧ (s.entryTestFailed l).wake = (s.gnoby 0 0).wake := retire_lane ..
  generalize s.entryTestFailed l = u at gone
  obtain ⟨retired, wake⟩ := gone
  by_cases idle : u.wake.stage = .idle
  · have same : u.wakeRemap = u := by
      unfold State.wakeRemap
      rw [if_pos idle]
    rw [same]
    refine ⟨retired, ?_⟩
    obtain ⟨stage, -⟩ | ⟨-, lanes⟩ := alarm.lanes
    · exact absurd (stage.symm.trans (wake ▸ idle)) ran
    · rw [wake, lanes]
      rfl
  · obtain ⟨-, -, chans, serve⟩ := wakeRemap_spec idle rfl
    have still : u.wakeRemap.chanRetired .lane l = true := by
      unfold State.chanRetired State.ch at retired ⊢
      rw [chans]
      exact retired
    refine ⟨still, ?_⟩
    rw [List.contains_eq_mem]
    refine decide_eq_false fun mem => ?_
    rw [serve l mem] at still
    cases still

theorem laneTest_probes {s : State} {l : Nat} (serves : (s.ch (chanKey .lane l)).state = .inService) :
    ((s.laneTest l false).ch (chanKey .lane l)).state = .probing := testFails_probes (gnoby_lasts s 0 0) serves

theorem laneTest_tests (s : State) (l : Nat) : (s.laneTest l false).wake.tests = s.wake.tests := (gnoby_lasts s 0 0).tests

theorem selfTestSlot_probes {s : State} {i : Fin 4} {n : Nat} (lane : s.gleanLane i.val = some n)
    (serves : (s.ch (chanKey .lane n)).state = .inService) :
    Completes (.selfTestSlot (.gleanLane i) false) s fun t => (t.ch (chanKey .lane n)).state = .probing := by
  have run : exec (.selfTestSlot (.gleanLane i) false) s = .next (s.laneTest n false) := by
    have unit : s.testLane (.gleanLane i) = some n := lane
    dsimp only [exec]
    unfold execSelfTestSlot
    simp [unit]
  exact ⟨_, run, laneTest_probes serves⟩

theorem threadTest_probes {s : State} {k : SheafId} {th : Fin 8} (waits : (s.co (8 + 8 * k.val + th.val)).run = .waitEvent)
    (serves : (s.ch (chanKey .sequencer k.val)).state = .inService) :
    Completes (.selfTestSlot (.thread k th) false) s fun t => (t.ch (chanKey .sequencer k.val)).state = .probing := by
  have run : exec (.selfTestSlot (.thread k th) false) s
      = .next ((s.gnoby 1 (8 * k.val + th.val)).chanError .sequencer k.val 3) := by
    dsimp only [exec]
    unfold execSelfTestSlot
    simp [waits]
  exact ⟨_, run, testFails_probes (gnoby_lasts ..) serves⟩

theorem wakeLaneTest_retires {s : State} {l : LaneId} (entry : s.wake.stage = .entry) (held : s.wake.lanes.contains l.val = true) :
    Completes (.selfTestSlot (.wakeLane l) false) s fun t =>
      t.chanRetired .lane l.val = true ∧ t.wake.lanes.contains l.val = false := by
  have run : exec (.selfTestSlot (.wakeLane l) false) s = .next (s.entryTestFailed l.val).wakeRemap := by
    dsimp only [exec]
    unfold execSelfTestSlot
    simp only [Bool.false_eq_true, if_false]
    rw [if_pos ⟨entry, held⟩]
  exact ⟨_, run, entryTest_retires (by simp [entry]) l.val⟩

theorem laneTestRequest_waits {s : State} {l : LaneId} (runs : s.wake.stage ≠ .idle) (held : s.wake.lanes.contains l.val = true) :
    Completes (.laneTestRequest l false) s fun t => t.wake.tests = s.wake.tests ++ [l.val] ∧ { t with wake := s.wake } = s := by
  have run : exec (.laneTestRequest l false) s
      = .next { s with wake := { s.wake with tests := s.wake.tests ++ [l.val] } } := by
    dsimp only [exec]
    unfold execLaneTestRequest
    rw [if_pos ⟨runs, held⟩]
  exact ⟨_, run, rfl, rfl⟩

theorem laneTest_runs {s : State} {l : LaneId} (idle : s.wake.stage = .idle)
    (serves : (s.ch (chanKey .lane l.val)).state = .inService) :
    Completes (.laneTestRequest l false) s (fun t => (t.ch (chanKey .lane l.val)).state = .probing)
      ∧ (s.wake.tests.contains l.val = true → Completes (.deferredLaneTest l false) s fun t =>
          (t.ch (chanKey .lane l.val)).state = .probing ∧ t.wake.tests = s.wake.tests.filter fun x => decide (x ≠ l.val)) := by
  have asked : exec (.laneTestRequest l false) s = .next (s.laneTest l.val false) := by
    dsimp only [exec]
    unfold execLaneTestRequest
    rw [if_neg (by simp [idle])]
  refine ⟨⟨_, asked, laneTest_probes serves⟩, fun waits => ?_⟩
  have run : exec (.deferredLaneTest l false) s = .next
      (({ s with wake := { s.wake with tests := s.wake.tests.filter fun x => decide (x ≠ l.val) } } : State).laneTest l.val false) := by
    dsimp only [exec]
    unfold execDeferredLaneTest
    rw [if_pos ⟨idle, waits⟩]
  exact ⟨_, run, laneTest_probes serves, laneTest_tests ..⟩

/-- Settles O29: the slots by what they read and move, the failed tests by what an alarm of any rank leaves standing. -/
theorem granaryLaneAndSelfTests : Obligations.GranaryLaneAndSelfTests := by
  unfold Obligations.GranaryLaneAndSelfTests
  refine ⟨?_, ?_⟩
  · intro s r rs g new p w bs addr
    exact ⟨fun moving => scrubRead_yields moving, fun known idle => scrubRead_completes known idle,
      fun waits idle moves spare => relocation_starts waits idle moves spare,
      fun runs target moves => relocation_done runs target moves,
      fun up sheaf span room left word serves => serveSlotRead_serves up sheaf span room left word serves⟩
  · intro s u i k th l n
    exact ⟨fun lane job => serviceLaneJob_reload lane job, fun job => serviceLaneJob_image job, ⟨s, rfl, rfl⟩,
      fun lane serves => selfTestSlot_probes lane serves, fun waits serves => threadTest_probes waits serves,
      fun entry held => wakeLaneTest_retires entry held, fun runs held => laneTestRequest_waits runs held,
      fun idle serves => laneTest_runs idle serves⟩

end Sys2Proof.Machine
end

section
-- In parallel these proofs take more threads than the memory limit has room for.
set_option Elab.async false

namespace Sys2Proof.Machine

open Sys2Proof

/-! ### O30: the fetches of execute-in-place (R264, R265) -/

theorem xipMiss_waits {s : State} {b : Bool} {addr : W24} (out : s.boot.canopyOut = true) (region : 0x400000 ≤ addr.toNat)
    (missed : s.xipLine addr.toNat = none) :
    Completes (.xipMiss b addr) s fun t =>
      t.xipWaits (if b then .canopyB else .canopyA) = true ∧ { t with gran := s.gran } = s := by
  have run : exec (.xipMiss b addr) s = .next (s.xipStart b addr.toNat) := by
    dsimp only [exec]
    unfold execXipMiss
    simp [out, region, missed]
  have mine : ∀ f : XipFetch, f.core = b → f.ahead = false → (!f.ahead
      && ((decide ((if b then CoreId.canopyB else .canopyA) = .canopyA) && !f.core)
        || (decide ((if b then CoreId.canopyB else .canopyA) = .canopyB) && f.core))) = true := fun f core now => by
    rw [core, now]
    cases b <;> rfl
  refine ⟨_, run, ?_⟩
  unfold State.xipStart
  extract_lets f
  split
  · refine ⟨?_, rfl⟩
    unfold State.xipWaits
    exact Bool.or_eq_true_iff.mpr (.inl (mine f rfl rfl))
  split
  · next busy asked =>
    refine ⟨?_, rfl⟩
    unfold State.xipWaits
    rcases asked with current | held
    · cases fetch : s.gran.fetch with
      | none => simp [fetch] at busy
      | some g =>
        simp only [fetch, Option.any_some, Bool.and_eq_true, Bool.not_eq_true', decide_eq_true_eq] at current
        obtain ⟨now, core, -⟩ := current
        exact Bool.or_eq_true_iff.mpr (.inl (mine g core now))
    · exact Bool.or_eq_true_iff.mpr (.inr (List.any_eq_true.mpr ⟨f, List.contains_iff_mem.mp held, mine f rfl rfl⟩))
  · refine ⟨?_, rfl⟩
    unfold State.xipWaits
    exact Bool.or_eq_true_iff.mpr (.inr (List.any_eq_true.mpr ⟨f, by simp, mine f rfl rfl⟩))

/-- A set of the buffer with this line in front. -/
def lineFirst (l : XipLine) (set : List XipLine) : List XipLine := l :: set.filter fun x => decide (x.line ≠ l.line)

theorem xipFill_sets (s : State) (line : Nat) (data : List Byte) (k : Nat) :
    Tab.get [] (s.xipFill line data).gran.sets k
      = if k = line % 64 then (lineFirst { line := line, data := data } (Tab.get [] s.gran.sets k)).take 4
        else Tab.get [] s.gran.sets k := by
  unfold State.xipFill
  rw [Tab.get_put]
  split
  · next same =>
    subst same
    rfl
  · rfl

theorem xipLine_eq (s : State) (a : Nat) : s.xipLine a
    = ((Tab.get [] s.gran.sets ((a - 0x400000) / 256 % 64)).find? fun l => decide (l.line = (a - 0x400000) / 256)).map (·.data) := rfl

theorem xipFill_xipLine {s : State} {a : Nat} {data : List Byte} :
    (s.xipFill ((a - 0x400000) / 256) data).xipLine a = some data := by
  rw [xipLine_eq, xipFill_sets, if_pos rfl]
  unfold lineFirst
  simp

theorem xipFill_xipLine_ne {s : State} {line a : Nat} {data : List Byte} (other : (a - 0x400000) / 256 % 64 ≠ line % 64) :
    (s.xipFill line data).xipLine a = s.xipLine a := by
  rw [xipLine_eq, xipFill_sets, if_neg other, xipLine_eq]

theorem find?_filter_ne {set : List XipLine} {line : Nat} {l : XipLine} (other : l.line ≠ line) :
    ((lineFirst l set).find? fun x => decide (x.line = line)) = set.find? fun x => decide (x.line = line) := by
  unfold lineFirst
  rw [List.find?_cons_of_neg (by simpa using other), List.find?_filter]
  congr 1
  funext x
  by_cases here : x.line = line
  · simp [here, Ne.symm other]
  · simp [here]

/-- A touch changes the order of a set, not what a line reads. -/
theorem xipTouch_xipLine (s : State) (a b : Nat) : (s.xipTouch a).xipLine b = s.xipLine b := by
  unfold State.xipTouch
  extract_lets line set
  split
  · next l found =>
    have is : l.line = line := by simpa using List.find?_some found
    rw [xipLine_eq, xipLine_eq, Tab.get_put]
    split
    · next same =>
      by_cases hit : (b - 0x400000) / 256 = line
      · rw [hit, List.find?_cons_of_pos (by simpa using is), ← found]
      · have ne : l.line ≠ (b - 0x400000) / 256 := fun e => hit (e ▸ is)
        have skip := find?_filter_ne (set := set) ne
        unfold lineFirst at skip
        rw [is] at skip
        rw [skip, same]
    · rfl
  · rfl

theorem xipNext_fetch (s : State) : s.xipNext.gran.fetch = s.gran.held.head? ∧ s.xipNext.gran.sets = s.gran.sets
    ∧ { s.xipNext with gran := s.gran } = s := by
  unfold State.xipNext
  split
  · next none => exact ⟨by rw [none]; rfl, rfl, rfl⟩
  · next first => exact ⟨by rw [first]; rfl, rfl, rfl⟩

theorem xipLine_of_sets {s t : State} (same : t.gran.sets = s.gran.sets) (a : Nat) : t.xipLine a = s.xipLine a := by
  rw [xipLine_eq, xipLine_eq, same]

/-- The line passed its check and is in the buffer as the most recent of its set. -/
def State.xipPassed (s : State) (a : Nat) (data : List Byte) : State :=
  (({ s with homeCont := true } : State).xipFill ((a - 0x400000) / 256) data).xipTouch a

theorem xipTouch_form (s : State) (a : Nat) : ∃ sets, s.xipTouch a = { s with gran := { s.gran with sets := sets } } := by
  unfold State.xipTouch
  extract_lets line set
  split
  · exact ⟨_, rfl⟩
  · exact ⟨s.gran.sets, rfl⟩

theorem xipPassed_form (s : State) (a : Nat) (data : List Byte) :
    ∃ sets, s.xipPassed a data = { s with homeCont := true, gran := { s.gran with sets := sets } } := by
  obtain ⟨sets, touch⟩ := xipTouch_form (({ s with homeCont := true } : State).xipFill ((a - 0x400000) / 256) data) a
  exact ⟨sets, touch⟩

theorem xipPassed_xipLine (s : State) (a : Nat) (data : List Byte) : (s.xipPassed a data).xipLine a = some data := by
  unfold State.xipPassed
  rw [xipTouch_xipLine, xipFill_xipLine]

/-- Whether the next line is to be fetched is the same before and after the line is in: the next line has another set. -/
theorem xipPassed_ahead (s : State) (a : Nat) (data : List Byte) :
    (s.xipPassed a data).xipAhead ((a - 0x400000) / 256) = s.xipAhead ((a - 0x400000) / 256) := by
  have boot : (s.xipPassed a data).boot = s.boot := by
    obtain ⟨sets, form⟩ := xipPassed_form s a data
    rw [form]
  have next : (s.xipPassed a data).xipLine (0x400000 + 256 * ((a - 0x400000) / 256 + 1))
      = s.xipLine (0x400000 + 256 * ((a - 0x400000) / 256 + 1)) := by
    unfold State.xipPassed
    rw [xipTouch_xipLine, xipFill_xipLine_ne (by omega)]
    rfl
  unfold State.xipAhead
  rw [boot, next]

theorem xipFetchDone_passes {s : State} {f : XipFetch} {data : List Byte} (fetch : s.gran.fetch = some f)
    (tagged : s.gran.tagging = false) (passes : s.xipChecked ((f.addr.toNat - 0x400000) / 256) = some data) :
    let line := (f.addr.toNat - 0x400000) / 256
    Completes (.xipFetchDone true) s fun t => t.xipLine f.addr.toNat = some data ∧ t.homeCont = true
      ∧ t.gran.fetch = (if f.ahead || !s.xipAhead line then s.gran.held.head?
          else some { core := f.core, addr := BitVec.ofNat 24 (0x400000 + 256 * (line + 1)), ahead := true })
      ∧ { t with gran := s.gran, homeCont := s.homeCont } = s := by
  dsimp only
  have checked : ({ s with homeCont := true } : State).xipChecked ((f.addr.toNat - 0x400000) / 256) = some data := passes
  obtain ⟨sets, form⟩ := xipPassed_form s f.addr.toNat data
  have inside := xipPassed_xipLine s f.addr.toNat data
  have ahead := xipPassed_ahead s f.addr.toNat data
  by_cases early : f.ahead = true
  · have run : exec (.xipFetchDone true) s
        = .next (({ s with homeCont := true } : State).xipFill ((f.addr.toNat - 0x400000) / 256) data).xipNext := by
      dsimp only [exec]
      unfold execXipFetchDone
      simp only [fetch, tagged, checked, early, Option.isNone_some, Bool.false_eq_true, if_false, if_true]
    obtain ⟨first, sets', rest⟩ := xipNext_fetch (({ s with homeCont := true } : State).xipFill ((f.addr.toNat - 0x400000) / 256) data)
    refine ⟨_, run, (xipLine_of_sets sets' _).trans xipFill_xipLine, congrArg State.homeCont rest, ?_, ?_⟩
    · rw [first, early]
      rfl
    · exact congrArg (fun x : State => { x with gran := s.gran, homeCont := s.homeCont }) rest
  · have run : exec (.xipFetchDone true) s = .next (if s.xipAhead ((f.addr.toNat - 0x400000) / 256) then
          { s.xipPassed f.addr.toNat data with gran := { (s.xipPassed f.addr.toNat data).gran with
            fetch := some { core := f.core, addr := BitVec.ofNat 24 (0x400000 + 256 * ((f.addr.toNat - 0x400000) / 256 + 1)), ahead := true } } }
        else (s.xipPassed f.addr.toNat data).xipNext) := by
      dsimp only [exec]
      unfold execXipFetchDone
      simp only [fetch, tagged, checked, early, Option.isNone_some, Bool.false_eq_true, if_false, if_true, ← ahead]
      rfl
    refine ⟨_, run, ?_⟩
    split
    · next more =>
      refine ⟨(xipLine_of_sets rfl _).trans inside, by rw [form], by simp [early, more], by rw [form]⟩
    · next no =>
      obtain ⟨first, sets', rest⟩ := xipNext_fetch (s.xipPassed f.addr.toNat data)
      refine ⟨(xipLine_of_sets sets' _).trans inside, (congrArg State.homeCont rest).trans (by rw [form]), ?_, ?_⟩
      · rw [first, form]
        simp [no]
      · refine (congrArg (fun x : State => { x with gran := s.gran, homeCont := s.homeCont }) rest).trans ?_
        rw [form]

theorem xipFetchDone_again {s : State} {f : XipFetch} (fetch : s.gran.fetch = some f) (tagged : s.gran.tagging = false)
    (first : f.tries = 0) (serves : (s.ch (chanKey .home 0)).state = .inService) :
    Completes (.xipFetchDone false) s fun t => t.gran.fetch = some { f with tries := 1 }
      ∧ (t.ch (chanKey .home 0)).state = .probing := by
  have alarm : Lasts (s.chanError .home 0 1) ((s.chanError .home 0 1).gnoby 0 0) := gnoby_lasts ..
  have still : ((s.chanError .home 0 1).gnoby 0 0).gran.fetch = some f := alarm.fetch.trans fetch
  have run : exec (.xipFetchDone false) s = .next { (s.chanError .home 0 1).gnoby 0 0 with
      homeCont := true, gran := { ((s.chanError .home 0 1).gnoby 0 0).gran with fetch := some { f with tries := 1 } } } := by
    dsimp only [exec]
    unfold execXipFetchDone
    simp only [fetch, tagged, still, first, Option.isNone_some, Bool.false_eq_true, if_false, if_true]
  refine ⟨_, run, rfl, ?_⟩
  have probes : ((s.chanError .home 0 1).ch (chanKey .home 0)).state = .probing := chanError_probes serves
  unfold State.ch at probes ⊢
  rw [← alarm.chans] at probes
  exact probes

/-! ### O30: the mailboxes of a handover (R420, R478) -/

/-- Each mailbox of a list that meets a condition is changed, and nothing beside the mailboxes. -/
theorem eachBox_spec (P : Mbox → Bool) (f : Mbox → Mbox) {l : List Nat} (once : l.Nodup) (s : State) :
    let t := s.each l fun s q => if P (s.mb q) then s.mbU q f else s
    { t with mspi := s.mspi } = s ∧ ∀ q, t.mb q = if q ∈ l ∧ P (s.mb q) = true then f (s.mb q) else s.mb q := by
  unfold State.each
  induction l generalizing s with
  | nil => exact ⟨rfl, fun q => by simp⟩
  | cons x l ih =>
    obtain ⟨fresh, rest⟩ := List.nodup_cons.mp once
    obtain ⟨only, boxes⟩ := ih rest (if P (s.mb x) then s.mbU x f else s)
    have first : ∀ q, (if P (s.mb x) then s.mbU x f else s).mb q = if q = x ∧ P (s.mb q) = true then f (s.mb q) else s.mb q := fun q => by
      by_cases here : q = x
      · subst here
        by_cases meets : P (s.mb q) = true <;> simp [meets]
      · by_cases meets : P (s.mb x) = true <;> simp [meets, here]
    refine ⟨?_, fun q => ?_⟩
    · refine (congrArg (fun v : State => { v with mspi := s.mspi }) only).trans ?_
      split <;> rfl
    · refine (boxes q).trans ?_
      rw [first]
      by_cases here : q = x
      · subst here
        simp [fresh]
      · simp [here]

/-- READY: the mailboxes stop taking commands (R420, R478). -/
def State.boxesPaused (s : State) : State :=
  s.each (List.range 8) fun s q => if (s.mb q).ready then s.mbU q fun b => { b with ready := false, paused := true } else s

theorem handoverReady_stops {s : State} (waits : s.hand.state = .waitingReady) : Completes .handoverReady s fun t =>
    t.hand.state = .switching ∧ (∀ q, q < 8 → (t.mb q).ready = false ∧ ((s.mb q).ready = true → (t.mb q).paused = true))
      ∧ t.boot = s.boot ∧ t.home = s.home := by
  have run : exec .handoverReady s = .next { s.boxesPaused with hand := { s.boxesPaused.hand with state := .switching } } := by
    dsimp only [exec]
    unfold execHandoverReady
    rw [waits]
    unfold State.boxesPaused
    rfl
  obtain ⟨only, boxes⟩ : { s.boxesPaused with mspi := s.mspi } = s ∧ ∀ q, s.boxesPaused.mb q
      = if q ∈ List.range 8 ∧ (s.mb q).ready = true then { s.mb q with ready := false, paused := true } else s.mb q :=
    eachBox_spec (·.ready) (fun b => { b with ready := false, paused := true }) List.nodup_range s
  generalize s.boxesPaused = u at run only boxes
  have boot := congrArg State.boot only
  have home := congrArg State.home only
  refine ⟨_, run, rfl, fun q low => ?_, boot, home⟩
  have box := boxes q
  simp only [List.mem_range, low, true_and] at box
  refine ⟨(congrArg Mbox.ready box).trans ?_, fun ready => (congrArg Mbox.paused box).trans ?_⟩
  · split
    · rfl
    · next not => simpa using not
  · rw [if_pos ready]

/-- The mailboxes that waited for the flip are ready again (R478). -/
def State.boxesResumed (s : State) : State :=
  s.each (List.range 8) fun s q => if (s.mb q).paused then s.mbU q fun b => { b with ready := true, paused := false } else s

/-- LEAD and the running bundle change in one cycle (R420). -/
def State.roleFlipped (s : State) : State :=
  { s with
    boot := { s.boot with lead := (match s.boot.lead with | .b => .a | _ => .b), running := s.hand.new }
    hand := { s.hand with state := .reloading, running := s.hand.slot }
    gran := { s.gran with tagging := true, sets := [] } }

theorem handoverFlip_eq {s : State} (switches : s.hand.state = .switching) (quiet : ∀ q, q < 8 → (s.mb q).tag = none) :
    s.handoverFlip = (if s.fuses.state = .armed then s.disarm else s).boxesResumed.roleFlipped.setLine 14 true := by
  have go : ¬ (s.hand.state ≠ .switching ∨ ((List.range 8).any fun q => (s.mb q).tag.isSome) = true) := by
    simpa [switches] using quiet
  unfold State.handoverFlip
  rw [if_neg go]
  extract_lets u v _ _ _
  change _ = v.roleFlipped.setLine 14 true
  clear_value v
  rfl

theorem handoverReady_flips {s : State} (switches : s.hand.state = .switching) (quiet : ∀ q, q < 8 → (s.mb q).tag = none) :
    Completes .handoverReady s fun t =>
      t.boot.lead = (if s.boot.lead = .b then .a else .b) ∧ t.boot.running = s.hand.new ∧ t.hand.running = s.hand.slot
        ∧ t.hand.state = .reloading ∧ t.gran.tagging = true ∧ t.home = s.home
        ∧ ∀ q, q < 8 → (s.mb q).paused = true → (t.mb q).ready = true := by
  refine ⟨s.handoverFlip, by dsimp only [exec]; unfold execHandoverReady; rw [switches], ?_⟩
  rw [handoverFlip_eq switches quiet]
  have disarmed : (if s.fuses.state = .armed then s.disarm else s).boot = s.boot ∧ (if s.fuses.state = .armed then s.disarm else s).hand = s.hand
      ∧ (if s.fuses.state = .armed then s.disarm else s).home = s.home ∧ (if s.fuses.state = .armed then s.disarm else s).mspi = s.mspi := by
    split <;> exact ⟨rfl, rfl, rfl, rfl⟩
  generalize (if s.fuses.state = .armed then s.disarm else s) = u at disarmed
  obtain ⟨boot, hand, home, mspi⟩ := disarmed
  obtain ⟨only, boxes⟩ : { u.boxesResumed with mspi := u.mspi } = u ∧ ∀ q, u.boxesResumed.mb q
      = if q ∈ List.range 8 ∧ (u.mb q).paused = true then { u.mb q with ready := true, paused := false } else u.mb q :=
    eachBox_spec (·.paused) (fun b => { b with ready := true, paused := false }) List.nodup_range u
  generalize u.boxesResumed = v at only boxes
  have vboot : v.boot = s.boot := (congrArg State.boot only).trans boot
  have vhand : v.hand = s.hand := (congrArg State.hand only).trans hand
  have vhome : v.home = s.home := (congrArg State.home only).trans home
  obtain ⟨cores, line⟩ := setLine_onlyCores v.roleFlipped 14 true
  rw [line]
  refine ⟨?_, congrArg Handover.new vhand, congrArg Handover.slot vhand, rfl, rfl, vhome, fun q low paused => ?_⟩
  · unfold State.roleFlipped
    dsimp only
    rw [vboot]
    cases s.boot.lead <;> rfl
  · have box := boxes q
    have same : u.mb q = s.mb q := by
      unfold State.mb
      rw [mspi]
    simp only [List.mem_range, low, true_and, same, paused, if_true] at box
    exact congrArg Mbox.ready box

/-! ### O30: the Canopy cores and the tag pass (R420 to R422) -/

theorem coresOff_leave (s : State) (l : List (Nat × Nat)) (n : Nat) : (s.coresOff l).leaveFor1 n ↔ s.leaveFor1 n := by
  obtain ⟨mems, flaws, cores, form⟩ := coresOff_form s l
  rw [form]
  exact Iff.rfl

/-- A Canopy core whose image is good and whose leave is there runs at the vector of the bundle (R31, R394). -/
theorem canopyLoad_runs {s : State} (c : Nat) {b : Bundle} (good : (s.bundleImage b 0).isSome = true) (leave : s.leaveFor1 1) :
    ((s.canopyLoad c b).co c).run = .running ∧ ((s.canopyLoad c b).co c).pc = vectorPc b.canopy := by
  obtain ⟨r, image⟩ := Option.isSome_iff_exists.mp good
  obtain ⟨mems, flaws, cores, off⟩ := coresOff_form s [(c, c)]
  have same : ({ s with mems := mems, flaws := flaws, cores := cores } : State).bundleImage b 0 = some r := image
  unfold State.canopyLoad
  rw [off]
  dsimp only
  rw [same]
  have left : (State.memPut { s with mems := mems, flaws := flaws, cores := cores } c 0 r).leaveFor1 1 := leave
  dsimp only
  rw [lvTake_of_leaveFor1 (canopyUse c) (Nat.le_refl 1) left]
  dsimp only
  rw [startCore_co, if_pos rfl]
  exact ⟨rfl, rfl⟩

/-- A Canopy core whose image is bad stays in reset (R31). -/
theorem canopyLoad_reset {s : State} {c : Nat} {b : Bundle} (bad : s.bundleImage b 0 = none) : ((s.canopyLoad c b).co c).run = .reset := by
  have reset : ((s.coresOff [(c, c)]).co c).run = .reset := coresOff_run _ s c (.inl (by simp))
  have same : (s.coresOff [(c, c)]).bundleImage b 0 = none := by
    obtain ⟨mems, flaws, cores, off⟩ := coresOff_form s [(c, c)]
    rw [off]
    exact bad
  unfold State.canopyLoad
  extract_lets u
  rw [show u.bundleImage b 0 = none from same]
  exact reset

theorem handoverReadyTimeout_returns {s : State} (waits : s.hand.state = .waitingReady) (leave : s.leaveFor1 1)
    (good : (s.bundleImage s.hand.old 0).isSome = true) :
    Completes .handoverReadyTimeout s fun t =>
      t.hand.state = .idle ∧ t.hand.result = 0x5001 ∧ t.boot.lead = s.boot.lead ∧ t.home = s.home
        ∧ (t.co s.secondCore).run = .running ∧ (t.co s.secondCore).pc = vectorPc s.hand.old.canopy := by
  have run : exec .handoverReadyTimeout s
      = .next (((s.lvDrop (canopyUse s.secondCore)).canopyLoad s.secondCore s.hand.old).handoverEnd 0x5001) := by
    dsimp only [exec]
    unfold execHandoverReadyTimeout
    rw [if_neg (by simp [waits])]
  have left : (s.lvDrop (canopyUse s.secondCore)).leaveFor1 1 := by
    obtain ⟨empty, room⟩ := leave
    refine ⟨?_, room⟩
    unfold State.lvDrop
    dsimp only
    rw [empty]
    rfl
  obtain ⟨runs, pc⟩ := canopyLoad_runs (s := s.lvDrop (canopyUse s.secondCore)) s.secondCore (b := s.hand.old) good left
  refine ⟨_, run, rfl, rfl, ?_, ?_, runs, pc⟩
  · obtain ⟨mems, flaws, leave, cores, load⟩ := canopyLoad_form (s.lvDrop (canopyUse s.secondCore)) s.secondCore s.hand.old
    rw [load]
    rfl
  · obtain ⟨mems, flaws, leave, cores, load⟩ := canopyLoad_form (s.lvDrop (canopyUse s.secondCore)) s.secondCore s.hand.old
    rw [load]
    rfl

theorem handoverReload_loads {s : State} (reloads : s.hand.state = .reloading) (free : s.svcFree = true) (leave : s.leaveFor1 1) :
    ((s.bundleImage s.hand.new 0).isSome = true → Completes .handoverReload s fun t =>
        t.hand.state = .tagging ∧ (t.co s.secondCore).run = .running ∧ (t.co s.secondCore).pc = vectorPc s.hand.new.canopy
          ∧ t.home = s.home)
      ∧ (s.bundleImage s.hand.new 0 = none → Completes .handoverReload s fun t =>
        t.hand.state = .tagging ∧ (t.co s.secondCore).run = .reset ∧ t.home = s.home) := by
  have run : exec .handoverReload s = .next { s.canopyLoad s.secondCore s.hand.new with
      hand := { (s.canopyLoad s.secondCore s.hand.new).hand with state := .tagging } } := by
    dsimp only [exec]
    unfold execHandoverReload
    rw [if_neg (by simp [reloads, free])]
  have home : (s.canopyLoad s.secondCore s.hand.new).home = s.home := by
    obtain ⟨mems, flaws, leave, cores, load⟩ := canopyLoad_form s s.secondCore s.hand.new
    rw [load]
  refine ⟨fun good => ⟨_, run, rfl, ?_⟩, fun bad => ⟨_, run, rfl, canopyLoad_reset bad, home⟩⟩
  obtain ⟨runs, pc⟩ := canopyLoad_runs s.secondCore good leave
  exact ⟨runs, pc, home⟩

/-- What the end of a handover sets. -/
def State.handView (s : State) := (s.hand.state, s.hand.result, s.gran.tagging)

theorem linkRestart_handView (s : State) : (s.linkRestart false).handView = s.handView := by
  unfold State.linkRestart
  extract_lets _ _ _ u _ v w _ x
  have times : u.handView = s.handView := rfl
  clear_value u
  have dropped : v.handView = u.handView := by
    obtain ⟨mems, flaws, cores, off⟩ := coresOff_form u [(3, 3)]
    have same : (u.coresOff [(3, 3)]).handView = u.handView := by
      rw [off]
      rfl
    exact (each_same State.handView (fun _ _ => by rfl) _).trans same
  clear_value v
  have closed : w.handView = v.handView := each_same State.handView (fun _ _ => by rfl) v
  clear_value w
  have left : x.handView = w.handView := rfl
  clear_value x
  rw [if_neg (by simp)]
  split
  · exact left.trans (closed.trans (dropped.trans times))
  · exact left.trans (closed.trans (dropped.trans times))

theorem tagPass_ends {s : State} (tags : s.hand.state = .tagging) : Completes .tagPass s fun t =>
    t.hand.state = .idle ∧ t.hand.result = 0 ∧ t.gran.tagging = false ∧ t.home = s.home := by
  obtain ⟨t, run, view⟩ : ∃ t, exec .tagPass s = .next t ∧ t.handView = (.idle, 0, false) := by
    dsimp only [exec]
    unfold execTagPass
    rw [if_neg (by simp [tags])]
    extract_lets b u _ v
    refine ⟨_, rfl, ?_⟩
    split
    · rfl
    · exact linkRestart_handView v
  have home : t.home = s.home := Still.of_run (P := .home) rfl run
  simp only [State.handView, Prod.mk.injEq] at view
  obtain ⟨state, result, tagging⟩ := view
  exact ⟨t, run, state, result, tagging, home⟩

/-- Settles O30: fetches by what the buffer reads, the handover stage by stage. -/
theorem executeInPlaceAndHandover : Obligations.ExecuteInPlaceAndHandover := by
  unfold Obligations.ExecuteInPlaceAndHandover
  intro s b addr f data
  exact ⟨fun out region missed => xipMiss_waits out region missed, fun fetch tagged passes => xipFetchDone_passes fetch tagged passes,
    fun fetch tagged first serves => xipFetchDone_again fetch tagged first serves, fun waits => handoverReady_stops waits,
    fun switches quiet => handoverReady_flips switches quiet, fun waits leave good => handoverReadyTimeout_returns waits leave good,
    fun reloads free leave => handoverReload_loads reloads free leave, fun tags => tagPass_ends tags⟩

end Sys2Proof.Machine
end

section
-- In parallel these proofs take more threads than the memory limit has room for.
set_option Elab.async false

namespace Sys2Proof.Machine

open Sys2Proof

/-! ### O53: commands that report (R243, R411, R423, R472) -/

section
variable {s : State} {mb : MailboxId} {tag : Byte} {w v : W32} {ws : List W32}

theorem pageMap_told (own : mb.val ≠ 0) (runs : s.Runs mb 0x50 tag [w, v]) (some' : 1 ≤ v.toNat) (most : v.toNat ≤ 252)
    (inside : w.toNat + v.toNat ≤ 131072) :
    Completes (.cmdPageMap mb) s fun t => Told s t mb.val tag 0 ((List.range v.toNat).map fun j => s.page (w.toNat + j)) := by
  refine .ofEndsIn (o := execCmdPageMap mb s) rfl (.shentiha own runs rfl fun t taken => ?_)
  have first : arg [w, v] 1 = w.toNat := rfl
  have count : arg [w, v] 2 = v.toNat := rfl
  rw [first, count]
  dsimp only
  rw [if_neg (by omega)]
  have told := taken.told 0 ((List.range v.toNat).map fun j => t.page (w.toNat + j))
  have pages : ∀ n, t.page n = s.page n := fun n => by
    obtain ⟨_, _, _, _, rfl⟩ := taken.only
    rfl
  simpa only [pages] using told

theorem recoverStatus_told (own : mb.val ≠ 0) (runs : s.Runs mb 0x59 tag [w]) (key : flowKeyOk w.toNat = true) :
    let f := s.fl w.toNat
    Completes (.cmdRecoverStatus mb) s fun t =>
      Told s t mb.val tag 0 [BitVec.ofNat 32 (f.reason.toNat * 2 ^ 16 + f.flow * 16 + s.flowCode w.toNat),
        BitVec.ofNat 32 (s.leavesVerified w.toNat), BitVec.ofNat 32 f.total] := by
  refine .ofEndsIn (o := execCmdRecoverStatus mb s) rfl (.shentiha own runs rfl fun t taken => ?_)
  have index : arg [w] 1 = w.toNat := rfl
  have flows : t.fl w.toNat = s.fl w.toNat ∧ t.flowCode w.toNat = s.flowCode w.toNat
      ∧ t.leavesVerified w.toNat = s.leavesVerified w.toNat := by
    obtain ⟨_, _, _, _, rfl⟩ := taken.only
    exact ⟨rfl, rfl, rfl⟩
  obtain ⟨flow, code, leaves⟩ := flows
  dsimp only
  rw [index, key, flow, code, leaves]
  exact taken.told ..

theorem linkStatus_told (own : mb.val ≠ 0) (runs : s.Runs mb 0x62 tag []) : Completes (.cmdLinkStatus mb) s fun t =>
    Told s t mb.val tag 0 ([s.linkWord 0, s.linkWord 1] ++ s.laneCounters 0 ++ s.laneCounters 1) := by
  refine .ofEndsIn (o := execCmdLinkStatus mb s) rfl (.shentiha own runs rfl fun t taken => ?_)
  have told := taken.told 0 ([t.linkWord 0, t.linkWord 1] ++ t.laneCounters 0 ++ t.laneCounters 1)
  have lanes : ∀ l, t.linkWord l = s.linkWord l ∧ t.laneCounters l = s.laneCounters l := fun l => by
    obtain ⟨_, _, _, _, rfl⟩ := taken.only
    exact ⟨rfl, rfl⟩
  rw [(lanes 0).1, (lanes 0).2, (lanes 1).1, (lanes 1).2] at told
  rw [(lanes 0).1, (lanes 0).2, (lanes 1).1, (lanes 1).2]
  exact told

theorem handoverStatus_told (own : mb.val ≠ 0) (runs : s.Runs mb 0x69 tag []) :
    Completes (.cmdHandoverStatus mb) s fun t => Told s t mb.val tag 0 [s.handoverWord] := by
  refine .ofEndsIn (o := execCmdHandoverStatus mb s) rfl (.shentiha own runs rfl fun t taken => ?_)
  have word : t.handoverWord = s.handoverWord := by
    obtain ⟨_, _, _, _, rfl⟩ := taken.only
    rfl
  rw [word]
  exact taken.told ..

theorem channelStatus_told {k : ChannelKind} {i : Nat} (own : mb.val ≠ 0) (runs : s.Runs mb 0x6B tag [w])
    (names : channelArg [w] = some (k, i)) :
    Completes (.cmdChannelStatus mb) s fun t => Told s t mb.val tag 0 [s.channelWord (chanKey k i)] := by
  refine .ofEndsIn (o := execCmdChannelStatus mb s) rfl (.shentiha own runs rfl fun t taken => ?_)
  have word : t.channelWord (chanKey k i) = s.channelWord (chanKey k i) := by
    obtain ⟨_, _, _, _, rfl⟩ := taken.only
    rfl
  rw [names]
  dsimp only
  rw [word]
  exact taken.told ..

/-! ### O53: the bundle slot that does not run (R421, R473) -/

theorem Taken.homeUp {t : State} {q : Nat} (h : Taken s t q tag) : t.homeUp = s.homeUp := by
  unfold State.homeUp
  rw [h.boot]

theorem Taken.runningGuard {t : State} {q : Nat} (h : Taken s t q tag) (x : Slot) : t.runningGuard x = s.runningGuard x := by
  obtain ⟨_, _, _, _, rfl⟩ := h.only
  rfl

theorem bundleErase_runs {P : State → Prop} (own : mb.val ≠ 0) (runs : s.Runs mb 0x70 tag [w, v]) (low : w.toNat < 2) (conf : v = ~~~ w)
    (ends : ∀ t, Taken s t mb.val tag → P (if s.runningGuard (namedSlot w) ≠ 0 then t.answer mb.val (s.runningGuard (namedSlot w)) []
      else (t.homeErase (slotBase (namedSlot w)) 0x01000000).answer mb.val 0 [])) : Completes (.cmdBundleErase mb) s P := by
  refine .ofEndsIn (o := execCmdBundleErase mb s) rfl (.shentiha own runs rfl fun t taken => ?_)
  have index : arg [w, v] 1 = w.toNat := rfl
  have out := ends t taken
  unfold State.slotErase
  rw [index, confirmed_two conf, if_neg (Nat.not_le.mpr low), if_neg (by decide), coreErase_slot]
  change P (if t.runningGuard (namedSlot w) ≠ 0 then t.answer mb.val (t.runningGuard (namedSlot w)) [] else _)
  rw [taken.runningGuard]
  exact out

theorem bundleErase_erases (own : mb.val ≠ 0) (runs : s.Runs mb 0x70 tag [w, v]) (low : w.toNat < 2) (conf : v = ~~~ w)
    (other : namedSlot w ≠ s.hand.running) (up : s.homeUp = true) :
    Completes (.cmdBundleErase mb) s fun t =>
      Answered s t mb.val tag 0 [] ∧ (∀ j, j < 0x01000000 → t.homeGet (slotBase (namedSlot w) + j) 1 = [0xFF])
        ∧ HomeSameBut s t (slotBase (namedSlot w)) 0x01000000 := by
  refine bundleErase_runs own runs low conf fun t taken => ?_
  have open' : ¬ s.runningGuard (namedSlot w) ≠ 0 := by
    unfold State.runningGuard
    rw [if_neg other]
    decide
  rw [if_neg open']
  have box : (t.homeErase (slotBase (namedSlot w)) 0x01000000).mb mb.val = t.mb mb.val := (homeDoes_reads ..).2 _
  obtain ⟨answered, mail⟩ := taken.answered box 0 []
  refine ⟨answered, fun j inside => ?_, fun b out => ?_⟩
  · rw [mail.homeGet]
    exact homeErase_reads (taken.homeUp.trans up) inside
  · have kept := State.homeErase_same_but (s := t) _ _ b out
    unfold State.homeByte at kept ⊢
    rw [mail.home, kept, taken.home]

theorem bundleErase_refused (own : mb.val ≠ 0) (runs : s.Runs mb 0x70 tag [w, v]) (low : w.toNat < 2) (conf : v = ~~~ w)
    (same : namedSlot w = s.hand.running) : Completes (.cmdBundleErase mb) s fun t => Told s t mb.val tag 0x1004 [] := by
  refine bundleErase_runs own runs low conf fun t taken => ?_
  have shut : s.runningGuard (namedSlot w) = 0x1004 := if_pos same
  rw [shut, if_pos (by decide)]
  exact taken.told ..

theorem bundleWrite_writes (own : mb.val ≠ 0) (runs : s.Runs mb 0x71 tag (w :: v :: ws)) (some' : 1 ≤ ws.length) (most : ws.length ≤ 253)
    (low : w.toNat < 2) (aligned : v.toNat % 4 = 0) (inside : v.toNat + 4 * ws.length ≤ 0x01000000)
    (other : namedSlot w ≠ s.hand.running) (up : s.homeUp = true) :
    Completes (.cmdBundleWrite mb true) s fun t =>
      Answered s t mb.val tag 0 [] ∧ t.homeGet (slotBase (namedSlot w) + v.toNat) (bytesOf ws).length = bytesOf ws
        ∧ HomeSameBut s t (slotBase (namedSlot w) + v.toNat) (bytesOf ws).length := by
  refine .ofEndsIn (o := execCmdBundleWrite mb true s) rfl (.shentiha own runs (decide_eq_true ?_) fun t taken => ?_)
  · rw [List.length_cons, List.length_cons]
    omega
  have up' : t.homeUp = true := taken.homeUp.trans up
  have sized : ¬ (2 ≤ w.toNat ∨ v.toNat % 4 ≠ 0 ∨ 0x01000000 < v.toNat + 4 * ((w :: v :: ws).length - 2)) := by
    rw [List.length_cons, List.length_cons]
    omega
  have open' : ¬ t.runningGuard (namedSlot w) ≠ 0 := by
    rw [taken.runningGuard]
    unfold State.runningGuard
    rw [if_neg other]
    decide
  have goes : t.slotWrite mb.val (w :: v :: ws) true t.runningGuard
      = t.homeProgram mb.val (slotBase (namedSlot w) + v.toNat) 3 (w :: v :: ws) true := (if_neg sized).trans (if_neg open')
  rw [goes]
  unfold State.homeProgram
  extract_lets bs u
  have put : u = t.homePut (slotBase (namedSlot w) + v.toNat) (bytesOf ws) := corePut_slot (by rw [bytesOf_length]; exact inside)
  clear_value bs u
  subst put
  rw [if_pos (by rw [up']; rfl)]
  generalize sent : (t.homePut (slotBase (namedSlot w) + v.toNat) (bytesOf ws)).homeSends _ = r
  have home : r.home = (t.homePut (slotBase (namedSlot w) + v.toNat) (bytesOf ws)).home := by rw [← sent]; rfl
  have reads : r.homeGet = (t.homePut (slotBase (namedSlot w) + v.toNat) (bytesOf ws)).homeGet := by rw [← sent]; rfl
  have box : r.mb mb.val = t.mb mb.val := by
    rw [← sent]
    exact (homeDoes_reads ..).2 _
  obtain ⟨answered, mail⟩ := taken.answered box 0 []
  refine ⟨answered, ?_, fun b out => ?_⟩
  · rw [mail.homeGet, reads]
    exact State.homeGet_homePut_same _ _ up'
  · have kept := State.homePut_same_but (s := t) _ _ b out
    unfold State.homeByte at kept ⊢
    rw [mail.home, home, kept, taken.home]

end

/-! ### O53: what leaves the mailboxes, the key unit and the link alone -/

/-- The mailboxes, the key unit and the link, which a held port and an alarm below ZEROIZE leave alone. -/
def State.boxView (s : State) := (s.mspi, s.keys, s.link)

theorem boxView_parts {s t : State} (same : t.boxView = s.boxView) : t.mspi = s.mspi ∧ t.keys = s.keys ∧ t.link = s.link := by
  simpa only [State.boxView, Prod.mk.injEq] using same

theorem pushEvent_boxView (s : State) (p : Nat) (w : W36) : (s.pushEvent p w).boxView = s.boxView := by
  unfold State.pushEvent
  extract_lets d
  split
  · rfl
  split <;> rfl

theorem setLine_boxView (s : State) (n : Nat) (v : Bool) : (s.setLine n v).boxView = s.boxView :=
  each_same State.boxView (fun _ _ => by rfl) s

theorem takeFlip_boxView (s : State) (p : Nat) : (s.takeFlip p).boxView = s.boxView := by
  unfold State.takeFlip
  extract_lets w g u v
  have flipped : v.boxView = s.boxView := by
    unfold v State.flipsEnd
    split
    · exact setLine_boxView ..
    · rfl
  exact (pushEvent_boxView ..).trans flipped

theorem poolBack_boxView (s : State) (q h n : Nat) : (s.poolBack q h n).boxView = s.boxView := rfl

theorem lvDrop_boxView (s : State) (u : LvUse) : (s.lvDrop u).boxView = s.boxView := rfl

theorem runtimeOff_boxView (s : State) : s.runtimeOff.boxView = s.boxView := by
  unfold State.runtimeOff State.lvBack
  split
  · rfl
  · exact (poolBack_boxView ..).trans ((lvDrop_boxView ..).trans (poolBack_boxView ..))

theorem holdPort_boxView (s : State) (p : Nat) : (s.holdPort p).boxView = s.boxView := by
  unfold State.holdPort
  extract_lets was s1 s2 s3 s4
  have cleared : s2.boxView = s.boxView := rfl
  clear_value s2
  have flipped : s3.boxView = s2.boxView := by
    unfold s3
    split
    · exact takeFlip_boxView ..
    · rfl
  clear_value s3
  have told : s4.boxView = s3.boxView := by
    unfold s4
    split
    · exact pushEvent_boxView ..
    · rfl
  clear_value s4
  split
  · exact (runtimeOff_boxView s4).trans (told.trans (flipped.trans cleared))
  · exact told.trans (flipped.trans cleared)

theorem decided_boxView (s : State) (code rank tkind target data : Nat) : (s.decided code rank tkind target data).boxView = s.boxView := by
  unfold State.decided
  extract_lets _ s1 a _ _ held s2 s3 s4
  have used : s1.boxView = s.boxView := by
    unfold s1 State.dataUsed
    split <;> rfl
  have listed : s2.boxView = s1.boxView := rfl
  clear_value s1 s2
  have ports : s3.boxView = s2.boxView := by
    refine each_same State.boxView (fun u p => ?_) s2
    exact holdPort_boxView u p
  clear_value s3
  have queued : s4.boxView = s3.boxView := rfl
  exact (setLine_boxView ..).trans (queued.trans (ports.trans (listed.trans used)))

/-- An alarm below ZEROIZE leaves the mailboxes, the key unit and the link alone (R374). -/
theorem raise_boxView {s : State} {code rank tkind target data : Nat} (low : rank < 5) :
    (s.raise code rank tkind target data).boxView = s.boxView := by
  unfold State.raise
  extract_lets word s1 s2 s3 _ s4
  have silent : s4 = s3 := if_neg (by omega)
  have clear : s2 = s1 := if_neg (by omega)
  have used : s1.boxView = s.boxView := by
    unfold s1 State.dataUsed
    split <;> rfl
  rw [if_neg (by omega), silent]
  unfold s3
  rw [clear]
  exact (decided_boxView ..).trans used

theorem mb_of_mspi {s t : State} (same : t.mspi = s.mspi) (q : Nat) : t.mb q = s.mb q := by
  unfold State.mb
  rw [same]

theorem OnlyMail.chans {s t : State} (h : OnlyMail s t) : t.chans = s.chans := by
  unfold OnlyMail at h
  have same := congrArg State.chans h
  exact same

theorem OnlyMail.link {s t : State} (h : OnlyMail s t) : t.link = s.link := by
  unfold OnlyMail at h
  have same := congrArg State.link h
  exact same

theorem channelWord_of_chans {s t : State} (same : t.chans = s.chans) (n : Nat) : t.channelWord n = s.channelWord n := by
  unfold State.channelWord State.ch
  rw [same]

/-! ### O53: reinstating a channel (R416, R425) -/

/-- A channel that is in service again, its bucket empty. -/
def Chan.back (c : Chan) : Chan := { c with state := .inService, bucket := 0, try_ := 0 }

/-- What is not a sequencer, a lane or the home port is in service again with no mailbox and no home flash touched. -/
theorem reinstated_back {s : State} {k : ChannelKind} (i : Nat) (other : k ≠ .sequencer) :
    (s.reinstated k i).ch (chanKey k i) = (s.ch (chanKey k i)).back ∧ (s.reinstated k i).mspi = s.mspi
      ∧ (s.reinstated k i).home = s.home := by
  have back : ∀ key, (s.chU key fun c => { c with state := .inService, bucket := 0, try_ := 0 }).ch key = (s.ch key).back :=
    fun key => State.chU_ch_same ..
  have held : ∀ key, ((s.chU key fun c => { c with state := .inService, bucket := 0, try_ := 0 }).holdPort i).ch key = (s.ch key).back
      ∧ ((s.chU key fun c => { c with state := .inService, bucket := 0, try_ := 0 }).holdPort i).mspi = s.mspi
      ∧ ((s.chU key fun c => { c with state := .inService, bucket := 0, try_ := 0 }).holdPort i).home = s.home := fun key => by
    refine ⟨?_, (boxView_parts (holdPort_boxView ..)).1, (Keeps.refl : Keeps .spared _ _).holdPort nofun |>.home⟩
    have view := holdPort_wakeView (s.chU key fun c => { c with state := .inService, bucket := 0, try_ := 0 }) i
    simp only [State.wakeView, Prod.mk.injEq] at view
    obtain ⟨-, -, -, -, chans⟩ := view
    unfold State.ch at back ⊢
    rw [chans]
    exact back key
  cases k with
  | sequencer => exact absurd rfl other
  | port => exact held (chanKey .port i)
  | flash => exact held (chanKey .flash i)
  | engine => exact ⟨back _, rfl, rfl⟩
  | link => exact ⟨back _, rfl, rfl⟩
  | stand => exact ⟨back _, rfl, rfl⟩
  | lane => exact ⟨back _, rfl, rfl⟩
  | home => exact ⟨back _, rfl, rfl⟩

section
variable {s : State} {mb : MailboxId} {tag : Byte} {w v : W32} {ws : List W32} {k : ChannelKind} {i : Nat}

theorem reinstate_runs {P : State → Prop} {probes : BitVec 3} (own : mb.val ≠ 0) (runs : s.Runs mb 0x6A tag [w])
    (names : channelArg [w] = some (k, i)) (lane : k ≠ .lane) (home : k ≠ .home) (retired : (s.ch (chanKey k i)).state = .retired)
    (ends : ∀ t, Taken s t mb.val tag → t.ch (chanKey k i) = s.ch (chanKey k i) →
      P (if probes ≠ 7 then t.answer mb.val 0x1004 [] else
        ((t.reinstated k i).logRec 0x31 (t.retireBody 2 k i 0 0)).answer mb.val 0
          [((t.reinstated k i).logRec 0x31 (t.retireBody 2 k i 0 0)).channelWord (chanKey k i)])) :
    Completes (.cmdReinstate mb probes) s P := by
  refine .ofEndsIn (o := execCmdReinstate mb probes s) rfl (.shentiha own runs rfl fun t taken => ?_)
  have same : t.ch (chanKey k i) = s.ch (chanKey k i) := by
    obtain ⟨_, _, _, _, rfl⟩ := taken.only
    rfl
  have out := ends t taken same
  dsimp only
  rw [names]
  dsimp only
  rw [same, retired, if_neg (by simp [lane, home]), if_neg (by decide)]
  simpa using out

/-- The answer to a REINSTATE reports the channel as it leaves it. -/
theorem reinstate_answered {t u : State} {body : List Byte} {n : Nat} (taken : Taken s t mb.val tag) (mspi : u.mspi = t.mspi) :
    let v := (u.logRec 0x31 body).answer mb.val 0 [(u.logRec 0x31 body).channelWord n]
    Answered s v mb.val tag 0 [v.channelWord n] ∧ v.ch n = u.ch n ∧ v.home = u.home := by
  have box : (u.logRec 0x31 body).mb mb.val = t.mb mb.val := mb_of_mspi mspi _
  obtain ⟨answered, mail⟩ := taken.answered box 0 [(u.logRec 0x31 body).channelWord n]
  refine ⟨?_, ?_, mail.home⟩
  · rw [channelWord_of_chans mail.chans]
    exact answered
  · unfold State.ch
    rw [mail.chans]
    rfl

theorem reinstate_serves (own : mb.val ≠ 0) (runs : s.Runs mb 0x6A tag [w]) (names : channelArg [w] = some (k, i)) (lane : k ≠ .lane)
    (home : k ≠ .home) (retired : (s.ch (chanKey k i)).state = .retired) (other : k ≠ .sequencer) :
    Completes (.cmdReinstate mb 7) s fun t =>
      Answered s t mb.val tag 0 [t.channelWord (chanKey k i)] ∧ (t.ch (chanKey k i)).state = .inService
        ∧ (t.ch (chanKey k i)).bucket = 0 ∧ t.home = s.home := by
  refine reinstate_runs own runs names lane home retired fun t taken _ => ?_
  rw [if_neg (by decide)]
  obtain ⟨back, mspi, kept⟩ := reinstated_back (s := t) i other
  obtain ⟨answered, chan, home'⟩ := reinstate_answered (body := t.retireBody 2 k i 0 0) (n := chanKey k i) taken mspi
  rw [chan, back]
  exact ⟨answered, rfl, rfl, home'.trans (kept.trans taken.home)⟩

theorem reinstate_waits (own : mb.val ≠ 0) (runs : s.Runs mb 0x6A tag [w]) (names : channelArg [w] = some (.sequencer, i))
    (retired : (s.ch (chanKey .sequencer i)).state = .retired) (open' : ((sheafPorts i).all fun p => s.heldNow p) = false) :
    Completes (.cmdReinstate mb 7) s fun t =>
      Answered s t mb.val tag 0 [t.channelWord (chanKey .sequencer i)] ∧ (t.ch (chanKey .sequencer i)).state = .retired
        ∧ (t.ch (chanKey .sequencer i)).bucket = 0 := by
  refine reinstate_runs own runs names nofun nofun retired fun t taken same => ?_
  rw [if_neg (by decide)]
  have held : ((sheafPorts i).all fun p => t.heldNow p) = false := by
    obtain ⟨_, _, _, _, rfl⟩ := taken.only
    exact open'
  have only : t.reinstated .sequencer i = t.chU (chanKey .sequencer i) fun c => { c with bucket := 0 } := by
    unfold State.reinstated
    simp only [held, Bool.false_eq_true, if_false]
  rw [only]
  obtain ⟨answered, chan, -⟩ := reinstate_answered (u := t.chU (chanKey .sequencer i) fun c => { c with bucket := 0 })
    (body := t.retireBody 2 .sequencer i 0 0) (n := chanKey .sequencer i) taken rfl
  rw [chan, State.chU_ch_same, same]
  exact ⟨answered, retired, rfl⟩

theorem reinstate_refused {probes : BitVec 3} (own : mb.val ≠ 0) (runs : s.Runs mb 0x6A tag [w]) (names : channelArg [w] = some (k, i))
    (lane : k ≠ .lane) (home : k ≠ .home) (retired : (s.ch (chanKey k i)).state = .retired) (bad : probes ≠ 7) :
    Completes (.cmdReinstate mb probes) s fun t => Told s t mb.val tag 0x1004 [] := by
  refine reinstate_runs own runs names lane home retired fun t taken _ => ?_
  rw [if_pos bad]
  exact taken.told ..

/-! ### O53: a flow that is cancelled (R473) -/

theorem flU_fl (s : State) (p : Nat) (f : Flow → Flow) : (s.flU p f).fl p = f (s.fl p) := Tab.get_upd_same ..

theorem flowEnd_parts (s : State) (n : Nat) (st : FlowSt) (reason : Nat) :
    (s.flowEnd n st reason).mspi = s.mspi ∧ ((s.flowEnd n st reason).fl n).st = st
      ∧ ((s.flowEnd n st reason).fl n).reason = BitVec.ofNat 16 reason := by
  unfold State.flowEnd
  extract_lets f s1 s2 s3 s4 s5
  have dropped : s1.mspi = s.mspi := rfl
  have back : s2.mspi = s1.mspi := by
    unfold s2
    split <;> rfl
  clear_value s1 s2
  have groups : s3.mspi = s2.mspi := by
    obtain ⟨gran, leave, only⟩ := returnGroups_onlyGroups s2 4 n none
    unfold s3
    rw [only]
  clear_value s3
  have staged : s4.mspi = s3.mspi := by
    unfold s4
    split <;> rfl
  clear_value s4
  have left : s5.mspi = s4.mspi := by
    unfold s5
    split <;> rfl
  clear_value s5
  have ended : (s5.flU n fun f => { f with
      st := st, reason := BitVec.ofNat 16 reason, token := false, cancel := false, check := none, stepNo := 0 }).fl n
      = { s5.fl n with st := st, reason := BitVec.ofNat 16 reason, token := false, cancel := false, check := none, stepNo := 0 } :=
    flU_fl ..
  exact ⟨left.trans (staged.trans (groups.trans (back.trans dropped))), congrArg Flow.st ended, congrArg Flow.reason ended⟩

theorem OnlyMail.fl {t : State} (h : OnlyMail s t) (n : Nat) : t.fl n = s.fl n := by
  unfold State.fl
  rw [h.link]

theorem recoverCancel_runs {P : State → Prop} (own : mb.val ≠ 0) (runs : s.Runs mb 0x5A tag [w]) (key : flowKeyOk w.toNat = true)
    (ends : ∀ t, Taken s t mb.val tag → t.link = s.link → P ((if (s.fl w.toNat).active ∧ (s.fl w.toNat).stepNo % 2 = 1
        ∧ (s.fl w.toNat).stepNo < 10 ∧ ((s.fl w.toNat).st = .erasing ∨ (s.fl w.toNat).st = .programming)
      then t.flU w.toNat fun f => { f with cancel := true } else t.flowFail w.toNat 1).answer mb.val 0 [])) :
    Completes (.cmdRecoverCancel mb) s P := by
  refine .ofEndsIn (o := execCmdRecoverCancel mb s) rfl (.shentiha own runs rfl fun t taken => ?_)
  have index : arg [w] 1 = w.toNat := rfl
  have link : t.link = s.link := by
    obtain ⟨_, _, _, _, rfl⟩ := taken.only
    rfl
  have flow : t.fl w.toNat = s.fl w.toNat := by
    unfold State.fl
    rw [link]
  have out := ends t taken link
  dsimp only
  rw [index, key, flow]
  exact out

theorem recoverCancel_ends (own : mb.val ≠ 0) (runs : s.Runs mb 0x5A tag [w]) (key : flowKeyOk w.toNat = true)
    (active : (s.fl w.toNat).active = true) (between : (s.fl w.toNat).stepNo % 2 = 0) (closed : s.xferOpen (s.fl w.toNat).xfer = false) :
    Completes (.cmdRecoverCancel mb) s fun t =>
      Answered s t mb.val tag 0 [] ∧ (t.fl w.toNat).st = .failed ∧ (t.fl w.toNat).reason = 1 := by
  refine recoverCancel_runs own runs key fun t taken link => ?_
  rw [if_neg (by omega)]
  have fails : t.flowFail w.toNat 1 = t.flowEnd w.toNat .failed 1 := by
    unfold State.flowFail State.xferOpen State.fl at *
    rw [link]
    simp only [active, closed, Bool.not_true, Bool.false_eq_true, if_false]
  obtain ⟨mspi, st, reason⟩ := flowEnd_parts t w.toNat .failed 1
  rw [fails]
  obtain ⟨answered, mail⟩ := taken.answered (mb_of_mspi mspi _) 0 []
  rw [mail.fl]
  exact ⟨answered, st, reason⟩

theorem recoverCancel_waits (own : mb.val ≠ 0) (runs : s.Runs mb 0x5A tag [w]) (key : flowKeyOk w.toNat = true)
    (active : (s.fl w.toNat).active = true) (step : (s.fl w.toNat).stepNo % 2 = 1) (early : (s.fl w.toNat).stepNo < 10)
    (works : (s.fl w.toNat).st = .erasing ∨ (s.fl w.toNat).st = .programming) :
    Completes (.cmdRecoverCancel mb) s fun t =>
      Answered s t mb.val tag 0 [] ∧ (t.fl w.toNat).cancel = true ∧ (t.fl w.toNat).st = (s.fl w.toNat).st := by
  refine recoverCancel_runs own runs key fun t taken link => ?_
  rw [if_pos ⟨active, step, early, works⟩]
  obtain ⟨answered, mail⟩ := taken.answered (u := t.flU w.toNat fun f => { f with cancel := true }) rfl 0 []
  have marked : (t.flU w.toNat fun f => { f with cancel := true }).fl w.toNat = { t.fl w.toNat with cancel := true } := flU_fl ..
  have flow : t.fl w.toNat = s.fl w.toNat := by
    unfold State.fl
    rw [link]
  rw [mail.fl, marked, flow]
  exact ⟨answered, rfl, rfl⟩

/-! ### O53: the peers of the link (R432) -/

theorem linkPeer_taken (own : mb.val ≠ 0) (runs : s.Runs mb 0x60 tag (w :: ws)) (length : ws.length = 2)
    (names : w = 0x100 ∨ w = 0x101 ∨ w = 0x200 ∨ w = 0x201) (small : arg (w :: ws) 3 < 65536) :
    Completes (.cmdLinkPeer mb) s fun t =>
      Answered s t mb.val tag 0 [] ∧ Tab.get [] t.link.peers (2 * (w.toNat / 256) + w.toNat % 2) = (bytesOf ws).take 6 := by
  refine .ofEndsIn (o := execCmdLinkPeer mb s) rfl (.shentiha own runs (decide_eq_true (by simp [length])) fun t taken => ?_)
  have formed : ¬ (w &&& ~~~ 0x00000301 ≠ 0 ∨ bitsOf w.toNat 9 8 = 0 ∨ bitsOf w.toNat 9 8 = 3 ∨ 65536 ≤ arg (w :: ws) 3)
      ∧ bitsOf w.toNat 9 8 = w.toNat / 256 := by
    refine ⟨?_, ?_⟩
    · rw [not_or, not_or, not_or]
      refine ⟨?_, ?_, ?_, by omega⟩ <;> obtain rfl | rfl | rfl | rfl := names <;> decide
    · obtain rfl | rfl | rfl | rfl := names <;> decide
  obtain ⟨goes, role⟩ := formed
  have index : arg (w :: ws) 1 = w.toNat := rfl
  have head : (w :: ws).getD 0 0 = w := rfl
  dsimp only
  rw [index, head, if_neg goes, role]
  obtain ⟨answered, mail⟩ := taken.answered (u := { t with link := { t.link with
    peers := Tab.put [] t.link.peers (2 * (w.toNat / 256) + w.toNat % 2) ((bytesOf ((w :: ws).drop 1)).take 6) } }) rfl 0 []
  refine ⟨answered, ?_⟩
  rw [mail.link]
  exact Tab.get_put_same ..

end

/-! ### O53: frames that ask for an object (R434, R441) -/

/-- `t` is `s` after frames were sent and groups drawn for a transfer: no flow, mailbox, port or byte of the home flash has changed. -/
def Pulls (s t : State) : Prop :=
  ∃ lanes xfers gran leave alarms cores fresh linkOut, t = { s with
    link := { s.link with lanes := lanes, xfers := xfers }, gran := gran, leave := leave, alarms := alarms, cores := cores,
    fresh := fresh, linkOut := linkOut }

section
variable {s0 s t : State} {p x : Nat}

theorem Pulls.refl : Pulls s s := ⟨s.link.lanes, s.link.xfers, s.gran, s.leave, s.alarms, s.cores, s.fresh, s.linkOut, rfl⟩

theorem Pulls.trans (h : Pulls s0 s) (k : Pulls s t) : Pulls s0 t := by
  obtain ⟨_, _, _, _, _, _, _, _, rfl⟩ := h
  obtain ⟨lanes, xfers, gran, leave, alarms, cores, fresh, linkOut, rfl⟩ := k
  exact ⟨lanes, xfers, gran, leave, alarms, cores, fresh, linkOut, rfl⟩

theorem Pulls.parts (h : Pulls s t) : t.mspi = s.mspi ∧ t.home = s.home ∧ t.pgran = s.pgran ∧ t.link.flows = s.link.flows := by
  obtain ⟨_, _, _, _, _, _, _, _, rfl⟩ := h
  exact ⟨rfl, rfl, rfl, rfl⟩

theorem OnlyAlarms.form (h : OnlyAlarms s t) : ∃ alarms cores fresh, t = { s with alarms := alarms, cores := cores, fresh := fresh } :=
  ⟨t.alarms, t.cores, t.fresh, congrArg (fun u : State => { u with alarms := t.alarms, cores := t.cores, fresh := t.fresh }) h⟩

theorem OnlyAlarms.pulls (h : OnlyAlarms s t) : Pulls s t := by
  obtain ⟨alarms, cores, fresh, rfl⟩ := h.form
  exact ⟨s.link.lanes, s.link.xfers, s.gran, s.leave, alarms, cores, fresh, s.linkOut, rfl⟩

theorem lnU_pulls (s : State) (l : Nat) (f : LaneLink → LaneLink) : Pulls s (s.lnU l f) :=
  ⟨_, s.link.xfers, s.gran, s.leave, s.alarms, s.cores, s.fresh, s.linkOut, rfl⟩

theorem xfU_pulls (s : State) (x : Nat) (f : Xfer → Xfer) : Pulls s (s.xfU x f) :=
  ⟨s.link.lanes, _, s.gran, s.leave, s.alarms, s.cores, s.fresh, s.linkOut, rfl⟩

/-- A counter that is full raises a NOTE at most (R10). -/
theorem maxNote_pulls (s : State) (w old new tkind target : Nat) : Pulls s (s.maxNote w old new tkind target) := by
  unfold State.maxNote
  split
  · exact (raise_low s (by decide)).1.pulls
  · exact .refl

theorem emit_pulls (s : State) (f : TxFrame) : Pulls s (s.emit f) := by
  unfold State.emit
  extract_lets k n u v
  have told : Pulls s u := lnU_pulls ..
  have sent : Pulls u v := ⟨u.link.lanes, u.link.xfers, u.gran, u.leave, u.alarms, u.cores, u.fresh, _, rfl⟩
  clear_value u v
  exact told.trans (sent.trans ((lnU_pulls ..).trans (maxNote_pulls ..)))

theorem tx_pulls (s : State) (lane type flags xfer index : Nat) (payload : List Byte) :
    Pulls s (s.tx lane type flags xfer index payload) := by
  unfold State.tx
  extract_lets f k
  split
  · exact .refl
  split
  · exact emit_pulls ..
  · exact lnU_pulls ..

theorem pull_pulls (s : State) (x lane op kind first count : Nat) (ref : List Byte) : Pulls s (s.pull x lane op kind first count ref) :=
  tx_pulls ..

/-- Groups drawn for STAGING change the Granary and its pool alone (R249). -/
theorem stageBlock_onlyGroups {a : Nat} (e : s.stageBlock p a = some t) : OnlyGroups s t := by
  unfold State.stageBlock at e
  split at e
  · cases e
    exact ⟨s.gran, s.leave, rfl⟩
  · split at e
    · next g u taken =>
      have drawn : OnlyGroups s u := by
        unfold State.takeGroup at taken
        split at taken
        · split at taken
          · cases taken
            exact (poolGrant_onlyGroups ..).trans ⟨_, _, rfl⟩
          · cases taken
        · cases taken
      cases e
      exact drawn.trans ⟨_, u.leave, rfl⟩
    · cases e

theorem stageRange_onlyGroups {a n : Nat} (e : s.stageRange p a n = some t) : OnlyGroups s t := by
  have fold : ∀ (l : List Nat) (o : Option State), (∀ u, o = some u → OnlyGroups s u) →
      ∀ u, l.foldl (fun o i => o.bind fun s => s.stageBlock p (2048 * (a / 2048 + i))) o = some u → OnlyGroups s u := by
    intro l
    induction l with
    | nil => exact fun o start => start
    | cons i l ih =>
      refine fun o start => ih _ fun u step => ?_
      obtain ⟨v, from', block⟩ := Option.bind_eq_some_iff.mp step
      exact (start v from').trans (stageBlock_onlyGroups block)
  exact fold _ (some s) (fun u same => Option.some.inj same ▸ ⟨s.gran, s.leave, rfl⟩) t e

theorem OnlyGroups.pulls (h : OnlyGroups s t) : Pulls s t := by
  obtain ⟨gran, leave, rfl⟩ := h
  exact ⟨s.link.lanes, s.link.xfers, gran, leave, s.alarms, s.cores, s.fresh, s.linkOut, rfl⟩

theorem pullMore_pulls (s : State) (x : Nat) : Pulls s (s.pullMore x) := by
  unfold State.pullMore
  extract_lets t todo
  clear_value t todo
  split
  · exact .refl
  extract_lets run
  split
  · exact .refl
  split
  · exact .refl
  · next u drawn =>
    exact (stageRange_onlyGroups drawn).pulls.trans ((pull_pulls ..).trans (xfU_pulls ..))

/-- A transfer that opens is its flow's; nothing else of the flows, the mailboxes, the ports and the home flash changes (R441). -/
theorem xferStart_opens (s : State) (p : Nat) (t : Xfer) :
    (s.xferStart p t).fl p = { s.fl p with xfer := s.link.nextXfer } ∧ (s.xferStart p t).mspi = s.mspi
      ∧ (s.xferStart p t).home = s.home ∧ (s.xferStart p t).pgran = s.pgran := by
  unfold State.xferStart
  extract_lets x t' _ u v
  have opened : v.fl p = { s.fl p with xfer := x } := flU_fl u p _
  have same : v.mspi = s.mspi ∧ v.home = s.home ∧ v.pgran = s.pgran := ⟨rfl, rfl, rfl⟩
  clear_value u v
  obtain ⟨mspi, home, pgran, flows⟩ := ((pull_pulls v x t'.lane 1 t'.kind 0 0 t'.ref).trans (pullMore_pulls _ x)).parts
  refine ⟨?_, mspi.trans same.1, home.trans same.2.1, pgran.trans same.2.2⟩
  unfold State.fl at opened ⊢
  rw [flows, opened]
  rfl

/-! ### O53: a recovery flow begins (R444, R447, R448) -/

/-- A flow that has begun and whose transfer is open is answered with the transfer's XFER (R473). -/
theorem flowStarted_answers {mb : MailboxId} {tag : Byte} {t u : State} {key : Nat} {r : Xfer} (taken : Taken s t mb.val tag)
    (mspi : u.mspi = t.mspi) (next : u.link.nextXfer = s.link.nextXfer) :
    let v := (u.xferStart key r).flowStarted mb.val key
    Answered s v mb.val tag 2 [BitVec.ofNat 32 s.link.nextXfer] ∧ v.fl key = { u.fl key with xfer := s.link.nextXfer }
      ∧ v.home = u.home ∧ v.pgran = u.pgran := by
  obtain ⟨flow, mspi', home, pgran⟩ := xferStart_opens u key r
  generalize u.xferStart key r = v at flow mspi' home pgran
  rw [next] at flow
  have number : (v.fl key).xfer = s.link.nextXfer := by rw [flow]
  obtain ⟨answered, mail⟩ := taken.answered (u := v) (mb_of_mspi (mspi'.trans mspi) _) 2 [BitVec.ofNat 32 (v.fl key).xfer]
  have pg : (v.answer mb.val 2 [BitVec.ofNat 32 (v.fl key).xfer]).pgran = v.pgran := by
    have same := congrArg State.pgran mail
    exact same
  dsimp only
  unfold State.flowStarted
  refine ⟨number ▸ answered, ?_, mail.home.trans home, pg.trans pgran⟩
  rw [mail.fl, flow]

theorem flowBegin_fl (s : State) (key : Nat) (a : RecoverArg) (slot : Slot) (step total : Nat) :
    (s.flowBegin key a slot step total).fl key =
      { reason := (s.fl key).reason, st := .pulling, flow := a.flow, slot := slot, page := a.page, ref := a.ref, stepNo := step,
        total := total } := flU_fl ..

/-- What a RECOVER reads is as it was before the request. -/
theorem Taken.recovers {q : Nat} {tag : Byte} {t : State} (h : Taken s t q tag) (low : q < 8) (a : RecoverArg) :
    t.link = s.link ∧ t.rxRefuses = s.rxRefuses ∧ t.mayReprogram a = s.mayReprogram a ∧ t.mayServe a = s.mayServe a
      ∧ t.restageLeaves a = s.restageLeaves a ∧ t.gran = s.gran ∧ t.pol = s.pol ∧ t.flaws = s.flaws := by
  have refuses : t.rxRefuses = s.rxRefuses := by
    have pools : ∀ l, t.laneUp = some l → t.po (10 + l) = s.po (10 + l) := fun l up => by
      have lane : l < 2 := by
        unfold State.laneUp at up
        split at up
        · cases up
          decide
        · split at up
          · cases up
            decide
          · cases up
      exact h.pools _ (by omega)
    have up : t.laneUp = s.laneUp := by
      obtain ⟨_, _, _, _, rfl⟩ := h.only
      rfl
    unfold State.rxRefuses
    rw [up] at pools ⊢
    split
    · next l lane => rw [pools l lane]
    · rfl
  refine ⟨?_, refuses, ?_, ?_, ?_, ?_, ?_, ?_⟩ <;>
  · obtain ⟨_, _, _, _, rfl⟩ := h.only
    rfl

/-- A last-good digest that fails its parity is void before its read and after it (R89). -/
theorem lastGoodCheck_lastGood (s : State) (p : Nat) : ∃ flaws backup alarms cores fresh,
    s.lastGoodCheck p = { s with flaws := flaws, backup := backup, alarms := alarms, cores := cores, fresh := fresh }
      ∧ (s.lastGoodCheck p).lastGood p = s.lastGood p := by
  unfold State.lastGoodCheck
  split
  · next bad =>
    have void : s.lastGood p = [] := if_pos bad
    obtain ⟨alarms, cores, fresh, alarm⟩ := (raise_low ({ (s.mend fun x => decide (x = .lastGood p)) with
      backup := { s.backup with lastGood := Tab.put [] s.backup.lastGood p [] } } : State)
      (code := 0x0141) (rank := 1) (tkind := 0) (target := 0) (data := noData) (by decide)).1.form
    refine ⟨_, _, alarms, cores, fresh, alarm, (congrArg (fun u : State => u.lastGood p) alarm).trans ?_⟩
    rw [void]
    unfold State.lastGood
    split
    · rfl
    · exact Tab.get_put_same [] s.backup.lastGood p []
  · exact ⟨s.flaws, s.backup, s.alarms, s.cores, s.fresh, rfl, rfl⟩

theorem lastGoodCheck_mayReprogram (s : State) (a : RecoverArg) : (s.lastGoodCheck a.port).mayReprogram a = s.mayReprogram a := by
  obtain ⟨flaws, backup, alarms, cores, fresh, form, good⟩ := lastGoodCheck_lastGood s a.port
  unfold State.mayReprogram
  rw [good, form]
  rfl

variable {mb : MailboxId} {tag : Byte} {ws : List W32} {a : RecoverArg}

theorem recover_runs {P : State → Prop} (own : mb.val ≠ 0) (runs : s.Runs mb 0x58 tag ws) (length : ws.length = 18)
    (formed : recoverArgOk ws = true) (ends : ∀ t, Taken s t mb.val tag → P (t.recover mb.val (recoverArg ws))) :
    Completes (.cmdRecover mb) s P := by
  refine .ofEndsIn (o := execCmdRecover mb s) rfl (.shentiha own runs (decide_eq_true length) fun t taken => ?_)
  rw [if_pos formed]
  exact ends t taken

theorem recover_reprograms {q : Nat} (flow : a.flow = 1 ∨ a.flow = 2) (idle : (s.fl a.port).active = false) (hears : s.rxRefuses = false) :
    s.recover q a = if !s.mayReprogram a then (s.lastGoodCheck a.port).answer q 0x1701 []
      else (((s.lastGoodCheck a.port).flowBegin a.port a (slotOf a.slot) 0 0).xferStart a.port { kind := 1, ref := a.ref }).flowStarted
        q a.port := by
  have key : (if a.flow = 5 then 127 else a.port) = a.port := if_neg (by omega)
  unfold State.recover
  dsimp only
  rw [key, idle, hears, lastGoodCheck_mayReprogram]
  obtain flow | flow := flow <;> rw [flow] <;> rfl

theorem flow_pulls (own : mb.val ≠ 0) (runs : s.Runs mb 0x58 tag ws) (length : ws.length = 18) (formed : recoverArgOk ws = true)
    (hears : s.rxRefuses = false) (flow : (recoverArg ws).flow = 1 ∨ (recoverArg ws).flow = 2)
    (idle : (s.fl (recoverArg ws).port).active = false) (may : s.mayReprogram (recoverArg ws) = true) :
    Completes (.cmdRecover mb) s fun t =>
      Answered s t mb.val tag 2 [BitVec.ofNat 32 s.link.nextXfer] ∧ (t.fl (recoverArg ws).port).st = .pulling
        ∧ (t.fl (recoverArg ws).port).flow = (recoverArg ws).flow ∧ t.home = s.home := by
  refine recover_runs own runs length formed fun t taken => ?_
  generalize recoverArg ws = a at *
  obtain ⟨link, refuses, reprograms, -⟩ := taken.recovers mb.isLt a
  rw [recover_reprograms flow (by unfold State.fl; rw [link]; exact idle) (refuses.trans hears), reprograms, may]
  obtain ⟨flaws, backup, alarms, cores, fresh, form, -⟩ := lastGoodCheck_lastGood t a.port
  obtain ⟨answered, fl, home, -⟩ := flowStarted_answers (key := a.port) (r := { kind := 1, ref := a.ref }) taken
    (u := (t.lastGoodCheck a.port).flowBegin a.port a (slotOf a.slot) 0 0) (by rw [form]; rfl) (by rw [form, ← link]; rfl)
  rw [flowBegin_fl] at fl
  simp only [Bool.not_true, Bool.false_eq_true, if_false]
  refine ⟨answered, by rw [fl], by rw [fl], home.trans ?_⟩
  rw [form]
  exact taken.home

theorem flow_refused (own : mb.val ≠ 0) (runs : s.Runs mb 0x58 tag ws) (length : ws.length = 18) (formed : recoverArgOk ws = true)
    (hears : s.rxRefuses = false) (flow : (recoverArg ws).flow = 1 ∨ (recoverArg ws).flow = 2)
    (idle : (s.fl (recoverArg ws).port).active = false) (may : s.mayReprogram (recoverArg ws) = false)
    (sound : .lastGood (recoverArg ws).port ∉ s.flaws) :
    Completes (.cmdRecover mb) s fun t => Told s t mb.val tag 0x1701 [] := by
  refine recover_runs own runs length formed fun t taken => ?_
  generalize recoverArg ws = a at *
  obtain ⟨link, refuses, reprograms, -, -, -, -, flaws⟩ := taken.recovers mb.isLt a
  have same : t.lastGoodCheck a.port = t := if_neg (by rw [flaws, List.contains_iff_mem]; exact sound)
  rw [recover_reprograms flow (by unfold State.fl; rw [link]; exact idle) (refuses.trans hears), reprograms, may, same]
  exact taken.told ..

theorem restage_pulls {want : List Nat} (own : mb.val ≠ 0) (runs : s.Runs mb 0x58 tag ws) (length : ws.length = 18)
    (formed : recoverArgOk ws = true) (hears : s.rxRefuses = false) (flow : (recoverArg ws).flow = 4)
    (idle : (s.fl (recoverArg ws).port).active = false) (leaves : s.restageLeaves (recoverArg ws) = some want) :
    Completes (.cmdRecover mb) s fun t =>
      Answered s t mb.val tag 2 [BitVec.ofNat 32 s.link.nextXfer] ∧ (t.fl (recoverArg ws).port).st = .pulling
        ∧ (t.fl (recoverArg ws).port).flow = 4 ∧ (t.fl (recoverArg ws).port).total = want.length ∧ t.home = s.home := by
  refine recover_runs own runs length formed fun t taken => ?_
  generalize recoverArg ws = a at *
  obtain ⟨link, refuses, -, -, restages, -⟩ := taken.recovers mb.isLt a
  have idle' : (t.fl a.port).active = false := by
    unfold State.fl
    rw [link]
    exact idle
  have goes : t.recover mb.val a = ((t.flowBegin a.port a (t.chosenSlot a.port) 4 want.length).xferStart a.port
      { kind := 3, ref := a.ref, want := want, len := (t.chosenImage a.port).1, root := (t.chosenImage a.port).2,
        base := ((t.flowBegin a.port a (t.chosenSlot a.port) 4 want.length).slotRegion a.port
          ((t.flowBegin a.port a (t.chosenSlot a.port) 4 want.length).chosenSlot a.port)).1 }).flowStarted mb.val a.port := by
    unfold State.recover
    dsimp only
    rw [if_neg (show ¬ a.flow = 5 by omega), idle', refuses.trans hears, flow, restages.trans leaves]
    rfl
  rw [goes]
  obtain ⟨answered, fl, home, -⟩ := flowStarted_answers (key := a.port) taken
    (u := t.flowBegin a.port a (t.chosenSlot a.port) 4 want.length) rfl (by rw [← link]; rfl)
  rw [flowBegin_fl] at fl
  exact ⟨answered, by rw [fl], by rw [fl, flow], by rw [fl], home.trans taken.home⟩

theorem shelf_pulls (own : mb.val ≠ 0) (runs : s.Runs mb 0x58 tag ws) (length : ws.length = 18) (formed : recoverArgOk ws = true)
    (hears : s.rxRefuses = false) (flow : (recoverArg ws).flow = 5) (idle : (s.fl 127).active = false) :
    Completes (.cmdRecover mb) s fun t =>
      Answered s t mb.val tag 2 [BitVec.ofNat 32 s.link.nextXfer] ∧ (t.fl 127).st = .pulling ∧ (t.fl 127).flow = 5 := by
  refine recover_runs own runs length formed fun t taken => ?_
  generalize recoverArg ws = a at *
  obtain ⟨link, refuses, -⟩ := taken.recovers mb.isLt a
  have idle' : (t.fl 127).active = false := by
    unfold State.fl
    rw [link]
    exact idle
  have goes : t.recover mb.val a = ((t.flowBegin 127 a .a 0 0).xferStart 127 { kind := 4, ref := a.ref }).flowStarted mb.val 127 := by
    unfold State.recover
    dsimp only
    rw [if_pos flow, idle', refuses.trans hears, flow]
    rfl
  rw [goes]
  obtain ⟨answered, fl, -⟩ := flowStarted_answers (key := 127) (r := { kind := 4, ref := a.ref }) taken
    (u := t.flowBegin 127 a .a 0 0) rfl (by rw [← link]; rfl)
  rw [flowBegin_fl] at fl
  exact ⟨answered, by rw [fl], by rw [fl, flow]⟩

/-- One byte lies in one block of STAGING. -/
theorem stageRange_one (s : State) (p n : Nat) : s.stageRange p n 1 = s.stageBlock p (2048 * (n / 2048)) := by
  have blocks : (n + 1 + 2047) / 2048 - n / 2048 = 1 := by omega
  unfold State.stageRange
  rw [blocks]
  rfl

/-- Whether a block of STAGING can be had depends on the Granary and its pool alone. -/
theorem stageBlock_isSome {n : Nat} (gran : t.gran = s.gran) (pool : t.po 9 = s.po 9) :
    (t.stageBlock p n).isSome = (s.stageBlock p n).isSome := by
  have free : t.freeGroup = s.freeGroup := by
    unfold State.freeGroup State.page
    rw [gran]
  have grants : t.canGrant 9 8 = s.canGrant 9 8 := by
    unfold State.canGrant
    rw [pool]
  unfold State.stageBlock State.takeGroup
  rw [gran, free, grants]
  cases s.freeGroup <;> cases s.canGrant 9 8 <;> simp only [Bool.false_eq_true, if_false, if_true] <;> split <;> rfl

theorem serveSet_pulls (own : mb.val ≠ 0) (runs : s.Runs mb 0x58 tag ws) (length : ws.length = 18) (formed : recoverArgOk ws = true)
    (hears : s.rxRefuses = false) (flow : (recoverArg ws).flow = 3) (idle : (s.fl (recoverArg ws).port).active = false)
    (may : s.mayServe (recoverArg ws) = true) (signed : polShelf s.pol (recoverArg ws).port = false)
    (room : (s.stageRange (recoverArg ws).port (polRegion s.pol (recoverArg ws).port 0).1 1).isSome = true) :
    Completes (.cmdRecover mb) s fun t =>
      Answered s t mb.val tag 2 [BitVec.ofNat 32 s.link.nextXfer] ∧ (t.fl (recoverArg ws).port).st = .pulling
        ∧ (t.pg (recoverArg ws).port).setState = .staging ∧ t.home = s.home := by
  refine recover_runs own runs length formed fun t taken => ?_
  generalize recoverArg ws = a at *
  obtain ⟨link, refuses, -, serves, -, gran, pol, -⟩ := taken.recovers mb.isLt a
  have idle' : (t.fl a.port).active = false := by
    unfold State.fl
    rw [link]
    exact idle
  have signed' : polShelf t.pol a.port = false := by rw [pol]; exact signed
  have low := mb.isLt
  have pool : (t.flowBegin a.port a (slotOf a.slot) 0 0).po 9 = s.po 9 := taken.pools 9 (by omega)
  have drawn : ((t.flowBegin a.port a (slotOf a.slot) 0 0).stageRange a.port (polRegion t.pol a.port 0).1 1).isSome = true := by
    have kept : (t.flowBegin a.port a (slotOf a.slot) 0 0).gran = s.gran := gran
    rw [stageRange_one, stageBlock_isSome kept pool, ← stageRange_one, pol]
    exact room
  obtain ⟨u, stage⟩ := Option.isSome_iff_exists.mp drawn
  have goes : t.recover mb.val a = ((u.pgU a.port fun g => { g with setState := .staging }).xferStart a.port
      { kind := 1, ref := a.ref }).flowStarted mb.val a.port := by
    have serve : (t.flowBegin a.port a (slotOf a.slot) 0 0).serveStage a = some u := by
      have kept : (t.flowBegin a.port a (slotOf a.slot) 0 0).pol = t.pol := rfl
      unfold State.serveStage
      rw [kept]
      simp only [signed', Bool.false_eq_true, if_false]
      exact stage
    unfold State.recover
    dsimp only
    rw [if_neg (show ¬ a.flow = 5 by omega), idle', refuses.trans hears, flow]
    simp only [serves.trans may, signed', Bool.toNat_false, Bool.not_true, Bool.false_eq_true, if_false, serve]
  rw [goes]
  obtain ⟨gran', leave, rfl⟩ := stageRange_onlyGroups stage
  obtain ⟨answered, fl, home, pgran⟩ := flowStarted_answers (key := a.port) (r := { kind := 1, ref := a.ref }) taken
    (u := State.pgU { t.flowBegin a.port a (slotOf a.slot) 0 0 with gran := gran', leave := leave } a.port
      fun g => { g with setState := .staging }) rfl (by rw [← link]; rfl)
  have flow' := flowBegin_fl t a.port a (slotOf a.slot) 0 0
  refine ⟨answered, ?_, ?_, home.trans taken.home⟩
  · rw [fl]
    exact congrArg Flow.st flow'
  · unfold State.pg
    rw [pgran]
    exact congrArg PGran.setState (State.pgU_pg_same ..)

theorem serveSet_refused (own : mb.val ≠ 0) (runs : s.Runs mb 0x58 tag ws) (length : ws.length = 18) (formed : recoverArgOk ws = true)
    (hears : s.rxRefuses = false) (flow : (recoverArg ws).flow = 3) (idle : (s.fl (recoverArg ws).port).active = false)
    (may : s.mayServe (recoverArg ws) = false) : Completes (.cmdRecover mb) s fun t => Told s t mb.val tag 0x1701 [] := by
  refine recover_runs own runs length formed fun t taken => ?_
  generalize recoverArg ws = a at *
  obtain ⟨link, refuses, -, serves, -⟩ := taken.recovers mb.isLt a
  have idle' : (t.fl a.port).active = false := by
    unfold State.fl
    rw [link]
    exact idle
  have goes : t.recover mb.val a = t.answer mb.val 0x1701 [] := by
    unfold State.recover
    dsimp only
    rw [if_neg (show ¬ a.flow = 5 by omega), idle', refuses.trans hears, flow, serves.trans may]
    rfl
  rw [goes]
  exact taken.told ..

end

/-! ### O53: a handover is prepared (R420, R425) -/

section
variable {s : State} {mb : MailboxId} {tag : Byte} {w : W32} {q : Nat}

theorem handoverPrepare_runs {P : State → Prop} (own : mb.val ≠ 0) (runs : s.Runs mb 0x68 tag [w]) (low : w.toNat < 2)
    (free : s.verdictBusy = false) (idle : s.hand.state = .idle)
    (ends : ∀ t, Taken s t mb.val tag → P (if namedSlot w = s.hand.running then t.answer mb.val 0x1004 []
      else if !s.newBundleOk (namedSlot w) then t.answer mb.val 0x3E01 [] else t.handoverCheck mb.val (namedSlot w))) :
    Completes (.cmdHandoverPrepare mb) s P := by
  refine .ofEndsIn (o := execCmdHandoverPrepare mb s) rfl (.shentiha own runs rfl fun t taken => ?_)
  have index : arg [w] 1 = w.toNat := rfl
  obtain ⟨busy, hand, good⟩ : t.verdictBusy = s.verdictBusy ∧ t.hand = s.hand ∧ t.newBundleOk (namedSlot w) = s.newBundleOk (namedSlot w) := by
    obtain ⟨_, _, _, _, rfl⟩ := taken.only
    exact ⟨rfl, rfl, rfl⟩
  have out := ends t taken
  rw [← hand, ← good] at out
  have goes : ¬ (t.verdictBusy = true ∨ t.hand.state ≠ .idle) := by
    rw [busy, hand, free, idle]
    simp
  dsimp only
  rw [index, if_neg (Nat.not_le.mpr low), if_neg goes]
  exact out

/-- A header that passes its form is given to an engine; the handover is CHECKING (R420). -/
theorem handoverCheck_verifies {t : State} (taken : Taken s t q tag) {x : Slot} (engine : s.onEngine (cScheme (s.bundleHeader x)) = true) :
    InProgress (t.handoverCheck q x) q tag ∧ (t.handoverCheck q x).Verifying (jobOf (.handover q) (s.bundleHeader x))
      ∧ (t.handoverCheck q x).hand.state = .checking ∧ (t.handoverCheck q x).hand.slot = x
      ∧ (t.handoverCheck q x).boot.lead = s.boot.lead := by
  obtain ⟨header, left⟩ : t.bundleHeader x = s.bundleHeader x ∧ t.engineLeft = s.engineLeft := by
    obtain ⟨_, _, _, _, rfl⟩ := taken.only
    exact ⟨rfl, rfl⟩
  obtain ⟨scheme, able⟩ := Bool.and_eq_true_iff.mp engine
  have hash : hashScheme (jobOf (.handover q) (s.bundleHeader x)).scheme = false := (Bool.not_eq_true' _).mp scheme
  unfold State.handoverCheck
  rw [header]
  extract_lets h u _ v
  have box : (v.mb q).tag = some tag := by
    have same : v.mb q = u.mb q := rfl
    rw [same, State.mbU_mb_same]
    exact taken.tag
  have parts : v.engineLeft = true ∧ v.hand.state = .checking ∧ v.hand.slot = x ∧ v.boot = s.boot :=
    ⟨left.trans able, rfl, rfl, taken.boot⟩
  clear_value u v
  obtain ⟨able', checking, slot, boot⟩ := parts
  unfold State.verify
  rw [if_neg (by rw [hash]; decide), if_neg (by rw [able']; decide)]
  obtain ⟨⟨verify, leave, engines, form⟩, -⟩ :=
    verStart_form ({ v with wake := { v.wake with verify := v.wake.verify ++ [jobOf (.handover q) h] } } : State)
  have live : ({ v with wake := { v.wake with verify := v.wake.verify ++ [jobOf (.handover q) h] } } : State).verLive
      (jobOf (.handover q) h) = true := decide_eq_true checking
  have runs := (verStart_spec (j := jobOf (.handover q) h) rfl (List.mem_append_right _ (List.mem_singleton.mpr rfl)) live).1
  refine ⟨?_, runs, ?_⟩
  · unfold InProgress
    rw [form]
    exact box
  · rw [form]
    exact ⟨checking, slot, congrArg Boot.lead boot⟩

theorem handoverPrepare_checks (own : mb.val ≠ 0) (runs : s.Runs mb 0x68 tag [w]) (low : w.toNat < 2) (free : s.verdictBusy = false)
    (idle : s.hand.state = .idle) (other : namedSlot w ≠ s.hand.running) (good : s.newBundleOk (namedSlot w) = true)
    (engine : s.onEngine (cScheme (s.bundleHeader (namedSlot w))) = true) :
    Completes (.cmdHandoverPrepare mb) s fun t =>
      InProgress t mb.val tag ∧ t.Verifying (jobOf (.handover mb.val) (s.bundleHeader (namedSlot w))) ∧ t.hand.state = .checking
        ∧ t.hand.slot = namedSlot w ∧ t.boot.lead = s.boot.lead := by
  refine handoverPrepare_runs own runs low free idle fun t taken => ?_
  rw [if_neg other, good, if_neg (by decide)]
  exact handoverCheck_verifies taken engine

theorem handoverPrepare_refused (own : mb.val ≠ 0) (runs : s.Runs mb 0x68 tag [w]) (low : w.toNat < 2) (free : s.verdictBusy = false)
    (idle : s.hand.state = .idle) :
    (namedSlot w ≠ s.hand.running → s.newBundleOk (namedSlot w) = false → Completes (.cmdHandoverPrepare mb) s fun t =>
        Told s t mb.val tag 0x3E01 [])
      ∧ (namedSlot w = s.hand.running → Completes (.cmdHandoverPrepare mb) s fun t => Told s t mb.val tag 0x1004 []) := by
  refine ⟨fun other bad => ?_, fun same => ?_⟩
  · refine handoverPrepare_runs own runs low free idle fun t taken => ?_
    rw [if_neg other, bad, if_pos (by decide)]
    exact taken.told ..
  · refine handoverPrepare_runs own runs low free idle fun t taken => ?_
    rw [if_pos same]
    exact taken.told ..

/-! ### O53: the header's signature has been verified (R229, R319, R420) -/

/-- A command in progress is a request that has been taken. -/
theorem Taken.already (tagged : (s.mb q).tag = some tag) (hears : (s.mb q).aborted = false) : Taken s s q tag :=
  ⟨⟨s.mspi.boxes, s.mspi.lastServed, s.leave, s.cores, rfl⟩, tagged, hears, rfl, fun _ _ => rfl, rfl⟩

theorem handoverAnswer_answers {u : State} (taken : Taken s s q tag) (call : (s.mb q).call.map (·.code) = some 0x68)
    (mspi : u.mspi = s.mspi) (status : Nat) :
    Answered s (u.handoverAnswer q status) q tag status [] ∧ OnlyMail u (u.handoverAnswer q status) := by
  have box : u.mb q = s.mb q := mb_of_mspi mspi q
  have goes : u.handoverAnswer q status = u.answer q status [] := if_pos (by rw [box]; exact call)
  rw [goes]
  exact taken.answered box status []

/-- Where no operation of LEAD waits, a free engine is given to a verification at most. -/
theorem engineFreed_form (idle : s.keys.tasks = []) : ∃ verify leave engines,
    s.engineFreed = { s with wake := { s.wake with verify := verify }, leave := leave, engines := engines } := by
  obtain ⟨⟨verify, leave, engines, form⟩, -⟩ := verStart_form s
  have tasks : s.verStart.keys.tasks = [] := by
    rw [form]
    exact idle
  have freed : s.engineFreed = s.verStart := by
    unfold State.engineFreed State.taskNext
    rw [tasks]
  exact ⟨verify, leave, engines, freed.trans form⟩

/-- The last part of the verification of a handover's header ends. -/
theorem headerEnds_run {e : EngineId} {j : ChainJob} (busy : (s.en e.val).state = .busy) (chain : (s.en e.val).chain = some j)
    (last : (hybridParts j.scheme).isNone = true ∨ j.second = true) (use : j.use = .handover q) (checking : s.hand.state = .checking) :
    ∃ u, (∃ leave engines, u = { s with leave := leave, engines := engines }) ∧ u.po 8 = s.po 8
      ∧ exec (.kernelOperationDone e false) s = .next (u.handoverChecked q (sigVerifies j.scheme j.digest j.block)).engineFreed := by
  refine ⟨(s.poolBack 0 e.val (s.holds 0 e.val)).enU e.val fun k => { k with state := .idle, mem := [], chain := none },
    ⟨_, _, rfl⟩, State.poU_po_ne _ _ _ _ (by decide), ?_⟩
  change execKernelOperationDone e false s = _
  unfold execKernelOperationDone
  extract_lets k
  have parts : ((hybridParts j.scheme).isSome && !j.second && !false) = false := by
    obtain single | second := last
    · rw [Option.isNone_iff_eq_none.mp single]
      rfl
    · rw [second]
      simp
  rw [if_neg (by simp), if_neg (not_not.mpr busy), chain]
  dsimp only
  unfold State.chainEnd
  rw [parts, if_neg (by decide)]
  extract_lets u v
  have live : v.verLive { j with second := false } = true := by
    have waits : decide (v.hand.state = .checking) = true := decide_eq_true checking
    unfold State.verLive
    dsimp only
    rw [use]
    exact waits
  rw [if_neg (by decide)]
  split
  · next p port =>
    rw [use] at port
    cases port
  · rw [if_pos live]
    unfold State.verDone
    rw [use]

/-- The service lane is that of its schedule and lanes; a free engine or a core in reset does not change it. -/
theorem serviceLane_of_parts {t : State} (boot : t.boot = s.boot) (chans : t.chans = s.chans) (wake : t.wake.lanes = s.wake.lanes)
    (pool : t.po 8 = s.po 8) : t.serviceLane = s.serviceLane := by
  have want : t.runtimeWant = s.runtimeWant := by
    unfold State.runtimeWant State.runtimeFive State.lanesLeft State.chanRetired State.ch
    rw [chans, wake]
  have five : t.runtimeFive = s.runtimeFive := by
    unfold State.runtimeFive State.lanesLeft State.chanRetired State.ch
    rw [chans]
  have holds : t.holds 8 1 = s.holds 8 1 := by
    unfold State.holds
    rw [pool]
  unfold State.serviceLane State.runtimeLanes
  rw [boot, five, want, holds]

/-- The header has passed: Y is in reset and zeroed, and the handover LOADING (R420). -/
def State.handLoading (s : State) : State :=
  { s.coresOff [(s.secondCore, s.secondCore)] with hand := { s.hand with state := .loading } }

theorem handLoading_form (s : State) : ∃ mems flaws cores, s.handLoading
    = { s with mems := mems, flaws := flaws, cores := cores, hand := { s.hand with state := .loading } } := by
  obtain ⟨mems, flaws, cores, off⟩ := coresOff_form s [(s.secondCore, s.secondCore)]
  unfold State.handLoading
  rw [off]
  exact ⟨mems, flaws, cores, rfl⟩

theorem handoverChecked_passes (s : State) (q : Nat) : s.handoverChecked q true
    = (if s.handLoading.serviceLane.isSome then s.handLoading.svcAsk .image else s.handLoading.handoverLoad).handoverAnswer q 2 := rfl

/-- The handover's answer stands after a free engine has been given to a verification. -/
theorem handoverAnswer_freed {u : State} (taken : Taken s s q tag) (call : (s.mb q).call.map (·.code) = some 0x68)
    (idle : s.keys.tasks = []) (mspi : u.mspi = s.mspi) (keys : u.keys = s.keys) (boot : u.boot = s.boot) (status : Nat) :
    let t := (u.handoverAnswer q status).engineFreed
    Answered s t q tag status [] ∧ t.hand = u.hand ∧ t.wake.svcJobs = u.wake.svcJobs ∧ t.boot.lead = s.boot.lead := by
  obtain ⟨answered, mail⟩ := handoverAnswer_answers taken call mspi status
  obtain ⟨verify, leave, engines, form⟩ := engineFreed_form (s := u.handoverAnswer q status) (by rw [mail.keys, keys, idle])
  have hand : (u.handoverAnswer q status).hand = u.hand := by
    have same := congrArg State.hand mail
    exact same
  have jobs : (u.handoverAnswer q status).wake.svcJobs = u.wake.svcJobs := by
    have same := congrArg (fun v : State => v.wake.svcJobs) mail
    exact same
  dsimp only
  rw [form]
  exact ⟨answered, hand, jobs, congrArg Boot.lead (mail.boot.trans boot)⟩

theorem headerEnds_completes {e : EngineId} {j : ChainJob} (busy : (s.en e.val).state = .busy) (chain : (s.en e.val).chain = some j)
    (last : (hybridParts j.scheme).isNone = true ∨ j.second = true) (use : j.use = .handover q) (checking : s.hand.state = .checking)
    (idle : s.keys.tasks = []) (tagged : (s.mb q).tag = some tag) (hears : (s.mb q).aborted = false)
    (call : (s.mb q).call.map (·.code) = some 0x68) :
    (sigVerifies j.scheme j.digest j.block = true → s.serviceLane.isSome = true → Completes (.kernelOperationDone e false) s fun t =>
        Answered s t q tag 2 [] ∧ t.hand.state = .loading ∧ .image ∈ t.wake.svcJobs ∧ t.boot.lead = s.boot.lead)
      ∧ (sigVerifies j.scheme j.digest j.block = false → Completes (.kernelOperationDone e false) s fun t =>
        Answered s t q tag 0x3E01 [] ∧ t.hand.state = .idle ∧ t.boot.lead = s.boot.lead) := by
  obtain ⟨u, ⟨leave, engines, form⟩, pool, run⟩ := headerEnds_run busy chain last use checking
  have taken : Taken s s q tag := .already tagged hears
  refine ⟨fun passes lane => ?_, fun fails => ?_⟩
  · rw [passes, handoverChecked_passes] at run
    have loads : u.handLoading.mspi = s.mspi ∧ u.handLoading.keys = s.keys ∧ u.handLoading.boot = s.boot
        ∧ u.handLoading.hand.state = .loading ∧ u.handLoading.serviceLane = s.serviceLane := by
      obtain ⟨mems, flaws, cores, load⟩ := handLoading_form u
      have pool' : u.handLoading.po 8 = s.po 8 := by
        rw [load]
        exact pool
      refine ⟨?_, ?_, ?_, ?_, serviceLane_of_parts ?_ ?_ ?_ pool'⟩ <;> rw [load] <;> rw [form]
    generalize u.handLoading = v at run loads
    obtain ⟨mspi, keys, boot, loading, same⟩ := loads
    rw [same, if_pos lane] at run
    obtain ⟨answered, hand, jobs, lead⟩ := handoverAnswer_freed (u := v.svcAsk .image) taken call idle mspi keys boot 2
    refine ⟨_, run, answered, hand ▸ loading, ?_, lead⟩
    rw [jobs]
    exact List.mem_append_right _ (List.mem_singleton.mpr rfl)
  · have goes : u.handoverChecked q false = ({ u with hand := { u.hand with state := .idle } } : State).handoverAnswer q 0x3E01 := rfl
    rw [fails, goes] at run
    subst form
    obtain ⟨answered, hand, -, lead⟩ := handoverAnswer_freed
      (u := { s with leave := leave, engines := engines, hand := { s.hand with state := .idle } }) taken call idle rfl rfl rfl 0x3E01
    exact ⟨_, run, answered, congrArg Handover.state hand, lead⟩

end

/-! ### O53: the CAK (R432) -/

/-! #### A key-unit function does the same beside other mailboxes, pools and cores -/

/-- `s` with other mailboxes, pools and cores. -/
def State.aside (s : State) (mspi : Mspi) (leave : Leave) (cores : Tab Core) : State :=
  { s with mspi := mspi, leave := leave, cores := cores }

section
variable {s f : State} {mspi : Mspi} {leave : Leave} {cores : Tab Core} {src : KeyIssue}

theorem aside_ite {c : Prop} [Decidable c] (a b : State) :
    (if c then a else b).aside mspi leave cores = if c then a.aside mspi leave cores else b.aside mspi leave cores := by
  split <;> rfl

theorem placeKey_aside (n : Nat) (key : BitVec 512) (attr : W32) :
    (s.aside mspi leave cores).placeKey n key attr = (s.placeKey n key attr).aside mspi leave cores := by
  unfold State.placeKey
  extract_lets
  rw [aside_ite]
  rfl

theorem drawSak_aside (n : Nat) : (s.aside mspi leave cores).drawSak n = (s.drawSak n).aside mspi leave cores :=
  placeKey_aside (s := s.used 1) ..

theorem sakChange_aside (l : Nat) : (s.aside mspi leave cores).sakChange l = (s.sakChange l).aside mspi leave cores := by
  unfold State.sakChange
  rw [drawSak_aside, aside_ite, aside_ite, aside_ite]
  rfl

theorem mkaRestartLane_aside (l : Nat) : (s.aside mspi leave cores).mkaRestartLane l = (s.mkaRestartLane l).aside mspi leave cores := by
  unfold State.mkaRestartLane
  rw [← sakChange_aside, aside_ite]
  rfl

theorem mkaRestart_aside : (s.aside mspi leave cores).mkaRestart = s.mkaRestart.aside mspi leave cores := by
  unfold State.mkaRestart
  rw [aside_ite, ← mkaRestartLane_aside, ← mkaRestartLane_aside, ← mkaRestartLane_aside, ← mkaRestartLane_aside]
  rfl

theorem slotBad_link (n : Nat) : (s.slotBad n).link = s.link := State.ksU_link ..

theorem slotBad_mspi (n : Nat) : (s.slotBad n).mspi = s.mspi := State.ksU_mspi ..

theorem slotBad_rankOf (n code : Nat) : (s.slotBad n).rankOf code = s.rankOf code := by
  unfold State.slotBad State.rankOf
  rw [State.ksU_backup, State.ksU_alarms]

theorem slotBad_aside (n : Nat) : (s.aside mspi leave cores).slotBad n = (s.slotBad n).aside mspi leave cores := rfl

/-- The check of a slot clears the slot at most; its alarm below ZEROIZE leaves the mailboxes and the link alone (R339). -/
theorem keyCheck_boxView {n : Nat} (low : s.rankOf 0x0402 < 5 ∨ (s.ks n).sound = true) :
    (s.keyCheck n).boxView = (s.mspi, (if (s.ks n).sound || (s.ks n).bad then s else s.slotBad n).keys, s.link) := by
  unfold State.keyCheck
  split
  · rfl
  · next bad =>
    have rank : (s.slotBad n).rankOf 0x0402 < 5 := by
      rw [slotBad_rankOf]
      exact low.resolve_right fun sound => bad (by rw [sound]; rfl)
    unfold State.raiseReg
    rw [raise_boxView rank]
    unfold State.boxView
    rw [slotBad_link, slotBad_mspi]

/-- `v` is what a function of the key unit leaves of `s` beside other mailboxes `m`, where it leaves `u` beside those of `s`. -/
structure KeyBeside (s u v : State) (m : Mspi) : Prop where
  keys : v.keys = u.keys
  link : v.link = u.link
  mspi : v.mspi = m
  refused : u.keys.result ≠ 0 → u.link = s.link

/-- A function of the key unit that a refusal ends leaves the link alone, and any comes out the same beside other mailboxes (R333,
R337, R339). -/
theorem roleOr_aside {n r : Nat} {may cut : Bool} (plain : src.ended = .done) (low : s.rankOf 0x0402 < 5 ∨ (s.ks n).sound = true) :
    KeyBeside s (s.roleOr src n may r f cut)
      ((s.aside mspi leave cores).roleOr src n may r (f.aside mspi leave cores) cut) mspi := by
  have lead : (s.aside mspi leave cores).noLead src.agent = s.noLead src.agent := rfl
  have opened : (s.aside mspi leave cores).slotsOpen = s.slotsOpen := rfl
  have slot : (s.aside mspi leave cores).keys.kSlot = s.keys.kSlot := rfl
  have ends : ∀ code, KeyBeside s (s.keyResult code) ((s.aside mspi leave cores).keyResult code) mspi :=
    fun code => ⟨rfl, rfl, rfl, fun _ => rfl⟩
  unfold State.roleOr
  rw [lead, opened, slot, plain]
  split
  · obtain ⟨uMspi, uKeys, uLink⟩ := boxView_parts (raise_boxView (s := s.keyResult 0x1408) (code := 0x0302) (rank := 1) (tkind := 0)
      (target := 0) (data := noData) (by decide))
    obtain ⟨vMspi, vKeys, vLink⟩ := boxView_parts (raise_boxView (s := (s.aside mspi leave cores).keyResult 0x1408) (code := 0x0302)
      (rank := 1) (tkind := 0) (target := 0) (data := noData) (by decide))
    exact ⟨vKeys.trans uKeys.symm, vLink.trans uLink.symm, vMspi, fun _ => uLink⟩
  split
  · exact ends _
  split
  · exact ends _
  split
  · exact ends _
  split
  · have u := keyCheck_boxView low
    have v : ((s.aside mspi leave cores).keyCheck n).boxView
        = (mspi, ((if (s.ks n).sound || (s.ks n).bad then s else s.slotBad n).aside mspi leave cores).keys, s.link) := by
      rw [aside_ite, ← slotBad_aside]
      exact keyCheck_boxView low
    simp only [State.boxView, Prod.mk.injEq] at u v
    obtain ⟨-, uKeys, kept⟩ := u
    obtain ⟨box, vKeys, vLink⟩ := v
    have keys : ((s.aside mspi leave cores).keyCheck n).keys = (s.keyCheck n).keys := vKeys.trans uKeys.symm
    have link : ((s.aside mspi leave cores).keyCheck n).link = (s.keyCheck n).link := vLink.trans kept.symm
    exact ⟨congrArg (fun k : Keys => { k with result := BitVec.ofNat 16 r }) keys, link, box, fun _ => kept⟩
  · exact ⟨rfl, rfl, rfl, fun bad => absurd rfl bad⟩

theorem keyUnitWrite_aside (plain : src.ended = .done) (low : s.rankOf 0x0402 < 5 ∨ (s.ks 4).sound = true) :
    ∃ u v, execKeyUnitWrite src 4 0 s = .next u ∧ execKeyUnitWrite src 4 0 (s.aside mspi leave cores) = .next v ∧ KeyBeside s u v mspi := by
  have goes : ∀ (may : Bool) (r : Nat) (f g : State), g = f.aside mspi leave cores →
      KeyBeside s (s.roleOr src 4 may r f) ((s.aside mspi leave cores).roleOr src 4 may r g) mspi := fun may r f g same => by
    rw [same]
    exact roleOr_aside plain low
  unfold execKeyUnitWrite
  extract_lets n
  have lead : (s.aside mspi leave cores).leadAgent = s.leadAgent := rfl
  rw [lead]
  split
  · refine ⟨_, _, rfl, rfl, goes _ _ _ _ ?_⟩
    rw [← mkaRestart_aside]
    exact congrArg (fun x : State => x.keyinDone.mkaRestart) (placeKey_aside ..)
  · refine ⟨_, _, rfl, rfl, goes _ _ _ _ ?_⟩
    exact congrArg State.keyinDone (placeKey_aside ..)

theorem keyUnitDerive_aside (plain : src.ended = .done) (low : s.rankOf 0x0402 < 5 ∨ (s.ks 4).sound = true) (label context : List Byte) :
    ∃ u v, execKeyUnitDerive src 4 0x3F 0 0 label context s = .next u
      ∧ execKeyUnitDerive src 4 0x3F 0 0 label context (s.aside mspi leave cores) = .next v ∧ KeyBeside s u v mspi := by
  have goes : ∀ (may : Bool) (r : Nat) (f g : State) (cut : Bool), g = f.aside mspi leave cores →
      KeyBeside s (s.roleOr src 4 may r f cut) ((s.aside mspi leave cores).roleOr src 4 may r g cut) mspi := fun may r f g cut same => by
    rw [same]
    exact roleOr_aside plain low
  have lead : (s.aside mspi leave cores).leadAgent = s.leadAgent := rfl
  unfold execKeyUnitDerive
  extract_lets
  rw [lead]
  split
  · refine ⟨_, _, rfl, rfl, goes _ _ _ _ _ ?_⟩
    rw [← mkaRestart_aside]
    exact congrArg State.mkaRestart (placeKey_aside ..)
  · refine ⟨_, _, rfl, rfl, goes _ _ _ _ _ ?_⟩
    exact placeKey_aside ..

/-! #### The command -/

theorem Taken.aside {t : State} {q : Nat} {tag : Byte} (h : Taken s t q tag) : t = s.aside t.mspi t.leave t.cores := by
  obtain ⟨_, _, _, _, rfl⟩ := h.only
  rfl

/-- What LINK_CAK answers and sets, by the key-unit function that it issues. -/
def State.cakAnswer (v : State) (q : Nat) (ckn : List Byte) : State :=
  if v.keys.result ≠ 0 then v.keyAnswer q [] else ({ v with link := { v.link with ckn := ckn } } : State).answer q 0 []

/-- `u` is what the key-unit function leaves of the state before the command. -/
theorem cakAnswer_answers {t u v s' : State} {q : Nat} {tag : Byte} {ckn : List Byte} (taken : Taken s t q tag)
    (beside : KeyBeside s' u v t.mspi) (link : s'.link = s.link) :
    (u.keys.result = 0 → Answered s (v.cakAnswer q ckn) q tag 0 [] ∧ (v.cakAnswer q ckn).link.ckn = ckn
        ∧ (v.cakAnswer q ckn).ks 4 = u.ks 4)
      ∧ (u.keys.result ≠ 0 → Answered s (v.cakAnswer q ckn) q tag u.keys.result.toNat [] ∧ (v.cakAnswer q ckn).link = s.link) := by
  obtain ⟨keys, vLink, box, refused⟩ := beside
  have result : v.keys.result = u.keys.result := by rw [keys]
  unfold State.cakAnswer
  refine ⟨fun ok => ?_, fun bad => ?_⟩
  · rw [if_neg (not_not.mpr (result.trans ok))]
    obtain ⟨answered, mail⟩ := taken.answered (u := { v with link := { v.link with ckn := ckn } }) (mb_of_mspi box q) 0 []
    have name := congrArg Link.ckn mail.link
    have slots := mail.keys.trans keys
    have four := congrArg (fun k : Keys => Tab.get ({} : KeySlot) k.slots 4) slots
    exact ⟨answered, name, four⟩
  · have bad' : v.keys.result ≠ 0 := fun zero => bad (result.symm.trans zero)
    rw [if_pos bad']
    unfold State.keyAnswer
    rw [if_neg bad', result]
    obtain ⟨answered, mail⟩ := taken.answered (u := v) (mb_of_mspi box q) u.keys.result.toNat []
    exact ⟨answered, mail.link.trans (vLink.trans ((refused bad).trans link))⟩

/-- W1 of LINK_CAK: the length of the CKN in bits 15 to 8, and in bit 0 whether the CAK is derived. -/
theorem cakWord_formed {w : W32} (some' : 256 ≤ w.toNat) (most : w.toNat ≤ 0x2001) (mode : w.toNat % 256 < 2) :
    w &&& ~~~ 0x0000FF01 = 0 ∧ bitsOf w.toNat 15 8 = w.toNat / 256 := by
  have words : ∀ h < 33, ∀ b < 2, BitVec.ofNat 32 (256 * h + b) &&& ~~~ 0x0000FF01 = 0 := by decide
  have word : w = BitVec.ofNat 32 (256 * (w.toNat / 256) + w.toNat % 256) := by
    rw [Nat.div_add_mod, BitVec.ofNat_toNat, BitVec.setWidth_eq]
  refine ⟨?_, ?_⟩
  · rw [word]
    exact words _ (by omega) _ mode
  · unfold bitsOf
    omega

variable {mb : MailboxId} {tag : Byte} {w : W32} {ws key : List W32}

theorem linkCak_runs {P : State → Prop} (own : mb.val ≠ 0) (runs : s.Runs mb 0x61 tag (w :: ws ++ key)) (ckn : ws.length = 8)
    (some' : 256 ≤ w.toNat) (most : w.toNat ≤ 0x2001) (zero : zeros (bytesOf ws) (w.toNat / 256) 32 = true)
    (mode : w.toNat % 256 < 2) (length : key.length = if w.toNat % 256 = 0 then 8 else 0)
    (ends : ∀ t, Taken s t mb.val tag → P (State.cakAnswer (if w.toNat % 256 = 0
        then after (execKeyUnitWrite t.keyIssue 4 0 (t.keyinSet key)) (t.keyinSet key)
        else after (execKeyUnitDerive t.keyIssue 4 0x3F 0 0 (ascii "SV96-CAK") ((bytesOf ws).take (w.toNat / 256)) t) t)
      mb.val ((bytesOf ws).take (w.toNat / 256)))) : Completes (.cmdLinkCak mb) s P := by
  obtain ⟨formed, bits⟩ := cakWord_formed some' most mode
  have count : (w :: ws ++ key).length = if w.toNat % 2 = 0 then 17 else 9 := by
    rw [List.length_append, List.length_cons, ckn, length]
    by_cases even : w.toNat % 256 = 0
    · rw [if_pos even, if_pos (by omega)]
    · rw [if_neg even, if_neg (by omega)]
  refine .ofEndsIn (o := execCmdLinkCak mb s) rfl (.shentiha own runs (decide_eq_true (by rw [count]; split <;> simp)) fun t taken => ?_)
  have first : arg (w :: ws ++ key) 1 = w.toNat := rfl
  have head : (w :: ws ++ key).getD 0 0 = w := rfl
  have name : ((w :: ws ++ key).drop 1).take 8 = ws := List.take_left' ckn
  have rest : (w :: ws ++ key).drop 9 = key := List.drop_left' (by rw [List.length_cons, ckn])
  have even : w.toNat % 2 = 0 ↔ w.toNat % 256 = 0 := by omega
  have goes : ¬ (w &&& ~~~ 0x0000FF01 ≠ 0 ∨ w.toNat / 256 = 0 ∨ 32 < w.toNat / 256 ∨ (!zeros (bytesOf ws) (w.toNat / 256) 32) = true) := by
    rw [zero]
    simp only [formed]
    simp
    omega
  have out := ends t taken
  dsimp only
  rw [first, head, name, rest, bits, if_neg (not_not.mpr count), if_neg goes]
  simp only [even]
  exact out

theorem linkCak_written (own : mb.val ≠ 0) (ckn : ws.length = 8) (low : s.rankOf 0x0402 < 5 ∨ (s.ks 4).sound = true)
    (some' : 256 ≤ w.toNat) (most : w.toNat ≤ 0x2001) (zero : zeros (bytesOf ws) (w.toNat / 256) 32 = true)
    (runs : s.Runs mb 0x61 tag (w :: ws ++ key)) (length : key.length = 8) (mode : w.toNat % 256 = 0) :
    let u := after (exec (.keyUnitWrite s.keyIssue 4 0) (s.keyinSet key)) s
    Completes (.cmdLinkCak mb) s fun t =>
      (u.keys.result = 0 → Answered s t mb.val tag 0 [] ∧ t.link.ckn = (bytesOf ws).take (w.toNat / 256) ∧ t.ks 4 = u.ks 4)
        ∧ (u.keys.result ≠ 0 → Answered s t mb.val tag u.keys.result.toNat [] ∧ t.link = s.link) := by
  refine linkCak_runs own runs ckn some' most zero (by omega) (by rw [if_pos mode]; exact length) fun t taken => ?_
  rw [if_pos mode]
  have issue : t.keyIssue = s.keyIssue := by
    rw [taken.aside]
    rfl
  have set : t.keyinSet key = (s.keyinSet key).aside t.mspi t.leave t.cores := by
    rw [taken.aside]
    rfl
  obtain ⟨u, v, before, after', beside⟩ := keyUnitWrite_aside (s := s.keyinSet key) (src := s.keyIssue) (mspi := t.mspi)
    (leave := t.leave) (cores := t.cores) rfl low
  change exec (.keyUnitWrite s.keyIssue 4 0) (s.keyinSet key) = .next u at before
  rw [issue, set, after', before]
  exact cakAnswer_answers taken beside rfl

theorem linkCak_derived (own : mb.val ≠ 0) (ckn : ws.length = 8) (low : s.rankOf 0x0402 < 5 ∨ (s.ks 4).sound = true)
    (some' : 256 ≤ w.toNat) (most : w.toNat ≤ 0x2001) (zero : zeros (bytesOf ws) (w.toNat / 256) 32 = true)
    (runs : s.Runs mb 0x61 tag (w :: ws)) (mode : w.toNat % 256 = 1) :
    let u := after (exec (.keyUnitDerive s.keyIssue 4 0x3F 0 0 (ascii "SV96-CAK") ((bytesOf ws).take (w.toNat / 256))) s) s
    Completes (.cmdLinkCak mb) s fun t =>
      (u.keys.result = 0 → Answered s t mb.val tag 0 [] ∧ t.link.ckn = (bytesOf ws).take (w.toNat / 256) ∧ t.ks 4 = u.ks 4)
        ∧ (u.keys.result ≠ 0 → Answered s t mb.val tag u.keys.result.toNat [] ∧ t.link = s.link) := by
  have runs' : s.Runs mb 0x61 tag (w :: ws ++ []) := by
    rw [List.append_nil]
    exact runs
  refine linkCak_runs own runs' ckn some' most zero (by omega) (by rw [if_neg (by omega)]; rfl) fun t taken => ?_
  rw [if_neg (by omega)]
  have issue : t.keyIssue = s.keyIssue := by
    rw [taken.aside]
    rfl
  obtain ⟨u, v, before, after', beside⟩ := keyUnitDerive_aside (s := s) (src := s.keyIssue) (mspi := t.mspi)
    (leave := t.leave) (cores := t.cores) rfl low (ascii "SV96-CAK") ((bytesOf ws).take (w.toNat / 256))
  change exec (.keyUnitDerive s.keyIssue 4 0x3F 0 0 (ascii "SV96-CAK") ((bytesOf ws).take (w.toNat / 256))) s = .next u at before
  rw [← taken.aside] at after'
  rw [issue, after', before]
  exact cakAnswer_answers taken beside rfl

end

/-! ### O53: the statement -/

/-- Settles O53, command by command from the lemmas above. -/
theorem recoveryLinkAndContinuityCommands : Obligations.RecoveryLinkAndContinuityCommands := by
  unfold Obligations.RecoveryLinkAndContinuityCommands
  intro s mb tag w v ws k i e
  dsimp only
  intro own
  refine ⟨?pageMap, ?recover, ?recoverStatus, ?recoverCancel, ?linkPeer, ?linkCak, ?linkStatus, ?prepare, ?headerEnds, ?handoverStatus,
    ?reinstate, ?channelStatus, ?erase, ?write⟩
  case pageMap => exact pageMap_told own
  case recover =>
    intro runs length formed hears
    exact ⟨flow_pulls own runs length formed hears, serveSet_pulls own runs length formed hears,
      fun _ => restage_pulls own runs length formed hears, shelf_pulls own runs length formed hears,
      flow_refused own runs length formed hears, serveSet_refused own runs length formed hears⟩
  case recoverStatus => exact recoverStatus_told own
  case recoverCancel =>
    intro runs key active
    exact ⟨fun between closed _ => recoverCancel_ends own runs key active between closed, recoverCancel_waits own runs key active⟩
  case linkPeer => exact linkPeer_taken own
  case linkCak =>
    intro key ckn low some' most zero
    exact ⟨linkCak_written own ckn low some' most zero, linkCak_derived own ckn low some' most zero⟩
  case linkStatus => exact linkStatus_told own
  case prepare =>
    intro runs low free idle
    exact ⟨handoverPrepare_checks own runs low free idle, handoverPrepare_refused own runs low free idle⟩
  case headerEnds => exact fun _ busy chain last use checking idle tagged hears call =>
    headerEnds_completes busy chain last use checking idle tagged hears call
  case handoverStatus => exact handoverStatus_told own
  case reinstate =>
    intro runs names lane home retired
    refine ⟨reinstate_serves own runs names lane home retired, fun sequencer => ?_, fun _ =>
      reinstate_refused own runs names lane home retired⟩
    subst sequencer
    exact reinstate_waits own runs names retired
  case channelStatus => exact channelStatus_told own
  case erase =>
    intro runs low conf
    exact ⟨bundleErase_erases own runs low conf, bundleErase_refused own runs low conf⟩
  case write => exact bundleWrite_writes own

end Sys2Proof.Machine
end
